-- ==== Sys2Proof/Word.lean ====
section
/-!
DEFINITION. The plain types every file uses: register words, bytes, sparse maps and device-time stamps.
-/

namespace Sys2Proof

/-- A register word: every register is 32 bits wide (R27). -/
abbrev Word := BitVec 32

/-- One byte of a memory, a packet or a descriptor. -/
abbrev Byte := BitVec 8

/-- Device time in units of 2^-16 ns (R104); the 96-bit form of R89 is computed from it. -/
abbrev Stamp := Nat

/-- A sparse map: keys strictly rising, and no entry equal to what an unlisted key reads as. -/
abbrev SMap (α : Type) := List (Nat × α)

end Sys2Proof
end

