-- ==== Sys2Proof/Syntax.lean ====
section
/-!
DEFINITION. The commands the block takes: one constructor of `Instr` for each row of opcode_table.json,
with the operands the row's rule gives it.
-/

namespace Sys2Proof

/-- Who sent a frame, as far as R373 and R384 ask: the form it came in and where a reply goes. -/
structure Peer where
  rawEth    : Bool
  linkLocal : Bool
  toMine    : Bool
  udpPort   : Nat
  addr      : Nat
  srcPort   : Nat
  deriving DecidableEq, Repr

/-- What one calibration of a slice measures (R120, R123): gain error in 2^-32, offset in 2^-16 slice codes,
skew in 2^-16 ps, and the built-in test. -/
structure SliceMeas where
  gainErr : Int
  offset  : Int
  skew    : Int
  bist    : Bool
  deriving DecidableEq, Repr

/-- Mean and mean square of one position's codes over an in-service block (R130), in 2^-16 of a slice code and of its
square. -/
structure PosStat where
  mean   : Int
  meanSq : Nat
  deriving DecidableEq, Repr

/-- What training found on one DRAM channel (R278, R304). -/
structure TrainResult where
  ranks  : Nat
  x8     : Bool
  gb16   : Bool
  rdimm  : Bool
  passed : Bool
  deriving DecidableEq, Repr

/-- A DRAM channel request: one 64-byte burst (R285). `mask` bit b is set where byte b is written. `err` is the error that
the 72 symbols of the burst have taken where it is read, as by a read or by a write of less than the burst (R306). -/
structure DramReq where
  write  : Bool
  addr   : Nat
  data   : List Byte
  mask   : List Bool
  poison : Bool
  who    : Nat
  err    : List Byte := []
  deriving DecidableEq, Repr

/-- The classes of received frames that R340 to R346 and R374 tell apart. -/
inductive RxKind where
  | sluice | sluiceFast | ptp | arp | ndp | icmpEcho | dhcp | pfc | other
  deriving DecidableEq, Repr

/-- A received frame as the MAC and the classifier see it (R340, R341, R374). -/
structure RxFrame where
  kind     : RxKind
  len      : Nat
  toMe     : Bool
  badFcs   : Bool
  fragment : Bool
  badSum   : Bool
  tags     : Nat
  vid      : Nat
  pcp      : Nat
  peer     : Peer
  nextHop  : Nat
  mac      : Nat
  bytes    : List Byte
  pause    : List Nat
  deriving DecidableEq, Repr

/-- A PTP message as R346 and R107 use it. -/
inductive PtpKind where
  | sync | followUp | delayReq | delayResp | announce | other
  deriving DecidableEq, Repr

/-- A received PTP message: its kind, the offset it yields (2^-8 ns) where it completes a measurement, the
mean path delay, and what an Announce says. -/
structure PtpMsg where
  kind     : PtpKind
  offset   : Option Int
  delay    : Nat
  parent   : Nat
  better   : Bool
  utc      : Int
  leap61   : Bool
  leap59   : Bool
  rxStamp  : Nat
  deriving DecidableEq, Repr

/-- A capturing, firing object: a lane trigger unit or a watch (R233). -/
inductive UnitId where
  | unit  (u : Nat)
  | watch (w : Nat)
  deriving DecidableEq, Repr

/-- What the scrub of a Basin row finds (R192). -/
inductive BasinFound where
  | clean | corrected | uncorrectable (readBackOk : Bool)
  deriving DecidableEq, Repr

/-- An uncorrectable or corrected Basin error met by an update of a channel (R192). -/
structure BasinErr where
  channel    : Nat
  corrected  : Bool
  readBackOk : Bool
  deriving DecidableEq, Repr

/-- The references of R92. -/
inductive Ref where
  | refS | refC
  deriving DecidableEq, Repr

/-- The commands: one constructor per row of opcode_table.json. -/
inductive Instr where
  -- Sluice (14_sluice)
  | sluicePacket (port : Fin 2) (src : Peer) (bytes : List Byte)
  | fastPathPacket (port : Fin 2) (src : Peer) (bytes : List Byte)
  | sluiceReply (ses : Nat)
  | sessionOpen
  | bootstrapOpen
  | sessionClose (ses : Nat)
  | keepalive (ses : Nat)
  | sessionInfo (ses : Nat)
  | identityGet (ses : Nat)
  | keepaliveExpiry (ses : Nat)
  | leaseTake (ses : Nat)
  | leaseHandover (ses target : Nat)
  | leaseRelease (ses : Nat)
  -- registers, commits and the seal (02_register_model)
  | regRead (ses addr : Nat) (active : Bool)
  | regReadBlock (ses addr count : Nat) (active : Bool)
  | regWrite (ses addr : Nat) (value : Word)
  | regWriteBlock (ses addr : Nat) (values : List Word)
  | stsClear (ses addr : Nat) (seq : BitVec 8) (mask : BitVec 24)
  | commit (ses : Nat) (mask : BitVec 16) (aligned : Bool) (stamp : Option Stamp) (expected : Word)
  | sealQuery (ses : Nat) (mask : BitVec 16)
  | commitStrobe
  | fibreGroupApply (port : Fin 4)
  | alignedCommonInstant
  | commitHoldEnd
  | sealScanStart
  | sealScanComplete
  | sealRescan (ses : Nat)
  | reloadShadows (ses : Nat)
  | memSpareWrite (ses : Nat) (value : Word)
  -- reset, boot, supplies, thermal (03_package_power, 17_bringup)
  | resetNAssert
  | resetRelease
  | trainingComplete (found : List TrainResult)
  | dramFillDone (ms : Nat)
  | ready
  | resetMonitorTrip (rails : BitVec 9)
  | windowOpen (rail : Fin 9) (samples : List Int)
  | railJoinsWindow (rail : Fin 9) (samples : List Int)
  | windowClose (rails : List (List Int)) (longest : Nat)
  | windowQcalDone
  | thermalReading (sensor : Fin 8) (value : BitVec 16)
  | thermalReset
  -- clocks and the time base (04_clocks_time)
  | refCountCheck (ref : Ref) (count : Nat)
  | refclkCCrosscheck (count : Nat)
  | aonTrim (hz : Nat)
  | pllLockDetect (pll : Fin 7)
  | settleTimerExpiry (pll : Fin 7)
  | samplePllUnlock
  | refclkSLoss
  | sampleClockResume
  | timePllUnlock
  | tiuClockReturn
  | backupSteer
  | corePllUnlock (standby : Bool)
  | coreRelockTimeout
  | corePllRetry (lockedA lockedB : Bool)
  | refclkCLoss
  | refclkCReturn
  | memPllUnlock (pll : Fin 3)
  | memPllRelock (pll : Fin 3)
  | serdesPllUnlock (port : Fin 2)
  | ppsInEdge (c : Nat) (k : Nat)
  | holdoverEntry
  | freerunEntry
  | ppsOutPulse
  | ppsOutWidthEnd
  | leapApply
  | ptpMessage (port : Fin 2) (msg : PtpMsg)
  | ptpSyncTx
  | timeSet (ses : Nat) (stamp : Stamp) (atPps : Bool)
  | timeSetTimeout
  | timeGet (ses : Nat)
  -- the converter array (05_converter_array)
  | rotationPeriodEnd (conv : Fin 16) (m : SliceMeas)
  | qcal (ses : Nat)
  | qcalStepEnd (conv : Fin 16) (m : SliceMeas)
  | iscBlockEnd (conv : Fin 16) (stats : List PosStat) (start : Stamp) (spare : Option SliceMeas)
  | fgWindowStart (conv : Fin 16)
  | fgWindowEnd (conv : Fin 16) (ms : List SliceMeas)
  | fgCal (ses : Nat)
  -- launches and the time-interval unit (06_shots_and_tiu)
  | launch (port : Fin 4)
  | slotCodeUpdate (port : Fin 4)
  | firstLaunch (port : Fin 4)
  | monitorWindowClose (port : Fin 4)
  | tiuEdgeStamp (ch : Fin 12) (c k : Nat) (rising : Bool)
  | measurementTimeout (ctx : Fin 4)
  | tiuRearm (ch : Fin 12) (n1 n2 : Nat)
  | tiuPeriodicCal (ch : Fin 12) (n1 n2 : Nat)
  | spareLineCal (line : Fin 2) (n1 n2 : Nat)
  -- the phase engine and Pool (07_phase_engine, 08_pool_cascade)
  | channelUpdate (port : Fin 4) (lanes : List (List Int)) (ovr : Bool) (errs : List BasinErr) (poolBad : List Nat)
  | zeroStrain (ses : Nat) (port : Fin 4)
  | reprime (ses : Nat) (port : Fin 4)
  | basinScrub (row : Nat) (found : BasinFound)
  | basinRowRetire (row : Nat)
  | poolStart (ses : Nat) (engine : Fin 4)
  | poolClose (ses : Nat) (engine : Fin 4)
  -- Weir (09_weir)
  | laneTriggerCondition (index : Nat) (xs : List (Nat × Int))
  | forceTrigger (ses : Nat) (units : BitVec 8)
  | watchCondition (port : Fin 4)
  | holdoffExpiry (u : UnitId)
  | postWindowEnd (u : UnitId)
  | allocationAnswer (u : UnitId)
  | trigOutPulseEnd (pin : Fin 4)
  | alarmAck (ses : Nat)
  | alarmPulseEnd
  | evalLaneCheck (port : Fin 4) (lane : Nat) (laneOk spareOk : Bool)
  -- Cistern (10_cistern)
  | segmentClose (seg : Nat)
  | pinSuspensionEnd (u : UnitId)
  | segmentReadEnd (stream : Nat)
  | sealTimer
  | sealDeferredStart
  | sealNow (ses : Nat)
  -- acquisition, watch and Cistern commands (14_sluice)
  | arm (ses : Nat) (targets : BitVec 16) (atTime : Option Stamp)
  | disarm (ses : Nat) (targets : BitVec 16)
  | disarmAll (ses : Nat)
  | acqState (ses : Nat)
  | watchStatus (ses first count : Nat)
  | segQuery (ses seg : Nat)
  | segPin (ses seg : Nat)
  | segUnpin (ses seg : Nat)
  | segRelease (ses seg : Nat)
  | segRead (ses stream seg offset bytes : Nat)
  | sealCmd (ses : Nat) (now : Bool) (index : Nat)
  -- Spout (13_ports_spout)
  | haltStreams (ses : Nat)
  | haltStream (ses stream : Nat)
  | streamResume (ses stream : Nat)
  | resumeAll (ses : Nat)
  | resumeAllBit (ses : Nat)
  | haltNFall
  | haltNRise
  | replay (ses stream first count : Nat)
  | streamStatus (ses first count : Nat)
  | recordCreate (stream : Nat)
  | eventLingerExpiry (stream : Nat)
  | ledgerStreamPeriod (stream : Nat)
  | frameTxStart (port : Fin 2)
  | frameTxEnd (port : Fin 2)
  | ethFrameRx (port : Fin 2) (frame : RxFrame)
  | xonSend (port : Fin 2)
  | linkUp (port : Fin 2)
  | linkFault (port : Fin 2)
  | faultClear (port : Fin 2)
  | linkHoldExpiry (port : Fin 2)
  | streamReturn (stream : Nat)
  | dhcpLeaseExpiry (port : Fin 2)
  | dadComplete (port : Fin 2) (addr gw : Nat) (ok : Bool)
  | nextHopRetry (port : Fin 2)
  -- DRAM (11_memory)
  | channelRequest (ch : Fin 9) (req : DramReq)
  | writeComplete (ch : Fin 9)
  | trefwTableClear (ch : Fin 9)
  | refreshDue (ch : Fin 9) (rank : Fin 2)
  | postponedRefresh (ch : Fin 9) (rank : Fin 2)
  | mprTempRead (ch : Fin 9) (rank : Fin 2) (status : BitVec 2)
  | zqcs (ch : Fin 9)
  | pageIdleClose (ch : Fin 9) (bank : Nat)
  | powerDownEntry (ch : Fin 9) (rank : Fin 2)
  | selfRefreshEntry (ch : Fin 9)
  | scrubWake (ch : Fin 9)
  | patrolScrubRead (ch : Fin 9) (err : List Byte)
  | alert (ch : Fin 9)
  | retrain (ses : Nat) (ch : Fin 9)
  | retrainComplete (ch : Fin 9) (passed : Bool)
  | newDram (ses : Nat) (ch : Fin 9)
  | migrate (ses source : Nat)
  | migrationCutover
  -- Runnel (12_runnel)
  | runnelDescFetch (ch : Fin 32)
  | runnelBurst
  | runnelDescComplete (ch : Fin 32)
  | fifoTimeout (ch : Fin 32)
  | rnlStart (ses ch desc : Nat)
  | rnlStop (ses : Nat) (mask : BitVec 8)
  | rnlCmdStop (ses : Nat) (mask : BitVec 8)
  | runnelStopEffect (ch : Fin 32)
  | mboxWrite (ses ch offset : Nat) (data : List Byte)
  | mboxRead (ses ch offset bytes : Nat)
  -- ledgers and the Reservoir (15_faults_ledgers_reservoir)
  | reservoirRead (ses : Nat)
  | ledgerSnapshot (ses : Nat)
  | snap (ses : Nat)
  | snapshotComplete
  | ledgerRead (ses snap offset bytes : Nat)
  | eventFoldTimer (addr src : Nat)
  | wearMapWrite (verified : Bool)
  | lifeHourBit
  | stressMinute
  -- security (16_identity_security)
  | attest (ses : Nat) (nonce : List Byte)
  | attestTokenRefill
  | lmsEpochReady
  | noiseTestFail
  | otpProgram (failedBits : Nat)
  | rootInstall (ses slot : Nat) (ecdsa lms : List Byte)
  | rootRevoke (ses slot : Nat)
  | gmacKeySet (ses slot : Nat) (clear : Bool) (key : List Byte)
  | lifecycleAdvance (ses target : Nat) (confirm : Word)
  | echo (ses : Nat) (data : List Byte)
  -- the rows the table appends
  | inputLedgerNotice (conv : Fin 16) (codes : List (List Int))
  | launchPulseEnd (port : Fin 4)
  | armAtTime
  | poolRawRecordEnd (engine : Fin 4) (samples : List Int) (poolBad : List Nat)
  | noiseTestPass
  | alertNHigh (ch : Fin 9)
  | pfcPauseExpiry (port : Fin 2) (prio : Fin 8)
  | dhcpRenewal (port : Fin 2) (addr pre gw : Nat)
  | delayReqTx
  | announceTx
  | sealSpacingEnd
  deriving DecidableEq, Repr

end Sys2Proof
end

