-- ==== Sys2Proof/Decode.lean ====
section
/-!
DEFINITION. The command a word spells by the bits of the opcode table.
-/

namespace Sys2Proof

/-- The command that `nbits` bits `w` spell. No row of the opcode table gives its command any bits, so no word spells
one. -/
def decodeTableWord (_nbits _w : Nat) : Option Instr := none

end Sys2Proof
end

