-- ==== Sys2Proof/Config.lean ====
section
/-!
DEFINITION. What one die or one run fixes and the spec leaves open: constants without a body (free values), the results
of the named standard algorithms, and the contents a die is delivered with.
-/

namespace Sys2Proof.Config

/-- Byte `i` of the identity of a die, and of the byte that holds MEM_SPARE (R426). -/
opaque idByte : Nat → Byte

/-- Byte `i` of the KEYS region of the OTP (R429). -/
opaque keyByte : Nat → Byte

/-- Byte `i` of the MAKER region of the OTP (R423, R435). -/
opaque makerByte : Nat → Byte

/-- Byte `i` of X‖Y of the P-384 point of a private scalar (R429). -/
opaque ecdsaPoint : List Byte → Nat → Byte

/-- Byte `i` of the ROM digest measured at boot (R14, R427). -/
opaque romDigestByte : Nat → Byte

/-- Byte `i` of the `n`-th draw of the random-bit generator (R402, R428). -/
opaque drbg : Nat → Nat → Byte

/-- The `n`-th value the spec leaves open where the block goes on. -/
opaque freeValue : Nat → Nat

/-- The code of the `i`-th lane sample of the `n`-th RAW record where no notice has brought the sample yet: what the input
pins brought (R349). -/
opaque laneCode : Nat → Nat → BitVec 14

/-- AES-256-GCM open (R380): key, iv, additional data, ciphertext with tag; none where the tag fails. -/
opaque gcmOpen : List Byte → List Byte → List Byte → List Byte → Option (List Byte)

/-- AES-256-GCM seal (R380): key, iv, additional data, plaintext; ciphertext with tag. -/
opaque gcmSeal : List Byte → List Byte → List Byte → List Byte → List Byte

/-- AES-256-GMAC of R365: key, iv, authenticated data; 16 bytes. -/
opaque gmac : List Byte → List Byte → List Byte → List Byte

/-- The 64 bytes of session keys of R380 from the host key, the draw that made the device key, the two nonces and the
session number (ECDH P-384, then HKDF-SHA-384). -/
opaque sessionKeys : List Byte → Nat → List Byte → Nat → List Byte

/-- The device's ephemeral ECDH public key made from draw `n` (R379). -/
opaque ephemeralKey : Nat → List Byte

/-- Whether a message verifies under an ECDSA P-384 key and signature (R379, R436). -/
opaque ecdsaVerify : List Byte → List Byte → List Byte → Bool

/-- Whether a message verifies under an HSS/LMS key and signature (R379, R436). -/
opaque lmsVerify : List Byte → List Byte → List Byte → Bool

/-- The ECDSA P-384 signature, r then s, of the device key over a message; its nonce is deterministic (R428). -/
opaque ecdsaSign : List Byte → List Byte

/-- The 3,284 bytes of an HSS signature of the device over a message, at an epoch and a leaf of it (R430). -/
opaque hssSign : List Byte → Nat → Nat → List Byte

/-- What the servo of R108 adds to F to remove an offset (2^-8 ns) with a time constant in seconds. -/
opaque servoOffset : Int → Nat → Int

/-- What the servo of R108 adds to F to remove the frequency error: offset (2^-8 ns), present F, time constant in
seconds. -/
opaque servoFreq : Int → Int → Nat → Int

/-- Byte `i` of the pattern a poisoned burst is stored as (R285). -/
opaque poisonByte : Nat → Byte

/-- Byte `i` of a Pool SRAM entry that holds S1, S2, MIN, MAX and n: the spec gives the entry 32 bytes and no layout (R206,
R328). -/
opaque poolByte : Int → Nat → Int → Int → Nat → Nat → Byte

/-- What training found of a byte lane of a channel: the MEM_n_TRAIN_b word (R318). -/
opaque trainWord : Nat → Nat → BitVec 32

end Sys2Proof.Config
end

