-- ==== Sys2Proof/Machine/RegMap.lean ====
section
/-!
DEFINITION. The register map: every row of the register tables of the chapters, by block, with class, implemented
bits, reset value and commit group (R7, R10, R27, R28, R41, R56 and the table of each block).
-/

namespace Sys2Proof.Machine

/-- The field classes of R10. Every word of the map holds fields of one class only. -/
inductive Cls where
  | cfg | sts | cnt | cmd | once | id
  deriving DecidableEq, Repr

/-- One row of a register table: `count` words from `off`, `stride` bytes apart. `mask` has a 1 for each implemented
bit, `reset` is the reset value (0 where the table names a source outside it; `hwRead` supplies those), and the
commit group of word i is `grp + gstep * i` plus the block's share. -/
structure Row where
  off    : Nat
  stride : Nat
  count  : Nat
  cls    : Cls
  mask   : Nat
  reset  : Nat
  grp    : Nat
  gstep  : Nat
  deriving DecidableEq, Repr

/-- A block of the register space: `count` instances of `size` bytes, `stride` bytes apart, each laid out by `rows`. -/
structure Block where
  base   : Nat
  stride : Nat
  count  : Nat
  size   : Nat
  gstep  : Nat
  rows   : List Row
  deriving DecidableEq, Repr

/-- What the map says of one register address. -/
structure Info where
  cls   : Cls
  mask  : Word
  reset : Word
  group : Nat
  deriving DecidableEq, Repr

/-- Rows of the block at 0x0. -/
def glbRows : List Row := [
  ⟨0x000, 0x4, 1, .id, 0xFFFFFFFF, 0x4C534160, 0, 0⟩,  -- GLB_PART
  ⟨0x004, 0x4, 1, .id, 0xFFFFFFFF, 0x1, 0, 0⟩,  -- GLB_PROFILE
  ⟨0x008, 0x4, 1, .id, 0x000000FF, 0x0, 0, 0⟩,  -- GLB_ISSUE
  ⟨0x00C, 0x4, 1, .id, 0xFFFFFFFF, 0x10000, 0, 0⟩,  -- GLB_MAP_VERSION
  ⟨0x010, 0x4, 1, .sts, 0xFF80007F, 0x0, 0, 0⟩,  -- GLB_COMMIT_STS
  ⟨0x014, 0x4, 1, .cfg, 0x00000003, 0x0, 0, 0⟩,  -- GLB_SEAL_CFG
  ⟨0x018, 0x4, 1, .cnt, 0xFFFFFFFF, 0x0, 0, 0⟩,  -- GLB_SEAL_REF
  ⟨0x01C, 0x4, 1, .cnt, 0xFFFFFFFF, 0x0, 0, 0⟩,  -- GLB_SEAL_LAST
  ⟨0x020, 0x4, 1, .cnt, 0xFFFFFFFF, 0x0, 0, 0⟩,  -- GLB_SEAL_SCANS_LO
  ⟨0x024, 0x4, 1, .cnt, 0xFFFFFFFF, 0x0, 0, 0⟩,  -- GLB_SEAL_SCANS_HI
  ⟨0x028, 0x4, 1, .cnt, 0xFFFFFFFF, 0x0, 0, 0⟩,  -- GLB_SEAL_MISMATCHES
  ⟨0x02C, 0x4, 1, .sts, 0xFF800007, 0x0, 0, 0⟩,  -- GLB_SEAL_STS
  ⟨0x030, 0x4, 1, .cnt, 0xFFFFFFFF, 0x0, 0, 0⟩,  -- GLB_LOCK_VIOLATIONS
  ⟨0x034, 0x4, 1, .cnt, 0xFFFFFFFF, 0x0, 0, 0⟩,  -- GLB_LOCK_ADDR
  ⟨0x038, 0x4, 1, .cnt, 0xFFFFFFFF, 0x0, 0, 0⟩,  -- GLB_CONFLICT_ADDR
  ⟨0x03C, 0x4, 1, .cnt, 0x0000001F, 0x0, 0, 0⟩,  -- GLB_CONFLICT_BIT
  ⟨0x040, 0x4, 1, .cnt, 0xFFFFFFFF, 0x0, 0, 0⟩,  -- GLB_COMMIT_SEQ
  ⟨0x044, 0x4, 1, .cnt, 0x0000001F, 0x0, 0, 0⟩,  -- GLB_COMMIT_QUEUE
  ⟨0x048, 0x4, 1, .cnt, 0x0000FFFF, 0x0, 0, 0⟩,  -- GLB_PENDING
  ⟨0x04C, 0x4, 1, .cnt, 0x0000FFFF, 0x0, 0, 0⟩,  -- GLB_OVERRIDE
  ⟨0x050, 0x4, 1, .cnt, 0x0001FFFF, 0x0, 0, 0⟩,  -- GLB_LEASE
  ⟨0x054, 0x4, 1, .cmd, 0x00000003, 0x0, 0, 0⟩  -- GLB_CMD
]

/-- Rows of the block at 0x10000. -/
def clkRows : List Row := [
  ⟨0x000, 0x4, 1, .cfg, 0x0000077F, 0x314, 0, 0⟩,  -- CLK_SPLL_CFG
  ⟨0x004, 0x4, 1, .cfg, 0x00000F01, 0x101, 0, 0⟩,  -- CLK_CPLL_CFG
  ⟨0x008, 0x4, 1, .cfg, 0x000003FF, 0x64, 0, 0⟩,  -- CLK_SETTLE
  ⟨0x040, 0x4, 1, .sts, 0xFF8007FF, 0x0, 9, 0⟩,  -- CLK_PLL_STS
  ⟨0x044, 0x4, 1, .cnt, 0x1FFFFFFF, 0x0, 9, 0⟩,  -- CLK_PLL_STATE
  ⟨0x048, 0x4, 1, .cnt, 0x81FFFFFF, 0x0, 9, 0⟩,  -- CLK_AON_FREQ
  ⟨0x050, 0x4, 7, .cnt, 0xFFFFFFFF, 0x0, 9, 0⟩,  -- CLK_UNLOCKS_p, p = 0–6
  ⟨0x100, 0x4, 1, .cfg, 0x00FFFF1F, 0x100018, 9, 0⟩,  -- CLK_TB_CFG
  ⟨0x104, 0x4, 1, .cfg, 0xFFFFFFFF, 0xF4240, 9, 0⟩,  -- CLK_TB_STEP_LIMIT
  ⟨0x108, 0x4, 1, .cfg, 0x03FFFFFF, 0x640064, 9, 0⟩,  -- CLK_TB_LIMITS
  ⟨0x10C, 0x4, 1, .cfg, 0x00FFFFFF, 0xE10, 9, 0⟩,  -- CLK_TB_HOLDOVER
  ⟨0x110, 0x4, 1, .cfg, 0x0003FF03, 0x6401, 9, 0⟩,  -- CLK_PPS_CFG
  ⟨0x114, 0x4, 1, .cfg, 0xFFFFFFFF, 0x0, 9, 0⟩,  -- CLK_PPS_DELAY
  ⟨0x118, 0x4, 1, .cfg, 0x0003FFFF, 0x25, 9, 0⟩,  -- CLK_UTC_CFG
  ⟨0x140, 0x4, 1, .sts, 0xFF8003FF, 0x0, 9, 0⟩,  -- CLK_TB_STS
  ⟨0x144, 0x4, 1, .cnt, 0x00000FFF, 0x0, 9, 0⟩,  -- CLK_TB_STATE
  ⟨0x148, 0x4, 3, .cnt, 0xFFFFFFFF, 0x0, 9, 0⟩,  -- CLK_TB_NOW
  ⟨0x154, 0x4, 1, .cnt, 0xFFFFFFFF, 0x0, 9, 0⟩,  -- CLK_TB_OFFSET
  ⟨0x158, 0x4, 1, .cnt, 0xFFFFFFFF, 0x0, 9, 0⟩,  -- CLK_TB_FREQ
  ⟨0x15C, 0x4, 1, .cnt, 0xFFFFFFFF, 0x0, 9, 0⟩,  -- CLK_TB_PPS_OFFSET
  ⟨0x160, 0x4, 1, .cnt, 0x0003FFFF, 0x25, 9, 0⟩,  -- CLK_UTC_STATE
  ⟨0x164, 0x4, 1, .cnt, 0xFFFFFFFF, 0x0, 9, 0⟩,  -- CLK_TB_STEPS
  ⟨0x168, 0x4, 1, .cnt, 0xFFFFFFFF, 0x0, 9, 0⟩,  -- CLK_TB_LAST_STEP_LO
  ⟨0x16C, 0x4, 1, .cnt, 0xFFFFFFFF, 0x0, 9, 0⟩,  -- CLK_TB_LAST_STEP_HI
  ⟨0x170, 0x4, 3, .cnt, 0xFFFFFFFF, 0x0, 9, 0⟩  -- CLK_TB_LAST_STEP_AT
]

/-- Rows of the block at 0x20000. -/
def cnvRows : List Row := [
  ⟨0x000, 0x4, 1, .cfg, 0x00000003, 0x0, 0, 0⟩,  -- CNV_MODE
  ⟨0x004, 0x4, 1, .cfg, 0x0000FFFF, 0x0, 0, 0⟩,  -- CNV_DIRECT_MASK
  ⟨0x008, 0x4, 1, .cfg, 0x8FFF1F1F, 0x80200E14, 0, 0⟩,  -- CNV_CAL_CFG
  ⟨0x00C, 0x4, 1, .cfg, 0x0000FFFF, 0x400, 0, 0⟩,  -- CNV_FG_SKIP
  ⟨0x010, 0x4, 4, .cfg, 0x003FFFF7, 0x300000, 0, 0⟩,  -- CNV_FPn_CFG, n = 0–3
  ⟨0x040, 0x4, 1, .sts, 0xFF8000FF, 0x0, 0, 0⟩,  -- CNV_STS
  ⟨0x044, 0x4, 1, .cmd, 0x00000003, 0x0, 0, 0⟩,  -- CNV_CMD
  ⟨0x048, 0x4, 1, .cnt, 0x000000FF, 0x0, 0, 0⟩,  -- CNV_EVENT_SRC
  ⟨0x04C, 0x4, 1, .cnt, 0x0000FFFF, 0x0, 0, 0⟩,  -- CNV_QCAL_STATE
  ⟨0x050, 0x4, 1, .cnt, 0x0000FFFF, 0x0, 0, 0⟩  -- CNV_FAILED
]

/-- Rows of the block at 0x21000. -/
def convRows : List Row := [
  ⟨0x000, 0x4, 1, .cnt, 0x03FFCF0F, 0x800, 0, 0⟩,  -- CNV_IN_STATE_n
  ⟨0x004, 0x4, 1, .cnt, 0xFFFFFFFF, 0x76543210, 0, 0⟩,  -- CNV_MAP_n
  ⟨0x008, 0x4, 1, .cnt, 0xFFFFFFFF, 0x0, 0, 0⟩,  -- CNV_ROTATIONS_n_LO
  ⟨0x00C, 0x4, 1, .cnt, 0xFFFFFFFF, 0x0, 0, 0⟩,  -- CNV_ROTATIONS_n_HI
  ⟨0x010, 0x4, 1, .cnt, 0xFFFFFFFF, 0x0, 0, 0⟩,  -- CNV_LAST_SUB_n_LO
  ⟨0x014, 0x4, 1, .cnt, 0xFFFFFFFF, 0x0, 0, 0⟩,  -- CNV_LAST_SUB_n_HI
  ⟨0x018, 0x4, 1, .cnt, 0x00001FF7, 0x0, 0, 0⟩,  -- CNV_LAST_SUB_INFO_n
  ⟨0x01C, 0x4, 1, .cnt, 0xFFFFFFFF, 0x0, 0, 0⟩,  -- CNV_OVR_n
  ⟨0x020, 0x4, 1, .cnt, 0xFFFFFFFF, 0x0, 0, 0⟩,  -- CNV_FG_COUNT_n
  ⟨0x024, 0x4, 1, .cnt, 0x000000FF, 0x0, 0, 0⟩,  -- CNV_RET_CAUSE_n
  ⟨0x040, 0x8, 9, .cnt, 0x0000FFFF, 0x8000, 0, 0⟩,  -- CNV_COEF_n_s_G, s = 0–8
  ⟨0x044, 0x8, 9, .cnt, 0xFF03FFFF, 0x0, 0, 0⟩  -- CNV_COEF_n_s_OT, s = 0–8
]

/-- Rows of the block at 0x30000. -/
def lchRows : List Row := [
  ⟨0x000, 0x4, 1, .cfg, 0x0000FF13, 0xE400, 1, 0⟩,  -- LCH_n_CFG
  ⟨0x004, 0x4, 1, .cfg, 0xFFFFFFFF, 0xF4240, 1, 0⟩,  -- LCH_n_PERIOD
  ⟨0x008, 0x4, 1, .cfg, 0xFFFFFFFF, 0x0, 1, 0⟩,  -- LCH_n_SPACING
  ⟨0x00C, 0x4, 1, .cfg, 0x0000FFFF, 0x19, 1, 0⟩,  -- LCH_n_WIDTH
  ⟨0x010, 0x4, 1, .cfg, 0x007FFFFF, 0x400, 1, 0⟩,  -- LCH_n_RECORD
  ⟨0x014, 0x4, 1, .cfg, 0x0000FFFF, 0x40, 1, 0⟩,  -- LCH_n_SLOT_LEAD
  ⟨0x040, 0x4, 1, .sts, 0xFF80001F, 0x0, 1, 0⟩,  -- LCH_n_STS
  ⟨0x044, 0x4, 1, .cnt, 0x00000037, 0x0, 1, 0⟩,  -- LCH_n_STATE
  ⟨0x048, 0x4, 1, .cnt, 0xFFFFFFFF, 0x0, 1, 0⟩,  -- LCH_n_SHOT_LO
  ⟨0x04C, 0x4, 1, .cnt, 0xFFFFFFFF, 0x0, 1, 0⟩,  -- LCH_n_SHOT_HI
  ⟨0x050, 0x4, 1, .cnt, 0xFFFFFFFF, 0x0, 1, 0⟩,  -- LCH_n_WITHHELD_LO
  ⟨0x054, 0x4, 1, .cnt, 0xFFFFFFFF, 0x0, 1, 0⟩,  -- LCH_n_WITHHELD_HI
  ⟨0x058, 0x4, 1, .cnt, 0xFFFFFFFF, 0x0, 1, 0⟩,  -- LCH_n_STRAY
  ⟨0x05C, 0x4, 1, .cnt, 0xFFFFFFFF, 0x0, 1, 0⟩,  -- LCH_n_RANGE
  ⟨0x060, 0x4, 3, .cnt, 0xFFFFFFFF, 0x0, 1, 0⟩,  -- LCH_n_LAST_LAUNCH
  ⟨0x06C, 0x4, 1, .cnt, 0xFFFFFFFF, 0x0, 1, 0⟩,  -- LCH_n_LAST_DELTA
  ⟨0x070, 0x4, 1, .cnt, 0x0000FFFF, 0x0, 1, 0⟩  -- LCH_n_LAST_A
]

/-- Rows of the block at 0x31000. -/
def tiuRows : List Row := [
  ⟨0x000, 0x20, 4, .cfg, 0x0007FFFF, 0x44A00, 1, 1⟩,  -- TIU_CHc_CFG, c = 0–11 (0-3)
  ⟨0x080, 0x20, 8, .cfg, 0x0007FFFF, 0x44A00, 9, 0⟩,  -- TIU_CHc_CFG, c = 0–11 (4-11)
  ⟨0x004, 0x20, 4, .cfg, 0x00FFFFFF, 0x0, 1, 1⟩,  -- TIU_CHc_DELAY (0-3)
  ⟨0x084, 0x20, 1, .cfg, 0x00000000, 0x0, 9, 0⟩,  -- TIU_CHc_DELAY (4, reserved)
  ⟨0x0A4, 0x20, 7, .cfg, 0x00FFFFFF, 0x0, 9, 0⟩,  -- TIU_CHc_DELAY (5-11)
  ⟨0x008, 0x20, 4, .cfg, 0x0003FFFF, 0x30014, 1, 1⟩,  -- TIU_CHc_MON, c = 0–3
  ⟨0x010, 0x20, 12, .cnt, 0x0000007F, 0x0, 9, 0⟩,  -- TIU_CHc_STATE
  ⟨0x014, 0x20, 12, .cnt, 0xFFFFFFFF, 0x0, 9, 0⟩,  -- TIU_CHc_MISSED
  ⟨0x018, 0x20, 12, .cnt, 0x03FF03FF, 0x0, 9, 0⟩,  -- TIU_CHc_CAL
  ⟨0x01C, 0x20, 12, .cnt, 0xFFFFFFFF, 0x0, 9, 0⟩,  -- TIU_CHc_STAMPS
  ⟨0x200, 0x80, 4, .cfg, 0x00007FFF, 0x0, 9, 0⟩,  -- TIU_Mm_CFG, m = 0–3
  ⟨0x204, 0x80, 4, .cfg, 0xFFFFFFFF, 0x7A120, 9, 0⟩,  -- TIU_Mm_WIN
  ⟨0x208, 0x80, 4, .cfg, 0x00FFFFFF, 0x1, 9, 0⟩,  -- TIU_Mm_N_PER
  ⟨0x20C, 0x80, 4, .cfg, 0x01FFFFFF, 0x1, 9, 0⟩,  -- TIU_Mm_N_STAT
  ⟨0x210, 0x80, 4, .cnt, 0xFFFFFFFF, 0x0, 9, 0⟩,  -- TIU_Mm_MEAN_LO, _HI word 0
  ⟨0x214, 0x80, 4, .cnt, 0xFFFFFFFF, 0x0, 9, 0⟩,  -- TIU_Mm_MEAN_LO, _HI word 1
  ⟨0x218, 0x80, 4, .cnt, 0xFFFFFFFF, 0x0, 9, 0⟩,  -- TIU_Mm_SD_LO, _HI word 0
  ⟨0x21C, 0x80, 4, .cnt, 0xFFFFFFFF, 0x0, 9, 0⟩,  -- TIU_Mm_SD_LO, _HI word 1
  ⟨0x220, 0x80, 4, .cnt, 0xFFFFFFFF, 0x0, 9, 0⟩,  -- TIU_Mm_MIN_LO, _HI word 0
  ⟨0x224, 0x80, 4, .cnt, 0xFFFFFFFF, 0x0, 9, 0⟩,  -- TIU_Mm_MIN_LO, _HI word 1
  ⟨0x228, 0x80, 4, .cnt, 0xFFFFFFFF, 0x0, 9, 0⟩,  -- TIU_Mm_MAX_LO, _HI word 0
  ⟨0x22C, 0x80, 4, .cnt, 0xFFFFFFFF, 0x0, 9, 0⟩,  -- TIU_Mm_MAX_LO, _HI word 1
  ⟨0x230, 0x80, 4, .cnt, 0xFFFFFFFF, 0x0, 9, 0⟩,  -- TIU_Mm_FREQ_LO, _HI word 0
  ⟨0x234, 0x80, 4, .cnt, 0xFFFFFFFF, 0x0, 9, 0⟩,  -- TIU_Mm_FREQ_LO, _HI word 1
  ⟨0x238, 0x80, 4, .cnt, 0x01FFFFFF, 0x0, 9, 0⟩,  -- TIU_Mm_COUNT
  ⟨0x23C, 0x80, 4, .cnt, 0x01FFFFFF, 0x0, 9, 0⟩,  -- TIU_Mm_TIMEOUTS
  ⟨0x240, 0x80, 4, .cnt, 0xFFFFFFFF, 0x0, 9, 0⟩,  -- TIU_Mm_DISCARDED
  ⟨0x400, 0x40, 4, .cfg, 0x0000001F, 0xC, 1, 1⟩,  -- TIU_JITn_CFG, n = 0–3
  ⟨0x404, 0x40, 4, .cnt, 0xFFFFFFFF, 0x0, 9, 0⟩,  -- TIU_JITn_MEAN_LO, _HI word 0
  ⟨0x408, 0x40, 4, .cnt, 0xFFFFFFFF, 0x0, 9, 0⟩,  -- TIU_JITn_MEAN_LO, _HI word 1
  ⟨0x40C, 0x40, 4, .cnt, 0xFFFFFFFF, 0x0, 9, 0⟩,  -- TIU_JITn_SD_LO, _HI word 0
  ⟨0x410, 0x40, 4, .cnt, 0xFFFFFFFF, 0x0, 9, 0⟩,  -- TIU_JITn_SD_LO, _HI word 1
  ⟨0x414, 0x40, 4, .cnt, 0xFFFFFFFF, 0x0, 9, 0⟩,  -- TIU_JITn_MIN_LO, _HI word 0
  ⟨0x418, 0x40, 4, .cnt, 0xFFFFFFFF, 0x0, 9, 0⟩,  -- TIU_JITn_MIN_LO, _HI word 1
  ⟨0x41C, 0x40, 4, .cnt, 0xFFFFFFFF, 0x0, 9, 0⟩,  -- TIU_JITn_MAX_LO, _HI word 0
  ⟨0x420, 0x40, 4, .cnt, 0xFFFFFFFF, 0x0, 9, 0⟩,  -- TIU_JITn_MAX_LO, _HI word 1
  ⟨0x424, 0x40, 4, .cnt, 0xFFFFFFFF, 0x0, 9, 0⟩,  -- TIU_JITn_MISSES
  ⟨0x600, 0x4, 1, .sts, 0xFF8000FF, 0x0, 9, 0⟩,  -- TIU_STS
  ⟨0x604, 0x4, 1, .cnt, 0xFF033FFF, 0xFF020000, 9, 0⟩,  -- TIU_LINES
  ⟨0x608, 0x4, 1, .cnt, 0x00001FFF, 0x0, 9, 0⟩,  -- TIU_FIFO_LEVEL
  ⟨0x60C, 0x4, 1, .cnt, 0xFFFFFFFF, 0x0, 9, 0⟩  -- TIU_FIFO_LOST
]

/-- Rows of the block at 0x43800. -/
def basinRows : List Row := [
  ⟨0x000, 0x4, 1, .sts, 0xFF80000F, 0x0, 1, 0⟩,  -- PHS_BASIN_STS
  ⟨0x004, 0x4, 1, .cnt, 0x00001FFF, 0x0, 1, 0⟩,  -- PHS_BASIN_SPARES
  ⟨0x010, 0x4, 4, .cnt, 0x00007FFF, 0x0, 1, 0⟩,  -- PHS_BASIN_USABLE_n, n = 0–3
  ⟨0x020, 0x4, 1, .cnt, 0xFFFFFFFF, 0x0, 1, 0⟩,  -- PHS_BASIN_CORR_LO
  ⟨0x024, 0x4, 1, .cnt, 0xFFFFFFFF, 0x0, 1, 0⟩,  -- PHS_BASIN_CORR_HI
  ⟨0x028, 0x4, 1, .cnt, 0xFFFFFFFF, 0x0, 1, 0⟩  -- PHS_BASIN_UNCORR
]

/-- Rows of the block at 0x40000. -/
def phsRows : List Row := [
  ⟨0x000, 0x4, 1, .cfg, 0x0000007F, 0x0, 1, 0⟩,  -- PHS_n_CFG
  ⟨0x004, 0x4, 1, .cfg, 0x003FFFFF, 0x0, 1, 0⟩,  -- PHS_n_FIRST_BIN
  ⟨0x008, 0x4, 1, .cfg, 0x0001FFFF, 0x0, 1, 0⟩,  -- PHS_n_CHANNELS
  ⟨0x00C, 0x4, 1, .cfg, 0x03FF03FF, 0x0, 1, 0⟩,  -- PHS_n_GEOM
  ⟨0x010, 0x4, 1, .cfg, 0xFFFFFFFF, 0x109294, 1, 0⟩,  -- PHS_n_KCONV
  ⟨0x014, 0x4, 1, .cfg, 0x00003FFF, 0x0, 1, 0⟩,  -- PHS_n_QUAL_MIN
  ⟨0x018, 0x4, 1, .cfg, 0x00FFFFFF, 0x5DF6FD, 1, 0⟩,  -- PHS_n_NG
  ⟨0x020, 0x8, 4, .cfg, 0xFFFFFFFF, 0x0, 1, 0⟩,  -- PHS_n_FTW_s, s = 0–3
  ⟨0x024, 0x8, 4, .cfg, 0xFFFFFFFF, 0x0, 1, 0⟩,  -- PHS_n_PH0_s, s = 0–3
  ⟨0x080, 0x4, 1, .sts, 0xFF80007F, 0x0, 1, 0⟩,  -- PHS_n_STS
  ⟨0x084, 0x4, 1, .cmd, 0x00000003, 0x0, 1, 0⟩,  -- PHS_n_CMD
  ⟨0x088, 0x4, 1, .cnt, 0x00000007, 0x0, 1, 0⟩,  -- PHS_n_STATE
  ⟨0x08C, 0x4, 1, .cnt, 0xFFFFFFFF, 0x0, 1, 0⟩,  -- PHS_n_LOAD
  ⟨0x090, 0x4, 1, .cnt, 0xFFFFFFFF, 0x0, 1, 0⟩,  -- PHS_n_UPDATES_LO
  ⟨0x094, 0x4, 1, .cnt, 0xFFFFFFFF, 0x0, 1, 0⟩,  -- PHS_n_UPDATES_HI
  ⟨0x098, 0x4, 1, .cnt, 0xFFFFFFFF, 0x0, 1, 0⟩,  -- PHS_n_FADES_LO
  ⟨0x09C, 0x4, 1, .cnt, 0xFFFFFFFF, 0x0, 1, 0⟩,  -- PHS_n_FADES_HI
  ⟨0x0A0, 0x4, 1, .cnt, 0xFFFFFFFF, 0x0, 1, 0⟩,  -- PHS_n_UNWRAP_SAT
  ⟨0x0A4, 0x4, 1, .cnt, 0xFFFFFFFF, 0x0, 1, 0⟩,  -- PHS_n_PRIMES
  ⟨0x0A8, 0x4, 1, .cnt, 0x0001FFFF, 0x0, 1, 0⟩,  -- PHS_n_LAST_REPAIR
  ⟨0x100, 0x4, 40, .cnt, 0xFFFFFFFF, 0x0, 1, 0⟩  -- PHS_n_LAST_HDR
]

/-- Rows of the block at 0x50000. -/
def polRows : List Row := [
  ⟨0x000, 0x4, 1, .cfg, 0x07FF777F, 0x10104, 1, 0⟩,  -- POL_n_CFG
  ⟨0x004, 0x4, 1, .cfg, 0x003FFFFF, 0x0, 1, 0⟩,  -- POL_n_FIRST
  ⟨0x008, 0x4, 1, .cfg, 0x0001FFFF, 0x10000, 1, 0⟩,  -- POL_n_COUNT
  ⟨0x00C, 0x4, 1, .cfg, 0x0000FFFF, 0x0, 1, 0⟩,  -- POL_n_STEP
  ⟨0x010, 0x4, 1, .cfg, 0x0001FFFF, 0x400, 1, 0⟩,  -- POL_n_N
  ⟨0x014, 0x4, 1, .cfg, 0x0000FFFF, 0x0, 1, 0⟩,  -- POL_n_PRE
  ⟨0x018, 0x4, 1, .cfg, 0xFFFFF000, 0x0, 1, 0⟩,  -- POL_n_RING_LO
  ⟨0x01C, 0x4, 1, .cfg, 0x000000FF, 0x0, 1, 0⟩,  -- POL_n_RING_HI
  ⟨0x020, 0x4, 1, .cfg, 0x0007FFFF, 0x100, 1, 0⟩,  -- POL_n_RING_SIZE
  ⟨0x040, 0x4, 1, .sts, 0xFF80001F, 0x0, 1, 0⟩,  -- POL_n_STS
  ⟨0x044, 0x4, 1, .cmd, 0x00000003, 0x0, 1, 0⟩,  -- POL_n_CMD
  ⟨0x048, 0x4, 1, .cnt, 0x00000007, 0x0, 1, 0⟩,  -- POL_n_STATE
  ⟨0x04C, 0x4, 1, .cnt, 0xFFFFFFFF, 0x0, 1, 0⟩,  -- POL_n_LOAD
  ⟨0x050, 0x4, 1, .cnt, 0xFFFFFFFF, 0x0, 1, 0⟩,  -- POL_n_BLOCKS_LO
  ⟨0x054, 0x4, 1, .cnt, 0xFFFFFFFF, 0x0, 1, 0⟩,  -- POL_n_BLOCKS_HI
  ⟨0x058, 0x4, 1, .cnt, 0xFFFFFFFF, 0x0, 1, 0⟩,  -- POL_n_LOST_LO
  ⟨0x05C, 0x4, 1, .cnt, 0xFFFFFFFF, 0x0, 1, 0⟩,  -- POL_n_LOST_HI
  ⟨0x060, 0x4, 1, .cnt, 0xFFFFFFFF, 0x0, 1, 0⟩,  -- POL_n_SKIPPED
  ⟨0x064, 0x4, 1, .cnt, 0x0001FFFF, 0x0, 1, 0⟩,  -- POL_n_PROGRESS
  ⟨0x068, 0x4, 1, .cnt, 0xFFFFFFFF, 0x0, 1, 0⟩  -- POL_n_RING_FREE
]

/-- Rows of the block at 0x52000. -/
def cscRows : List Row := [
  ⟨0x000, 0x4, 1, .cfg, 0x00000077, 0x10, 1, 0⟩,  -- CSC_n_CFG
  ⟨0x010, 0x4, 4, .cfg, 0x000033F3, 0x91, 1, 0⟩,  -- CSC_n_STAGEk_CFG, k = 1–4
  ⟨0x040, 0x4, 1, .sts, 0xFF800007, 0x0, 1, 0⟩,  -- CSC_n_STS
  ⟨0x044, 0x4, 1, .cnt, 0x00000FFF, 0x0, 1, 0⟩,  -- CSC_n_STATE
  ⟨0x048, 0x4, 4, .cnt, 0x0001FFFF, 0x0, 1, 0⟩,  -- CSC_n_DIVk, k = 1–4
  ⟨0x060, 0x4, 1, .cnt, 0xFFFFFFFF, 0x0, 1, 0⟩,  -- CSC_n_SUPPRESSED_LO
  ⟨0x064, 0x4, 1, .cnt, 0xFFFFFFFF, 0x0, 1, 0⟩,  -- CSC_n_SUPPRESSED_HI
  ⟨0x068, 0x4, 1, .cnt, 0xFFFFFFFF, 0x0, 1, 0⟩,  -- CSC_n_FIR_SAT
  ⟨0x06C, 0x4, 1, .cnt, 0xFFFFFFFF, 0x0, 1, 0⟩  -- CSC_n_DISCARDED
]

/-- Rows of the block at 0x60000. -/
def weiUnitRows : List Row := [
  ⟨0x000, 0x4, 1, .cfg, 0x0001FFFF, 0x4000, 5, 0⟩,  -- WEI_Un_CFG
  ⟨0x004, 0x4, 1, .cfg, 0x3FFF3FFF, 0x0, 5, 0⟩,  -- WEI_Un_LEVELS
  ⟨0x008, 0x4, 1, .cfg, 0x00001FFF, 0x0, 5, 0⟩,  -- WEI_Un_HYST
  ⟨0x00C, 0x4, 1, .cfg, 0xFFFFFFFF, 0x0, 5, 0⟩,  -- WEI_Un_LIMIT1
  ⟨0x010, 0x4, 1, .cfg, 0xFFFFFFFF, 0x0, 5, 0⟩,  -- WEI_Un_LIMIT2
  ⟨0x014, 0x4, 1, .cfg, 0xFFFFFFFF, 0x0, 5, 0⟩,  -- WEI_Un_HOLDOFF
  ⟨0x018, 0x4, 1, .cfg, 0xFFFF3F3F, 0x0, 5, 0⟩,  -- WEI_Un_ACTIONS
  ⟨0x01C, 0x4, 1, .cfg, 0x00FFFFFF, 0x0, 5, 0⟩,  -- WEI_Un_PRE
  ⟨0x020, 0x4, 1, .cfg, 0x00FFFFFF, 0x1, 5, 0⟩,  -- WEI_Un_POST
  ⟨0x040, 0x4, 1, .sts, 0xFF80001F, 0x0, 5, 0⟩,  -- WEI_Un_STS
  ⟨0x044, 0x4, 1, .cnt, 0x0000000F, 0x0, 5, 0⟩,  -- WEI_Un_STATE
  ⟨0x048, 0x4, 1, .cnt, 0xFFFFFFFF, 0x0, 5, 0⟩,  -- WEI_Un_LAST_T_LO
  ⟨0x04C, 0x4, 1, .cnt, 0xFFFFFFFF, 0x0, 5, 0⟩,  -- WEI_Un_LAST_T_HI
  ⟨0x050, 0x4, 1, .cnt, 0x000000FF, 0x0, 5, 0⟩,  -- WEI_Un_LAST_F
  ⟨0x058, 0x4, 1, .cnt, 0xFFFFFFFF, 0x0, 5, 0⟩,  -- WEI_Un_DEAD_MEAN_LO
  ⟨0x05C, 0x4, 1, .cnt, 0xFFFFFFFF, 0x0, 5, 0⟩,  -- WEI_Un_DEAD_MEAN_HI
  ⟨0x060, 0x4, 1, .cnt, 0xFFFFFFFF, 0x0, 5, 0⟩,  -- WEI_Un_DEAD_MAX_LO
  ⟨0x064, 0x4, 1, .cnt, 0xFFFFFFFF, 0x0, 5, 0⟩,  -- WEI_Un_DEAD_MAX_HI
  ⟨0x068, 0x4, 1, .cnt, 0xFFFFFFFF, 0x0, 5, 0⟩,  -- WEI_Un_DEAD_LAST_LO
  ⟨0x06C, 0x4, 1, .cnt, 0xFFFFFFFF, 0x0, 5, 0⟩,  -- WEI_Un_DEAD_LAST_HI
  ⟨0x070, 0x4, 1, .cnt, 0xFFFFFFFF, 0x0, 5, 0⟩  -- WEI_Un_MISSED_LAST
]

/-- Rows of the block at 0x61000. -/
def weiRows : List Row := [
  ⟨0x000, 0x4, 4, .cfg, 0x0001FFFF, 0x271, 5, 0⟩,  -- WEI_TRIG_OUTk_CFG, k = 0–3
  ⟨0x010, 0x4, 1, .cfg, 0xFFFF0001, 0x3E80000, 5, 0⟩,  -- WEI_ALARM_CFG
  ⟨0x014, 0x4, 1, .cmd, 0x000001FF, 0x0, 5, 0⟩,  -- WEI_CMD
  ⟨0x018, 0x4, 1, .cnt, 0x000000FF, 0x0, 5, 0⟩,  -- WEI_ARMED
  ⟨0x040, 0x4, 1, .sts, 0xFF80003F, 0x0, 5, 0⟩,  -- WEI_STS
  ⟨0x044, 0x4, 1, .cnt, 0x0001FFFF, 0x0, 5, 0⟩,  -- WEI_ALARM_SRC
  ⟨0x048, 0x4, 1, .cnt, 0x00000003, 0x0, 5, 0⟩,  -- WEI_ALARM_STATE
  ⟨0x050, 0x10, 4, .cnt, 0xFFFFFFFF, 0x0, 5, 0⟩,  -- WEI_FP_n_LOAD
  ⟨0x054, 0x10, 4, .cnt, 0xFFFFFFFF, 0x9502F900, 5, 0⟩,  -- WEI_FP_n_LIMIT
  ⟨0x058, 0x10, 4, .cnt, 0x0000007F, 0x50, 5, 0⟩,  -- WEI_FP_n_LANES
  ⟨0x05C, 0x10, 4, .cnt, 0xFFFFFFFF, 0x0, 5, 0⟩,  -- WEI_FP_n_UNEVALUATED
  ⟨0x0A0, 0x4, 4, .cnt, 0xFFFFFFFF, 0x0, 5, 0⟩  -- WEI_TRIG_OUTk_PULSES
]

/-- Rows of the block at 0x70000. -/
def cisRows : List Row := [
  ⟨0x000, 0x4, 1, .cfg, 0x000003FF, 0x0, 6, 0⟩,  -- CIS_DIR_BASE
  ⟨0x004, 0x4, 1, .cfg, 0xFFFF001F, 0x400018, 6, 0⟩,  -- CIS_HIST_CFG
  ⟨0x008, 0x4, 1, .cfg, 0x000FFFFF, 0x0, 6, 0⟩,  -- CIS_HIST_BASE
  ⟨0x00C, 0x4, 1, .cfg, 0x000FFFFF, 0x0, 6, 0⟩,  -- CIS_HIST_SIZE
  ⟨0x010, 0x4, 1, .cfg, 0x0000FFFF, 0xA, 6, 0⟩,  -- CIS_SEAL_CFG
  ⟨0x040, 0x4, 1, .sts, 0xFF80003F, 0x0, 6, 0⟩,  -- CIS_STS
  ⟨0x044, 0x4, 1, .cmd, 0x00000001, 0x0, 6, 0⟩,  -- CIS_CMD
  ⟨0x048, 0x4, 1, .cnt, 0x01FFFFFF, 0x1000000, 6, 0⟩,  -- CIS_DIR_FREE
  ⟨0x04C, 0x4, 1, .cnt, 0x000FFFFF, 0x0, 6, 0⟩,  -- CIS_HIST_USED
  ⟨0x050, 0x4, 1, .cnt, 0xFFFFFFFF, 0x0, 6, 0⟩,  -- CIS_SEALS_LO
  ⟨0x054, 0x4, 1, .cnt, 0xFFFFFFFF, 0x0, 6, 0⟩,  -- CIS_SEALS_HI
  ⟨0x058, 0x4, 1, .cnt, 0xFFFFFFFF, 0x0, 6, 0⟩,  -- CIS_HOLES_LO
  ⟨0x05C, 0x4, 1, .cnt, 0xFFFFFFFF, 0x0, 6, 0⟩,  -- CIS_HOLES_HI
  ⟨0x060, 0x4, 1, .cnt, 0xFFFFFFFF, 0x0, 6, 0⟩,  -- CIS_HIST_DROPPED_LO
  ⟨0x064, 0x4, 1, .cnt, 0xFFFFFFFF, 0x0, 6, 0⟩,  -- CIS_HIST_DROPPED_HI
  ⟨0x068, 0x4, 3, .cnt, 0xFFFFFFFF, 0x0, 6, 0⟩  -- CIS_LAST_SEAL_AT
]

/-- Rows of the block at 0x71000. -/
def regionRows : List Row := [
  ⟨0x000, 0x4, 1, .cfg, 0x00000007, 0x0, 6, 0⟩,  -- CIS_Rr_CFG
  ⟨0x004, 0x4, 1, .cfg, 0x000FFFFF, 0x0, 6, 0⟩,  -- CIS_Rr_BASE
  ⟨0x008, 0x4, 1, .cfg, 0x000FFFFF, 0x1, 6, 0⟩,  -- CIS_Rr_SIZE
  ⟨0x00C, 0x4, 1, .sts, 0xFF80007F, 0x0, 6, 0⟩,  -- CIS_Rr_STS
  ⟨0x010, 0x4, 1, .cnt, 0x01FFFFFF, 0x0, 6, 0⟩,  -- CIS_Rr_LIVE
  ⟨0x014, 0x4, 1, .cnt, 0x01FFFFFF, 0x0, 6, 0⟩,  -- CIS_Rr_PINNED
  ⟨0x018, 0x4, 1, .cnt, 0x000FFFFF, 0x0, 6, 0⟩,  -- CIS_Rr_FREE_MIB
  ⟨0x01C, 0x4, 1, .cnt, 0x000FFFFF, 0x0, 6, 0⟩,  -- CIS_Rr_PINNED_MIB
  ⟨0x020, 0x4, 1, .cnt, 0xFFFFFFFF, 0x0, 6, 0⟩,  -- CIS_Rr_LINKS_LO
  ⟨0x024, 0x4, 1, .cnt, 0xFFFFFFFF, 0x0, 6, 0⟩,  -- CIS_Rr_LINKS_HI
  ⟨0x028, 0x4, 1, .cnt, 0xFFFFFFFF, 0x0, 6, 0⟩,  -- CIS_Rr_LAST_SEG_LO
  ⟨0x02C, 0x4, 1, .cnt, 0xFFFFFFFF, 0x0, 6, 0⟩  -- CIS_Rr_LAST_SEG_HI
]

/-- Rows of the block at 0x72000. -/
def headRows : List Row := [
  ⟨0x000, 0x4, 12, .cnt, 0xFFFFFFFF, 0x0, 6, 0⟩  -- CIS_Rr_HEAD_w, w = 0–11
]

/-- Rows of the block at 0x80800. -/
def memSubRows : List Row := [
  ⟨0x000, 0x4, 1, .cfg, 0x00000FF3, 0xC00, 7, 0⟩,  -- MEM_CFG
  ⟨0x004, 0x4, 1, .cfg, 0xFFFFFFFF, 0x0, 7, 0⟩,  -- MEM_CHMAP
  ⟨0x008, 0x4, 1, .once, 0x0000000F, 0x0, 7, 0⟩,  -- MEM_SPARE
  ⟨0x00C, 0x4, 1, .cfg, 0x000000FF, 0x5, 7, 0⟩,  -- MEM_MIGRATE_CFG
  ⟨0x040, 0x4, 1, .sts, 0xFF80001F, 0x0, 7, 0⟩,  -- MEM_STS
  ⟨0x044, 0x4, 1, .cnt, 0x00000F3F, 0x0, 7, 0⟩,  -- MEM_STATE
  ⟨0x048, 0x4, 1, .cnt, 0x000003FF, 0x0, 7, 0⟩,  -- MEM_SIZE
  ⟨0x04C, 0x4, 1, .cnt, 0x000007FF, 0x0, 7, 0⟩,  -- MEM_MIGRATE
  ⟨0x050, 0x4, 2, .cnt, 0xFFFFFFFF, 0x0, 7, 0⟩  -- MEM_MIGRATE_PTR_LO, _HI
]

/-- Rows of the block at 0x80000. -/
def memRows : List Row := [
  ⟨0x000, 0x4, 1, .cfg, 0x00033FF9, 0xC31, 7, 0⟩,  -- MEM_n_DRAM_CFG
  ⟨0x004, 0x4, 1, .cfg, 0x00FF03FF, 0x4000C8, 7, 0⟩,  -- MEM_n_SCHED
  ⟨0x008, 0x4, 1, .cfg, 0x00FFFFFF, 0xA03E8, 7, 0⟩,  -- MEM_n_POWER
  ⟨0x00C, 0x4, 1, .cfg, 0x00000007, 0x0, 7, 0⟩,  -- MEM_n_REFRESH
  ⟨0x010, 0x4, 1, .cfg, 0x001FFFFF, 0xB0800, 7, 0⟩,  -- MEM_n_RH
  ⟨0x014, 0x4, 1, .cfg, 0x000F00FF, 0x40018, 7, 0⟩,  -- MEM_n_SCRUB
  ⟨0x018, 0x4, 1, .cfg, 0x0000000F, 0x0, 7, 0⟩,  -- MEM_n_TADJ
  ⟨0x01C, 0x4, 1, .cfg, 0x0000003F, 0x38, 7, 0⟩,  -- MEM_n_REPLAY
  ⟨0x040, 0x4, 1, .sts, 0xFF8003FF, 0x0, 7, 0⟩,  -- MEM_n_STS
  ⟨0x044, 0x4, 1, .cmd, 0x00000003, 0x0, 7, 0⟩,  -- MEM_n_CMD
  ⟨0x048, 0x4, 1, .cnt, 0x000000FF, 0x0, 7, 0⟩,  -- MEM_n_STATE
  ⟨0x04C, 0x4, 1, .cnt, 0x0000001F, 0x0, 7, 0⟩,  -- MEM_n_POP
  ⟨0x050, 0x4, 1, .cnt, 0x0000000F, 0x0, 7, 0⟩,  -- MEM_n_TEMP
  ⟨0x054, 0x4, 1, .cnt, 0x0000FFFF, 0x0, 7, 0⟩,  -- MEM_n_PPR
  ⟨0x058, 0x4, 1, .cnt, 0xFFFFFFFF, 0x0, 7, 0⟩,  -- MEM_n_PPR_DENIED
  ⟨0x060, 0x4, 2, .cnt, 0xFFFFFFFF, 0x0, 7, 0⟩,  -- MEM_n_CORR_LO, _HI
  ⟨0x068, 0x4, 2, .cnt, 0xFFFFFFFF, 0x0, 7, 0⟩,  -- MEM_n_UNCORR_LO, _HI
  ⟨0x070, 0x4, 2, .cnt, 0xFFFFFFFF, 0x0, 7, 0⟩,  -- MEM_n_POISON_READS_LO, _HI
  ⟨0x078, 0x4, 2, .cnt, 0xFFFFFFFF, 0x0, 7, 0⟩,  -- MEM_n_REPLAYS_LO, _HI
  ⟨0x080, 0x4, 1, .cnt, 0xFFFFFFFF, 0x0, 7, 0⟩,  -- MEM_n_REPLAY_FAIL
  ⟨0x084, 0x4, 1, .cnt, 0xFFFFFFFF, 0x0, 7, 0⟩,  -- MEM_n_INORDER_ENTRIES
  ⟨0x088, 0x4, 2, .cnt, 0xFFFFFFFF, 0x0, 7, 0⟩,  -- MEM_n_NBR_TABLE_LO, _HI
  ⟨0x090, 0x4, 2, .cnt, 0xFFFFFFFF, 0x0, 7, 0⟩,  -- MEM_n_NBR_RANDOM_LO, _HI
  ⟨0x098, 0x4, 1, .cnt, 0xFFFFFFFF, 0x0, 7, 0⟩,  -- MEM_n_SCRUB_PASSES
  ⟨0x09C, 0x4, 1, .cnt, 0xFFFFFFFF, 0x0, 7, 0⟩,  -- MEM_n_SCRUB_PTR
  ⟨0x0A0, 0x4, 2, .cnt, 0xFFFFFFFF, 0x0, 7, 0⟩,  -- MEM_n_LOST_WRITES_LO, _HI
  ⟨0x0A8, 0x4, 1, .cnt, 0xFFFFFFFF, 0x0, 7, 0⟩,  -- MEM_n_LAST_ERR
  ⟨0x0AC, 0x4, 1, .cnt, 0x0000017F, 0x0, 7, 0⟩,  -- MEM_n_LAST_ERR_INFO
  ⟨0x200, 0x4, 18, .cnt, 0x003FFFFF, 0x0, 7, 0⟩  -- MEM_n_TRAIN_b, b = 0–17
]

/-- Rows of the block at 0x90000. -/
def rnlRows : List Row := [
  ⟨0x000, 0x4, 1, .sts, 0xFF80001F, 0x0, 0, 0⟩,  -- RNL_CHn_STS
  ⟨0x004, 0x4, 1, .cnt, 0x00000F07, 0x0, 0, 0⟩,  -- RNL_CHn_STATE
  ⟨0x008, 0x4, 1, .cnt, 0xFFFFFFFF, 0x0, 0, 0⟩,  -- RNL_CHn_CUR_LO
  ⟨0x00C, 0x4, 1, .cnt, 0x000000FF, 0x0, 0, 0⟩,  -- RNL_CHn_CUR_HI
  ⟨0x010, 0x4, 1, .cnt, 0xFFFFFFFF, 0x0, 0, 0⟩,  -- RNL_CHn_REMAIN
  ⟨0x014, 0x4, 1, .cnt, 0xFFFFFFFF, 0x0, 0, 0⟩  -- RNL_CHn_DESCS
]

/-- Rows of the block at 0x91000. -/
def rnlGlobalRows : List Row := [
  ⟨0x000, 0x4, 1, .cfg, 0x00FFFFFF, 0x0, 0, 0⟩,  -- RNL_HOST_PRIO
  ⟨0x004, 0x4, 1, .cfg, 0x0000FFFF, 0x3E8, 0, 0⟩,  -- RNL_FIFO_WAIT
  ⟨0x040, 0x4, 1, .sts, 0xFF800003, 0x0, 0, 0⟩,  -- RNL_STS
  ⟨0x044, 0x4, 1, .cmd, 0x000000FF, 0x0, 0, 0⟩,  -- RNL_CMD
  ⟨0x048, 0x4, 1, .cnt, 0xFFFFFFFF, 0x0, 0, 0⟩,  -- RNL_BUSY
  ⟨0x04C, 0x4, 1, .cnt, 0xFFFFFFFF, 0x0, 0, 0⟩,  -- RNL_BURSTS_LO
  ⟨0x050, 0x4, 1, .cnt, 0xFFFFFFFF, 0x0, 0, 0⟩,  -- RNL_BURSTS_HI
  ⟨0x054, 0x4, 1, .cnt, 0xFFFFFFFF, 0x0, 0, 0⟩  -- RNL_STARVE_GRANTS
]

/-- Rows of the block at 0xA0000. -/
def ethRows : List Row := [
  ⟨0x000, 0x4, 1, .cfg, 0x000FFF17, 0x1, 8, 0⟩,  -- ETH_Pn_CFG
  ⟨0x004, 0x4, 1, .cfg, 0x00003FFF, 0x2400, 8, 0⟩,  -- ETH_Pn_FRAME
  ⟨0x008, 0x4, 1, .cfg, 0x0000FFFF, 0x0, 8, 0⟩,  -- ETH_Pn_LANE_POL
  ⟨0x00C, 0x4, 1, .cfg, 0x00003F3F, 0x400, 8, 0⟩,  -- ETH_Pn_TX_EQ
  ⟨0x010, 0x4, 1, .cfg, 0xFFFFFFFF, 0xA0064, 8, 0⟩,  -- ETH_Pn_LINK
  ⟨0x014, 0x4, 1, .cfg, 0x00007F7F, 0x7F7F, 8, 0⟩,  -- ETH_Pn_PFC
  ⟨0x020, 0x4, 1, .cfg, 0x00003F01, 0x1, 8, 0⟩,  -- ETH_Pn_IP4_CFG
  ⟨0x024, 0x4, 1, .cfg, 0xFFFFFFFF, 0x0, 8, 0⟩,  -- ETH_Pn_IP4_ADDR
  ⟨0x028, 0x4, 1, .cfg, 0xFFFFFFFF, 0x0, 8, 0⟩,  -- ETH_Pn_IP4_GW
  ⟨0x030, 0x4, 1, .cfg, 0x0000FF01, 0x1, 8, 0⟩,  -- ETH_Pn_IP6_CFG
  ⟨0x034, 0x4, 4, .cfg, 0xFFFFFFFF, 0x0, 8, 0⟩,  -- ETH_Pn_IP6_ADDR_w, w = 0–3
  ⟨0x044, 0x4, 4, .cfg, 0xFFFFFFFF, 0x0, 8, 0⟩,  -- ETH_Pn_IP6_GW_w, w = 0–3
  ⟨0x080, 0x4, 1, .sts, 0xFF80007F, 0x0, 8, 0⟩,  -- ETH_Pn_STS
  ⟨0x084, 0x4, 1, .cnt, 0x000000FF, 0x0, 8, 0⟩,  -- ETH_Pn_STATE
  ⟨0x088, 0x4, 1, .cnt, 0xFFFFFFFF, 0x0, 8, 0⟩,  -- ETH_Pn_IP4_NOW
  ⟨0x08C, 0x4, 4, .cnt, 0xFFFFFFFF, 0x0, 8, 0⟩,  -- ETH_Pn_IP6_NOW_w, w = 0–3
  ⟨0x0A0, 0x4, 2, .cnt, 0xFFFFFFFF, 0x0, 8, 0⟩,  -- ETH_Pn_TX_FRAMES_LO, _HI
  ⟨0x0A8, 0x4, 2, .cnt, 0xFFFFFFFF, 0x0, 8, 0⟩,  -- ETH_Pn_RX_FRAMES_LO, _HI
  ⟨0x0B0, 0x4, 2, .cnt, 0xFFFFFFFF, 0x0, 8, 0⟩,  -- ETH_Pn_RX_DROPPED_LO, _HI
  ⟨0x0B8, 0x4, 2, .cnt, 0xFFFFFFFF, 0x0, 8, 0⟩,  -- ETH_Pn_FEC_CORR_LO, _HI
  ⟨0x0C0, 0x4, 2, .cnt, 0xFFFFFFFF, 0x0, 8, 0⟩,  -- ETH_Pn_FEC_UNCORR_LO, _HI
  ⟨0x0C8, 0x4, 1, .cnt, 0xFFFFFFFF, 0x0, 8, 0⟩,  -- ETH_Pn_PFC_SENT
  ⟨0x0E0, 0x4, 1, .id, 0xFFFFFFFF, 0x0, 8, 0⟩,  -- ETH_Pn_MAC_LO
  ⟨0x0E4, 0x4, 1, .id, 0xFFFFFFFF, 0x0, 8, 0⟩  -- ETH_Pn_MAC_HI
]

/-- Rows of the block at 0xA2000. -/
def ptpRows : List Row := [
  ⟨0x000, 0x4, 1, .cfg, 0x00FFFF0F, 0x808002, 8, 0⟩,  -- ETH_PTP_CFG
  ⟨0x004, 0x4, 1, .cfg, 0x00FFFFFF, 0x1FD, 8, 0⟩,  -- ETH_PTP_INTERVALS
  ⟨0x008, 0x4, 2, .cfg, 0x0000FFFF, 0x0, 8, 0⟩,  -- ETH_PTP_ASYM_n, n = 0–1
  ⟨0x040, 0x4, 1, .cnt, 0x0000001F, 0x0, 8, 0⟩,  -- ETH_PTP_STATE
  ⟨0x044, 0x4, 2, .cnt, 0xFFFFFFFF, 0x0, 8, 0⟩,  -- ETH_PTP_PARENT_LO, _HI
  ⟨0x04C, 0x4, 1, .cnt, 0xFFFFFFFF, 0x0, 8, 0⟩,  -- ETH_PTP_MEAN_DELAY
  ⟨0x050, 0x4, 1, .cnt, 0xFFFFFFFF, 0x0, 8, 0⟩  -- ETH_PTP_DROPPED
]

/-- Rows of the block at 0xB0000. -/
def sptRows : List Row := [
  ⟨0x000, 0x4, 1, .cfg, 0xFFFFFFFF, 0xA0A0064, 8, 0⟩,  -- SPT_CFG
  ⟨0x004, 0x4, 1, .cfg, 0x000FFFFF, 0x0, 8, 0⟩,  -- SPT_REPLAY_BASE
  ⟨0x008, 0x4, 1, .cfg, 0x0001FFFF, 0x0, 8, 0⟩,  -- SPT_REPLAY_SIZE
  ⟨0x040, 0x4, 1, .sts, 0xFF8000FF, 0x0, 8, 0⟩,  -- SPT_STS
  ⟨0x044, 0x4, 1, .cmd, 0x00000001, 0x0, 8, 0⟩,  -- SPT_CMD
  ⟨0x048, 0x4, 1, .cnt, 0x00007FFF, 0x0, 8, 0⟩,  -- SPT_STAGING_USED
  ⟨0x04C, 0x4, 1, .cnt, 0x00001FFF, 0x0, 8, 0⟩,  -- SPT_HALTED
  ⟨0x050, 0x4, 1, .cnt, 0x0001FFFF, 0x0, 8, 0⟩,  -- SPT_REPLAY_USED
  ⟨0x054, 0x4, 1, .cnt, 0x000007FF, 0x0, 8, 0⟩,  -- SPT_MSEED_CHANNELS
  ⟨0x058, 0x4, 3, .cnt, 0xFFFFFFFF, 0x0, 8, 0⟩,  -- SPT_LAST_HALT
  ⟨0x064, 0x4, 1, .cnt, 0xFFFFFFFF, 0x0, 8, 0⟩,  -- SPT_AUTO_SKIPPED
  ⟨0x068, 0x4, 1, .cnt, 0xFFFFFFFF, 0x0, 8, 0⟩,  -- SPT_AUTO_SKIP_LAST_LO
  ⟨0x06C, 0x4, 1, .cnt, 0xFFFFFFFF, 0x0, 8, 0⟩  -- SPT_AUTO_SKIP_LAST_HI
]

/-- Rows of the block at 0xB1000. -/
def destRows : List Row := [
  ⟨0x000, 0x4, 1, .cfg, 0xFFFF00FF, 0x0, 8, 0⟩,  -- CTRL
  ⟨0x004, 0x4, 1, .cfg, 0x0000FFFF, 0x0, 8, 0⟩,  -- SRC
  ⟨0x008, 0x4, 1, .cfg, 0xFFFFFFFF, 0x0, 8, 0⟩,  -- MAC low
  ⟨0x00C, 0x4, 1, .cfg, 0x0000FFFF, 0x0, 8, 0⟩,  -- MAC high
  ⟨0x010, 0x4, 4, .cfg, 0xFFFFFFFF, 0x0, 8, 0⟩  -- ADDR
]

/-- Rows of the block at 0xB3000. -/
def templateRows : List Row := [
  ⟨0x000, 0x4, 4, .cfg, 0xFFFFFFFF, 0x0, 8, 0⟩,  -- NET, STA
  ⟨0x010, 0x4, 1, .cfg, 0x00FFFFFF, 0x0, 8, 0⟩,  -- LOC_PREFIX
  ⟨0x014, 0x4, 2, .cfg, 0xFFFFFFFF, 0x0, 8, 0⟩,  -- BAND, SOURCE, SUBSRC, PUBVER
  ⟨0x01C, 0x4, 1, .cfg, 0x00000000, 0x0, 8, 0⟩  -- reserved
]

/-- Rows of the block at 0xB4000. -/
def streamRows : List Row := [
  ⟨0x000, 0x4, 1, .cfg, 0x3FF7FFFF, 0x0, 8, 0⟩,  -- CTRL
  ⟨0x004, 0x4, 1, .cfg, 0x01FFFFFF, 0x0, 8, 0⟩,  -- SRC_A
  ⟨0x008, 0x4, 1, .cfg, 0x001FFFFF, 0x0, 8, 0⟩  -- SRC_B
]

/-- Rows of the block at 0xC0000. -/
def slcRows : List Row := [
  ⟨0x000, 0x4, 1, .cfg, 0x01FFFFFF, 0x10A7314, 8, 0⟩,  -- SLC_CFG
  ⟨0x040, 0x4, 1, .sts, 0xFF8001FF, 0x0, 8, 0⟩,  -- SLC_STS
  ⟨0x044, 0x4, 1, .cnt, 0xFFFFFFFF, 0x0, 8, 0⟩,  -- SLC_OPEN_LO
  ⟨0x048, 0x4, 1, .cnt, 0xFFFFFFFF, 0x0, 8, 0⟩,  -- SLC_OPEN_HI
  ⟨0x04C, 0x4, 1, .cnt, 0x00010301, 0x0, 8, 0⟩,  -- SLC_HALT
  ⟨0x050, 0x8, 2, .cnt, 0xFFFFFFFF, 0x0, 8, 0⟩,  -- SLC_Pn_PKTS, n = 0–1
  ⟨0x054, 0x8, 2, .cnt, 0xFFFFFFFF, 0x0, 8, 0⟩,  -- SLC_Pn_QDROP, n = 0–1
  ⟨0x060, 0x4, 1, .cnt, 0xFFFFFFFF, 0x0, 8, 0⟩,  -- SLC_AUTH_FAIL
  ⟨0x064, 0x4, 1, .cnt, 0xFFFFFFFF, 0x0, 8, 0⟩,  -- SLC_WINDOW_DROP
  ⟨0x068, 0x4, 1, .cnt, 0xFFFFFFFF, 0x0, 8, 0⟩,  -- SLC_MALFORMED
  ⟨0x06C, 0x4, 1, .cnt, 0xFFFFFFFF, 0x0, 8, 0⟩,  -- SLC_FAST_EXEC
  ⟨0x400, 0x10, 64, .cnt, 0xFFFF007F, 0x0, 8, 0⟩,  -- SLC_Ss_STATE
  ⟨0x404, 0x10, 64, .cnt, 0xFFFFFFFF, 0x0, 8, 0⟩,  -- SLC_Ss_SEQ
  ⟨0x408, 0x10, 64, .cnt, 0xFFFFFFFF, 0x0, 8, 0⟩,  -- SLC_Ss_FAST_SEQ
  ⟨0x40C, 0x10, 64, .cnt, 0xFFFFFFFF, 0x0, 8, 0⟩  -- SLC_Ss_OPENED
]

/-- Rows of the block at 0xD0000. -/
def lgrRows : List Row := [
  ⟨0x000, 0x4, 2, .cnt, 0xFFFFFFFF, 0x0, 0, 0⟩,  -- LGR_EPOCH_LO, _HI
  ⟨0x008, 0x4, 3, .cnt, 0xFFFFFFFF, 0x0, 0, 0⟩,  -- LGR_EPOCH_SET
  ⟨0x040, 0x4, 1, .sts, 0xFF8007FF, 0x0, 0, 0⟩,  -- LGR_STS
  ⟨0x044, 0x4, 1, .cmd, 0x00000001, 0x0, 0, 0⟩,  -- LGR_CMD
  ⟨0x048, 0x4, 2, .cnt, 0xFFFFFFFF, 0x0, 0, 0⟩,  -- LGR_SNAP_LAST_LO, _HI
  ⟨0x050, 0x4, 1, .cnt, 0xFFFFFFFF, 0x0, 0, 0⟩,  -- LGR_SNAP_SKIPPED
  ⟨0x054, 0x4, 1, .id, 0xFFFFFFFF, 0xB0, 0, 0⟩,  -- LGR_RILLS
  ⟨0x058, 0x4, 1, .cnt, 0xFFFF07FF, 0x0, 0, 0⟩,  -- LGR_WEAR
  ⟨0x05C, 0x4, 1, .cnt, 0x0FFF0FFF, 0x0, 0, 0⟩,  -- LGR_LIFE
  ⟨0x060, 0x4, 1, .cnt, 0x0000FFFF, 0x0, 0, 0⟩,  -- LGR_LIFE_RUN
  ⟨0x064, 0x4, 1, .cnt, 0x000FFFFF, 0x0, 0, 0⟩,  -- LGR_STRESS_RUN
  ⟨0x068, 0x4, 1, .cnt, 0x0000007F, 0x0, 0, 0⟩,  -- LGR_BUDGET_STATE
  ⟨0x400, 0x4, 128, .cnt, 0xFFFFFFFF, 0x0, 0, 0⟩,  -- LGR_IN_n, n = 0–15
  ⟨0x600, 0x4, 32, .cnt, 0xFFFFFFFF, 0x0, 0, 0⟩,  -- LGR_FP_n, n = 0–3
  ⟨0x800, 0x4, 128, .cnt, 0xFFFFFFFF, 0x0, 0, 0⟩,  -- LGR_U_u, u = 0–7
  ⟨0x1000, 0x4, 1024, .cnt, 0xFFFFFFFF, 0x0, 0, 0⟩,  -- LGR_R_r, r = 0–63
  ⟨0x2000, 0x4, 256, .cnt, 0xFFFFFFFF, 0x0, 0, 0⟩,  -- LGR_RNL_c, c = 0–31
  ⟨0x2400, 0x4, 16, .cnt, 0xFFFFFFFF, 0x0, 0, 0⟩,  -- LGR_SLC
  ⟨0x2500, 0x4, 64, .cnt, 0xFFFFFFFF, 0x0, 0, 0⟩,  -- LGR_LOSS_i, i = 0–31
  ⟨0x3000, 0x4, 1408, .cnt, 0xFFFFFFFF, 0x0, 0, 0⟩,  -- LGR_RILL_k, k = 0–175
  ⟨0x5000, 0x4, 2048, .cnt, 0xFFFFFFFF, 0x0, 0, 0⟩,  -- LGR_WEAR_e, e = 0–1,023
  ⟨0x7000, 0x4, 128, .cnt, 0xFFFFFFFF, 0x0, 0, 0⟩  -- LGR_LIFE_w, w = 0–127
]

/-- Rows of the block at 0xE0000. -/
def secRows : List Row := [
  ⟨0x000, 0x4, 10, .id, 0xFFFFFFFF, 0x0, 0, 0⟩,  -- SEC_ID_w, w = 0–9
  ⟨0x028, 0x4, 1, .id, 0xFFFFFFFF, 0x0, 0, 0⟩,  -- SEC_FINGERPRINT_LO
  ⟨0x02C, 0x4, 1, .id, 0xFFFFFFFF, 0x0, 0, 0⟩,  -- SEC_FINGERPRINT_HI
  ⟨0x030, 0x4, 1, .cfg, 0x00000FFF, 0x100, 0, 0⟩,  -- SEC_CFG
  ⟨0x040, 0x4, 1, .sts, 0xFF8001FF, 0x0, 0, 0⟩,  -- SEC_STS
  ⟨0x044, 0x4, 1, .cnt, 0x000000FF, 0x0, 0, 0⟩,  -- SEC_STATE
  ⟨0x048, 0x4, 1, .cnt, 0x0001FFFF, 0x0, 0, 0⟩,  -- SEC_LMS_EPOCHS
  ⟨0x04C, 0x4, 1, .cnt, 0x0001FFFF, 0x0, 0, 0⟩,  -- SEC_LMS_LEFT
  ⟨0x050, 0x4, 1, .cnt, 0xFFFFFFFF, 0x0, 0, 0⟩,  -- SEC_LMS_SIGS_LO
  ⟨0x054, 0x4, 1, .cnt, 0xFFFFFFFF, 0x0, 0, 0⟩,  -- SEC_LMS_SIGS_HI
  ⟨0x058, 0x4, 1, .cnt, 0xFFFF001F, 0x10, 0, 0⟩,  -- SEC_ATTEST
  ⟨0x05C, 0x4, 1, .cnt, 0x0000FFFF, 0x0, 0, 0⟩,  -- SEC_ROOTS
  ⟨0x060, 0x4, 1, .cnt, 0x0000FFFF, 0x0, 0, 0⟩,  -- SEC_GMAC_KEYS
  ⟨0x064, 0x4, 1, .cnt, 0xFFFFFFFF, 0x0, 0, 0⟩,  -- SEC_OTP_FAILS
  ⟨0x068, 0x4, 1, .cnt, 0xFFFF0003, 0x0, 0, 0⟩,  -- SEC_WIPE
  ⟨0x080, 0x4, 12, .cnt, 0xFFFFFFFF, 0x0, 0, 0⟩,  -- SEC_ROM_DIGEST_w, w = 0–11
  ⟨0x0C0, 0x4, 24, .id, 0xFFFFFFFF, 0x0, 0, 0⟩,  -- SEC_DEV_ECDSA_w, w = 0–23
  ⟨0x120, 0x4, 15, .id, 0xFFFFFFFF, 0x0, 0, 0⟩  -- SEC_DEV_LMS_w, w = 0–14
]

/-- Rows of the block at 0xE0200. -/
def secRootRows : List Row := [
  ⟨0x000, 0x4, 39, .cnt, 0xFFFFFFFF, 0x0, 0, 0⟩  -- SEC_ROOT_s_w, w = 0–38
]

/-- Rows of the block at 0xE1000. -/
def secMakerRows : List Row := [
  ⟨0x000, 0x4, 4, .id, 0xFFFFFFFF, 0x0, 0, 0⟩  -- SEC_MAKER_w
]

/-- Rows of the block at 0xF0000. -/
def pwrRows : List Row := [
  ⟨0x000, 0x4, 1, .cfg, 0x03FFFFFF, 0xFA03, 0, 0⟩,  -- PWR_BO_CFG
  ⟨0x004, 0x4, 1, .cfg, 0x000000FF, 0x69, 0, 0⟩,  -- PWR_THERM_CFG
  ⟨0x010, 0x4, 9, .cfg, 0x0000000F, 0x4, 0, 0⟩,  -- PWR_WARN_LEVEL_n, n = 0–8
  ⟨0x040, 0x4, 1, .sts, 0xFF80001F, 0x0, 0, 0⟩,  -- PWR_BO_STS
  ⟨0x044, 0x4, 1, .sts, 0xFF800003, 0x0, 0, 0⟩,  -- PWR_THERM_STS
  ⟨0x048, 0x4, 1, .cnt, 0x000001FF, 0x0, 0, 0⟩,  -- PWR_BELOW_WARN
  ⟨0x04C, 0x4, 1, .cnt, 0x0000000F, 0x0, 0, 0⟩,  -- PWR_WINDOW_STATE
  ⟨0x050, 0x4, 1, .cnt, 0xFFFFFFFF, 0x0, 0, 0⟩,  -- PWR_HOLD_REMAIN
  ⟨0x054, 0x4, 1, .cnt, 0x00001FFF, 0x0, 0, 0⟩,  -- PWR_RESET_CAUSE
  ⟨0x058, 0x4, 1, .cnt, 0xFFFFFFFF, 0x0, 0, 0⟩,  -- PWR_WINDOWS_LO
  ⟨0x05C, 0x4, 1, .cnt, 0xFFFFFFFF, 0x0, 0, 0⟩,  -- PWR_WINDOWS_HI
  ⟨0x060, 0x4, 1, .cnt, 0xFFFFFFFF, 0x0, 0, 0⟩,  -- PWR_OTP_DEFERRED
  ⟨0x080, 0x4, 8, .cnt, 0x0000FFFF, 0x0, 0, 0⟩,  -- PWR_TEMP_s, s = 0–7
  ⟨0x0A0, 0x4, 1, .cnt, 0x0000FFFF, 0x0, 0, 0⟩,  -- PWR_TEMP_MAX
  ⟨0x100, 0x4, 128, .cnt, 0xFFFFFFFF, 0x0, 0, 0⟩,  -- PWR_LOG_i, i = 0–7
  ⟨0x300, 0x4, 1, .cnt, 0x00000007, 0x0, 0, 0⟩  -- PWR_LOG_NEXT
]

/-- Rows of the block at 0x1000000. -/
def watchRows : List Row := [
  ⟨0x000, 0x4, 1, .cfg, 0x000FFFFF, 0x0, 5, 0⟩,  -- CTRL
  ⟨0x004, 0x4, 2, .cfg, 0x0001FFFF, 0x0, 5, 0⟩,  -- FIRST_CH, COUNT_CH
  ⟨0x00C, 0x4, 5, .cfg, 0xFFFFFFFF, 0x0, 5, 0⟩,  -- LO, HI, HYST, LIMIT1, LIMIT2
  ⟨0x020, 0x4, 1, .cfg, 0x0001FFFF, 0x0, 5, 0⟩,  -- K_OR_M
  ⟨0x024, 0x4, 1, .cfg, 0x0000FFFF, 0x0, 5, 0⟩,  -- WINDOW
  ⟨0x028, 0x4, 1, .cfg, 0xFFFFFFFF, 0x0, 5, 0⟩,  -- HOLDOFF
  ⟨0x02C, 0x4, 1, .cfg, 0x001F3F7F, 0x0, 5, 0⟩,  -- ACTIONS
  ⟨0x030, 0x4, 2, .cfg, 0x0000FFFF, 0x0, 5, 0⟩,  -- PRE_SHOTS, POST_SHOTS
  ⟨0x038, 0x4, 1, .cfg, 0xFFFFFFFF, 0x0, 5, 0⟩,  -- TAG
  ⟨0x03C, 0x4, 1, .cfg, 0x00000000, 0x0, 5, 0⟩  -- reserved
]

/-- The blocks of the register space of R56. -/
def regBlocks : List Block := [
  ⟨0x0, 0x1000, 1, 0x1000, 0, glbRows⟩,
  ⟨0x10000, 0x1000, 1, 0x1000, 0, clkRows⟩,
  ⟨0x20000, 0x1000, 1, 0x1000, 0, cnvRows⟩,
  ⟨0x21000, 0x100, 16, 0x100, 0, convRows⟩,
  ⟨0x30000, 0x100, 4, 0x100, 1, lchRows⟩,
  ⟨0x31000, 0x1000, 1, 0x1000, 0, tiuRows⟩,
  ⟨0x43800, 0x100, 1, 0x100, 0, basinRows⟩,
  ⟨0x40000, 0x1000, 4, 0x800, 1, phsRows⟩,
  ⟨0x50000, 0x800, 4, 0x800, 1, polRows⟩,
  ⟨0x52000, 0x800, 4, 0x800, 1, cscRows⟩,
  ⟨0x60000, 0x100, 8, 0x100, 0, weiUnitRows⟩,
  ⟨0x61000, 0x1000, 1, 0x1000, 0, weiRows⟩,
  ⟨0x70000, 0x1000, 1, 0x1000, 0, cisRows⟩,
  ⟨0x71000, 0x40, 64, 0x40, 0, regionRows⟩,
  ⟨0x72000, 0x40, 64, 0x40, 0, headRows⟩,
  ⟨0x80800, 0x100, 1, 0x100, 0, memSubRows⟩,
  ⟨0x80000, 0x1000, 9, 0x800, 0, memRows⟩,
  ⟨0x90000, 0x40, 32, 0x40, 0, rnlRows⟩,
  ⟨0x91000, 0x1000, 1, 0x1000, 0, rnlGlobalRows⟩,
  ⟨0xA0000, 0x1000, 2, 0x1000, 0, ethRows⟩,
  ⟨0xA2000, 0x1000, 1, 0x1000, 0, ptpRows⟩,
  ⟨0xB0000, 0x1000, 1, 0x1000, 0, sptRows⟩,
  ⟨0xB1000, 0x20, 256, 0x20, 0, destRows⟩,
  ⟨0xB3000, 0x20, 16, 0x20, 0, templateRows⟩,
  ⟨0xB4000, 0xC, 4096, 0xC, 0, streamRows⟩,
  ⟨0xC0000, 0x1000, 1, 0x1000, 0, slcRows⟩,
  ⟨0xD0000, 0x8000, 1, 0x8000, 0, lgrRows⟩,
  ⟨0xE0000, 0x200, 1, 0x200, 0, secRows⟩,
  ⟨0xE0200, 0x100, 8, 0x100, 0, secRootRows⟩,
  ⟨0xE1000, 0x100, 1, 0x100, 0, secMakerRows⟩,
  ⟨0xF0000, 0x1000, 1, 0x1000, 0, pwrRows⟩,
  ⟨0x1000000, 0x40, 16384, 0x40, 0, watchRows⟩]

/-- The word of a row an offset names, counted from 0. -/
def Row.index (r : Row) (off : Nat) : Option Nat :=
  if r.off ≤ off ∧ (off - r.off) % r.stride = 0 ∧ (off - r.off) / r.stride < r.count then
    some ((off - r.off) / r.stride) else none

/-- The first row that names an offset. -/
def findRow (off : Nat) : List Row → Option (Row × Nat)
  | [] => none
  | r :: rs =>
    match r.index off with
    | some i => some (r, i)
    | none => findRow off rs

/-- The instance of a block an address lies in, and the offset inside that instance. -/
def Block.place (b : Block) (addr : Nat) : Option (Nat × Nat) :=
  if b.base ≤ addr ∧ (addr - b.base) / b.stride < b.count ∧ (addr - b.base) % b.stride < b.size then
    some ((addr - b.base) / b.stride, (addr - b.base) % b.stride) else none

/-- What a block says of an address. -/
def Block.info (b : Block) (addr : Nat) : Option Info :=
  match b.place addr with
  | none => none
  | some (n, off) =>
    match findRow off b.rows with
    | none => none
    | some (r, i) =>
      some { cls := r.cls, mask := BitVec.ofNat 32 r.mask, reset := BitVec.ofNat 32 r.reset,
             group := r.grp + r.gstep * i + b.gstep * n }

/-- What the first block that names an address says of it. -/
def findInfo (addr : Nat) : List Block → Option Info
  | [] => none
  | b :: bs =>
    match b.info addr with
    | some i => some i
    | none => findInfo addr bs

/-- What the register map says of an address: none where no table names it (R28). -/
def regInfo (addr : Nat) : Option Info := findInfo addr regBlocks

/-- The reset value of a word (R48); 0 at an address no table names. -/
def resetOf (addr : Nat) : Word := ((regInfo addr).map (·.reset)).getD 0

/-- The class of a word. -/
def clsOf (addr : Nat) : Option Cls := (regInfo addr).map (·.cls)

/-- The implemented bits of a word (R7). -/
def maskOf (addr : Nat) : Word := ((regInfo addr).map (·.mask)).getD 0

/-- The commit group of a word (R41). -/
def groupOf (addr : Nat) : Nat := ((regInfo addr).map (·.group)).getD 0

/-- The addresses of the cfg words of one instance of a block. -/
def Block.cfgAt (b : Block) (n : Nat) : List Nat :=
  b.rows.flatMap fun r =>
    if r.cls = .cfg ∧ r.mask ≠ 0 then (List.range r.count).map fun i => b.base + b.stride * n + r.off + r.stride * i else []

/-- Every word that holds a cfg field, block by block (R49): a word that is all reserved holds none. -/
def cfgAddrs : List Nat :=
  regBlocks.flatMap fun b => (List.range b.count).flatMap fun n => b.cfgAt n

end Sys2Proof.Machine
end

