-- ==== Sys2Proof/Machine/Crc.lean ====
section
/-!
DEFINITION. CRC-32C with the parameters of R49, and the seal of a configuration image.
-/

namespace Sys2Proof.Machine

/-- One bit of the reflected CRC of R49. -/
def crcBit (crc : Word) : Word :=
  if crc.getLsbD 0 then (crc >>> 1) ^^^ 0x82F63B78 else crc >>> 1

/-- `n` bits of the reflected CRC. -/
def crcBits : Nat → Word → Word
  | 0, crc => crc
  | n + 1, crc => crcBits n (crcBit crc)

/-- One byte into the CRC. -/
def crcByte (crc : Word) (b : Byte) : Word := crcBits 8 (crc ^^^ b.setWidth 32)

/-- The CRC register after a list of bytes. -/
def crcRun (crc : Word) (bs : List Byte) : Word := bs.foldl crcByte crc

/-- CRC-32C of a list of bytes (R49). -/
def crc32c (bs : List Byte) : Word := crcRun 0xFFFFFFFF bs ^^^ 0xFFFFFFFF

/-- The four bytes of a word, least significant first (R6). -/
def wordBytes (w : Word) : List Byte :=
  [w.setWidth 8, (w >>> 8).setWidth 8, (w >>> 16).setWidth 8, (w >>> 24).setWidth 8]

/-- What a sparse image holds at an address. -/
def imageGet : SMap Word → Nat → Word
  | [], a => resetOf a
  | (k, w) :: m, a => if k = a then w else imageGet m a

/-- The CRC register after the masked words of an image at the given addresses. -/
def sealRun (m : SMap Word) (addrs : List Nat) (crc : Word) : Word :=
  addrs.foldl (fun c a => crcRun c (wordBytes (imageGet m a &&& maskOf a))) crc

/-- The words the seal covers, in ascending address order (R49). -/
def sealAddrs : List Nat := cfgAddrs.mergeSort (· ≤ ·)

/-- The seal of an image (R49): the words not listed hold their reset values. -/
def sealOf (m : SMap Word) : Word := sealRun m sealAddrs 0xFFFFFFFF ^^^ 0xFFFFFFFF

end Sys2Proof.Machine
end

