-- ==== Sys2Proof/Machine/State.lean ====
section
/-!
DEFINITION. The whole state of the block as plain data, the reasons a step can stop, and the state at power-on.
-/

namespace Sys2Proof.Machine

/-- Why a command could stop with a fault. No meaning raises it: every command of the table completes. -/
inductive Fault where
  /-- Raised by no meaning of this model; kept so that the outcome type has a fault case. Safe. -/
  | none
  deriving DecidableEq, Repr

/-- Why a command could be refused. -/
inductive Refusal where
  /-- Raised by an arm of `exec` whose command has no meaning yet. Safe: the machine stops. -/
  | notModelled (mnemonic : String)
  deriving DecidableEq, Repr

/-! ### Registers, commits and the seal (02_register_model) -/

/-- A hardware override of R55: the masked bits of one word of the active copy, and their value. -/
structure Override where
  addr  : Nat
  mask  : Word
  value : Word
  deriving DecidableEq, Repr

/-- The register file. `shadow`, `active` and `committed` are the copies of R31 and R45, `pend` the pending copies of the
fibre groups (key: group 1 to 4, present while the copy exists) and of group 7 while the fill of R284 runs (key 7),
`overrides` the overrides of R55, which stay outside them, `hw` the sts, cnt, once and cmd words, `laps` the events since
the last accepted clear of each sts register (R33) and `latch` the high words held for a reading session (R36): key 2^32 ×
session + address. An address not listed reads its reset value. -/
@[ext] structure Regs where
  shadow    : SMap Word := []
  active    : SMap Word := []
  committed : SMap Word := []
  pend      : SMap (SMap Word) := []
  overrides : List Override := []
  hw        : SMap Word := []
  laps      : SMap Nat := []
  latch     : SMap Word := []
  cmdQueued : List (Nat × Nat) := []
  deriving DecidableEq, Repr

/-- An accepted commit in the queue (R43, R44): `image` holds the captured words of the masked groups that differ from
reset; `adopt` marks the zero mask that adopts the scanned image (R42). -/
structure QCommit where
  id      : Nat
  ses     : Nat
  mask    : BitVec 16
  aligned : Bool
  stamp   : Option Stamp
  sealW   : Word
  image   : SMap Word
  adopt   : Bool
  deriving DecidableEq, Repr

/-- A strobed commit whose reply waits (R46): the strobe stamp and the apply stamp of each group that is active. -/
structure InFlight where
  id      : Nat
  ses     : Nat
  seq     : Nat
  mask    : BitVec 16
  strobe  : Stamp
  applied : List (Nat × Stamp)
  deriving DecidableEq, Repr

/-- Ports waiting for the common instant of an ALIGNED commit (R47), which of them have reached their boundary, and the
latest of those boundaries, in ticks. -/
structure AlignSet where
  id      : Nat
  ports   : List Nat
  reached : List Nat := []
  latest  : Nat := 0
  deriving DecidableEq, Repr

/-- The commit queue and what follows a strobe. `held` is the hold of R82 seen by a waiting commit (R45). -/
@[ext] structure CommitSt where
  queue  : List QCommit := []
  flight : List InFlight := []
  align  : List AlignSet := []
  nextId : Nat := 0
  held   : Bool := false
  deriving DecidableEq, Repr

/-- A seal scan in progress (R51). -/
structure Scan where
  scheduled : Bool
  restarted : Bool
  deriving DecidableEq, Repr

/-- The seal: reference, the condition of R52, the running scan, and a scheduled scan that waits. -/
@[ext] structure SealSt where
  ref       : Word
  last      : SMap Word := []
  mismatch  : Bool := false
  scan      : Option Scan := none
  waiting   : Bool := false
  deriving DecidableEq, Repr

/-! ### Events (R419, R420) -/

/-- The millisecond of one sts register instance after an entry was sent, and what is folded in since: the code and
time of the first event, the number of them, the register value just after the last, and the tick at which the millisecond
is over (R419). -/
structure Fold where
  code  : Nat
  stamp : Stamp
  tqb   : Byte
  count : Nat
  value : Word := 0
  due   : Nat := 0
  deriving DecidableEq, Repr

/-! ### Power (03_package_power) -/

/-- A window-log entry of R89. -/
structure LogEntry where
  start   : Stamp := 0
  stop    : Stamp := 0
  qcal    : Stamp := 0
  rails   : BitVec 9 := 0
  min     : Nat := 0
  flags   : Nat := 0
  index   : Nat := 0
  longest : Nat := 0
  deriving DecidableEq, Repr

/-- Supplies: the open window's rail mask; whether the coverage of R80 lasts, and the stamp at which the last one ended;
the log entries whose quick calibration has not completed; the end of the commit hold in ticks; the sensors above WARN
and above 110 °C; whether a sensor has been read since reset, and whether one has been outside its range since the epoch
began (R401). `below` are the rails whose last sample lay below the warning threshold (R88); `over100` the sensors that
last read 100 °C or more, and `hotSince` the tick from which a sensor has read 120 °C or more (R87); `lifeNoted` the
fields of the life meter whose waiting bit PWR_OTP_DEFERRED has counted (R85). The log, its next entry, the window count
since power-on and the reset cause are the AON records of R88. -/
@[ext] structure PwrSt where
  window    : Option (BitVec 9) := none
  coverage  : Bool := false
  covEnd    : Stamp := 0
  qcalFor   : List Nat := []
  holdEnd   : Option Nat := none
  hot       : BitVec 8 := 0
  over110   : BitVec 8 := 0
  below     : BitVec 9 := 0
  over100   : BitVec 8 := 0
  hotSince  : SMap Nat := []
  lifeNoted : BitVec 2 := 0
  tempSeen  : Bool := false
  outside   : Bool := false
  log       : SMap LogEntry := []
  logNext   : Nat := 0
  windowNo  : Nat := 0
  cause     : Nat := 0
  causeRails : BitVec 9 := 0
  deriving DecidableEq, Repr

/-! ### Boot and pins (03, 17) -/

/-- How far boot has come (R447): held in reset, booting, trained, filled, or up. -/
inductive Boot where
  | held | booting | trained | filled | up
  deriving DecidableEq, Repr

/-- The pins of R68 that are levels: inputs RESET_N and HALT_N; outputs. -/
@[ext] structure Pins where
  resetN  : Bool := true
  haltN   : Bool := true
  ready   : Bool := false
  launch  : BitVec 4 := 0
  slot    : SMap Nat := []
  ppsOut  : Bool := false
  trigOut : BitVec 4 := 0
  deriving DecidableEq, Repr

/-! ### Clocks and device time (04_clocks_time) -/

/-- The codes of CLK_PLL_STATE (R113). -/
inductive PllState where
  | off | locking | settling | inUse | bypass | hold | noref | retired | standbyReady
  deriving DecidableEq, Repr

/-- What drives CORE (R20, R98, R99). -/
inductive CoreSrc where
  | pll | bypass | aon
  deriving DecidableEq, Repr

/-- The clocks: a state for each PLL of R90, which core PLL is in use and whether CORE moves to it, what drives CORE,
whether each reference is present (R92) and REFCLK_S has passed at 1 %, the AON trim, whether the sample clock is
stopped, whether the stop is a clock loss (with the device time from which it is not yet counted) or that of R94, whether
fresh shots are still to come after it, the PLLs that have driven their output since reset, and the commits whose group
0 waits for the sample PLL (R94). -/
@[ext] structure ClkSt where
  pll       : SMap PllState := []
  coreB     : Bool := false
  switching : Bool := false
  coreSrc   : CoreSrc := .aon
  refS      : Bool := false
  refC      : Bool := false
  refSFine  : Bool := false
  trimmed   : Bool := false
  stopped   : Bool := true
  loss      : Bool := true
  rate      : Bool := false
  resume    : Bool := false
  stopStart : Stamp := 0
  been      : List Nat := []
  splRelock : List Nat := []
  deriving DecidableEq, Repr

/-- The states of device time (R106). -/
inductive TbState where
  | unset | freerun | holdover | locked | acquiring
  deriving DecidableEq, Repr

/-- Device time: the accumulator in units of 2^-48 ns, F, the backup accumulator and its learned step per tick, the values
F has had over the last 64 s with the tick from which each held (newest first), the state and its count of measurements
inside LOCK_NS (R107), the step epoch, the source in use, and the coarse count of the last accepted PPS edge, in ticks.
`wasSet`: device time has been set since reset (R107). `leapAt` is the TAI second of the UTC midnight after an announced
leap second, `leapSign` its sign, `leapDone` whether it has been applied (R112). -/
@[ext] structure TbSt where
  acc        : Nat := 0
  freq       : Int := 0
  freqHist   : List (Nat × Int) := []
  state      : TbState := .unset
  backup     : Bool := false
  backAcc    : Nat := 0
  backStep   : Nat := 562949953421312
  epoch      : Nat := 0
  lockCount  : Nat := 0
  source     : Nat := 0
  lastPps    : Option Nat := none
  wasSet     : Bool := false
  leapAt     : Nat := 0
  leapSign   : Int := 0
  leapDone   : Bool := false
  deriving DecidableEq, Repr

/-- The free-running counts: ticks of the TIU clock period since reset (2 ns each), the TIU coarse counter, CORE clocks
since reset in twentieths, and two positions in 1/4000 of a ×1 sample: `smp` runs while the sample clock does, `str`
always, at the committed rate (R236), with the rest of its division in `strRem`. `free` counts the free values read,
`draws` the draws of the random-bit generator; both are the model's own. -/
@[ext] structure Counts where
  ticks  : Nat := 0
  coarse : BitVec 48 := 0
  core   : Nat := 0
  smp    : Nat := 0
  str    : Nat := 0
  strRem : Nat := 0
  free   : Nat := 0
  draws  : Nat := 0
  deriving DecidableEq, Repr

/-! ### Sluice (14_sluice) -/

/-- One reply entry (R376). -/
structure Entry where
  opcode : Nat
  tag    : Nat
  status : Nat
  data   : List Byte
  deriving DecidableEq, Repr

/-- One command of an accepted packet that has not been answered. -/
structure QCmd where
  opcode : Nat
  tag    : Nat
  params : List Byte
  deriving DecidableEq, Repr

/-- An accepted packet: what is left of its commands, the entries made so far, and where its reply goes once more because
the packet came again before it was made (R378, R381). -/
structure Pkt where
  seq  : Nat
  port : Nat
  src  : Peer
  cmds : List QCmd
  done : List Entry
  dups : List (Nat × Peer) := []
  deriving DecidableEq, Repr

/-- What the head command of a session waits for (R46, R109, R405, R430, R442). -/
inductive Wait where
  | commit (id : Nat)
  | timeSet (stamp : Stamp)
  | snapshot
  | attest (nonce : List Byte)
  | lifecycle (target : Nat)
  deriving DecidableEq, Repr

/-- FREE, ACTIVE or BOOTSTRAP (R383). -/
inductive SesKind where
  | free | active | bootstrap
  deriving DecidableEq, Repr

/-- A session (R379 to R384, R390). `cache` holds the last four replies, `loose` the entries of commands that no packet
of the state carried. -/
structure Session where
  kind      : SesKind := .free
  h         : Nat := 0
  f         : Nat := 0
  packets   : List Pkt := []
  cache     : List (Nat × List Byte) := []
  fastCache : List Byte := []
  loose     : List Entry := []
  wait      : Option Wait := none
  closing   : Bool := false
  rootSlot  : Nat := 0
  kaStart   : Nat := 0
  lastPort  : Nat := 0
  opened    : Nat := 0
  keyHD     : List Byte := []
  keyDH     : List Byte := []
  hostNonce : List Byte := []
  seenAuth  : Bool := false
  openReply : List Byte := []
  deriving DecidableEq, Repr

/-- A session-0 request being processed (R379, R384). -/
structure Opening where
  port   : Nat
  src    : Peer
  seq    : Nat
  tag    : Nat
  boot   : Bool
  params : List Byte
  deriving DecidableEq, Repr

/-- Sluice: sessions by number, the lease holder, openings in progress, session-0 IDENTITY_GET requests, and whether a
life-cycle advance has begun (R442). -/
@[ext] structure SlcSt where
  sessions : SMap Session := []
  lease    : Option Nat := none
  openings : List Opening := []
  idReqs   : List Opening := []
  dropping : Bool := false
  deriving DecidableEq, Repr

/-! ### The ports and Spout (13_ports_spout) -/

/-- A record of a stream (R348, R353). -/
structure Rec where
  typ     : Nat := 0
  flags   : Nat := 0
  seq     : Nat := 0
  src     : Nat := 0
  product : Nat := 0
  tap     : Nat := 0
  tqb     : Byte := 0
  first   : Nat := 0
  count   : Nat := 0
  index   : Nat := 0
  stamp   : Stamp := 0
  txCount : Nat := 0
  aux     : Nat := 0
  payload : List Byte := []
  poison  : List Byte := []
  dest    : List Word := []
  keySlot : Option Nat := none
  deriving DecidableEq, Repr

/-- A run of numbers of one reason inside a GAP entry of a queue (R357). -/
structure Gap where
  first    : Nat
  count    : Nat
  reason   : Nat
  stamp    : Stamp
  tqb      : Byte
  deriving DecidableEq, Repr

/-- What a stream's queue holds: data records and GAP entries, each GAP entry with its runs of one reason in number
order (R357). -/
inductive QItem where
  | data (r : Rec)
  | gap (runs : List Gap)
  deriving DecidableEq, Repr

/-- A record held in a replay window: its number, where it lies from the window's base, its bytes, those it takes
there, its retransmissions, and the destination and GMAC key slot it was created for (R356, R363, R365). -/
structure WinRec where
  seq     : Nat
  addr    : Nat
  len     : Nat
  bytes   : Nat
  tx      : Nat
  dest    : List Word
  keySlot : Option Nat
  deriving DecidableEq, Repr

/-- A retransmission in transmission (R364): a record of the window, or a marker over numbers that left it, or over one
whose stored header is poisoned. -/
inductive Retx where
  | record (w : WinRec)
  | expired (first count : Nat)
  | poisoned (seq : Nat)
  deriving DecidableEq, Repr

/-- A read request of a SEGMENT stream (R351). -/
structure SegRead where
  seg    : Nat
  offset : Nat
  bytes  : Nat
  deriving DecidableEq, Repr

/-- The miniSEED record being filled of one channel (R366 to R368). `cont` says that the last record closed because it
was full, so that the first difference is taken from `last`. -/
structure Mseed where
  samples : List Int := []
  start   : Stamp := 0
  tqb     : Byte := 0
  flags   : Nat := 0
  index   : Nat := 0
  last    : Int := 0
  cont    : Bool := false
  deriving DecidableEq, Repr

/-- The state of one stream: records whose content is complete, the event entries being collected, the queue on the
port that carries it, the queue left on the other port, the ranges to send again (first number and count, one for each
REPLAY), the replay window, the read requests of R351, the ticks at which EVENT_LINGER runs out and the next snapshot of a
LEDGER stream falls due, the next record of each RAW lane and the position of the sample
clock from which its records count, the snapshot images still to read (number and next byte), and the counters of its status
record (R372). -/
structure Stream where
  ready     : List Rec := []
  events    : List Byte := []
  eventNo   : Nat := 0
  eventFlags : Nat := 0
  lingering : Bool := false
  lingerAt  : Nat := 0
  periodAt  : Nat := 0
  queue     : List QItem := []
  other     : List QItem := []
  moved     : Bool := false
  firstRec  : Bool := true
  skipped   : Bool := false
  deficit   : Nat := 0
  retx      : List (Nat × Nat) := []
  window    : List WinRec := []
  winNext   : Nat := 0
  reads     : List SegRead := []
  nextLane  : SMap Nat := []
  startPos  : Nat := 0
  images    : List (Nat × Nat) := []
  mseed     : SMap Mseed := []
  issued    : Nat := 0
  data      : Nat := 0
  gaps      : Nat := 0
  notCreated : Nat := 0
  retransmitted : Nat := 0
  backlogMax : Nat := 0
  movedNo   : Nat := 0
  expired   : Nat := 0
  deriving DecidableEq, Repr

/-- The kinds of class-A frames of R345, and PFC frames. -/
inductive FrameKind where
  | sluiceReply | ptp | arp | ndp | icmp | dhcp | pfc
  deriving DecidableEq, Repr

/-- A frame that is not a Spout packet: where it goes, in which form of R373, its content, and the UDP ports it carries. -/
structure Frame where
  kind    : FrameKind
  dst     : Nat
  bytes   : List Byte
  rawEth  : Bool := false
  srcPort : Nat := 0
  dstPort : Nat := 0
  deriving DecidableEq, Repr

/-- A frame in transmission: a class-A frame, a live item of a stream, or a retransmission. -/
inductive Tx where
  | frame (f : Frame)
  | item (stream : Nat) (i : QItem)
  | retx (stream : Nat) (r : Retx)
  deriving DecidableEq, Repr

/-- How a frame is addressed; of a class-A frame only the tag, the rest stands in the frame (R341, R348, R356, R360,
R371): the VLAN identifier and PCP of its tag, whether it is a raw Ethernet frame and whether it is IPv6, the destination
(MAC or IP address), the source address and the UDP ports. -/
structure Head where
  tag     : Option (Nat × Nat) := none
  raw     : Bool := false
  v6      : Bool := false
  dst     : Nat := 0
  src     : Nat := 0
  srcPort : Nat := 0
  dstPort : Nat := 0
  deriving DecidableEq, Repr

/-- A port (R337 to R347). `wasUp`: it has been up since READY or since the commit that last set its MODE (R339).
`drrB`, `drrC` are the streams served last; `paused` the priorities paused by the peer; `bulk` and `resv` the bytes in
the ingress buffers; `cache` the resolved next hops; `want` the unresolved ones; `head` and `wire` the addressing of the
packet in transmission and its bytes from the Spout header on. `pllAt` is the tick at which its SerDes PLL started, `upSince`
that of the link's coming up, `faultAt` that of its fault; at `retryAt` unresolved next hops are asked for again, and from
`retxAt` on a retransmission may start (R338, R343, R364). -/
structure Port where
  up       : Bool := false
  wasUp    : Bool := false
  fault    : Bool := false
  mode     : Nat := 0
  upSince  : Nat := 0
  pllAt    : Nat := 0
  faultAt  : Nat := 0
  retryAt  : Nat := 0
  retxAt   : Nat := 0
  ip4      : Nat := 0
  ip4Valid : Bool := false
  pre4     : Nat := 0
  gw4      : Nat := 0
  ip6      : Nat := 0
  ip6Valid : Bool := false
  pre6     : Nat := 0
  gw6      : Nat := 0
  linkLocalOk : Bool := false
  paused   : BitVec 8 := 0
  xoff     : Bool := false
  bulk     : Nat := 0
  resv     : Nat := 0
  classA   : List Frame := []
  tx       : Option Tx := none
  head     : Head := {}
  wire     : List Byte := []
  drrB     : Nat := 4095
  drrC     : Nat := 4095
  echoes   : Nat := 0
  echoStart : Nat := 0
  cache    : List (Nat × Nat) := []
  want     : List Nat := []
  deriving DecidableEq, Repr

/-- The PTP clock (R346), with the ticks at which the next Sync, Announce and delay request fall due (R370). -/
@[ext] structure PtpSt where
  state   : Nat := 0
  port    : Nat := 0
  master  : Bool := false
  syncAt  : Nat := 0
  annAt   : Nat := 0
  reqAt   : Nat := 0
  deriving DecidableEq, Repr

/-- Spout as a whole: streams by number, the windows of the replay area (base, bytes) by stream (R362), and which stream
numbers are halted (R359): all but those listed where `haltAll`, else those listed. -/
@[ext] structure SptSt where
  streams : SMap Stream := []
  windows : SMap (Nat × Nat) := []
  haltAll : Bool := false
  haltEx  : List Nat := []
  deriving DecidableEq, Repr

/-! ### Ledgers and the Reservoir (15_faults_ledgers_reservoir) -/

/-- A watch or lane trigger unit status record (R243). -/
structure Status where
  met      : Nat := 0
  started  : Nat := 0
  holdoff  : Nat := 0
  dead     : Nat := 0
  capacity : Nat := 0
  deadSum  : Nat := 0
  deadCount : Nat := 0
  deadMax  : Nat := 0
  state    : Nat := 0
  deriving DecidableEq, Repr

/-- A snapshot image (R404 to R406) as captured: header, the LGR counters, and the records of watches and streams. -/
structure Snap where
  no      : Nat
  epoch   : Nat
  stamp   : Stamp
  tqb     : Byte
  flags   : Nat
  freeze  : Nat
  hw      : SMap Word
  watches : SMap Status
  streams : SMap (Nat × Nat × Nat × Nat)
  complete : Bool
  deriving DecidableEq, Repr

/-- Ledgers: the epoch, the snapshots taken, the images held (newest first), the LEDGER_SNAPSHOT commands that wait for
their image (session and snapshot number), the snapshot that SNAP took (none while its write waits for a buffer), the
wear-map writes that wait, the powered minutes since the last hour bit and the stress units since the last stress bit
(held on AON, R412, R415), the highest sensor reading of the minute, and the tick at which the minute ends. -/
@[ext] structure LgrSt where
  epoch    : Nat := 0
  epochSet : Bool := false
  snapNo   : Nat := 0
  snaps    : List Snap := []
  snapWait : List (Nat × Nat) := []
  snapCmd  : Option Nat := none
  wearPend : List Nat := []
  lifeMin  : Nat := 0
  stressRun : Nat := 0
  minuteMax : Int := -32768
  minuteAt : Nat := 0
  deriving DecidableEq, Repr

/-! ### Security (16_identity_security) -/

/-- Security: the OTP as programmed beyond delivery (a byte not listed reads as delivered), GMAC keys, attestation
tokens, the LMS epoch, the noise source, and the objects that commands have written and that are still to be programmed
and read back (R424): they read as written at once. `tokenAt` is the tick at which the bucket regains a token (R432),
`noiseAt` that of the next test of the noise source at boot (R448). -/
@[ext] structure SecSt where
  otp      : SMap Byte := []
  gmac     : SMap (List Byte) := []
  tokens   : Nat := 16
  lmsEpoch : Option Nat := none
  lmsLeft  : Nat := 0
  lmsGen   : Bool := false
  rngOk    : Bool := false
  otpQueue : List (List (Nat × Byte)) := []
  romDone  : Bool := false
  tokenAt  : Nat := 0
  noiseAt  : Nat := 0
  deriving DecidableEq, Repr

/-! ### The converter array (05_converter_array) -/

/-- A converter (R124 to R134): whether it is powered, the slice at each position, the spare, the next position to renew,
the retired slices, the quick-calibration steps done while one runs (with the window of R128 marked), whether the lane
carries no samples for it (R75, R119) and the position of the sample clock at which it last came to carry them, whether
the spare has passed its last calibration, the slices an in-service check has failed that wait for a spare, whether a
foreground window is open or FG_CAL asks for one, when the last window completed and when the converter was left on eight
slices (ticks), and the tick of the last OVERRANGE event. `rotStart` and `stepStart` are the positions of the sample clock
at which the rotation period and the quick-calibration step began (R124, R127); `wins` the foreground windows since the
lane sample indices restarted, each from and to a slice clock, and `fgFrom` the start of the place that the last placed
window took (R133). `done` is the slice clock up to which notices have come, `rows` the samples by slice clock that wait
for the other converters of the lane, from `rowsAt` on (R118, R121), and `swaps` the substitutions of slice clocks not yet
done: edge, position and the slice that went out, newest first. Slice clocks are counted by `Counts.smp`. -/
structure Conv where
  on        : Bool := false
  pos       : List Nat := [0, 1, 2, 3, 4, 5, 6, 7]
  spare     : Option Nat := some 8
  q         : Nat := 0
  retired   : BitVec 9 := 0
  failed    : Bool := false
  qcal      : Option Nat := none
  qcalWin   : Bool := false
  spareOk   : Bool := false
  dark      : Bool := false
  lightPos  : Nat := 0
  faulty    : List Nat := []
  fgWant    : Bool := false
  inWindow  : Bool := false
  fgDone    : Nat := 0
  eightAt   : Nat := 0
  lastOvr   : Option Nat := none
  rotStart  : Nat := 0
  stepStart : Nat := 0
  wins      : List (Nat × Nat) := []
  fgFrom    : Nat := 0
  done      : Nat := 0
  rows      : List (List (BitVec 16)) := []
  rowsAt    : Nat := 0
  swaps     : List (Nat × Nat × Nat) := []
  deriving DecidableEq, Repr

/-- The samples of a lane in use, in 16-bit containers (R140), from the lane number `start` on, and the runs of lane
numbers from and to which a foreground window put zeros (R134). The lane number of a sample is 16 × `CnvSt.origin` + its
index. -/
structure LaneRun where
  start : Nat := 0
  xs    : List (BitVec 16) := []
  zeros : List (Nat × Nat) := []
  deriving DecidableEq, Repr

/-- The array: converters by number, the sample position at which lane sample indices restarted, with the position of
the stream count then, the ports whose
products carry DEGRADED because no window could be placed, whether a quick calibration has been started and not all of
its converters have completed, whether it is that of R119, whether the DIRECT group is armed, the samples of each lane,
and the packed-14 blocks of every lane before index 0. -/
@[ext] structure CnvSt where
  convs    : SMap Conv := []
  base     : Nat := 0
  strBase  : Nat := 0
  fgLate   : BitVec 4 := 0
  qcalOpen : Bool := false
  modeCal  : Bool := false
  direct   : Bool := false
  lanes    : SMap LaneRun := []
  origin   : Nat := 0
  deriving DecidableEq, Repr

/-! ### Launches and the time-interval unit (06_shots_and_tiu) -/

/-- A shot from its launch to its channel update: the fields of its header under R165 and R193, and the monitor window
(device time, inclusive) while it is open. `cut` is the number of record samples digitised where a clock stop cut the
record; `subFirst` and `subCount` the substitutions during it by role; `acts` what takes effect in the channel stage
before it (bit 0 restart of Cascade, 1 PRIMED to 0, 2 U to 0, 3 ZERO_STRAIN) and after it (bit 4 the port's Pool block
closes early); `words` the words of group 0 and of the fibre group it was launched under, where they have changed since
(R46, R139). `lost` is the record sample by role from which a lane that became FAILED is 0 (R139), and `early` how many
of the 35 samples before the launch lie before the sample clock started (R173); `laneAt` is the lane number of record
sample 0. -/
structure Shot where
  index    : Nat := 0
  slot     : Nat := 0
  tick     : Nat := 0
  tIdeal   : Stamp := 0
  tqb      : Byte := 0
  window   : Option (Nat × Nat) := none
  launch   : Option Stamp := none
  tqbStamp : Byte := 0
  delta    : Int := 0
  a        : Int := 0
  flags    : Nat := 0
  interval : Nat := 0
  commitSeq : Nat := 0
  sealRef  : Word := 0
  maps     : List Nat := []
  cut      : Option Nat := none
  subFirst : SMap Nat := []
  subCount : SMap Nat := []
  acts     : Nat := 0
  words    : Option (SMap Word) := none
  lost     : SMap Nat := []
  early    : Nat := 0
  laneAt   : Nat := 0
  deriving DecidableEq, Repr

/-- A launch generator (R143 to R148). `grid` is the tick of the slot-0 launch of the cycle, `next` the slot that
launches next, `cycle` the slot cycles since the last foreground gap, `fgSkip` the cycles still to withhold for one,
`fgSpan` the ticks from and to which R133 places a window in the tail or the gap,
`lastTick` the last launch tick of each slot, `prime` the slots whose next shot is a PRIME shot, `config` and `zeroed`
marks of the next shot, `cmds` the bits of PHS_n_CMD that wait for the shot boundary, `activeSeq` the commit whose copy
is active, `shots` the launches not yet through the channel stage, `acts` what takes effect before the next of them,
`deltas` and `misses` the jitter block, `fallback` the overrides of R139 that wait for the boundary. -/
structure Lch where
  armed     : Bool := false
  grid      : Option Nat := none
  next      : Nat := 0
  cycle     : Nat := 0
  nextIndex : Nat := 0
  lastSlot  : Nat := 0
  lastTick  : SMap Nat := []
  prime     : BitVec 4 := 0
  config    : Bool := false
  zeroed    : Bool := false
  alignHold : Bool := false
  fgSkip    : Nat := 0
  fgSpan    : Option (Nat × Nat) := none
  closed    : Bool := false
  activeSeq : Nat := 0
  cmds      : List Nat := []
  shots     : List Shot := []
  acts      : Nat := 0
  deltas    : List Int := []
  misses    : Nat := 0
  fallback  : List Override := []
  codeTick  : Nat := 0
  deriving DecidableEq, Repr

/-- An entry of the TIU stamp FIFO (R157). -/
structure FifoEntry where
  stamp  : Stamp
  tqb    : Byte
  typ    : Nat
  source : Nat
  flags  : Nat
  value  : Int
  count  : Nat
  lost   : Nat
  deriving DecidableEq, Repr

/-- A TIU channel (R150 to R154): the line in use, its coefficients, calibration failures in a row, whether its line is
calibrated for the next stamp, whether a dead time with a calibration runs, the coarse count at which its dead time ends,
and edges missed since its last FIFO entry. -/
structure TiuCh where
  line     : Option Nat := none
  failed   : Bool := false
  held     : Bool := false
  fails    : Nat := 0
  tap      : Int := 0
  off      : Int := 0
  ready    : Bool := false
  inCal    : Bool := false
  dead     : Nat := 0
  missed   : Nat := 0
  deriving DecidableEq, Repr

/-- An edge held by a measurement context. -/
structure Edge where
  c     : Nat
  f16   : Int
  dly   : Int
  stamp : Stamp
  tqb   : Byte
  flags : Nat
  deriving DecidableEq, Repr

/-- A measurement context (R158 to R160): the open start, the coarse count at which the dead time of its stamp ends, the
stops not yet used, edges counted in period mode, and the block being formed. -/
structure Ctx where
  start     : Option Edge := none
  startDead : Nat := 0
  stops     : List Edge := []
  counted   : Nat := 0
  discNow   : Nat := 0
  results   : List Int := []
  timeouts  : Nat := 0
  discarded : Nat := 0
  ignored   : Nat := 0
  deriving DecidableEq, Repr

/-- The time-interval unit: channels, contexts, the FIFO, lines retired, the spares' channels, failures and last
calibrations. -/
@[ext] structure TiuSt where
  chs      : SMap TiuCh := []
  ctxs     : SMap Ctx := []
  fifo     : List FifoEntry := []
  lost     : Nat := 0
  retired  : BitVec 14 := 0
  spareOf  : SMap Nat := []
  spareFails : SMap Nat := []
  spareCal : SMap Nat := []
  deriving DecidableEq, Repr

/-! ### The phase engine and Basin (07_phase_engine) -/

/-- A complex number with integer parts. -/
structure Cpx where
  re : Int := 0
  im : Int := 0
  deriving DecidableEq, Repr

/-- A slot record of Basin (R191). -/
structure SlotRec where
  pnX    : Cpx := {}
  pnY    : Cpx := {}
  pfX    : Cpx := {}
  pfY    : Cpx := {}
  u      : Int := 0
  primed : Bool := false
  uSat   : Bool := false
  faded  : Bool := false
  deriving DecidableEq, Repr

/-! ### Cascade and Pool (08_pool_cascade) -/

/-- The registers one stage holds for one channel (R199, R201). -/
structure StageReg where
  acc : Int := 0
  lo  : Int := 0
  hi  : Int := 0
  i   : List Int := []
  c   : List Int := []
  w   : List Int := []
  deriving DecidableEq, Repr

/-- A channel's entry in Basin (R191): slot records and Cascade registers by stage. -/
structure Chan where
  slots  : SMap SlotRec := []
  stages : SMap StageReg := []
  deriving DecidableEq, Repr

/-- Basin (R178, R192): channel entries by 65,536 × port + channel, the spares used or passed over, the logical rows moved
to another physical row, the logical rows that produce 0, and the spares that were retired unused. -/
@[ext] structure BasinSt where
  chans  : SMap Chan := []
  used   : Nat := 0
  rowMap : SMap Nat := []
  zeroed : List Nat := []
  lost   : SMap Nat := []
  repair : SMap Nat := []
  badSpares : List Nat := []
  deriving DecidableEq, Repr

/-- The attributes of a tap sample (R203). `since` are the flags of the shots after the sample before it at its tap, up to
its own last. -/
structure TapAttr where
  stamp : Stamp := 0
  tqb   : Byte := 0
  first : Nat := 0
  last  : Nat := 0
  flags : Nat := 0
  since : Nat := 0
  deriving DecidableEq, Repr

/-- What one Cascade stage holds for all channels (R199, R202): inputs since the restart, inputs of the present group,
outputs still to suppress, whether its next output is the first after a restart, and the attributes of its recent
inputs, newest first. -/
structure StageSt where
  j     : Nat := 0
  part  : Nat := 0
  skip  : Nat := 0
  fresh : Bool := true
  hist  : List TapAttr := []
  deriving DecidableEq, Repr

/-- A tap sample of a fibre port: values per channel, five products at T0, one value or a pair elsewhere; `gaps` are the
channels that R189 left incomplete. -/
structure TapSample where
  tap    : Nat
  index  : Nat
  slot   : Nat
  pair   : Bool
  attr   : TapAttr
  values : List (List Int)
  gaps   : List Nat := []
  deriving DecidableEq, Repr

/-- A Cascade chain (R197): stages 1 to 4, samples emitted at each tap, and the tap samples the watches have not yet
taken, oldest first. -/
structure Csc where
  stages : SMap StageSt := []
  index  : SMap Nat := []
  queue  : List TapSample := []
  deriving DecidableEq, Repr

/-- An entry of a Pool engine (R209). -/
structure PEntry where
  s1 : Int := 0
  s2 : Nat := 0
  mn : Int := 0
  mx : Int := 0
  n  : Nat := 0
  deriving DecidableEq, Repr

/-- A block in a result ring (R212): number, flags of R12, place, length, and what each consumer has taken. -/
structure Block4 where
  no      : Nat
  flags   : Nat
  addr    : Nat
  bytes   : Nat
  readout : Nat
  spout   : Nat
  deriving DecidableEq, Repr

/-- An accepted trigger of a RAW engine (R208): the instant t + f ÷ 256 and its device time. -/
structure PTrig where
  t     : Int
  f     : Nat
  stamp : Stamp
  tqb   : Byte
  deriving DecidableEq, Repr

/-- A Pool engine (R206 to R213). `running`: a block is open or opens at the next input event; `seen`: input events
since the block began; `events`: those used; `trigs`: accepted triggers whose record is not yet complete; `lastEnd`: the
last sample of the last accepted record. -/
structure Pol where
  running  : Bool := false
  blockNo  : Nat := 0
  seen     : Nat := 0
  events   : Nat := 0
  entries  : SMap PEntry := []
  tFirst   : Stamp := 0
  tLast    : Stamp := 0
  tqbFirst : Byte := 0
  tqbLast  : Byte := 0
  flags    : Nat := 0
  lostBefore : Bool := false
  ring     : List Block4 := []
  write    : Nat := 0
  trigs    : List PTrig := []
  lastEnd  : Option Int := none
  deriving DecidableEq, Repr

/-! ### Weir (09_weir) -/

/-- The condition detector of R217 to R221: comparators at LO and HI (none before the first sample), the last value,
the begin instant of a pulse, runt or edge, whether it has already been met, and TIMEOUT's reference instant. -/
structure Cond where
  lo    : Option Bool := none
  hi    : Option Bool := none
  last  : Int := 0
  start : Option Int := none
  met   : Bool := false
  q     : Option Int := none
  qMet  : Bool := false
  deriving DecidableEq, Repr

/-- Holdoff (R234): none, until a count of the unit's clock, or a number of conditions still to suppress. -/
inductive Hold where
  | none
  | until (t : Nat)
  | conds (n : Nat)
  deriving DecidableEq, Repr

/-- Where a unit's next allocation stands (R235). -/
inductive Alloc where
  | none | asked | accepted | refused
  deriving DecidableEq, Repr

/-- A lane trigger unit or a watch in motion (R223, R227, R233 to R237). `chans` are the detectors of a watch's
channels, `marks` the last completion sample of each channel, `since` the first tap sample a watch takes after it was
added or changed, `sinceShot` the first shot whose tap samples it takes, for one enabled while its port was disarmed,
`seenShot` one past SHOT_LAST of the tap sample it evaluated last (R230), `post` the segment whose post-trigger window is
open, and `postEnd` where that window ends: the position of the sample clock past a unit's last sample, or one past a
watch's last shot. `tins` are the TIN edges stamped and not yet met, as lane instants in 1/256 sample (R222). -/
structure Weir where
  armed     : Bool := false
  cond      : Cond := {}
  chans     : SMap Cond := []
  marks     : SMap Nat := []
  hold      : Hold := .none
  alloc     : Alloc := .none
  post      : Option Nat := none
  suspended : Bool := false
  deadOpen  : Option Nat := none
  missed    : Nat := 0
  deadLast  : Nat := 0
  missedLast : Nat := 0
  sumSince  : Nat := 0
  missSince : Nat := 0
  lastT     : Nat := 0
  lastF     : Nat := 0
  force     : Bool := false
  since     : Nat := 0
  sinceShot : Nat := 0
  seenShot  : Nat := 0
  postEnd   : Nat := 0
  tins      : List Int := []
  stat      : Status := {}
  deriving DecidableEq, Repr

/-- Weir: units, watches, the alarm and its first source, evaluation lanes lost and spares used per fibre port, the ports
that have left tap samples unevaluated, and the index and stamp of the tap samples from the last one evaluated at each
tap, newest first (R229). -/
@[ext] structure WeirSt where
  units    : SMap Weir := []
  watches  : SMap Weir := []
  alarm    : Bool := false
  alarmSrc : Nat := 0
  lanes    : SMap (Nat × Nat) := []
  degraded : BitVec 4 := 0
  tapLog   : SMap (List (Nat × Stamp)) := []
  deriving DecidableEq, Repr

/-! ### Cistern (10_cistern) -/

/-- A unit-table entry (R261), with the unit's own dead-time figures. -/
structure SegUnit where
  unit  : Nat
  frac  : Nat
  tqb   : Byte
  stamp : Stamp
  deriving DecidableEq, Repr

/-- OPEN or CLOSED (R255); a FREE slot has no segment in the state. -/
inductive SegState where
  | opened | closed
  deriving DecidableEq, Repr

/-- A live segment: its head block (R260) and descriptor (R267). `len` is the extent, `ended` the device
time at which its post-trigger window ended (0 while it is open), `origin` the blocks before index 0 of the lanes at its
fire, `cut` the lane number at which a stop of the sample clock cut it (R263),
`pinned` and `late` the STATE bits, `held` the reads in progress (R259). -/
structure Seg where
  id       : Nat
  slot     : Nat
  region   : Nat
  watch    : Bool
  fibre    : Nat := 0xFF
  tap      : Nat := 0xFF
  state    : SegState := .opened
  ended    : Stamp := 0
  origin   : Nat := 0
  cut      : Option Nat := none
  pinned   : Bool := false
  late     : Bool := false
  held     : Nat := 0
  base     : Nat
  len      : Nat
  units    : List SegUnit
  flags    : Nat := 0
  dead     : Nat := 0
  missed   : Nat := 0
  pre      : Nat := 0
  post     : Nat := 0
  tFirst   : Nat := 0
  lanes    : Nat := 0
  prodMask : Nat := 0
  firstCh  : Nat := 0
  countCh  : Nat := 0
  spanFirst : Nat := 0
  spanLen  : Nat := 0
  nTap     : Nat := 0
  missing  : Nat := 0
  hole     : Nat := 0
  dataLen  : Nat := 0
  tag      : Nat := 0
  sealRef  : Word := 0
  commitSeq : Nat := 0
  prevId   : Nat := 0
  digest   : List Byte := []
  order    : Nat := 0
  deriving DecidableEq, Repr

/-- An allocation a unit holds in its region (R252). -/
structure Extent where
  unit  : UnitId
  base  : Nat
  len   : Nat
  deriving DecidableEq, Repr

/-- A region (R252, R266): write pointer (bytes from the region base), allocations, chain value (none is H_0), advances,
the last segment linked, and whether it advanced since the last seal. -/
structure Region where
  write    : Nat := 0
  allocs   : List Extent := []
  chain    : Option (List Byte) := none
  links    : Nat := 0
  lastSeg  : Nat := 0
  advanced : Bool := false
  deriving DecidableEq, Repr

/-- A pre-trigger history in DRAM (R248): where its ring begins, the bytes of one entry, the entries it holds, and the
runs of what has been written: lane numbers, shot indices, or tap INDEX values, newest last. -/
structure Hist where
  base : Nat
  unit : Nat
  cap  : Nat
  held : List (Nat × Nat) := []
  deriving DecidableEq, Repr

/-- What the shot history tells of a shot: its index, the lane number of its first record sample, the record samples
digitised where a clock stop cut it, and bits 0 to 3 of its flags. -/
structure ShotMark where
  index : Nat
  start : Nat
  cut   : Option Nat
  flags : Nat
  deriving DecidableEq, Repr

/-- What a tap history tells of a tap sample: its INDEX, SHOT_LAST and bits 0 to 3 of its flags. -/
structure TapMark where
  index : Nat
  last  : Nat
  flags : Nat
  deriving DecidableEq, Repr

/-- Why a seal is made (R272, R442): the interval, the seal command, SEAL_NOW, or a life-cycle advance. -/
inductive SealKind where
  | interval | host | cmd | life
  deriving DecidableEq, Repr

/-- The segments, regions and seals (R272, R273): the last seal's number and the last sixteen records, newest first, the
SHA-384 of the previous signed part, the tick at which the previous seal began (none once 1 s has passed), the seals
that wait for an LMS epoch, oldest first, and whether SEAL_NOW waits for that second to pass. `hist` are the histories by
key (lane; 16 + port for shot headers; 32 + 8 × port + product at T0; 64 + 8 × port + tap), `shots` and `taps` what they
hold, newest first, by port and by 8 × port + tap. -/
@[ext] structure CisSt where
  segs     : List Seg := []
  nextSeg  : Nat := 1
  regions  : SMap Region := []
  sealNo   : Nat := 0
  seals    : List (List Byte) := []
  sealPrev : List Byte := []
  sealAt   : Option Nat := none
  sealWait : List SealKind := []
  nowWait  : Bool := false
  hist     : SMap Hist := []
  shots    : SMap (List ShotMark) := []
  taps     : SMap (List TapMark) := []
  deriving DecidableEq, Repr


/-! ### DRAM (11_memory) -/

/-- A request in a bank queue (R285, R288): the burst, what it writes, its place in the arrival order and how many
younger row hits have passed it; `flip` is the error of its read that the decoder leaves, `bad` that it is uncorrectable
(R307, R308). -/
structure DQ where
  write  : Bool
  burst  : Nat
  data   : List Byte
  mask   : List Bool
  poison : Bool
  who    : Nat
  order  : Nat
  passed : Nat := 0
  flip   : List Byte := []
  bad    : Bool := false
  deriving DecidableEq, Repr

/-- A bank (R288 to R292, R298, R301): queue, open row, the order below which writes must issue before in-order mode
ends, the counting table, the rows whose neighbours wait at the head of the queue, and the tick of its last column
command. -/
structure Bank where
  queue   : List DQ := []
  row     : Option Nat := none
  inOrder : Option Nat := none
  table   : List (Nat × Nat) := []
  nbrs    : List Nat := []
  colAt   : Nat := 0
  deriving DecidableEq, Repr

/-- A rank (R294 to R296): REF commands that have fallen due, power-down (0 no, 1 active, 2 precharge), the last MPR
temperature status, the tick of its last command, and the ticks at which the next REF falls due and the next MPR read is
made (0 where none has been). -/
structure Rank where
  due   : Nat := 0
  pd    : Nat := 0
  temp  : Nat := 0
  cmdAt : Nat := 0
  refAt : Nat := 0
  mprAt : Nat := 0
  deriving DecidableEq, Repr

/-- A command held in the retry buffer (R313): a column access of a request, or a REF of a rank. -/
inductive DCmd where
  | column (bank : Nat) (q : DQ) (tick : Nat)
  | refresh (rank : Nat) (tick : Nat)
  deriving DecidableEq, Repr

/-- A DRAM channel. `code` is the STATE of R318. `cells` are the bytes by channel-local address (zero where not listed,
R443), `poisoned` the bursts stored poisoned. `held` are the requests that wait in the input rill, `retry` the commands
within ALERT_WIN with the tick of their issue, oldest first; `alerted` and
`fails` the alert of R314 in progress and its failed replays, `replayTill` and `replayRanks` the tick until which the
last replay can still fail and the ranks it named, whose younger commands wait until then. `zqcs` says that a ZQCS is
owed before the next column command (R297). `corrRows` are the bursts corrected, with the tick of each (R310), `pprUsed`
the PPR resources used by rank and bank group, `hppr` the rows awaiting hPPR, `gen` the DRAM generation, `faults` the
ticks of the channel's faults, `relock` whether its retraining follows a relock of its PLL. `sweep` is the patrol's
position in bursts. `usedAt` is the tick of the last request, but for the patrol's; `wakeAt`, `trefwAt`, `zqcsAt` and
`scrubAt` are the ticks at which the wake of SCRUB_WAKE, the next tREFW, the next ZQCS and the next patrol read fall due (0
where none has been). -/
structure DChan where
  code     : Nat := 0
  ranks    : Nat := 0
  x8       : Bool := false
  gb16     : Bool := false
  rdimm    : Bool := false
  cells    : SMap Byte := []
  poisoned : List Nat := []
  held     : List DQ := []
  banks    : SMap Bank := []
  rankSt   : SMap Rank := []
  arrivals : Nat := 0
  pointer  : Nat := 0
  writing  : Bool := false
  run      : Nat := 0
  retry    : List DCmd := []
  alerted  : Bool := false
  fails    : Nat := 0
  replayTill : Nat := 0
  replayRanks : List Nat := []
  twoX     : Bool := false
  selfRef  : Bool := false
  zqcs     : Bool := false
  corrRows : List (Nat × Nat) := []
  pprUsed  : Nat := 0
  hppr     : List Nat := []
  gen      : Nat := 0
  faults   : List Nat := []
  relock   : Bool := false
  sweep    : Nat := 0
  usedAt   : Nat := 0
  wakeAt   : Nat := 0
  trefwAt  : Nat := 0
  zqcsAt   : Nat := 0
  scrubAt  : Nat := 0
  deriving DecidableEq, Repr

/-- A read's answer, or a completed write's acknowledgement (R286, R287). -/
structure Answer where
  who    : Nat
  ch     : Nat
  burst  : Nat
  write  : Bool
  poison : Bool
  data   : List Byte
  deriving DecidableEq, Repr

/-- The memory subsystem. `nActive`, `grade`, `spare`, `chmap` and `grain` are in effect (R280, R304, R318); `phase`,
`source`, `target`, `ptr` the migration of R317; `kept` the bursts above `ptr` written meanwhile (R316); `copyAt` the tick
from which the next burst of channel 16 may move; `regrade` that the memory PLLs relock for a commit or a drop of GRADE
(R305); `filling` the commit whose zero-fill runs (R284); `setup` the commits whose retraining runs; `answers` what the
requesters have been given. -/
@[ext] structure DramSt where
  chans   : SMap DChan := []
  nActive : Nat := 0
  grade   : Nat := 3
  spare   : Nat := 15
  chmap   : List Nat := []
  grain   : Nat := 12
  phase   : Nat := 0
  source  : Nat := 0
  target  : Nat := 0
  ptr     : Nat := 0
  kept    : List Nat := []
  copyAt  : Nat := 0
  regrade : Bool := false
  filling : Option Nat := none
  setup   : List Nat := []
  answers : List Answer := []
  deriving DecidableEq, Repr

/-! ### Runnel (12_runnel) -/

/-- The states of a Runnel channel (R336); one that moves while its source FIFO has no byte to give is in WAIT_FIFO. -/
inductive RState where
  | idle | fetch | moving | halted
  deriving DecidableEq, Repr

/-- A Runnel channel (R319 to R334): its state, the current descriptor, bytes written, whether a source byte was
poisoned, the last status, the session that started it, whether a stop waits for a burst boundary, and the consecutive
bursts that went to higher levels while it was ready; `waitFrom` is the tick from which a wait for a FIFO counts. -/
structure RChan where
  state    : RState := .idle
  cur      : Nat := 0
  src      : Nat := 0
  dst      : Nat := 0
  len      : Nat := 0
  ctrl     : Word := 0
  next     : Nat := 0
  moved    : Nat := 0
  poisoned : Bool := false
  status   : Nat := 0
  ses      : Nat := 0
  stop     : Bool := false
  starved  : Nat := 0
  waitFrom : Nat := 0
  deriving DecidableEq, Repr

/-- Runnel: channels, the channel last granted at each level (R320), and the on-die memories that lie only behind its
windows (R328): mailboxes with their poison marks by 8-byte word, and the bytes of the front TIU FIFO entry already read
(R329). Spout staging is the streams' queues. -/
@[ext] structure RnlSt where
  chans    : SMap RChan := []
  last     : SMap Nat := []
  mbox     : SMap Byte := []
  mboxBad  : List Nat := []
  tiuOff   : Nat := 0
  deriving DecidableEq, Repr

/-! ### The whole machine -/

/-- The state of the block: the commands that wait, oldest first, and everything the spec gives the device. `arms` are
the arms that wait for their stamp: targets and stamp (R146); `timers` the ticks at which timed rows fall due, by the keys
of `timerKey`. -/
@[ext]
structure State where
  pending : List Instr := []
  regs    : Regs := {}
  commits : CommitSt := {}
  sealing : SealSt
  folds   : SMap Fold := []
  pwr     : PwrSt := {}
  boot    : Boot := .held
  pins    : Pins := {}
  clk     : ClkSt := {}
  tb      : TbSt := {}
  cnt     : Counts := {}
  slc     : SlcSt := {}
  spt     : SptSt := {}
  ports   : SMap Port := []
  ptp     : PtpSt := {}
  lgr     : LgrSt := {}
  sec     : SecSt := {}
  cnv     : CnvSt := {}
  lch     : SMap Lch := []
  arms    : List (BitVec 16 × Stamp) := []
  tiu     : TiuSt := {}
  basin   : BasinSt := {}
  csc     : SMap Csc := []
  pol     : SMap Pol := []
  weir    : WeirSt := {}
  cis     : CisSt := {}
  dram    : DramSt := {}
  rnl     : RnlSt := {}
  timers  : SMap Nat := []
  deriving DecidableEq, Repr

/-- The machine at power-on, in reset (R447): every register at its reset value, the queue empty, the reference seal
that of the reset image (R49). -/
def State.reset : State := { sealing := { ref := sealOf [] } }

end Sys2Proof.Machine
end

