-- ==== Sys2Proof/Machine/Arith.lean ====
section
/-!
DEFINITION. Sparse maps, bit fields, byte strings, the rounding of R9 and the standard functions of the arithmetic
chapters.
-/

namespace Sys2Proof.Machine

/-! ### Sparse maps -/

/-- The value at a key, `d` where the key is not listed. -/
def smGet {α : Type} (d : α) (k : Nat) : SMap α → α
  | [] => d
  | (j, v) :: m => if j = k then v else smGet d k m

/-- The value at a key, none where the key is not listed. -/
def smFind {α : Type} (k : Nat) : SMap α → Option α
  | [] => none
  | (j, v) :: m => if j = k then some v else smFind k m

/-- Lists a value at a key, in key order. -/
def smIns {α : Type} (k : Nat) (v : α) : SMap α → SMap α
  | [] => [(k, v)]
  | (j, w) :: m => if k < j then (k, v) :: (j, w) :: m else if k = j then (k, v) :: m else (j, w) :: smIns k v m

/-- Takes a key out. -/
def smDel {α : Type} (k : Nat) : SMap α → SMap α
  | [] => []
  | (j, w) :: m => if k = j then smDel k m else (j, w) :: smDel k m

/-- Writes a value at a key; the value an unlisted key reads as takes the entry out. -/
def smPut {α : Type} [DecidableEq α] (d : α) (k : Nat) (v : α) (m : SMap α) : SMap α :=
  if v = d then smDel k m else smIns k v m

/-- Keys strictly rising from `lo`, and no entry equal to the default. -/
def smWfFrom {α : Type} [DecidableEq α] (d : α) : Nat → SMap α → Bool
  | _, [] => true
  | lo, (j, v) :: m => decide (lo ≤ j) && decide (v ≠ d) && smWfFrom d (j + 1) m

/-- The canonical form of a sparse map. -/
def smWf {α : Type} [DecidableEq α] (d : α) (m : SMap α) : Bool := smWfFrom d 0 m

/-! ### Sorting -/

/-- Puts an item before the first one that it does not come after. -/
def insertBy {α : Type} (le : α → α → Bool) (x : α) : List α → List α
  | [] => [x]
  | y :: ys => if le x y then x :: y :: ys else y :: insertBy le x ys

/-- A list in order; equal items keep their order. -/
def sortBy {α : Type} (le : α → α → Bool) (l : List α) : List α := l.foldr (insertBy le) []

/-! ### Bit fields and bytes -/

/-- `n` bits of a word from bit `lo`. -/
def fld (w : Word) (lo n : Nat) : Nat := (w.toNat >>> lo) % 2 ^ n

/-- Bit `i` of a word. -/
def bit (w : Word) (i : Nat) : Bool := w.getLsbD i

/-- Bit `i` of a number. -/
def nbit (v i : Nat) : Bool := v.testBit i

/-- 1 for true. -/
def b2n (b : Bool) : Nat := if b then 1 else 0

/-- The signed value of the low `n` bits of a number. -/
def sgn (n v : Nat) : Int :=
  if v % 2 ^ n < 2 ^ (n - 1) then ((v % 2 ^ n : Nat) : Int) else ((v % 2 ^ n : Nat) : Int) - 2 ^ n

/-- The low `n` bits of the two's complement of an integer. -/
def twos (n : Nat) (i : Int) : Nat := (i % 2 ^ n).toNat

/-- A word from a number. -/
def wd (n : Nat) : Word := BitVec.ofNat 32 n

/-- Where a word sits between two ends, "the nearest end of that range". -/
def clampN (lo hi v : Nat) : Nat := if v < lo then lo else if hi < v then hi else v

/-- The integers between two ends. -/
def clampI (lo hi v : Int) : Int := if v < lo then lo else if hi < v then hi else v

/-- The least significant `n` bytes of a number, least significant first (R6). -/
def le : Nat → Nat → List Byte
  | 0, _ => []
  | n + 1, v => BitVec.ofNat 8 v :: le n (v / 256)

/-- The number that bytes spell, least significant first (R6). -/
def ofLe : List Byte → Nat
  | [] => 0
  | b :: bs => b.toNat + 256 * ofLe bs

/-- The most significant byte first. -/
def be (n v : Nat) : List Byte := (le n v).reverse

/-- `n` bytes of a list from an offset, as far as they are there. -/
def slice {α : Type} (off n : Nat) (l : List α) : List α := (l.drop off).take n

/-- The number in `n` bytes at an offset. -/
def leAt (l : List Byte) (off n : Nat) : Nat := ofLe (slice off n l)

/-- `n` zero bytes. -/
def zeros (n : Nat) : List Byte := List.replicate n 0

/-- A list padded with zeros to a length. -/
def padTo (n : Nat) (l : List Byte) : List Byte := l ++ zeros (n - l.length)

/-- A number rounded up to a multiple. -/
def roundUp (m v : Nat) : Nat := (v + m - 1) / m * m

/-- A number rounded up after division. -/
def ceilDiv (a b : Nat) : Nat := (a + b - 1) / b

/-- The number of set bits among the low `n`. -/
def popcount (n v : Nat) : Nat := ((List.range n).filter fun i => v.testBit i).length

/-- The numbers of the set bits among the low `n`, ascending. -/
def bitsOf (n v : Nat) : List Nat := (List.range n).filter fun i => v.testBit i

/-- A number with bit `i` set. -/
def setBit (v i : Nat) : Nat := v ||| (1 <<< i)

/-- A number with bit `i` clear. -/
def clrBit (v i : Nat) : Nat := if v.testBit i then v - 2 ^ i else v

/-- A number with bit `i` at a value. -/
def putBit (v i : Nat) (b : Bool) : Nat := if b then setBit v i else clrBit v i

/-- The 12 bytes of a stamp (R89): seconds [31:0], seconds [47:32], the 2^-16 ns fraction, nanoseconds. -/
def stampBytes (t : Stamp) : List Byte :=
  let ns := t / 65536
  le 4 (ns / 1000000000) ++ le 2 (ns / 1000000000 / 2 ^ 32) ++ le 2 (t % 65536) ++ le 4 (ns % 1000000000)

/-- Word `i` of a stamp (R89). -/
def stampWord (t : Stamp) (i : Nat) : Word := wd (ofLe (slice (4 * i) 4 (stampBytes t)))

/-- The stamp that 12 bytes of R89 spell. -/
def ofStamp (l : List Byte) : Stamp :=
  let sec := leAt l 0 4 + leAt l 4 2 * 2 ^ 32
  (sec * 1000000000 + leAt l 8 4) * 65536 + leAt l 6 2

/-! ### Rounding (R9) -/

/-- The nearest integer to `a ÷ b`, ties to even, for positive `b` (R9). -/
def rhe (a : Int) (b : Nat) : Int :=
  let q := a / (b : Int)
  let r := a % (b : Int)
  if 2 * r < b then q else if (b : Int) < 2 * r then q + 1 else if q % 2 = 0 then q else q + 1

/-- The nearest integer to `a ÷ 2^k`, ties to even. -/
def rsh (a : Int) (k : Nat) : Int := rhe a (2 ^ k)

/-- Saturation to `n` bits, two's complement (R9). -/
def satS (n : Nat) (v : Int) : Int := clampI (-(2 ^ (n - 1))) (2 ^ (n - 1) - 1) v

/-- Saturation to `n` bits, unsigned (R9). -/
def satU (n : Nat) (v : Int) : Int := clampI 0 (2 ^ n - 1) v

/-- Two's complement wrap to `n` bits. -/
def wrapS (n : Nat) (v : Int) : Int := sgn n (twos n v)

/-! ### Roots, sines and arctangents -/

/-- Newton steps towards the square root, largest bit first. -/
def isqrtFrom (v : Nat) : Nat → Nat → Nat
  | 0, r => r
  | k + 1, r => if (r + 2 ^ k) * (r + 2 ^ k) ≤ v then isqrtFrom v k (r + 2 ^ k) else isqrtFrom v k r

/-- The integer part of the square root of a number. -/
def isqrt (v : Nat) : Nat := isqrtFrom v (v.log2 / 2 + 1) 0

/-- The square root of `a ÷ b` rounded to the nearest integer; an exact half goes to the even integer. -/
def rsqrt (a b : Nat) : Int :=
  -- the square root of a ÷ b lies above r + 1/2 exactly where 4a > b (2r + 1)^2
  let r := isqrt (a / b)
  if b * ((2 * r + 1) * (2 * r + 1)) < 4 * a then r + 1
  else if b * ((2 * r + 1) * (2 * r + 1)) = 4 * a then (if r % 2 = 0 then r else r + 1) else r

/-- 2π in 2^-80. -/
def twoPi : Nat := 7595904947272677161575987

/-- The series of sine or cosine from term `t` of power `n`, argument squared `x2`, all in 2^-80. -/
def trigSeries (x2 : Int) : Nat → Nat → Int → Int
  | 0, _, _ => 0
  | k + 1, n, t => t + trigSeries x2 k (n + 2) (-(t * x2 / 2 ^ 80) / (((n + 1) * (n + 2) : Nat) : Int))

/-- cos(2π k ÷ 2^n) in 2^-80, to within a few units. -/
def cosTurn (k n : Nat) : Int :=
  let x : Int := (twoPi * (k % 2 ^ n) : Nat) / (2 ^ n : Nat)
  let y : Int := if (twoPi : Int) < 2 * x then x - twoPi else x
  trigSeries (y * y / 2 ^ 80) 40 0 (2 ^ 80)

/-- sin(2π k ÷ 2^n) in 2^-80, to within a few units. -/
def sinTurn (k n : Nat) : Int :=
  let x : Int := (twoPi * (k % 2 ^ n) : Nat) / (2 ^ n : Nat)
  let y : Int := if (twoPi : Int) < 2 * x then x - twoPi else x
  trigSeries (y * y / 2 ^ 80) 40 1 y

/-- Terms of Euler's series of the arctangent of `z ≤ 1`, with w = z²/(1+z²), in 2^-80. -/
def atanSeries (w : Int) : Nat → Nat → Int → Int
  | 0, _, _ => 0
  | k + 1, n, t => t + atanSeries w k (n + 1) (t * w / 2 ^ 80 * (2 * n : Nat) / ((2 * n + 1 : Nat) : Int))

/-- The angle of a point of the first octant (0 ≤ y ≤ x, 0 < x) in radians, 2^-80. -/
def atanOct (y x : Nat) : Int :=
  let d : Int := ((x * x + y * y : Nat) : Int)
  atanSeries (((y * y : Nat) : Int) * 2 ^ 80 / d) 90 1 (((x * y : Nat) : Int) * 2 ^ 80 / d)

/-- The angle of a point of the first quadrant in radians, 2^-80. -/
def atanQuad (y x : Nat) : Int :=
  if y ≤ x then atanOct y x else (twoPi : Int) / 4 - atanOct x y

/-- The angle of a point in turns, 2^-`n`, rounded under R9; exact on the axes and 0 at the origin. -/
def turns (y x : Int) (n : Nat) : Int :=
  if y = 0 then (if x < 0 then 2 ^ n / 2 else 0)
  else if x = 0 then (if 0 < y then 2 ^ n / 4 else -(2 ^ n / 4))
  else if y = x then (if 0 < y then 2 ^ n / 8 else -(3 * 2 ^ n / 8))
  else if y = -x then (if 0 < y then 3 * 2 ^ n / 8 else -(2 ^ n / 8))
  else
    let q := atanQuad y.natAbs x.natAbs
    let a : Int := if 0 < x then q else (twoPi : Int) / 2 - q
    rhe ((if 0 < y then a else -a) * 2 ^ n) twoPi

end Sys2Proof.Machine
end

