-- ==== Sys2Proof/Machine/Ops.lean ====
section
/-!
DEFINITION. The named operations every family uses: device time, registers, counters, events, ledgers, free values,
and the accessors of the sub-machines.
-/

namespace Sys2Proof.Machine

/-! ### Time (R104 to R106) -/

/-- Device time now, truncated to 2^-16 ns (R104); the backup accumulator while it stands in (R105). -/
def now (s : State) : Stamp := (if s.tb.backup then s.tb.backAcc else s.tb.acc) / 2 ^ 32

/-- The STATE code of the time-quality byte (R106). -/
def tbCode : TbState → Nat
  | .unset => 0
  | .freerun => 1
  | .holdover => 2
  | .locked => 3
  | .acquiring => 4

/-- The time-quality byte now (R106). -/
def tqb (s : State) : Byte :=
  BitVec.ofNat 8 (tbCode s.tb.state + 8 * b2n s.tb.backup + 16 * (s.tb.epoch % 16))

/-- Device time is valid when STATE is not UNSET (R106). -/
def timeValid (s : State) : Bool := s.tb.state ≠ .unset

/-- One second in units of a stamp. -/
def second : Nat := 1000000000 * 65536

/-- The first 16 bytes of replies that carry STAMP, TQB and three reserved bytes. -/
def stampTqb (s : State) : List Byte := stampBytes (now s) ++ [tqb s] ++ zeros 3

/-! ### Timers -/

/-- Kinds of timers: the 1.0 ms schedule of the seal scan (R51). -/
abbrev tmScan := 2

/-- The 1 ms marks of the calibration of a TIU channel with CAL_EACH at 0 (R152). -/
abbrev tmTiuCal := 3

/-- The calibration of an idle spare line every 1 s (R153). -/
abbrev tmSpareCal := 4

/-- The settling timer of a PLL (R94). -/
abbrev tmSettle := 5

/-- RELOCK_MS of the core PLL in use (R98). -/
abbrev tmRelock := 6

/-- The retries of a core PLL every 1 s (R98). -/
abbrev tmCoreRetry := 7

/-- The trim of AON every 1 s (R103). -/
abbrev tmTrim := 8

/-- The count of a reference, retried every 100 ms (R92). -/
abbrev tmRefCount := 9

/-- The count of REFCLK_C against REFCLK_S every 1 s (R92). -/
abbrev tmCross := 10

/-- The steering of the backup accumulator every 1 ms (R105). -/
abbrev tmSteer := 11

/-- The time without a measurement that ends in HOLDOVER (R107). -/
abbrev tmMeas := 12

/-- HOLDOVER_S (R107). -/
abbrev tmHoldover := 13

/-- WIDTH_MS of PPS_OUT (R111). -/
abbrev tmPpsWidth := 14

/-- The 10 s of a TIME_SET that waits for an edge, by session (R388). -/
abbrev tmTimeSet := 15

/-- The sealing interval (R272). -/
abbrev tmSeal := 16

/-- The width of a TRIG_OUT pulse (R239). -/
abbrev tmTrig := 17

/-- PULSE_MS of the Weir alarm (R240). -/
abbrev tmAlarm := 18

/-- The key of a timer: its kind (the `tm…` numbers) and its instance. -/
def timerKey (kind i : Nat) : Nat := kind * 2 ^ 32 + i

/-- 1 ms in ticks of 2 ns. -/
abbrev msTicks := 500000

/-- The tick at which a periodic event falls due again after one that was due at `due`, or that is the first. -/
def nextDue (s : State) (due n : Nat) : Nat := (if due = 0 then s.cnt.ticks else due) + n

/-- One second in ticks of 2 ns. -/
abbrev secTicks := 500000000

/-- A timed row falls due `n` ticks from now. -/
def timerSet (kind i n : Nat) (s : State) : State := { s with timers := smIns (timerKey kind i) (s.cnt.ticks + n) s.timers }

/-- A periodic row falls due `n` ticks after it last did, late as its command may have come. -/
def timerGrid (kind i n : Nat) (s : State) : State :=
  let t := (smFind (timerKey kind i) s.timers).getD s.cnt.ticks
  { s with timers := smIns (timerKey kind i) (t + n) s.timers }

/-- A timer stops. -/
def timerStop (kind i : Nat) (s : State) : State := { s with timers := smDel (timerKey kind i) s.timers }

/-- A timer runs. -/
def timerRuns (s : State) (kind i : Nat) : Bool := (smFind (timerKey kind i) s.timers).isSome

/-- A timer runs and its time has come. -/
def timerRan (s : State) (kind i : Nat) : Bool :=
  match smFind (timerKey kind i) s.timers with
  | none => false
  | some t => decide (t ≤ s.cnt.ticks)

/-- The time of a timed row has come; a timer that does not run holds no row back. -/
def timerDue (s : State) (kind i : Nat) : Bool :=
  match smFind (timerKey kind i) s.timers with
  | none => true
  | some t => decide (t ≤ s.cnt.ticks)

/-! ### Registers -/

/-- A word of an image with a new value; the reset value takes the entry out. -/
def imagePut (a : Nat) (w : Word) (m : SMap Word) : SMap Word := if w = resetOf a then smDel a m else smIns a w m

/-- A word with the overrides of its address laid over it (R54, R55). -/
def withOverrides (ovs : List Override) (a : Nat) (w : Word) : Word :=
  ovs.foldl (fun v o => if o.addr = a then (v &&& ~~~o.mask) ||| (o.value &&& o.mask) else v) w

/-- The value the hardware uses: the active copy with its overrides (R31, R55). -/
def cfg (s : State) (a : Nat) : Word := withOverrides s.regs.overrides a (imageGet s.regs.active a)

/-- A field of the value the hardware uses. -/
def cfgF (s : State) (a lo n : Nat) : Nat := fld (cfg s a) lo n

/-- A bit of the value the hardware uses. -/
def cfgB (s : State) (a i : Nat) : Bool := bit (cfg s a) i

/-- A sts, cnt, once or cmd word as it stands. -/
def hw (s : State) (a : Nat) : Word := imageGet s.regs.hw a

/-- Sets a sts, cnt, once or cmd word. -/
def setHw (a : Nat) (w : Word) (s : State) : State := { s with regs := { s.regs with hw := imagePut a w s.regs.hw } }

/-- Sets a counter word from a number. -/
def setCnt (a n : Nat) (s : State) : State := setHw a (wd n) s

/-- A 32-bit count that wraps. -/
def addCnt (a n : Nat) (s : State) : State := setHw a (hw s a + wd n) s

/-- A 32-bit count that holds at 2^32 − 1. -/
def addHold (a n : Nat) (s : State) : State := setHw a (wd (Nat.min (2 ^ 32 - 1) ((hw s a).toNat + n))) s

/-- A 64-bit count in two words, low word first (R36). -/
def cnt64 (s : State) (a : Nat) : Nat := (hw s a).toNat + 2 ^ 32 * (hw s (a + 4)).toNat

/-- Sets a 64-bit count. -/
def setCnt64 (a n : Nat) (s : State) : State := setHw (a + 4) (wd (n / 2 ^ 32)) (setHw a (wd n) s)

/-- Adds to a 64-bit count. -/
def addCnt64 (a n : Nat) (s : State) : State := if n = 0 then s else setCnt64 a ((cnt64 s a + n) % 2 ^ 64) s

/-- Sets the three words of a stamp register (R113). -/
def setStamp (a : Nat) (t : Stamp) (s : State) : State :=
  setHw (a + 8) (stampWord t 2) (setHw (a + 4) (stampWord t 1) (setHw a (stampWord t 0) s))

/-- A cmd bit's action completes: a queued start runs again, else the bit clears. -/
def cmdDone (a b : Nat) (again : State → State) (s : State) : State :=
  if (a, b) ∈ s.regs.cmdQueued then again { s with regs := { s.regs with cmdQueued := s.regs.cmdQueued.filter (· ≠ (a, b)) } }
  else setHw a (wd (clrBit (hw s a).toNat b)) s

/-! ### Streams of events (R350, R419, R420) -/

/-- The address of a stream entry (R371). -/
def streamAt (n : Nat) : Nat := 0xB4000 + 12 * n

/-- The enabled streams, ascending (R371): an entry not listed holds its reset value, which is disabled. -/
def enabledStreams (m : SMap Word) : List Nat :=
  m.filterMap fun (a, w) =>
    if 0xB4000 ≤ a ∧ a < 0xC0000 ∧ (a - 0xB4000) % 12 = 0 ∧ bit w 0 then some ((a - 0xB4000) / 12) else none

/-- A stream's state. -/
def stream (s : State) (n : Nat) : Stream := smGet {} n s.spt.streams

/-- Sets a stream's state. -/
def setStream (n : Nat) (x : Stream) (s : State) : State :=
  { s with spt := { s.spt with streams := smPut {} n x s.spt.streams } }

/-- TYPE of a stream, as the active copy gives it. -/
def streamType (s : State) (n : Nat) : Nat := cfgF s (streamAt n) 1 3

/-- MODE of an Ethernet port in effect; 7 is treated as 0 (R370). -/
def portMode (m : Nat → Word) (p : Nat) : Nat := if fld (m (0xA0000 + 0x1000 * p)) 0 3 = 7 then 0 else fld (m (0xA0000 + 0x1000 * p)) 0 3

/-- MAX_FRAME of an Ethernet port (R340, R370). -/
def maxFrame (m : Nat → Word) (p : Nat) : Nat := clampN 1518 9216 (fld (m (0xA0004 + 0x1000 * p)) 0 14)

/-- PL of R349. -/
def plOf (m : Nat → Word) : Nat :=
  (if portMode m 0 = 0 ∧ portMode m 1 ≠ 0 then maxFrame m 1
   else if portMode m 1 = 0 ∧ portMode m 0 ≠ 0 then maxFrame m 0
   else Nat.min (maxFrame m 0) (maxFrame m 1)) - 150

/-- The head of an event entry (R350). -/
def eventHead (code len src : Nat) (t : Stamp) (q : Byte) (eflags part tag : Nat) : List Byte :=
  le 2 code ++ le 2 len ++ le 4 src ++ stampBytes t ++ [q] ++ le 1 eflags ++ le 2 part ++ le 4 tag ++ zeros 4

/-- An event before it is laid out: what R419, R420 and R350 say of it. -/
structure Event where
  code  : Nat
  src   : Nat
  stamp : Stamp
  tqb   : Byte
  eflags : Nat := 0
  tag   : Nat := 0
  flags : Nat := 0
  body  : List Byte
  deriving DecidableEq, Repr

/-- A body cut into parts of at most `n` bytes. -/
def chunks (n : Nat) : Nat → List Byte → List (List Byte)
  | 0, _ => []
  | k + 1, l => if l.length ≤ n then [l] else l.take n :: chunks n k (l.drop n)

/-- Closes the record of event entries that is being collected (R349). -/
def closeEvents (x : Stream) : Stream :=
  if x.events = [] then x
  else { x with
    ready := x.ready ++ [{ typ := 4, flags := x.eventFlags, count := x.eventNo, payload := x.events }],
    events := [], eventNo := 0, eventFlags := 0, lingering := false }

/-- Adds one laid-out entry: the record closes before it where it does not fit, and after it where no entry fits. The first
entry of a record starts EVENT_LINGER, which runs out at `due`. -/
def putEntry (pl flags due : Nat) (e : List Byte) (x : Stream) : Stream :=
  let x := if pl < x.events.length + e.length then closeEvents x else x
  let x := { x with events := x.events ++ e, eventNo := x.eventNo + 1, eventFlags := x.eventFlags ||| flags,
                    lingering := true, lingerAt := if x.lingering then x.lingerAt else due }
  if pl < x.events.length + 40 then closeEvents x else x

/-- The laid-out entries of an event: one, or the parts of R350 where one does not fit in PL. -/
def layEvent (pl : Nat) (e : Event) : List (List Byte) :=
  if 32 + roundUp 8 e.body.length ≤ pl then
    [eventHead e.code e.body.length e.src e.stamp e.tqb e.eflags 0 e.tag ++ padTo (roundUp 8 e.body.length) e.body]
  else
    let ps := chunks ((pl - 32) / 8 * 8) e.body.length e.body
    ps.zipIdx.map fun (b, i) =>
      eventHead e.code b.length e.src e.stamp e.tqb (e.eflags ||| 1 ||| (if i + 1 = ps.length then 2 else 0)) i e.tag
        ++ padTo (roundUp 8 b.length) b

/-- Whether an EVENT stream takes a category; CATEGORY 0 is treated as all (R371). -/
def takesCategory (s : State) (n cat : Nat) : Bool :=
  cfgF s (streamAt n + 4) 0 16 = 0 || (cfgF s (streamAt n + 4) 0 16).testBit cat

/-- Sends an event entry to every EVENT stream whose CATEGORY includes it (R350, R419). -/
def sendEvent (cat : Nat) (e : Event) (s : State) : State :=
  let pl := plOf (cfg s)
  let due := s.cnt.ticks + 500 * Nat.max 1 (cfgF s 0xB0000 0 16)
  (enabledStreams s.regs.active).foldl (fun t n =>
    if streamType t n = 4 ∧ takesCategory t n cat then
      setStream n ((layEvent pl e).foldl (fun x b => putEntry pl e.flags due b x) (stream t n)) t
    else t) s

/-- What R419 says of a sts register: block code b, layout k, and instance. -/
def stsKind (a : Nat) : Nat × Nat × Nat :=
  if a = 0x2C then (0, 1, 0)
  else if a < 0x10000 then (0, 0, 0)
  else if a = 0x10140 then (1, 1, 0)
  else if a < 0x20000 then (1, 0, 0)
  else if a < 0x30000 then (2, 0, 0)
  else if a < 0x31000 then (3, 0, (a - 0x30000) / 0x100)
  else if a < 0x40000 then (3, 1, 0)
  else if a = 0x43800 then (4, 1, 0)
  else if a < 0x50000 then (4, 0, (a - 0x40000) / 0x1000)
  else if a < 0x52000 then (5, 0, (a - 0x50000) / 0x800)
  else if a < 0x60000 then (5, 1, (a - 0x52000) / 0x800)
  else if a < 0x61000 then (6, 0, (a - 0x60000) / 0x100)
  else if a < 0x70000 then (6, 1, 0)
  else if a < 0x71000 then (7, 0, 0)
  else if a < 0x80000 then (7, 1, (a - 0x71000) / 0x40)
  else if a = 0x80840 then (8, 1, 0)
  else if a < 0x90000 then (8, 0, (a - 0x80000) / 0x1000)
  else if a < 0x91000 then (9, 0, (a - 0x90000) / 0x40)
  else if a < 0xA0000 then (9, 1, 0)
  else if a < 0xB0000 then (0xA, 0, (a - 0xA0000) / 0x1000)
  else if a = 0xF0044 then (0xF, 1, 0)
  else (a / 0x10000, 0, 0)

/-- The key of a register instance in the table of folds: CNV_STS has one instance for each source (R419). -/
def foldKey (a src : Nat) : Nat := a * 65536 + src

/-- An event in a sts register with its time and source: bit, SEQ and LAPPED (R33), and the entry, which is sent at
once or folded into the one that leaves when the millisecond has passed (R419). -/
def raiseAt (t : Stamp) (q : Byte) (src a e : Nat) (s : State) : State :=
  let old := hw s a
  let laps := smGet 0 a s.regs.laps + 1
  let seq := (fld old 24 8 + 1) % 256
  let new : Word := wd (setBit (fld old 0 24 ||| (if 256 ≤ laps then 0x800000 else 0)) e + 2 ^ 24 * seq)
  let s := setHw a new { s with regs := { s.regs with laps := smPut 0 a laps s.regs.laps } }
  let (b, k, _) := stsKind a
  let code := b * 256 + k * 32 + e
  match smFind (foldKey a src) s.folds with
  | none =>
    sendEvent b { code := code, src := src, stamp := t, tqb := q, body := le 4 new.toNat ++ le 4 1 }
      (let f : Fold := { code := 0, stamp := 0, tqb := 0, count := 0, due := s.cnt.ticks + msTicks }
       { s with folds := smIns (foldKey a src) f s.folds })
  | some f =>
    let g : Fold := if f.count = 0 then { code := code, stamp := t, tqb := q, count := 1, value := new, due := f.due }
      else { f with count := f.count + 1, value := new }
    { s with folds := smIns (foldKey a src) g s.folds }

/-- An event now, from a given source. -/
def raiseFrom (src a e : Nat) (s : State) : State := raiseAt (now s) (tqb s) src a e s

/-- An event now, from the register's own instance. -/
def raise (a e : Nat) (s : State) : State := raiseFrom (stsKind a).2.2 a e s

/-- An event where a condition holds. -/
def raiseIf (c : Bool) (a e : Nat) (s : State) : State := if c then raise a e s else s

/-! ### Ledgers and loss counters (R400, R403, R407, R422, R469) -/

/-- Advances loss counter `i` (R407); LOSS marks the advance. -/
def loss (i n : Nat) (s : State) : State := if n = 0 then s else raise 0xD0040 10 (addCnt64 (0xD2500 + 8 * i) n s)

/-- `n` entries cross rill `k`: each uses a credit and its credit returns (R17, R403). -/
def rill (k n : Nat) (s : State) : State :=
  addCnt64 (0xD3000 + 0x20 * k + 0x10) n (addCnt64 (0xD3000 + 0x20 * k) n s)

/-- One entry uses a credit that has not returned (R403). -/
def rillIssue (k : Nat) (s : State) : State :=
  addCnt64 (0xD3000 + 0x20 * k + 8) 1 (addCnt64 (0xD3000 + 0x20 * k) 1 s)

/-- A credit arrives back at its sender (R403). -/
def rillReturn (k : Nat) (s : State) : State :=
  let a := 0xD3000 + 0x20 * k
  addCnt64 (a + 0x10) 1 (setCnt64 (a + 8) (cnt64 s (a + 8) - 1) s)

/-- A Runnel channel has moved bytes: read and written (R334). -/
def rnlCount (c n : Nat) (s : State) : State := addCnt64 (0xD2008 + 0x20 * c) n (addCnt64 (0xD2000 + 0x20 * c) n s)

/-! ### Values the spec leaves open -/

/-- The next free value, and the state that has used it. -/
def freeNext (s : State) : Nat × State :=
  (Config.freeValue s.cnt.free, { s with cnt := { s.cnt with free := s.cnt.free + 1 } })

/-- `n` bytes drawn from the random-bit generator (R428). -/
def draw (n : Nat) (s : State) : List Byte × State :=
  ((List.range n).map fun i => Config.drbg s.cnt.draws i, { s with cnt := { s.cnt with draws := s.cnt.draws + 1 } })

/-! ### Accessors of the sub-machines -/

/-- A launch generator. -/
def lch (s : State) (p : Nat) : Lch := smGet {} p s.lch

/-- Sets a launch generator. -/
def setLch (p : Nat) (x : Lch) (s : State) : State := { s with lch := smPut {} p x s.lch }

/-- An Ethernet port. -/
def port (s : State) (p : Nat) : Port := smGet {} p s.ports

/-- Sets an Ethernet port. -/
def setPort (p : Nat) (x : Port) (s : State) : State := { s with ports := smPut {} p x s.ports }

/-- A converter. -/
def conv (s : State) (n : Nat) : Conv := smGet {} n s.cnv.convs

/-- Sets a converter. -/
def setConv (n : Nat) (x : Conv) (s : State) : State := { s with cnv := { s.cnv with convs := smPut {} n x s.cnv.convs } }

/-- A lane trigger unit in motion. -/
def unitSt (s : State) (u : Nat) : Weir := smGet {} u s.weir.units

/-- Sets a lane trigger unit. -/
def setUnit (u : Nat) (x : Weir) (s : State) : State := { s with weir := { s.weir with units := smPut {} u x s.weir.units } }

/-- A watch in motion. -/
def watchSt (s : State) (w : Nat) : Weir := smGet {} w s.weir.watches

/-- Sets a watch. -/
def setWatch (w : Nat) (x : Weir) (s : State) : State :=
  { s with weir := { s.weir with watches := smPut {} w x s.weir.watches } }

/-- A Cistern region. -/
def region (s : State) (r : Nat) : Region := smGet {} r s.cis.regions

/-- Sets a Cistern region. -/
def setRegion (r : Nat) (x : Region) (s : State) : State := { s with cis := { s.cis with regions := smPut {} r x s.cis.regions } }

/-- A Pool engine. -/
def pol (s : State) (e : Nat) : Pol := smGet {} e s.pol

/-- Sets a Pool engine. -/
def setPol (e : Nat) (x : Pol) (s : State) : State := { s with pol := smPut {} e x s.pol }

/-- A Cascade chain. -/
def csc (s : State) (p : Nat) : Csc := smGet {} p s.csc

/-- Sets a Cascade chain. -/
def setCsc (p : Nat) (x : Csc) (s : State) : State := { s with csc := smPut {} p x s.csc }

/-- A Runnel channel. -/
def rch (s : State) (c : Nat) : RChan := smGet {} c s.rnl.chans

/-- Sets a Runnel channel. -/
def setRch (c : Nat) (x : RChan) (s : State) : State := { s with rnl := { s.rnl with chans := smPut {} c x s.rnl.chans } }

/-- A DRAM channel. -/
def dch (s : State) (c : Nat) : DChan := smGet {} c s.dram.chans

/-- Sets a DRAM channel. -/
def setDch (c : Nat) (x : DChan) (s : State) : State := { s with dram := { s.dram with chans := smPut {} c x s.dram.chans } }

/-- A session. -/
def ses (s : State) (n : Nat) : Session := smGet {} n s.slc.sessions

/-- Sets a session. -/
def setSes (n : Nat) (x : Session) (s : State) : State :=
  { s with slc := { s.slc with sessions := smPut {} n x s.slc.sessions } }

/-- A PLL's state; OFF where nothing has started it (R113). -/
def pll (s : State) (p : Nat) : PllState := smGet .off p s.clk.pll

/-- Sets a PLL's state. -/
def setPll (p : Nat) (x : PllState) (s : State) : State := { s with clk := { s.clk with pll := smPut .off p x s.clk.pll } }

/-- Every item of a list changes the state in turn. -/
def each {α : Type} (l : List α) (f : α → State → State) (s : State) : State := l.foldl (fun t x => f x t) s

/-- A change of the state where a condition holds. -/
def when (c : Bool) (f : State → State) (s : State) : State := if c then f s else s

/-! ### Running a command -/

/-- An ordinary command: nothing happens while the device is held in reset (R72, R447), and a command changes neither
the queue of waiting commands nor how far boot has come. -/
def run (f : State → State) (s : State) : Host.Outcome State Fault Refusal :=
  if s.boot = .held then .next s else .next { f s with pending := s.pending, boot := s.boot }

/-- A command that is a step of boot or ends in reset: it leaves the queue alone. -/
def runBoot (f : State → State) (s : State) : Host.Outcome State Fault Refusal :=
  .next { f s with pending := s.pending }

/-! ### Sluice replies (R376 to R378, R386, R387, R395) -/

/-- The status codes of R386. -/
abbrev stOK := 0
abbrev stBusError := 1
abbrev stStaleClear := 2
abbrev stWriteLocked := 3
abbrev stNotOwner := 4
abbrev stCapacity := 5
abbrev stBudget := 6
abbrev stSealMismatch := 7
abbrev stBusy := 8
abbrev stAuth := 9
abbrev stBadOpcode := 10
abbrev stBadLength := 11
abbrev stState := 13
abbrev stOverlap := 14
abbrev stExhausted := 15
abbrev stTimeout := 16

/-- The first packet of a session with a command left. -/
def headPkt : List Pkt → Option Pkt
  | [] => none
  | p :: ps => if p.cmds = [] then headPkt ps else some p

/-- Answers the head command of the first packet with a command left. -/
def answerPkts (e : Entry) : List Pkt → List Pkt
  | [] => []
  | p :: ps =>
    match p.cmds with
    | [] => p :: answerPkts e ps
    | c :: cs => { p with cmds := cs, done := p.done ++ [{ e with opcode := c.opcode, tag := c.tag }] } :: ps

/-- Counts a command that has a reply status (R395). -/
def countCmd (status : Nat) (s : State) : State :=
  addCnt64 (if status = 0 then 0xD2408 else 0xD2410) 1 (addCnt64 0xD2400 1 s)

/-- The length of the parameters of an opcode, as its layout and its own length fields give it: none for an opcode that
R388 does not list (R387, R388). -/
def paramLen (op : Nat) (params : List Byte) : Option Nat :=
  let n := params.length
  match op with
  | 0x0001 => some (if n = 0 then 0 else 136 + leAt params 0 2)
  | 0x0002 | 0x0003 | 0x0004 | 0x0005 | 0x0010 | 0x0012 => some 0
  | 0x0011 => some 4
  | 0x0100 | 0x0101 | 0x0102 | 0x0104 => some 8
  | 0x0103 => some (8 + 4 * leAt params 4 2)
  | 0x0105 => some (if (leAt params 2 2).testBit 1 then 20 else 8)
  | 0x0106 => some 4
  | 0x0200 => some (if (leAt params 2 2).testBit 0 then 16 else 4)
  | 0x0201 | 0x0300 | 0x0405 | 0x0501 | 0x0502 | 0x0505 | 0x0601 | 0x0801 | 0x0A02 => some 4
  | 0x0202 | 0x0203 | 0x0500 | 0x0503 | 0x0701 | 0x0800 | 0x0900 => some 0
  | 0x0400 | 0x0401 | 0x0402 | 0x0403 | 0x0603 | 0x0A04 => some 8
  | 0x0404 => some 28
  | 0x0504 | 0x0700 | 0x0901 => some 16
  | 0x0600 => some 12
  | 0x0602 => some (Nat.max 4 n)
  | 0x0A00 => some 32
  | 0x0A01 => some 164
  | 0x0A03 => some 36
  | 0x0F00 => some (Nat.min 8192 n)
  | _ => none

/-- The status of a command that no row of the table can carry out: an unknown opcode, a parameter length that is not its
opcode's, or SESSION_OPEN inside a session (R379, R387). -/
def deadStatus (c : QCmd) : Option Nat :=
  match paramLen c.opcode c.params with
  | none => some stBadOpcode
  | some n =>
    if c.params.length ≠ n then some stBadLength
    else if c.opcode = 1 then some stAuth
    else none

/-- Answers the commands at the head of a packet that have a dead status, and says how many they are. -/
def skipCmds : List QCmd → List Entry → Nat → List QCmd × List Entry × Nat
  | [], done, k => ([], done, k)
  | c :: cs, done, k =>
    match deadStatus c with
    | none => (c :: cs, done, k)
    | some st => skipCmds cs (done ++ [{ opcode := c.opcode, tag := c.tag, status := st, data := [] }]) (k + 1)

/-- Answers the commands at the head of a session's packets that have a dead status, and says how many they are. -/
def skipPkts : List Pkt → List Pkt × Nat
  | [] => ([], 0)
  | p :: ps =>
    let (cs, done, k) := skipCmds p.cmds p.done 0
    if cs = [] then
      let (qs, m) := skipPkts ps
      ({ p with cmds := cs, done := done } :: qs, k + m)
    else ({ p with cmds := cs, done := done } :: ps, k)

/-- A session's packets with their dead heads answered and counted as refused (R387, R395). -/
def skipDead (n : Nat) (s : State) : State :=
  let x := ses s n
  let (ps, k) := skipPkts x.packets
  addCnt64 0xD2410 k (addCnt64 0xD2400 k (setSes n { x with packets := ps } s))

/-- Gives the session's head command its reply entry (R376, R378). -/
def answer (n op status : Nat) (data : List Byte) (s : State) : State :=
  let x := ses s n
  let e : Entry := { opcode := op, tag := 0, status := status, data := data }
  let x' := match headPkt x.packets with
    | some _ => { x with packets := answerPkts e x.packets, wait := none }
    | none => { x with loose := x.loose ++ [e], wait := none }
  skipDead n (countCmd status (setSes n x' s))

/-- Whether the session's next command has an opcode: the session is open, nothing of it waits, and the first command
left in its packets has that opcode (R378, R381). A session with no packet takes the command by itself. -/
def turn (s : State) (n op : Nat) : Bool :=
  let x := ses s n
  if x.kind = .free ∨ x.wait ≠ none then false
  else match headPkt x.packets with
    | none => !x.closing
    | some p => match p.cmds with
      | [] => true
      | c :: _ => c.opcode = op

/-- Whether reply data of a length keeps the reply within L_R (R377). -/
def fits (s : State) (n len : Nat) : Bool :=
  let x := ses s n
  let tag := if x.kind = .active then 16 else 0
  match headPkt x.packets with
  | none => decide (24 + tag + 8 + roundUp 4 len ≤ maxFrame (cfg s) x.lastPort - 70)
  | some p =>
    let done := p.done.foldl (fun a e => a + roundUp 4 e.data.length) 0
    decide (24 + tag + 8 * (p.done.length + p.cmds.length) + done + roundUp 4 len ≤ maxFrame (cfg s) p.port - 70)

/-- A host command in its session: its turn, then BAD_LENGTH, then AUTH (R387), then the command itself. -/
def hostCmd (n op : Nat) (boot lenOk : Bool) (len : Nat) (body : State → State) (s : State) : State :=
  if turn s n op then
    if lenOk && fits s n len then
      if (ses s n).kind = .bootstrap ∧ ¬ boot then answer n op stAuth [] s else body s
    else answer n op stBadLength [] s
  else s

/-- The command needs the configuration lease (R387). -/
def needLease (n op : Nat) (body : State → State) (s : State) : State :=
  if s.slc.lease = some n then body s else answer n op stNotOwner [] s

end Sys2Proof.Machine
end

