-- ==== Sys2Proof/Machine/DramOps.lean ====
section
/-!
DEFINITION. The DRAM channels: address mapping (R281 to R283), bank queues and their scheduling (R285 to R292), row
disturbance (R298 to R301), and the reads and writes that the device's own blocks make.
-/

namespace Sys2Proof.Machine

/-! ### Addresses -/

/-- A register of channel `c` (R318). -/
def memA (c off : Nat) : Nat := 0x80000 + 0x1000 * c + off

/-- Bytes of a channel (R277). -/
def chanBytes (x : DChan) : Nat := 2 ^ 33 * (if x.x8 then 1 else 2) * (if x.gb16 then 2 else 1) * x.ranks

/-- Rows of a bank (R277). -/
def rowsOf (x : DChan) : Nat := 65536 * (if x.x8 then 1 else 2) * (if x.gb16 then 2 else 1)

/-- The bytes of one active channel. -/
def activeBytes (s : State) : Nat :=
  match s.dram.chmap with
  | [] => 0
  | c :: _ => chanBytes (dch s c)

/-- The backed bytes of the DRAM range (R281). -/
def backed (s : State) : Nat := s.dram.nActive * activeBytes s

/-- The channel and channel-local address of a DRAM address (R282). -/
def placeOf (s : State) (a : Nat) : Nat × Nat :=
  let g := 2 ^ s.dram.grain
  let n := s.dram.nActive
  (s.dram.chmap.getD (a / g % n) 0, a / g / n * g + a % g)

/-- The DRAM address of a channel-local address of an active channel (R282); none where the channel has no index. -/
def addrOf (s : State) (c ac : Nat) : Option Nat :=
  let g := 2 ^ s.dram.grain
  match s.dram.chmap.findIdx? (· = c) with
  | none => none
  | some i => if i < s.dram.nActive then some ((ac / g * s.dram.nActive + i) * g + ac % g) else none

/-- The row of a burst (R283). -/
def rowOf (x : DChan) (burst : Nat) : Nat := (64 * burst) >>> (if x.ranks = 2 then 18 else 17)

/-- The bank of a burst, numbered 16 × rank + 4 × bank + bank group, so that the numbers rise in the order of R289. -/
def bankOf (x : DChan) (burst : Nat) : Nat :=
  let ac := 64 * burst
  let row := rowOf x burst
  let bg := (ac >>> 8) % 4 ^^^ row % 4
  let bank := (ac >>> 15) % 4 ^^^ (row >>> 2) % 4
  let rank := if x.ranks = 2 then (ac >>> 17) % 2 else 0
  16 * rank + 4 * bank + bg

/-- A bank of a channel. -/
def bankSt (x : DChan) (b : Nat) : Bank := smGet {} b x.banks

/-- Sets a bank of a channel. -/
def setBank (b : Nat) (y : Bank) (x : DChan) : DChan := { x with banks := smPut {} b y x.banks }

/-- A rank of a channel. -/
def rankSt (x : DChan) (r : Nat) : Rank := smGet {} r x.rankSt

/-- Sets a rank of a channel. -/
def setRank (r : Nat) (y : Rank) (x : DChan) : DChan := { x with rankSt := smPut {} r y x.rankSt }

/-! ### Row disturbance -/

/-- Swaps two bits of a row address. -/
def swapBits (i j r : Nat) : Nat := putBit (putBit r i (r.testBit j)) j (r.testBit i)

/-- The mirroring of R299. -/
def mirrorRow (r : Nat) : Nat := swapBits 11 13 (swapBits 7 8 (swapBits 5 6 (swapBits 3 4 r)))

/-- The B-side inversion of R299. -/
def invertRow (r : Nat) : Nat := [3, 4, 5, 6, 7, 8, 9, 11, 13, 17].foldl (fun v i => putBit v i (!v.testBit i)) r

/-- The row that side B (or A) of a rank receives, f_s of R299. -/
def sideRow (mirror sideB : Bool) (r : Nat) : Nat :=
  let m := if mirror then mirrorRow r else r
  if sideB then invertRow m else m

/-- The row whose image on a side is given, f_s^-1 of R299. -/
def unsideRow (mirror sideB : Bool) (r : Nat) : Nat :=
  let m := if sideB then invertRow r else r
  if mirror then mirrorRow m else m

/-- The distinct target rows of R299 for a row of a rank. -/
def neighbours (s : State) (c rank row : Nat) : List Nat :=
  let x := dch s c
  let mirror := rank = 1 && cfgB s (memA c 0) 16
  let sides := if x.rdimm && cfgB s (memA c 0) 17 then [false, true] else [false]
  let all := sides.flatMap fun sb =>
    ([-2, -1, 1, 2] : List Int).filterMap fun d =>
      let t : Int := (sideRow mirror sb row : Nat) + d
      if t < 0 then none
      else
        let r := unsideRow mirror sb t.toNat
        if r < rowsOf x then some r else none
  all.eraseDups

/-- The entry of a counting table that a new row replaces: the lowest count, the lowest-numbered on a tie (R298). -/
def lowestCount : List (Nat × Nat) → Nat
  | [] => 0
  | [e] => e.2
  | e :: es => Nat.min e.2 (lowestCount es)

/-- The table after an activate of a row (R298). -/
def tableBump (row : Nat) (t : List (Nat × Nat)) : List (Nat × Nat) :=
  if t.any (·.1 = row) then t.map fun e => if e.1 = row then (row, e.2 + 1) else e
  else if t.length < 16 then t ++ [(row, 1)]
  else
    let m := lowestCount t
    match t.findIdx? (·.2 = m) with
    | none => t
    | some i => t.set i (row, m + 1)

/-- RH_THRESH, smaller values treated as 64 (R318). -/
def rhThresh (s : State) (c : Nat) : Nat := Nat.max 64 (cfgF s (memA c 0x10) 0 16)

/-- RH_K, held to 6 to 20 (R318). -/
def rhK (s : State) (c : Nat) : Nat := clampN 6 20 (cfgF s (memA c 0x10) 16 5)

/-- An activate that issues from a request: the counting table (R298), then the random draw (R300), each of which may
queue the row's neighbours at the head of the bank (R301). -/
def rhActivate (c b row : Nat) (s : State) : State :=
  let x := dch s c
  let y := bankSt x b
  let t := tableBump row y.table
  let hit := t.any fun e => e.1 = row && rhThresh s c ≤ e.2
  let t := if hit then t.map fun e => if e.1 = row then (row, 0) else e else t
  let ns := neighbours s c (b / 16) row
  let (f, s) := freeNext s
  let rnd := f % 2 ^ rhK s c = 0
  let y := { y with table := t, row := some row,
                    nbrs := y.nbrs ++ (if hit then ns else []) ++ (if rnd then ns else []) }
  let s := setDch c (setBank b y x) s
  let s := if hit then addCnt64 (memA c 0x88) 1 s else s
  if rnd then addCnt64 (memA c 0x90) 1 s else s

/-! ### Bursts -/

/-- The 64 bytes of a burst as stored. -/
def burstData (x : DChan) (b : Nat) : List Byte := (List.range 64).map fun i => smGet 0 (64 * b + i) x.cells

/-- Whether a burst of a channel reads as poison: stored poisoned (R308), a dead channel (R316), or a burst of the
spare that the poison fill has not reached and nothing has written (R316). -/
def burstBad (s : State) (c b : Nat) : Bool :=
  let x := dch s c
  decide (x.code = 5) || decide (b ∈ x.poisoned) ||
    (decide (s.dram.phase = 4) && decide (s.dram.target = c) && decide (s.dram.ptr ≤ 64 * b) && !decide (b ∈ s.dram.kept))

/-- The bytes a read of a burst delivers; a dead channel's are free (R316). -/
def burstBytes (s : State) (c b : Nat) : List Byte :=
  if (dch s c).code = 5 then (List.range 64).map fun i => Config.poisonByte (64 * b + i) else burstData (dch s c) b

/-- Stores bytes from an offset of a channel. -/
def putCells : Nat → List Byte → List Bool → SMap Byte → SMap Byte
  | a, v :: vs, m :: ms, cells => putCells (a + 1) vs ms (if m then smPut 0 a v cells else cells)
  | _, _, _, cells => cells

/-- A write of a burst into a channel's cells: a partial one is a read-modify-write, which keeps stored poison; a whole
one without the poison flag clears it (R285, R308). -/
def putBurst (b : Nat) (data : List Byte) (mask : List Bool) (poison : Bool) (x : DChan) : DChan :=
  let whole := data.length = 64 ∧ mask.length = 64 ∧ mask.all id
  let bad := poison ∨ (¬ whole ∧ b ∈ x.poisoned)
  { x with cells := putCells (64 * b) data mask x.cells,
           poisoned := if bad then (if b ∈ x.poisoned then x.poisoned else x.poisoned ++ [b]) else x.poisoned.filter (· ≠ b) }

/-- A read of one burst is counted: POISON_READS, and DEAD_READS of a dead channel (R316, R318, R407). -/
def countRead (c b : Nat) (s : State) : State :=
  if burstBad s c b then
    let s := addCnt64 (memA c 0x70) 1 s
    if (dch s c).code = 5 then loss 3 1 s else s
  else s

/-- A write covers its whole burst. -/
def wholeBurst (data : List Byte) (mask : List Bool) : Bool := decide (data.length = 64) && decide (mask.length = 64) && mask.all id

/-- A write of one burst. A read-modify-write whose read is poison is written poisoned (R285). It is mirrored whole during
a migration (R317), noted above the pointer of a migration or a poison fill (R316), dropped and counted by a dead channel
(R316). -/
def writeBurst (c b : Nat) (data : List Byte) (mask : List Bool) (poison : Bool) (s : State) : State :=
  if (dch s c).code = 5 then loss 2 1 (addCnt64 (memA c 0xA0) 1 s)
  else
    let s := setDch c (putBurst b data mask (poison || (!wholeBurst data mask && burstBad s c b)) (dch s c)) s
    let mirror := decide (s.dram.source = c) && (decide (s.dram.phase = 2) || decide (s.dram.phase = 3))
    let s := if mirror then
        setDch s.dram.target (putBurst b (burstData (dch s c) b) (List.replicate 64 true) (decide (b ∈ (dch s c).poisoned))
          (dch s s.dram.target)) s else s
    if (mirror || (decide (s.dram.phase = 4) && decide (s.dram.target = c))) && decide (s.dram.ptr ≤ 64 * b) &&
        decide (b ∉ s.dram.kept) then
      { s with dram := { s.dram with kept := s.dram.kept ++ [b] } } else s

/-! ### Issue -/

/-- Hands a requester its answer (R286, R287). -/
def giveAnswer (a : Answer) (s : State) : State := { s with dram := { s.dram with answers := s.dram.answers ++ [a] } }

/-- The bytes that the read of a request delivers, with the error that the decoder leaves (R308). -/
def readBytes (s : State) (c : Nat) (q : DQ) : List Byte :=
  (burstBytes s c q.burst).zipIdx.map fun (v, i) => v ^^^ q.flip.getD i 0

/-- The write of a request: one of less than the burst reads it, merges and writes it whole, poisoned where the read is
(R285). -/
def issueWrite (c : Nat) (q : DQ) (s : State) : State :=
  if q.bad && !wholeBurst q.data q.mask then
    let s := if burstBad s c q.burst then s else loss 0 1 s
    let merged := (readBytes s c q).zipIdx.map fun (v, i) => if q.mask.getD i false then q.data.getD i 0 else v
    writeBurst c q.burst merged (List.replicate 64 true) true s
  else writeBurst c q.burst q.data q.mask q.poison s

/-- DRAM clocks in MHz at the grade in effect (R279). -/
def dramMhz (s : State) : Nat := match s.dram.grade with | 0 => 1200 | 1 => 1333 | 2 => 1467 | _ => 1600

/-- DRAM clocks in TIU clock periods, rounded up. -/
def clockTicks (s : State) (n : Nat) : Nat := ceilDiv (n * 500) (dramMhz s)

/-- Controller clocks, each two DRAM clocks, in TIU clock periods, rounded up (R279). -/
def ctrlTicks (s : State) (n : Nat) : Nat := clockTicks s (2 * n)

/-- A request of a channel other than the patrol's restarts its idle count (R296). -/
def chanUse (c : Nat) (s : State) : State := setDch c { dch s c with usedAt := s.cnt.ticks } s

/-- A channel leaves self-refresh, and has run the ZQCS it owes (R296, R297). -/
def chanWake (c : Nat) (s : State) : State :=
  if (dch s c).selfRef then setDch c { dch s c with selfRef := false, zqcs := false } s else s

/-- Issues one request of a bank: activate where the row is not open, then the column command, which enters the retry
buffer (R289, R298, R313). A row hit counts against the older requests it passes. A read delivers its data. -/
def issueReq (c b : Nat) (q : DQ) (s : State) : State :=
  let row := rowOf (dch s c) q.burst
  let hit := decide ((bankSt (dch s c) b).row = some row)
  let s := if hit then s else rhActivate c b row s
  let x := dch s c
  let y := bankSt x b
  let rest := y.queue.filter (·.order ≠ q.order)
  let rest := rest.map fun r => if hit ∧ r.order < q.order ∧ rowOf x r.burst ≠ row then { r with passed := r.passed + 1 } else r
  let pend := rest.any fun r => match y.inOrder with | some n => r.write && decide (r.order < n) | none => false
  let y := { y with queue := rest, inOrder := if pend then y.inOrder else none, colAt := s.cnt.ticks }
  let x := setBank b y x
  let x := setRank (b / 16) { rankSt x (b / 16) with pd := 0, cmdAt := s.cnt.ticks } x
  let x := { x with usedAt := s.cnt.ticks, retry := x.retry ++ [.column b q s.cnt.ticks], selfRef := false, zqcs := false,
                    run := if q.write && x.writing then x.run + 1 else x.run }
  let s := setDch c x s
  if q.write then issueWrite c q s
  else
    let a : Answer := { who := q.who, ch := c, burst := q.burst, write := false, poison := burstBad s c q.burst || q.bad,
                        data := readBytes s c q }
    rill (112 + 4 * c + 2) 1 (giveAnswer a (countRead c q.burst s))

/-! ### Scheduling (R288 to R292) -/

/-- The requests queued in the banks of a channel. -/
def queued (x : DChan) : List DQ := x.banks.flatMap fun (_, y) => y.queue

/-- A bank in in-order mode with a write at its head (R291). -/
def inOrderWrite (x : DChan) : Bool :=
  x.banks.any fun (_, y) => y.inOrder.isSome && (match y.queue with | q :: _ => q.write | [] => false)

/-- The bus direction after the rules of R291. -/
def turnBus (x : DChan) : DChan :=
  let ws := ((queued x).filter (·.write)).length
  let rs := ((queued x).filter fun q => !q.write).length
  if x.writing then
    if (decide (ws ≤ 8) || decide (64 ≤ x.run)) && decide (0 < rs) && !inOrderWrite x then { x with writing := false, run := 0 } else x
  else if decide (24 ≤ ws) || inOrderWrite x || (decide (rs = 0) && decide (0 < ws)) then { x with writing := true, run := 0 }
  else x

/-- The requests of a bank that may issue next: those of the bus direction that no older request to their row waits
ahead of (R289, R291). -/
def eligible (x : DChan) (writing : Bool) : List DQ → List DQ → List DQ
  | _, [] => []
  | older, q :: qs =>
    let blocked := older.any fun o => rowOf x o.burst = rowOf x q.burst
    (if q.write = writing && !blocked then [q] else []) ++ eligible x writing (older ++ [q]) qs

/-- A request that waits too long, with the older ones of its row before it: it is next whatever the bus direction (R289). -/
def urgentOf (x : DChan) (y : Bank) : Option DQ :=
  match y.queue.find? (8 ≤ ·.passed) with
  | some q => y.queue.find? fun o => rowOf x o.burst = rowOf x q.burst
  | none => none

/-- The request a bank would issue next (R289, R290): its head in in-order mode; otherwise an urgent request, a request
to the open row, or the oldest. -/
def bankPick (x : DChan) (y : Bank) : Option DQ :=
  if y.inOrder.isSome then y.queue.head?
  else
    let el := eligible x x.writing [] y.queue
    match urgentOf x y with
    | some q => some q
    | none => match el.find? fun q => y.row = some (rowOf x q.burst) with
      | some q => some q
      | none => el.head?

/-- The banks in the order of the rotating pointer (R289), less those of ranks that wait for a replay to end without an
alert (R314). -/
def bankOrder (s : State) (x : DChan) : List Nat :=
  ((List.range 32).map fun i => (x.pointer + i) % 32).filter fun b =>
    !(decide (s.cnt.ticks < x.replayTill) && decide (b / 16 ∈ x.replayRanks))

/-- Whether a channel may issue commands now: working, its PLL in use, no alert, room in the retry buffer, and no rank
with nine refreshes due (R100, R295, R313 to R315). A dead channel without a spare answers at once (R316). -/
def mayIssue (s : State) (c : Nat) : Bool :=
  let x := dch s c
  decide (x.code = 5) || ((decide (x.code = 1) || decide (x.code = 2)) && decide (pll s (4 + c / 3) = .inUse) &&
    !x.alerted && decide (x.retry.length < 64) && x.rankSt.all (fun (_, r) => decide (r.due < 9)))

/-- Moves requests that wait in the input rill into their bank queues, in order, while the front one finds a place
(R288); a read of a row that a queued write names starts in-order mode (R290). -/
def takeIn : Nat → Nat → State → State
  | 0, _, s => s
  | n + 1, c, s =>
    let x := dch s c
    match x.held with
    | [] => s
    | q :: qs =>
      let b := bankOf x q.burst
      let y := bankSt x b
      if y.queue.length < 16 then
        let clash := !q.write && y.queue.any fun o => o.write && decide (rowOf x o.burst = rowOf x q.burst)
        let enter := clash && y.inOrder.isNone
        let y := { y with queue := y.queue ++ [q], inOrder := if enter then some q.order else
          if clash then some q.order else y.inOrder }
        let s := setDch c { setBank b y x with held := qs } s
        let s := if enter then addCnt (memA c 0x84) 1 s else s
        takeIn n c (rillReturn (112 + 4 * c) s)
      else s

/-- One command slot of a channel: a neighbour refresh that waits at the head of a bank (R301), else an urgent request, the
next activate by the pointer, or a column access to an open row (R289 to R291). The spacings tRRD and tFAW, whose values
the spec leaves to JEDEC, hold no activate back (DESIGN CHOICE: log 215). -/
def schedule (c : Nat) (s : State) : State :=
  let s := takeIn 64 c s
  if mayIssue s c then
    let x := turnBus (dch s c)
    let s := setDch c x s
    match (bankOrder s x).find? fun b => (bankSt x b).nbrs ≠ [] with
    | some b =>
      let y := bankSt x b
      setDch c (setBank b { y with nbrs := y.nbrs.drop 1, row := none } x) s
    | none =>
      let opens (b : Nat) : Bool := match bankPick x (bankSt x b) with
        | some q => decide ((bankSt x b).row ≠ some (rowOf x q.burst))
        | none => false
      let urgent := (bankOrder s x).find? fun b => (bankSt x b).inOrder.isNone && (urgentOf x (bankSt x b)).isSome
      let next := (urgent.orElse fun _ => (bankOrder s x).find? opens).orElse fun _ =>
        (bankOrder s x).find? fun b => (bankPick x (bankSt x b)).isSome
      match next with
      | none => s
      | some b => match bankPick x (bankSt x b) with
        | some q =>
          let turn := if q.write = x.writing then s else setDch c { x with writing := q.write, run := 0 } s
          let s := issueReq c b q turn
          if opens b then setDch c { dch s c with pointer := (b + 1) % 32 } s else s
        | none => s
  else s

/-- ALERT_WIN in TIU clock periods, rounded up, at the grade in effect (R279, R313). -/
def alertWin (s : State) (c : Nat) : Nat :=
  clockTicks s (clampN 32 63 (cfgF s (memA c 0x1C) 0 6))

/-- Reads and refreshes leave the retry buffer when ALERT_WIN has passed; writes leave it when they complete (R287,
R313). -/
def ageRetry (now win : Nat) (l : List DCmd) : List DCmd :=
  l.filter fun d => match d with
    | .column _ q t => q.write || decide (now < t + win)
    | .refresh _ t => decide (now < t + win)

/-- One TIU clock period of a channel. -/
def dramTick (c : Nat) (s : State) : State :=
  let x := dch s c
  if x.retry = [] ∧ x.held = [] ∧ queued x = [] then s
  else
    let s := if x.alerted ∨ x.code = 4 then s else setDch c { x with retry := ageRetry s.cnt.ticks (alertWin s c) x.retry } s
    schedule c s

/-- The oldest of some requests. -/
def oldest : List DQ → Option DQ
  | [] => none
  | q :: qs => match oldest qs with
    | some r => if r.order < q.order then some r else some q
    | none => some q

/-- The requests that wait in a channel: in its bank queues and in its input rill. -/
def waiting (x : DChan) : List DQ := queued x ++ x.held

/-- Requests of a channel issue in arrival order until none of one burst waits. -/
def settleAll : Nat → Nat → Nat → State → State
  | 0, _, _, s => s
  | n + 1, c, b, s =>
    let x := dch s c
    if (waiting x).any (·.burst = b) then
      match oldest (waiting x) with
      | none => s
      | some q =>
        let out := x.held.any (·.order = q.order)
        let s := if out then rillReturn (112 + 4 * c) (setDch c { x with held := x.held.filter (·.order ≠ q.order) } s) else s
        settleAll n c b (issueReq c (bankOf x q.burst) q s)
    else s

/-- Every request that arrived before an access by a block of the device to a burst issues first, as R286 says; the access
ends self-refresh (R296). -/
def settle (c b : Nat) (s : State) : State := settleAll (waiting (dch s c)).length c b (chanWake c s)

/-! ### Accesses by the device's blocks -/

/-- The bursts that a range of DRAM addresses touches. -/
def burstsOf (a n : Nat) : List Nat := if n = 0 then [] else (List.range ((a + n - 1) / 64 - a / 64 + 1)).map (a / 64 + ·)

/-- An access by a block to a burst, by its burst address in DRAM. -/
def blockAccess (c b : Nat) (s : State) : State := settle c b (chanUse c s)

/-- The bytes of a DRAM range and whether any burst of it reads poisoned. -/
def dramBytes (s : State) (a n : Nat) : List Byte × Bool :=
  let bs := burstsOf a n
  let data := bs.flatMap fun g => let (c, ac) := placeOf s (64 * g); burstBytes s c (ac / 64)
  let bad := bs.any fun g => let (c, ac) := placeOf s (64 * g); burstBad s c (ac / 64)
  (slice (a % 64) n data, bad)

/-- The bursts of a DRAM range that read poisoned, one mark each. -/
def dramMarks (s : State) (a n : Nat) : List Bool :=
  (burstsOf a n).map fun g => let (c, ac) := placeOf s (64 * g); burstBad s c (ac / 64)

/-- A read of a DRAM range by a block of the device: earlier requests to its bursts issue first, and poison counts. -/
def dramRead (a n : Nat) (s : State) : (List Byte × Bool) × State :=
  let s := each (burstsOf a n) (fun g t => let (c, ac) := placeOf t (64 * g); blockAccess c (ac / 64) t) s
  (dramBytes s a n, each (burstsOf a n) (fun g t => let (c, ac) := placeOf t (64 * g); countRead c (ac / 64) t) s)

/-- A write of bytes to a DRAM range by a block of the device. -/
def dramWrite (a : Nat) (data : List Byte) (poison : Bool) (s : State) : State :=
  each (burstsOf a data.length) (fun g t =>
    let (c, ac) := placeOf t (64 * g)
    let lo := if 64 * g < a then a - 64 * g else 0
    let part := slice (64 * g + lo - a) (64 - lo) data
    let bytes := zeros lo ++ part
    let mask := List.replicate lo false ++ List.replicate part.length true
    writeBurst c (ac / 64) (padTo 64 bytes) (mask ++ List.replicate (64 - mask.length) false) poison
      (blockAccess c (ac / 64) t)) s

/-- Marks the bursts of a range poisoned without changing their bytes. -/
def dramPoison (a n : Nat) (s : State) : State :=
  each (burstsOf a n) (fun g t =>
    let (c, ac) := placeOf t (64 * g)
    writeBurst c (ac / 64) (zeros 64) (List.replicate 64 false) true (blockAccess c (ac / 64) t)) s

end Sys2Proof.Machine
end

