-- ==== Sys2Proof/Machine/Tick.lean ====
section
/-!
DEFINITION. What one TIU clock period of time does: the counts that run whatever is commanded (R4, R90, R104, R105) and
the DRAM schedulers (R285 to R292).
-/

namespace Sys2Proof.Machine

/-- CORE clocks in one TIU clock period of 2 ns, in twentieths (R20, R90, R99): 1 GHz, 100 MHz or 25 MHz. -/
def corePace : CoreSrc → Nat
  | .pll => 40
  | .bypass => 4
  | .aon => 1

/-- R of R91: RATE, 21 and more treated as 20. -/
def rateOf (m : Nat → Word) : Nat := Nat.min 20 (fld (m 0x10000) 0 5)

/-- The divisor of OUT_DIV; 3 is treated as 2 (R91). -/
def outDiv (m : Nat → Word) : Nat :=
  match fld (m 0x10000) 5 2 with
  | 0 => 1
  | 1 => 2
  | _ => 4

/-- 4,000 × samples of the ×1 stream in 2 ns, by the committed RATE and OUT_DIV (R91). -/
def samplePace (m : Nat → Word) : Nat := (2000 + 25 * rateOf m) * 8 / outDiv m

/-- What device time advances by on a TIU clock, in 2^-48 ns: 2 ns + F × 2^-40 ns (R104). -/
def timePace (s : State) : Nat := (2 ^ 49 + s.tb.freq * 2 ^ 8).toNat

/-- The stream count and its remainder after one TIU clock period: while the sample clock is stopped the count advances
with device time, at the committed rate (R236). -/
def streamStep (s : State) : Nat × Nat :=
  let c := s.cnt
  if s.clk.stopped then
    let step := if s.tb.backup then s.tb.backStep else if pll s 1 = .inUse then timePace s else 0
    let n := c.strRem + samplePace (cfg s) * step
    (c.str + n / 2 ^ 49, n % 2 ^ 49)
  else (c.str + samplePace (cfg s), c.strRem)

/-- The counts after one TIU clock period. -/
def tickCounts (s : State) : State :=
  let c := s.cnt
  let tiu := pll s 1 = .inUse
  { s with
    cnt := { c with
      ticks := c.ticks + 1,
      coarse := if tiu then c.coarse + 1 else c.coarse,
      core := c.core + corePace s.clk.coreSrc,
      smp := if s.clk.stopped then c.smp else c.smp + samplePace (cfg s),
      str := (streamStep s).1,
      strRem := (streamStep s).2 },
    tb := { s.tb with
      acc := if tiu then s.tb.acc + timePace s else s.tb.acc,
      backAcc := s.tb.backAcc + s.tb.backStep } }

/-- The length of the lane-sample grid in device time, exactly (R166): the stamp, rounded half to even, of the instant
`num ÷ den` on the count of `smp`. -/
def timeOfPos (s : State) (num : Int) (den : Nat) : Stamp :=
  let inc := samplePace (cfg s)
  let acc : Nat := if s.tb.backup then s.tb.backAcc else s.tb.acc
  let step : Nat := if s.tb.backup then s.tb.backStep else timePace s
  (rhe ((acc * inc * den : Nat) + (num - (s.cnt.smp * den : Nat)) * (step : Nat)) (2 ^ 32 * inc * den)).toNat

/-- The count of `smp`, in units of `1 ÷ den`, at a device time on the fixed relation of R166, rounded half to even. -/
def posOfTime (s : State) (t : Stamp) (den : Nat) : Int :=
  let inc := samplePace (cfg s)
  let acc : Nat := if s.tb.backup then s.tb.backAcc else s.tb.acc
  let step : Nat := if s.tb.backup then s.tb.backStep else timePace s
  (s.cnt.smp * den : Nat) + rhe (((t * 2 ^ 32 : Nat) - (acc : Int)) * (inc * den : Nat)) (Nat.max 1 step)

/-- Stream clocks counted since reset (R5, R236): four samples of the ×1 stream each. -/
def streamClocks (s : State) : Nat := s.cnt.str / 16000

/-- What the ingress buffers of a port give up in 2 ns: the bulk buffer at 50 GB/s, the reserved queue at 1.5 GB/s. The
spec states neither rate (R344, R374). -/
def drainPort (p : Nat) (s : State) : State :=
  let x := port s p
  if x.bulk = 0 ∧ x.resv = 0 then s else setPort p { x with bulk := x.bulk - 100, resv := x.resv - 3 } s

/-- One TIU clock period of the whole block, outside reset. -/
def tick (s : State) : State :=
  if s.boot = .held then s
  else each (List.range 9) dramTick (each (List.range 2) drainPort (tickCounts s))

end Sys2Proof.Machine
end

