-- ==== Sys2Proof/Machine/Geom.lean ====
section
/-!
DEFINITION. What the configuration words of an image mean: rates, lanes, launch grids, channel geometry, Cascade and
Pool settings, each with its out-of-range readings. `m` reads a word of the image: the active copy (`cfg s`) or a
candidate of a commit.
-/

namespace Sys2Proof.Machine

/-! ### Rates and lanes (R91, R117, R137) -/

/-- The ×1 sample rate in hertz (R183). -/
def fsHz (m : Nat → Word) : Nat := (2000 + 25 * rateOf m) * 1000000 / outDiv m

/-- ILV; 3 is treated as ×1 (R142). -/
def ilv (m : Nat → Word) : Nat := if fld (m 0x20000) 0 2 = 3 then 0 else fld (m 0x20000) 0 2

/-- Lane samples per tick: 1, 2 or 4 (R143). -/
def lps (m : Nat → Word) : Nat := 2 ^ ilv m

/-- The lanes of the interleave mode (R117). -/
def laneCount (m : Nat → Word) : Nat := 16 / lps m

/-- The rate of one lane in hertz. -/
def laneHz (m : Nat → Word) : Nat := fsHz m * lps m

/-- The lane a converter belongs to, and its place in it (R117, R118). -/
def laneOfConv (m : Nat → Word) (c : Nat) : Nat := c / lps m

/-- The converters of a lane (R117). -/
def convsOf (m : Nat → Word) (lane : Nat) : List Nat := (List.range (lps m)).map (lps m * lane + ·)

/-- MODE of a fibre port; 5 to 7 are treated as OFF (R137). -/
def fpMode (m : Nat → Word) (n : Nat) : Nat :=
  let v := fld (m (0x20010 + 4 * n)) 0 3
  if 5 ≤ v then 0 else v

/-- The lanes a MODE uses (R137). -/
def roleCount (mode : Nat) : Nat :=
  match mode with
  | 1 => 4
  | 2 => 2
  | 3 => 1
  | 4 => 2
  | _ => 0

/-- The lanes of a fibre port by role. -/
def lanesOf (m : Nat → Word) (n : Nat) : List Nat :=
  (List.range (roleCount (fpMode m n))).map fun r => fld (m (0x20010 + 4 * n)) (4 + 4 * r) 4

/-- Whether a MODE carries two polarisations (R172). -/
def dualPol (mode : Nat) : Bool := mode = 1 ∨ mode = 4

/-- POL_USE; 0 is treated as 3, and it has no effect in a mode of one polarisation (R139). -/
def polUse (m : Nat → Word) (n : Nat) : Nat :=
  let v := fld (m (0x20010 + 4 * n)) 20 2
  if dualPol (fpMode m n) then (if v = 0 then 3 else v) else 1

/-- CNV_DIRECT_MASK. -/
def directMask (m : Nat → Word) : Nat := fld (m 0x20004) 0 16

/-- The lanes of the DIRECT group. -/
def directLanes (m : Nat → Word) : List Nat := bitsOf 16 (directMask m)

/-- The fibre port that a lane belongs to. -/
def portOfLane (m : Nat → Word) (lane : Nat) : Option Nat := (List.range 4).find? fun n => decide (lane ∈ lanesOf m n)

/-- FG_LEN in slice clocks (R142). -/
def fgLen (m : Nat → Word) : Nat := 64 * clampN 8 4095 (fld (m 0x20008) 16 12)

/-- FG_SKIP in slot cycles (R142). -/
def fgSkip (m : Nat → Word) : Nat := Nat.max 1 (fld (m 0x2000C) 0 16)

/-! ### Launch grids (R143, R170) -/

/-- P in ticks. -/
def periodOf (m : Nat → Word) (n : Nat) : Nat := clampN 1024 (2 ^ 30) (m (0x30004 + 0x100 * n)).toNat

/-- Δ in ticks. -/
def spacingOf (m : Nat → Word) (n : Nat) : Nat := clampN 0 (2 ^ 30) (m (0x30008 + 0x100 * n)).toNat

/-- W in ticks. -/
def widthOf (m : Nat → Word) (n : Nat) : Nat := clampN 1 65535 (fld (m (0x3000C + 0x100 * n)) 0 16)

/-- L in lane samples. -/
def recordOf (m : Nat → Word) (n : Nat) : Nat := clampN 1024 4194304 (fld (m (0x30010 + 0x100 * n)) 0 23 / 16 * 16)

/-- SLOT_LEAD in ticks. -/
def slotLead (m : Nat → Word) (n : Nat) : Nat := clampN 1 65535 (fld (m (0x30014 + 0x100 * n)) 0 16)

/-- S, 1 to 4. -/
def slotsOf (m : Nat → Word) (n : Nat) : Nat := fld (m (0x30000 + 0x100 * n)) 0 2 + 1

/-- The SLOTn code of slot `s`. -/
def slotCodeOf (m : Nat → Word) (n s : Nat) : Nat := fld (m (0x30000 + 0x100 * n)) (8 + 2 * s) 2

/-- INVERT. -/
def invertOf (m : Nat → Word) (n : Nat) : Bool := bit (m (0x30000 + 0x100 * n)) 4

/-- From the slot-0 launch to the end of the last record of the cycle, in ticks (R133). -/
def cycleSpan (m : Nat → Word) (n : Nat) : Nat := (slotsOf m n - 1) * spacingOf m n + ceilDiv (recordOf m n) (lps m)

/-- MON_DELAY, 2^-8 ns (R171). -/
def monDelay (m : Nat → Word) (n : Nat) : Nat := fld (m (0x31004 + 0x20 * n)) 0 24

/-- MON_WIN, ns (R171). -/
def monWin (m : Nat → Word) (n : Nat) : Nat := clampN 1 1000 (fld (m (0x31008 + 0x20 * n)) 0 16)

/-- MON_EN. -/
def monEn (m : Nat → Word) (n : Nat) : Bool := bit (m (0x31008 + 0x20 * n)) 16

/-- ALIGN_EN. -/
def alignEn (m : Nat → Word) (n : Nat) : Bool := bit (m (0x31008 + 0x20 * n)) 17

/-! ### Channels (R177, R195) -/

/-- C, as the field holds it. -/
def channelsOf (m : Nat → Word) (n : Nat) : Nat := fld (m (0x40008 + 0x1000 * n)) 0 17

/-- FIRST_BIN. -/
def firstBin (m : Nat → Word) (n : Nat) : Nat := fld (m (0x40004 + 0x1000 * n)) 0 22

/-- PITCH in bins. -/
def pitchOf (m : Nat → Word) (n : Nat) : Nat := fld (m (0x4000C + 0x1000 * n)) 0 10 + 1

/-- GAUGE in bins. -/
def gaugeOf (m : Nat → Word) (n : Nat) : Nat := fld (m (0x4000C + 0x1000 * n)) 16 10 + 1

/-- B of the bin filter. -/
def boxOf (m : Nat → Word) (n : Nat) : Nat := fld (m (0x40000 + 0x1000 * n)) 1 6 + 1

/-- Whether the NCO mixes: always in HET and DP-HET (R174). -/
def ncoOn (m : Nat → Word) (n : Nat) : Bool :=
  bit (m (0x40000 + 0x1000 * n)) 0 || decide (fpMode m n = 3) || decide (fpMode m n = 4)

/-- FTW_s. -/
def ftwOf (m : Nat → Word) (n s : Nat) : Nat := (m (0x40020 + 0x1000 * n + 8 * s)).toNat

/-- PH0_s. -/
def ph0Of (m : Nat → Word) (n s : Nat) : Nat := (m (0x40024 + 0x1000 * n + 8 * s)).toNat

/-- k, the integer content of KCONV. -/
def kconvOf (m : Nat → Word) (n : Nat) : Int := sgn 32 (m (0x40010 + 0x1000 * n)).toNat

/-- QUAL_MIN. -/
def qualMin (m : Nat → Word) (n : Nat) : Nat := fld (m (0x40014 + 0x1000 * n)) 0 14

/-- NG, 0 treated as 2^22. -/
def ngOf (m : Nat → Word) (n : Nat) : Nat :=
  let v := fld (m (0x40018 + 0x1000 * n)) 0 24
  if v = 0 then 2 ^ 22 else v

/-- M_S of R183. -/
def multS (m : Nat → Word) (n : Nat) : Int := rhe (kconvOf m n * 125 * 2 ^ 16) (gaugeOf m n)

/-- M_R of R183. -/
def multR (m : Nat → Word) (n : Nat) : Int := rhe (kconvOf m n * 125 * fsHz m * 2 ^ 8) (gaugeOf m n * periodOf m n)

/-- BIN_LEN of the shot header: c ÷ (2 × NG × f_lane) as UQ0.32 m (R193). -/
def binLen (m : Nat → Word) (n : Nat) : Nat :=
  (rhe (299792458 * 2 ^ 22 * 2 ^ 32) (2 * ngOf m n * laneHz m)).toNat

/-- The demand of budget 1, rounded up to a whole number (R190). -/
def phsLoad (m : Nat → Word) (n : Nat) : Nat :=
  if fpMode m n = 0 then 0 else ceilDiv (fsHz m * slotsOf m n * channelsOf m n) (periodOf m n)

/-! ### Cascade (R197 to R201, R216) -/

/-- The configuration of one stage. -/
structure StageCfg where
  mode  : Nat
  div   : Nat
  order : Nat
  set   : Nat
  deriving DecidableEq, Repr

/-- STAGES, 5 to 7 treated as 4. -/
def stagesOf (m : Nat → Word) (n : Nat) : Nat := Nat.min 4 (fld (m (0x52000 + 0x800 * n)) 0 3)

/-- The Cascade product; a code other than 0, 1, 2 or 4 is treated as 1. -/
def cscProduct (m : Nat → Word) (n : Nat) : Nat :=
  let v := fld (m (0x52000 + 0x800 * n)) 4 3
  if v = 0 ∨ v = 2 ∨ v = 4 then v else 1

/-- Stage `k`, 1 to 4. -/
def stageOf (m : Nat → Word) (n k : Nat) : StageCfg :=
  let w := m (0x52010 + 0x800 * n + 4 * (k - 1))
  { mode := fld w 0 2, div := Nat.max 2 (fld w 4 4 + 1), order := fld w 8 2 + 1, set := fld w 12 2 }

/-- D_1 × … × D_k. -/
def divTo (m : Nat → Word) (n : Nat) : Nat → Nat
  | 0 => 1
  | k + 1 => divTo m n k * (stageOf m n (k + 1)).div

/-- Whether the samples of tap `k` are pairs (R198). -/
def pairTap (m : Nat → Word) (n : Nat) : Nat → Bool
  | 0 => false
  | k + 1 => pairTap m n k || decide ((stageOf m n (k + 1)).mode = 2)

/-- The bytes one stage takes of the CASCADE field (R201). -/
def stageBytes (c : StageCfg) : Nat :=
  match c.mode with
  | 0 => 0
  | 1 => 8
  | 2 => 8
  | _ => 12 * c.order + 24

/-- The bytes the whole chain takes. -/
def cascadeBytes (m : Nat → Word) (n : Nat) : Nat :=
  ((List.range (stagesOf m n)).map fun k => stageBytes (stageOf m n (k + 1))).sum

/-- Whether a MEAN or FILTER stage stands after a PEAK stage (R198). -/
def badChain (m : Nat → Word) (n : Nat) : Bool :=
  (List.range (stagesOf m n)).any fun k =>
    pairTap m n k && decide ((stageOf m n (k + 1)).mode = 1 ∨ (stageOf m n (k + 1)).mode = 3)

/-- The tap rate of a fibre port as numerator and denominator, samples per second (R22, R197). -/
def tapRate (m : Nat → Word) (n k : Nat) : Nat × Nat := (fsHz m * slotsOf m n, periodOf m n * divTo m n k)

/-! ### Pool (R206, R215) -/

/-- SOURCE. -/
def polSource (m : Nat → Word) (e : Nat) : Nat := fld (m (0x50000 + 0x800 * e)) 0 2

/-- CONTINUOUS. -/
def polCont (m : Nat → Word) (e : Nat) : Bool := bit (m (0x50000 + 0x800 * e)) 2

/-- READOUT_EN. -/
def polReadout (m : Nat → Word) (e : Nat) : Bool := bit (m (0x50000 + 0x800 * e)) 3

/-- SPOUT_EN. -/
def polSpout (m : Nat → Word) (e : Nat) : Bool := bit (m (0x50000 + 0x800 * e)) 4

/-- PEAK_LO. -/
def polLo (m : Nat → Word) (e : Nat) : Bool := bit (m (0x50000 + 0x800 * e)) 5

/-- INTERP. -/
def polInterp (m : Nat → Word) (e : Nat) : Bool := bit (m (0x50000 + 0x800 * e)) 6

/-- The product field as written: P_RAW is refused at a commit (R207), 6 and 7 are treated as 1 with it (R215). -/
def polProduct (m : Nat → Word) (e : Nat) : Nat :=
  let v := fld (m (0x50000 + 0x800 * e)) 8 3
  if 5 ≤ v then 1 else v

/-- TAP, 5 to 7 treated as 4. -/
def polTap (m : Nat → Word) (e : Nat) : Nat := Nat.min 4 (fld (m (0x50000 + 0x800 * e)) 12 3)

/-- SLOT_MASK. -/
def polSlots (m : Nat → Word) (e : Nat) : Nat := fld (m (0x50000 + 0x800 * e)) 16 4

/-- LANE. -/
def polLane (m : Nat → Word) (e : Nat) : Nat := fld (m (0x50000 + 0x800 * e)) 20 4

/-- TRIG_UNIT. -/
def polUnit (m : Nat → Word) (e : Nat) : Nat := fld (m (0x50000 + 0x800 * e)) 24 3

/-- FIRST. -/
def polFirst (m : Nat → Word) (e : Nat) : Nat := fld (m (0x50004 + 0x800 * e)) 0 22

/-- COUNT, 1 to 65,536. -/
def polCount (m : Nat → Word) (e : Nat) : Nat := clampN 1 65536 (fld (m (0x50008 + 0x800 * e)) 0 17)

/-- BIN_STEP. -/
def polStep (m : Nat → Word) (e : Nat) : Nat := fld (m (0x5000C + 0x800 * e)) 0 8 + 1

/-- DECIM. -/
def polDecim (m : Nat → Word) (e : Nat) : Nat := fld (m (0x5000C + 0x800 * e)) 8 8 + 1

/-- N, 1 to 65,536. -/
def polN (m : Nat → Word) (e : Nat) : Nat := clampN 1 65536 (fld (m (0x50010 + 0x800 * e)) 0 17)

/-- PRE, at most 65,528. -/
def polPre (m : Nat → Word) (e : Nat) : Nat := Nat.min 65528 (fld (m (0x50014 + 0x800 * e)) 0 16)

/-- The ring base. -/
def ringBase (m : Nat → Word) (e : Nat) : Nat :=
  2 ^ 32 * fld (m (0x5001C + 0x800 * e)) 0 8 + 4096 * fld (m (0x50018 + 0x800 * e)) 12 20

/-- The ring size in bytes. -/
def ringSize (m : Nat → Word) (e : Nat) : Nat := 4096 * fld (m (0x50020 + 0x800 * e)) 0 19

/-- The demand of budget 5 as numerator and denominator, entry-updates per second (R211). -/
def polDemand (m : Nat → Word) (e : Nat) : Nat × Nat :=
  match polSource m e with
  | 1 => (polCount m e * (tapRate m e (polTap m e)).1, (tapRate m e (polTap m e)).2 * polDecim m e)
  | 2 => (polCount m e * fsHz m * popcount 4 (polSlots m e), periodOf m e * polDecim m e)
  | _ => (0, 1)

/-- The demand of budget 5, rounded up to a whole number (R211). -/
def polLoad (m : Nat → Word) (e : Nat) : Nat := ceilDiv (polDemand m e).1 (polDemand m e).2

/-! ### Watches and lane trigger units (09_weir) -/

/-- The address of a watch-table entry. -/
def watchAt (w : Nat) : Nat := 0x1000000 + 0x40 * w

/-- The address of a lane trigger unit's block. -/
def unitAt (u : Nat) : Nat := 0x60000 + 0x100 * u

/-! ### Regions of DRAM -/

/-- Whether two address ranges meet. -/
def meets (a n b k : Nat) : Bool := decide (a < b + k ∧ b < a + n)

end Sys2Proof.Machine
end

