-- ==== Sys2Proof/Machine/Spout.lean ====
section
/-!
DEFINITION. Spout records (13_ports_spout): how a source's values become records of a stream, miniSEED, what a record's
creation does to its stream's queue and replay window, and which port carries a stream.
-/

namespace Sys2Proof.Machine

/-! ### Streams and ports -/

/-- Whether a stream is enabled. -/
def streamOn (s : State) (n : Nat) : Bool := cfgB s (streamAt n) 0

/-- The home port of a stream: P1 where PORT says so, P0 otherwise (R360, R371). -/
def homePort (s : State) (n : Nat) : Nat := if cfgF s (streamAt n) 4 2 = 1 then 1 else 0

/-- The port that carries a stream. -/
def carryPort (s : State) (n : Nat) : Nat := if (stream s n).moved then 1 - homePort s n else homePort s n

/-- A port is down: its MODE is 0, or it has been up and is not (R339). -/
def portDown (s : State) (p : Nat) : Bool :=
  decide (portMode (cfg s) p = 0) || ((port s p).wasUp && !(port s p).up)

/-- NO_FAILOVER. -/
def noFailover (s : State) (n : Nat) : Bool := cfgB s (streamAt n) 6

/-- Whether a stream can neither leave on its port nor move: LINK of R357. -/
def linkLost (s : State) (n : Nat) : Bool :=
  (portDown s 0 && portDown s 1) || (noFailover s n && portDown s (homePort s n))

/-- The destination entry of a stream, eight words (R371). -/
def destOf (s : State) (n : Nat) : List Word :=
  (List.range 8).map fun i => cfg s (0xB1000 + 0x20 * cfgF s (streamAt n) 8 8 + 4 * i)

/-- CTRL of a destination. -/
def destCtrl (d : List Word) : Word := d.getD 0 0

/-- The address of a destination as a number, first byte most significant; IPv4 uses four bytes (R371). -/
def destAddr (d : List Word) : Nat :=
  let bytes := ((d.drop 4).take 4).flatMap wordBytes
  let bytes := if bit (destCtrl d) 2 then bytes else bytes.take 4
  bytes.foldl (fun a b => 256 * a + b.toNat) 0

/-- The packet bytes of a record from the Spout header onward (R353, R356): header, payload, poison map and tag. -/
def recBytes (r : Rec) : Nat := 64 + r.payload.length + r.poison.length + (if r.keySlot.isSome then 16 else 0)

/-- The bytes a frame of a record takes on a port, from the destination address through the FCS (R340). -/
def frameBytes (s : State) (p : Nat) (dest : List Word) (n : Nat) : Nat :=
  18 + (if cfgB s (0xA0000 + 0x1000 * p) 4 then 4 else 0) +
    (if bit (destCtrl dest) 1 then 0 else if bit (destCtrl dest) 2 then 48 else 28) + n

/-- The next hop of an IP destination on a port: itself on-link, the gateway otherwise (R343). -/
def hopOf (x : Port) (v6 : Bool) (a : Nat) : Nat :=
  if v6 then
    (if a / 2 ^ 118 = 0x3FA ∨ a / 2 ^ (128 - x.pre6) = x.ip6 / 2 ^ (128 - x.pre6) then a else x.gw6)
  else if a / 2 ^ (32 - x.pre4) = x.ip4 / 2 ^ (32 - x.pre4) then a else x.gw4

/-- Whether an address is multicast (R343). -/
def isMulticast (v6 : Bool) (a : Nat) : Bool := if v6 then a / 2 ^ 120 = 0xFF else a / 2 ^ 28 = 0xE

/-- Whether a port has an address to send from: its own family's, or the link-local one for a link-local
destination. -/
def hasSource (x : Port) (v6 : Bool) (a : Nat) : Bool :=
  if v6 then x.ip6Valid || (x.linkLocalOk && decide (a / 2 ^ 118 = 0x3FA)) else x.ip4Valid

/-- Whether a record can be addressed from a port now (R343, R358). -/
def routeOk (s : State) (p : Nat) (d : List Word) : Bool :=
  let x := port s p
  let v6 := bit (destCtrl d) 2
  let a := destAddr d
  if bit (destCtrl d) 1 then true
  else hasSource x v6 a && (isMulticast v6 a || x.cache.any (·.1 = hopOf x v6 a))

/-- The destination of the record at the front of a queue; a GAP entry goes to the stream's present destination. -/
def frontDest (s : State) (n : Nat) : List QItem → List Word
  | .data r :: _ => r.dest
  | _ => destOf s n

/-- Whether a stream waits for a next hop or an address (R358, R372). -/
def waitsHop (s : State) (n : Nat) : Bool :=
  let q := (stream s n).queue
  decide (q ≠ []) && !routeOk s (carryPort s n) (frontDest s n q)

/-- Whether a stream number is halted (R359). -/
def streamHalted (s : State) (n : Nat) : Bool := s.spt.haltAll != decide (n ∈ s.spt.haltEx)

/-! ### Queues (R355 to R358) -/

/-- Bytes of the data records of a queue. -/
def dataBytes (q : List QItem) : Nat := q.foldl (fun a i => match i with | .data r => a + recBytes r | .gap _ => a) 0

/-- The backlog of a stream. -/
def backlog (x : Stream) : Nat := dataBytes x.queue + dataBytes x.other

/-- BACKLOG in bytes (R371). -/
def backlogLimit (s : State) (n : Nat) : Nat := 65536 * 2 ^ Nat.min 8 (cfgF s (streamAt n) 24 4)

/-- Channels of the enabled miniSEED streams. -/
def mseedChannels (m : SMap Word) (c : Nat → Word) : Nat :=
  ((enabledStreams m).map fun n =>
    let e := fld (c (streamAt n)) 28 2
    if fld (c (streamAt n)) 1 3 = 1 ∧ (e = 1 ∨ e = 2) then clampN 1 65536 (fld (c (streamAt n + 8)) 0 17) else 0).sum

/-- The staging SRAM a class of streams uses: bytes of EVENT and LEDGER records, or of the others (R356). -/
def stagingUse (s : State) (reserved : Bool) : Nat :=
  s.spt.streams.foldl (fun a (n, x) =>
    if decide (streamType s n = 4 ∨ streamType s n = 5) = reserved then a + backlog x else a) 0

/-- Whether the shared pool has no room for `n` more bytes (R356): EVENT and LEDGER records use the reserved part
first. -/
def poolFull (s : State) (reserved : Bool) (n : Nat) : Bool :=
  let cap := 15 * 2 ^ 20 - 4096 * mseedChannels s.regs.active (cfg s)
  let r := stagingUse s true + (if reserved then n else 0)
  let o := stagingUse s false + (if reserved then 0 else n)
  decide (cap < o + (r - 2 ^ 20))

/-- Appends a number that becomes GAP: a run of the same reason grows, another reason starts a run of the same entry
(R357). -/
def addGap (g : Gap) : List QItem → List QItem
  | [] => [.gap [g]]
  | [.gap runs] =>
    match runs.getLast? with
    | some h =>
      if h.reason = g.reason then [.gap (runs.dropLast ++ [{ h with count := h.count + g.count }])]
      else [.gap (runs ++ [g])]
    | none => [.gap [g]]
  | i :: q => i :: addGap g q

/-- The flags a record takes from the moment it is created: SUPPLY (R80) and SEAL (R52). -/
def createFlags (s : State) : Nat :=
  (if s.pwr.coverage then 2 else 0) ||| (if s.sealing.mismatch ∧ cfgF s 0x14 0 2 ≠ 0 then 4 else 0)

/-- The 64-byte Spout header (R353). -/
def spoutHeader (s : State) (n : Nat) (r : Rec) : List Byte :=
  le 1 1 ++ le 1 r.typ ++ le 2 n ++ le 4 r.flags ++ le 8 r.seq ++ le 1 r.src ++ le 1 r.product ++ le 1 r.tap ++
    [r.tqb] ++ le 4 r.first ++ le 4 r.count ++ le 4 r.payload.length ++ le 8 r.index ++ stampBytes r.stamp ++
    le 2 r.txCount ++ le 2 s.lgr.epoch ++ le 8 r.aux

/-- The packet of a record from the Spout header on, with its GMAC tag where the destination asks for one (R365). -/
def packetBytes (s : State) (n : Nat) (r : Rec) : List Byte :=
  let body := spoutHeader s n r ++ r.payload ++ r.poison
  match r.keySlot with
  | none => body
  | some k => body ++ Config.gmac (smGet [] k s.sec.gmac) (le 2 n ++ le 8 r.seq ++ le 2 r.txCount) body

/-- Whether no channel that holds a DRAM range makes an access wait: for its memory PLL, for a retraining or for the fill
of R284 (R100, R305). A dead channel answers at once (R316). -/
def dramUp (s : State) (a n : Nat) : Bool :=
  s.dram.filling.isNone && (burstsOf a n).all fun g =>
    let c := (placeOf s (64 * g)).1
    (decide ((dch s c).code = 1) || decide ((dch s c).code = 2) || decide ((dch s c).code = 5)) &&
      decide (pll s (4 + c / 3) = .inUse)

/-- Drops the oldest records of a window until the rest and `need` bytes fit (R363). -/
def evict (size need : Nat) : List WinRec → List WinRec
  | [] => []
  | w :: ws =>
    if ((w :: ws).map fun v => v.bytes + 8).sum + need ≤ size then w :: ws else evict size need ws

/-- Writes bytes to a ring of DRAM. -/
def ringWrite (base size pos : Nat) (b : List Byte) (s : State) : State :=
  let p := pos % size
  dramWrite base (b.drop (size - p)) false (dramWrite (base + p) (b.take (size - p)) false s)

/-- Writes a record to its stream's replay window, where it has one and the write can issue (R363). -/
def windowWrite (n : Nat) (r : Rec) (s : State) : State :=
  match smFind n s.spt.windows with
  | none => s
  | some (base, size) =>
    let b := spoutHeader s n r ++ r.payload ++ r.poison
    let len := roundUp 64 b.length
    if dramUp s base size ∧ len + 8 ≤ size then
      let x := stream s n
      let s := ringWrite base size x.winNext (padTo len b) s
      setStream n { stream s n with
        window := evict size (len + 8) x.window ++ [{ seq := r.seq, addr := x.winNext % size, len := b.length, bytes := len,
                                                      tx := 0, dest := r.dest, keySlot := r.keySlot }],
        winNext := (x.winNext + len) % size } s
    else s

/-- Asks for the next hop of a record where it is not resolved: an ARP or NDP request, and a retry later (R343). -/
def askHop (p : Nat) (d : List Word) (s : State) : State :=
  let x := port s p
  let v6 := bit (destCtrl d) 2
  let hop := hopOf x v6 (destAddr d)
  if bit (destCtrl d) 1 || isMulticast v6 (destAddr d) || x.cache.any (·.1 = hop) || decide (hop ∈ x.want)
      || !hasSource x v6 (destAddr d) then s
  else setPort p { x with want := x.want ++ [hop], retryAt := if x.want = [] then s.cnt.ticks + secTicks else x.retryAt,
                          classA := x.classA ++ [{ kind := if v6 then .ndp else .arp, dst := hop, bytes := [] }] } s

/-- A record is created: it takes the next number and queues on the port that carries its stream, or its number becomes
GAP; it is written to the replay window either way. A halted stream only counts it (R355 to R359, R363). -/
def createRec (n : Nat) (r : Rec) (s : State) : State :=
  let x := stream s n
  if streamHalted s n then setStream n { x with notCreated := x.notCreated + 1, skipped := true } s
  else
    let d := destOf s n
    let key := if bit (destCtrl d) 3 then some (fld (destCtrl d) 4 4) else none
    let own := r.typ = 0 ∨ r.typ = 1
    let r := { r with
      seq := x.issued, dest := d, keySlot := key,
      stamp := if own then r.stamp else now s, tqb := if own then r.tqb else tqb s,
      flags := r.flags ||| createFlags s ||| (if x.firstRec then 0x800 else 0) ||| (if x.skipped then 0x400 else 0)
        ||| (if key.isSome then 0x10000 else 0) ||| (if r.poison ≠ [] then 0x10 else 0) }
    let s := windowWrite n r s
    let x := { stream s n with issued := r.seq + 1, firstRec := false, skipped := false }
    let reserved := r.typ = 4 ∨ r.typ = 5
    let tooMuch := backlogLimit s n < backlog x + recBytes r
    let full := poolFull s reserved (recBytes r)
    if tooMuch ∨ full then
      let reason := if tooMuch then (if linkLost s n then 3 else if waitsHop s n then 4 else 1) else 2
      let g : Gap := { first := r.seq, count := 1, reason := reason, stamp := r.stamp, tqb := r.tqb }
      raise 0xB0040 4 (raiseIf (full && !tooMuch) 0xB0040 6 (setStream n { x with queue := addGap g x.queue } s))
    else
      let used := (backlog x + recBytes r + 63) / 64
      let x := { x with queue := x.queue ++ [.data r], backlogMax := Nat.max x.backlogMax (Nat.min (2 ^ 32 - 1) used) }
      askHop (carryPort s n) d (setStream n x s)

/-! ### Tap samples into PRODUCT streams (R349, R353) -/

/-- ENCODING of a stream; 3 is treated as 0 (R371). -/
def encodingOf (s : State) (n : Nat) : Nat := if cfgF s (streamAt n) 28 2 = 3 then 0 else cfgF s (streamAt n) 28 2

/-- COUNT_CH. -/
def countChOf (m : Nat → Word) (n : Nat) : Nat := clampN 1 65536 (fld (m (streamAt n + 8)) 0 17)

/-- TAP of a PRODUCT stream, 5 to 7 treated as 4. -/
def streamTap (m : Nat → Word) (n : Nat) : Nat := Nat.min 4 (fld (m (streamAt n + 4)) 2 3)

/-- The values a stream takes of one channel's tap sample: its product at T0, the one value or the pair elsewhere. -/
def streamValues (t : TapSample) (product : Nat) (v : List Int) : List Int := if t.tap = 0 then [v.getD product 0] else v

/-- The native records of one tap sample: up to floor(PL ÷ v) channels each (R349). -/
def tapRecs (pl port product first : Nat) (t : TapSample) (vals : List (List Int)) : List Rec :=
  let v := if t.pair then 8 else 4
  let per := Nat.max 1 (pl / v)
  let k := ceilDiv vals.length per
  (List.range k).map fun i =>
    let part := slice (i * per) per vals
    { typ := 1, src := port, product := product, tap := t.tap + 16 * t.slot, tqb := t.attr.tqb, stamp := t.attr.stamp,
      first := first + i * per, count := part.length, payload := part.flatMap fun l => l.flatMap fun x => le 4 (twos 32 x),
      index := if t.tap = 0 then t.attr.first else t.index, aux := t.attr.last,
      flags := t.attr.flags % 16 ||| (if i + 1 = k then 0x1000 else 0) ||| (if nbit t.attr.flags 9 then 0x2000 else 0)
        ||| (if nbit t.attr.flags 20 then 0x4000 else 0) ||| (if t.pair then 0x8000 else 0) }

/-! ### miniSEED (R366 to R368) -/

/-- The float64 nearest to `a ÷ b`, ties to even, as its 64 bits. -/
def float64 (a b : Nat) : Nat :=
  if a = 0 ∨ b = 0 then 0
  else
    let e : Int := (a.log2 : Int) - b.log2 - 53
    -- a ÷ b in units of 2^e has 53 to 55 bits; one of e, e + 1, e + 2 leaves 53
    let q (k : Int) : Nat × Nat := if 0 ≤ k then (a, b * 2 ^ k.toNat) else (a * 2 ^ (-k).toNat, b)
    let e := if (q e).1 / (q e).2 < 2 ^ 53 then e else if (q (e + 1)).1 / (q (e + 1)).2 < 2 ^ 53 then e + 1 else e + 2
    let n := (rhe (q e).1 (q e).2).toNat
    let (n, e) := if n = 2 ^ 53 then (2 ^ 52, e + 1) else (n, e)
    (e + 52 + 1023).toNat * 2 ^ 52 + (n - 2 ^ 52)

/-- TAI − UTC at a TAI second (R112): the offset in force, or the one before a leap second already applied. -/
def utcOffset (s : State) (sec : Nat) : Int :=
  let off := sgn 16 (hw s 0x10160).toNat
  if s.tb.leapDone ∧ sec < s.tb.leapAt then off - s.tb.leapSign
  else if ¬ s.tb.leapDone ∧ s.tb.leapSign ≠ 0 ∧ s.tb.leapAt ≤ sec then off + s.tb.leapSign else off

/-- Days since 1970-01-01 as year and day of year, from a year on. -/
def yearDay : Nat → Nat → Nat → Nat × Nat
  | 0, y, d => (y, d + 1)
  | k + 1, y, d =>
    let n := if y % 4 = 0 ∧ (y % 100 ≠ 0 ∨ y % 400 = 0) then 366 else 365
    if d < n then (y, d + 1) else yearDay k (y + 1) (d - n)

/-- The start time fields of a miniSEED record (R366): nanosecond, year, day of year, hour, minute, second. -/
def mseedTime (s : State) (t : Stamp) : List Byte :=
  let ns := t / 65536
  let sec := ns / 1000000000
  let inLeap := s.tb.leapSign = 1 ∧ sec < s.tb.leapAt ∧ s.tb.leapAt ≤ sec + 1
  let u := ((sec : Int) - utcOffset s sec - (if inLeap then 1 else 0)).toNat
  let (y, d) := yearDay 4000 1970 (u / 86400)
  le 4 (ns % 1000000000) ++ le 2 y ++ le 2 d ++ le 1 (u / 3600 % 24) ++ le 1 (u / 60 % 60)
    ++ le 1 (u % 60 + (if inLeap then 1 else 0))

/-- The packings of R367: count and bits, with the control code and the code in the word. -/
def packings : List (Nat × Nat × Nat × Nat) :=
  [(7, 4, 3, 2), (6, 5, 3, 1), (5, 6, 3, 0), (4, 8, 1, 0), (3, 10, 2, 3), (2, 15, 2, 2), (1, 30, 2, 1)]

/-- Whether a difference fits in `b` bits, two's complement. -/
def fitsBits (b : Nat) (d : Int) : Bool := decide (-(2 ^ (b - 1)) ≤ d ∧ d < 2 ^ (b - 1))

/-- The next word of differences: its control code, its 32 bits and the differences it takes (R367). -/
def packWord (ds : List Int) : Nat × Nat × Nat :=
  match packings.find? fun (k, b, _, _) => decide (k ≤ ds.length) && (ds.take k).all (fitsBits b) with
  | some (k, b, c, dn) =>
    let body := (ds.take k).foldl (fun a d => a * 2 ^ b + twos b d) 0
    (c, (if b = 8 then 0 else dn * 2 ^ 30) + body, k)
  | none => (2, 2 ^ 30, 1)

/-- All the words of a list of differences. -/
def packAll : Nat → List Int → List (Nat × Nat)
  | 0, _ => []
  | f + 1, ds =>
    if ds = [] then []
    else
      let (c, w, k) := packWord ds
      (c, w) :: packAll f (ds.drop k)

/-- The differences of a record's samples: the first from `prev`. -/
def diffs (prev : Int) : List Int → List Int
  | [] => []
  | x :: xs => (x - prev) :: diffs x xs

/-- Sixteen words as a Steim frame: the control word, then the words, most significant byte first. -/
def steimFrame (l : List (Nat × Nat)) : List Byte :=
  let l := l ++ List.replicate (15 - l.length) (0, 0)
  be 4 (l.foldl (fun a cw => a * 4 + cw.1) 0) ++ l.flatMap fun cw => be 4 cw.2

/-- The Steim-2 frames of a record: the first carries X0 and Xn before its differences (R367). -/
def steim2 (prev : Int) (xs : List Int) : List Byte :=
  let ws := packAll xs.length (diffs prev xs)
  let all := (0, twos 32 (xs.headD 0)) :: (0, twos 32 (xs.getLastD 0)) :: ws
  (List.range (ceilDiv all.length 15)).flatMap fun i => steimFrame (slice (15 * i) 15 all)

/-- The source identifier of a channel (R366). -/
def mseedId (m : Nat → Word) (tmpl ch product : Nat) : List Byte :=
  let b := (List.range 8).flatMap fun i => wordBytes (m (0xB3000 + 0x20 * tmpl + 4 * i))
  let text (off n : Nat) : List Byte := (slice off n b).takeWhile (· ≠ 0)
  let digit (k : Nat) : Byte := BitVec.ofNat 8 (48 + ch / 10 ^ k % 10)
  let u : List Byte := [95]
  [70, 68, 83, 78, 58] ++ text 0 8 ++ u ++ text 8 8 ++ u ++ text 0x10 3 ++ [digit 4, digit 3, digit 2, digit 1, digit 0]
    ++ u ++ slice 0x14 1 b ++ u ++ slice 0x15 1 b ++ u ++ slice (0x16 + product) 1 b

/-- TEMPLATE of a stream. -/
def templateOf (s : State) (n : Nat) : Nat := cfgF s (streamAt n + 8) 17 4

/-- PRODUCT of a PRODUCT stream. -/
def streamProduct (m : Nat → Word) (n : Nat) : Nat := fld (m (streamAt n + 4)) 5 3

/-- The bytes a miniSEED payload may take in one record. -/
def mseedRoom (s : State) (n ch : Nat) : Nat :=
  Nat.min 4096 (plOf (cfg s)) - 40 - (mseedId (cfg s) (templateOf s n) ch (streamProduct (cfg s) n)).length

/-- The payload of a record being filled. -/
def mseedPayload (s : State) (n : Nat) (x : Mseed) (xs : List Int) : List Byte :=
  if encodingOf s n = 2 then steim2 (if x.cont then x.last else xs.headD 0) xs else xs.flatMap fun v => le 4 (twos 32 v)

/-- The finished miniSEED record of a channel (R366). -/
def mseedRecord (s : State) (n ch : Nat) (x : Mseed) : List Byte :=
  let port := cfgF s (streamAt n + 4) 0 2
  let id := mseedId (cfg s) (templateOf s n) ch (streamProduct (cfg s) n)
  let body := mseedPayload s n x x.samples
  let state := x.tqb.toNat % 8
  let fl := (if state = 0 ∨ state = 1 then 2 else 0) + (if state = 3 ∧ ¬ nbit x.tqb.toNat 3 then 4 else 0)
  let rate := tapRate (cfg s) port (streamTap (cfg s) n)
  let pub := cfgF s (0xB3000 + 0x20 * templateOf s n + 0x18) 24 8
  let part (crc : Nat) : List Byte :=
    [77, 83, 3] ++ le 1 fl ++ mseedTime s x.start ++ le 1 (if encodingOf s n = 2 then 11 else 3)
      ++ le 8 (float64 rate.1 rate.2) ++ le 4 x.samples.length ++ le 4 crc ++ le 1 (if pub = 0 then 1 else pub)
      ++ le 1 id.length ++ le 2 0 ++ le 4 body.length ++ id ++ body
  part (crc32c (part 0)).toNat

/-- A channel's miniSEED record closes: the record is ready, and the channel starts afresh (R368). -/
def mseedClose (full : Bool) (n ch : Nat) (s : State) : State :=
  let y := stream s n
  let x : Mseed := smGet {} ch y.mseed
  if x.samples = [] then setStream n { y with mseed := smPut {} ch { x with cont := full } y.mseed } s
  else
    let r : Rec := { typ := 1, flags := 0x20000 ||| x.flags, src := cfgF s (streamAt n + 4) 0 2,
                     product := streamProduct (cfg s) n, tap := streamTap (cfg s) n, tqb := x.tqb, first := ch, count := 1,
                     index := x.index, stamp := x.start, aux := x.samples.length, payload := mseedRecord s n ch x }
    let x' : Mseed := { last := x.samples.getLastD 0, cont := full }
    setStream n { y with ready := y.ready ++ [r], mseed := smPut {} ch x' y.mseed } s

/-- A tap sample enters a channel's miniSEED record (R367, R368). -/
def mseedTake (n ch : Nat) (t : TapSample) (v : Int) (s : State) : State :=
  let x : Mseed := smGet {} ch (stream s n).mseed
  let fl := t.attr.flags % 16 ||| (if nbit t.attr.flags 9 then 0x2000 else 0) ||| (if nbit t.attr.flags 20 then 0x4000 else 0)
  let broken := decide (x.samples ≠ []) &&
    (nbit t.attr.flags 9 || nbit t.attr.flags 20 || decide (t.index ≠ x.index + x.samples.length)
      || decide (t.attr.flags % 16 ≠ x.flags % 16) || decide (t.attr.tqb.toNat % 8 ≠ x.tqb.toNat % 8)
      || decide (Nat.max 1 (cfgF s 0xB0000 24 8) * second ≤ t.attr.stamp - x.start)
      || (decide (encodingOf s n = 2) && !fitsBits 30 (v - x.samples.getLastD 0)))
  let s := if broken then mseedClose false n ch s else s
  let x : Mseed := smGet {} ch (stream s n).mseed
  let s := if x.samples ≠ [] ∧ mseedRoom s n ch < (mseedPayload s n x (x.samples ++ [v])).length then mseedClose true n ch s else s
  let x : Mseed := smGet {} ch (stream s n).mseed
  let x : Mseed := if x.samples = [] then
      { x with samples := [v], start := t.attr.stamp, tqb := t.attr.tqb, flags := fl, index := t.index,
               cont := x.cont && fitsBits 30 (v - x.last) }
    else { x with samples := x.samples ++ [v], flags := x.flags ||| fl }
  let s := setStream n { stream s n with mseed := smPut {} ch x (stream s n).mseed } s
  if encodingOf s n = 1 ∧ mseedRoom s n ch < 4 * (x.samples.length + 1) then mseedClose true n ch s else s

/-- A tap sample of a fibre port reaches every PRODUCT stream that takes it (R349). -/
def feedStreams (p : Nat) (t : TapSample) (s : State) : State :=
  (enabledStreams s.regs.active).foldl (fun s n =>
    if streamType s n = 1 ∧ cfgF s (streamAt n + 4) 0 2 = p ∧ streamTap (cfg s) n = t.tap then
      let first := cfgF s (streamAt n + 4) 8 17
      let product := streamProduct (cfg s) n
      let vals := (slice first (countChOf (cfg s) n) t.values).map (streamValues t product)
      if encodingOf s n = 0 then
        let x := stream s n
        setStream n { x with ready := x.ready ++ tapRecs (plOf (cfg s)) p product first t vals } s
      else vals.zipIdx.foldl (fun s (v, i) => mseedTake n (first + i) t (v.headD 0) s) s
    else s) s

end Sys2Proof.Machine
end

