-- ==== Sys2Proof/Machine/Pool.lean ====
section
/-!
DEFINITION. Pool (R206 to R214): entries, blocks, result rings and the triggers of RAW engines.
-/

namespace Sys2Proof.Machine

/-- The address of a word of an engine's block (R215). -/
def polA (e off : Nat) : Nat := 0x50000 + 0x800 * e + off

/-- An input enters an entry (R209). -/
def entryTake (x : Int) (y : PEntry) : PEntry :=
  if y.n = 0 then { s1 := x, s2 := (x * x).toNat, mn := x, mx := x, n := 1 }
  else { s1 := y.s1 + x, s2 := y.s2 + (x * x).toNat, mn := min y.mn x, mx := max y.mx x, n := y.n + 1 }

/-- A result entry (R209, R214). -/
def resultBytes (y : PEntry) : List Byte :=
  let mean := if y.n = 0 then 0 else rhe y.s1 y.n
  let var := if y.n = 0 then 0 else rhe ((y.n : Int) * y.s2 - y.s1 * y.s1) (y.n * y.n)
  le 4 (twos 32 mean) ++ le 4 (twos 32 y.mn) ++ le 4 (twos 32 y.mx) ++ le 4 y.n ++ le 8 var.toNat

/-- The bytes of a block in the ring: header, COUNT entries, padded to 64 (R212). -/
def blockBytes (m : Nat → Word) (e : Nat) : Nat := roundUp 64 (64 + 24 * polCount m e)

/-- The free bytes of a ring. -/
def ringFree (s : State) (e : Nat) : Nat := ringSize (cfg s) e - ((pol s e).ring.map (·.bytes)).sum

/-- The block header (R214). -/
def blockHeader (s : State) (e : Nat) (x : Pol) (early : Bool) : List Byte :=
  let m := cfg s
  let src := polSource m e
  le 8 x.blockNo ++ le 1 e ++ le 1 src
    ++ le 1 (if src = 2 then 0xFF else if src = 3 then 5 else polProduct m e)
    ++ le 1 (if src = 1 then polTap m e else if src = 3 then polLane m e else 0)
    ++ le 4 (x.flags % 32 + (if early then 32 else 0) + (if nbit x.flags 6 then 64 else 0) + (if x.lostBefore then 128 else 0))
    ++ le 4 (polFirst m e) ++ le 4 (polCount m e) ++ le 4 (polN m e) ++ le 4 x.events
    ++ le 2 (if src = 2 then polStep m e else 1) ++ le 2 (if src = 3 then 1 else polDecim m e)
    ++ stampBytes x.tFirst ++ stampBytes x.tLast ++ [x.tqbFirst, x.tqbLast] ++ zeros 2

/-- An engine with its block emptied. -/
def blockReset (cont : Bool) (x : Pol) : Pol :=
  { x with running := cont, seen := 0, events := 0, entries := [], flags := 0, tFirst := 0, tLast := 0, tqbFirst := 0,
           tqbLast := 0 }

/-- A block closes: its results go to the ring, or the block is lost (R210, R212). An early close with no input event
writes no block. -/
def blockClose (early : Bool) (e : Nat) (s : State) : State :=
  let x := pol s e
  let m := cfg s
  if x.events = 0 then setPol e { x with seen := 0 } s
  else
    let need := blockBytes m e
    let body := padTo need (blockHeader s e x early ++ (List.range (polCount m e)).flatMap fun i => resultBytes (smGet {} i x.entries))
    let fit := decide (need ≤ ringFree s e)
    let size := ringSize m e
    let s := if fit then ringWrite (ringBase m e) size x.write body s else s
    let y := blockReset (polCont m e) { x with blockNo := x.blockNo + 1 }
    let y := if fit then
        { y with lostBefore := false, write := (x.write + need) % size,
                 ring := x.ring ++ [{ no := x.blockNo, flags := x.flags % 16, addr := x.write, bytes := need, readout := 0, spout := 0 }] }
      else { y with lostBefore := true }
    let s := addCnt64 (polA e 0x50) 1 (setPol e y s)
    let s := if fit then raise (polA e 0x40) 0 s else loss 9 1 (raise (polA e 0x40) 2 (addCnt64 (polA e 0x58) 1 s))
    raiseIf early (polA e 0x40) 1 s

/-- An engine is set going, as when it is enabled or START is written (R210). -/
def blockStart (e : Nat) (s : State) : State := setPol e { pol s e with running := true } s

/-- A used input event: its values enter their entries; the N-th closes the block (R206, R209, R210). -/
def poolTake (e : Nat) (vals : List (Option Int)) (t : Stamp) (q : Byte) (fl : Nat) (s : State) : State :=
  let x := pol s e
  let entries := vals.zipIdx.foldl (fun m (v, i) => match v with
    | some v => smPut {} i (entryTake v (smGet {} i m)) m
    | none => m) x.entries
  let x := { x with
    entries := entries, events := x.events + 1, flags := x.flags ||| fl, tLast := t, tqbLast := q,
    tFirst := if x.events = 0 then t else x.tFirst, tqbFirst := if x.events = 0 then q else x.tqbFirst }
  let s := setPol e x s
  if polN (cfg s) e ≤ x.events then blockClose false e s else s

/-- Entries in use with an uncorrectable SECDED error are zeroed and count from scratch; the block carries POISONED
(R210). -/
def poolPoison (e : Nat) (bad : List Nat) (s : State) : State :=
  let bad := bad.filter fun i => decide (i < polCount (cfg s) e)
  if bad = [] ∨ polSource (cfg s) e = 0 then s
  else
    let x := pol s e
    raise (polA e 0x40) 4 (setPol e { x with entries := x.entries.filter fun (i, _) => decide (i ∉ bad), flags := x.flags ||| 16 } s)

/-- An input event of a CHANNEL or BIN engine: every DECIM-th is used (R206). -/
def poolEvent (e : Nat) (vals : List (Option Int)) (t : Stamp) (q : Byte) (fl : Nat) (s : State) : State :=
  let x := pol s e
  if x.running || polCont (cfg s) e then
    let seen := x.seen + 1
    let s := setPol e { x with seen := seen } s
    if seen % polDecim (cfg s) e = 0 then poolTake e vals t q fl s else s
  else s

/-- The value a CHANNEL engine takes of a channel's tap sample (R206, R207). -/
def poolValue (m : Nat → Word) (e : Nat) (t : TapSample) (v : List Int) : Int :=
  if t.tap = 0 then v.getD (polProduct m e) 0
  else if t.pair then v.getD (if polLo m e then 0 else 1) 0
  else v.getD 0 0

/-- The flags of a tap sample as a block holds them: bits 0 to 3, and PRIME in bit 6 (R214). -/
def poolFlags (fl : Nat) : Nat := fl % 16 + (if nbit fl 9 then 64 else 0)

/-- A tap sample reaches the port's engine; `done` tells which channels are complete (R189, R209). -/
def poolTap (e : Nat) (t : TapSample) (done : List Bool) (s : State) : State :=
  let m := cfg s
  if polSource m e = 1 ∧ polTap m e = t.tap then
    let vals := slice (polFirst m e) (polCount m e) (t.values.zip done)
    poolEvent e (vals.map fun (v, ok) => if ok then some (poolValue m e t v) else none) t.attr.stamp t.attr.tqb
      (poolFlags t.attr.flags) s
  else s

/-- A slot-shot reaches a BIN engine: `pwr` is the power of a native bin, none where it was not digitised. -/
def poolBins (e slot : Nat) (pwr : Nat → Option Int) (t : Stamp) (q : Byte) (fl : Nat) (s : State) : State :=
  let m := cfg s
  if polSource m e = 2 ∧ nbit (polSlots m e) slot then
    poolEvent e ((List.range (polCount m e)).map fun i => pwr (polFirst m e + i * polStep m e)) t q (poolFlags fl) s
  else s

/-- A trigger is skipped (R208). -/
def poolSkip (e : Nat) (s : State) : State := raise (polA e 0x40) 3 (addHold (polA e 0x60) 1 s)

/-- A trigger instant of a lane trigger unit reaches the RAW engines that name it (R208). -/
def poolTrigger (u : Nat) (t : Int) (f : Nat) (stamp : Stamp) (q : Byte) (s : State) : State :=
  each (List.range 4) (fun e s =>
    let m := cfg s
    let x := pol s e
    if polSource m e = 3 ∧ polUnit m e = u ∧ (x.running ∨ polCont m e) then
      let start := t - (polPre m e : Nat)
      let ok := match x.lastEnd with | none => true | some l => decide (l < start)
      if ok then
        setPol e { x with lastEnd := some (start + (polCount m e : Nat) - 1),
                          trigs := x.trigs ++ [{ t := t, f := f, stamp := stamp, tqb := q }] } s
      else poolSkip e s
    else s) s

/-- The value of record sample `i` (R208): the lane sample, or the interpolator's sum with the given coefficients. -/
def rawValue (h : List Int) (xs : List Int) (i : Nat) : Int :=
  satS 14 (rsh (((slice i 8 xs).zip h).foldl (fun a (x, c) => a + x * c) 0) 14)

/-- Blocks that every enabled consumer has taken leave the front of the ring (R212). -/
def ringFront (m : Nat → Word) (e : Nat) : List Block4 → List Block4
  | [] => []
  | b :: bs =>
    if (!polReadout m e || decide (b.bytes ≤ b.readout)) && (!polSpout m e || decide (b.bytes ≤ b.spout)) then ringFront m e bs
    else b :: bs

/-- Lets go of the blocks that have been taken. -/
def ringRelease (e : Nat) (s : State) : State :=
  setPol e { pol s e with ring := ringFront (cfg s) e (pol s e).ring } s

/-- The unread blocks of a ring are discarded and counted, as when it moves (R213). -/
def ringDiscard (e : Nat) (s : State) : State :=
  let x := pol s e
  if x.ring = [] then setPol e { x with write := 0 } s
  else
    let n := x.ring.length
    loss 9 n (raise (polA e 0x40) 2 (addCnt64 (polA e 0x58) n (setPol e { x with ring := [], write := 0, lostBefore := true } s)))

end Sys2Proof.Machine
end

