-- ==== Sys2Proof/Machine/Cascade.lean ====
section
/-!
DEFINITION. Cascade (R197 to R205): the arithmetic of a stage, restarts, tap attributes, and the way of a T0 sample
through the chain.
-/

namespace Sys2Proof.Machine

/-- The address of a word of a chain's block (R216). -/
def cscA (p off : Nat) : Nat := 0x52000 + 0x800 * p + off

/-- The FIR coefficients h0 to h6 of a set (R200). -/
def firSet (k : Nat) : List Int :=
  match k with
  | 0 => [192, -625, 832, 3298, 832, -625, 192]
  | 1 => [242, -751, 782, 3550, 782, -751, 242]
  | 2 => [301, -891, 723, 3830, 723, -891, 301]
  | _ => [371, -1047, 653, 4142, 653, -1047, 371]

/-- The integrators of a CIC after an input: I[1] takes it, and each later one takes the one before (R199). -/
def integrate (x : Int) : Nat → List Int → List Int
  | 0, _ => []
  | n + 1, is =>
    let v := wrapS 48 (is.headD 0 + x)
    v :: integrate v n (is.drop 1)

/-- The combs of a CIC: the new C registers and the output (R199). -/
def comb (c : Int) : Nat → List Int → List Int × Int
  | 0, _ => ([], c)
  | n + 1, cs =>
    let t := wrapS 48 (c - cs.headD 0)
    let (rest, out) := comb t n (cs.drop 1)
    (c :: rest, out)

/-- A stage takes the `j`-th input of its run (R199). -/
def stageIn (c : StageCfg) (j : Nat) (lo hi : Int) (r : StageReg) : StageReg :=
  match c.mode with
  | 1 => { r with acc := r.acc + lo }
  | 2 => if j % c.div = 0 then { r with lo := lo, hi := hi } else { r with lo := min r.lo lo, hi := max r.hi hi }
  | 3 => { r with i := integrate lo c.order r.i }
  | _ => r

/-- The output of a stage at the end of a group: registers, the value or pair, and whether it saturated (R199). -/
def stageOut (c : StageCfg) (lo hi : Int) (r : StageReg) : StageReg × Int × Int × Bool :=
  match c.mode with
  | 1 => let v := rhe r.acc c.div; ({ r with acc := 0 }, v, v, false)
  | 2 => (r, r.lo, r.hi, false)
  | 3 =>
    let (cs, y) := comb (r.i.getLastD 0) c.order r.c
    let w := rhe y (c.div ^ c.order)
    let ws := r.w ++ List.replicate (6 - r.w.length) 0
    let v := ((firSet c.set).zip ((ws.reverse) ++ [w])).foldl (fun a (h, x) => a + h * x) 0
    let z := rhe v 4096
    ({ r with c := cs, w := w :: ws.take 5 }, satS 32 z, satS 32 z, decide (satS 32 z ≠ z))
  | _ => (r, lo, hi, false)

/-- A channel's registers of a stage. -/
def stageReg (s : State) (p ch k : Nat) : StageReg := smGet {} k (smGet ({} : Chan) (65536 * p + ch) s.basin.chans).stages

/-- Sets a channel's registers of a stage. -/
def setStageReg (p ch k : Nat) (r : StageReg) (s : State) : State :=
  let key := 65536 * p + ch
  let c : Chan := smGet {} key s.basin.chans
  { s with basin := { s.basin with chans := smPut {} key { c with stages := smPut {} k r c.stages } s.basin.chans } }

/-- How far back from the last input an output of a group reaches, in inputs: the span of its non-zero weights
(R203). -/
def stageSpan (c : StageCfg) : Nat :=
  match c.mode with
  | 0 => 0
  | 3 => 6 * c.div + c.order * (c.div - 1)
  | _ => c.div - 1

/-- Twice the distance from the last input back to the output's centre (R204). -/
def stageLag (c : StageCfg) : Nat :=
  match c.mode with
  | 0 => 0
  | 3 => c.order * (c.div - 1) + 6 * c.div
  | _ => c.div - 1

/-- The attributes of an output from those of the recent inputs, newest first (R203, R204). Its flags are those of every
shot from SHOT_FIRST to SHOT_LAST, those between two inputs among them. -/
def stageAttr (c : StageCfg) (fresh : Bool) (hist : List TapAttr) : TapAttr :=
  let span := hist.take (stageSpan c + 1)
  let lag := stageLag c
  let near : TapAttr := hist.getD (lag / 2) {}
  let far : TapAttr := hist.getD ((lag + 1) / 2) {}
  { stamp := if lag % 2 = 0 then near.stamp else (rhe ((near.stamp + far.stamp : Nat) : Int) 2).toNat,
    tqb := near.tqb, first := (span.getLastD {}).first, last := (hist.headD {}).last,
    flags := ((span.dropLast.foldl (fun a h => a ||| h.since) (span.getLastD {}).flags) &&& 0x420F) ||| (if fresh then 0x100000 else 0),
    since := (hist.take c.div).foldl (fun a h => a ||| h.since) 0 }

/-- A channel's value passes one stage: registers kept, output given at the end of a group. -/
def stageChannel (c : StageCfg) (j p k : Nat) (s : State) (x : List Int × Nat) : State × (List Int × Bool) :=
  let (v, ch) := x
  let lo := v.headD 0
  let hi := v.getLastD 0
  let r := stageIn c j lo hi (stageReg s p ch k)
  if (j + 1) % c.div = 0 then
    let (r, a, b, sat) := stageOut c lo hi r
    (setStageReg p ch k r s, ([a, b], sat))
  else (setStageReg p ch k r s, ([], false))

/-- Every channel's value passes one stage, in channel order. -/
def stageAll (c : StageCfg) (j p k : Nat) (s : State) : List (List Int × Nat) → State × List (List Int × Bool)
  | [] => (s, [])
  | x :: xs =>
    let (s, y) := stageChannel c j p k s x
    let (s, ys) := stageAll c j p k s xs
    (s, y :: ys)

/-- Counts a tap sample and gives it its INDEX. -/
def nextIndex (p tap : Nat) (s : State) : Nat × State :=
  let x := csc s p
  let i := smGet 0 tap x.index
  (i, setCsc p { x with index := smPut 0 tap (i + 1) x.index } s)

/-- A tap sample leaves for the streams, the port's Pool engine and the watches. -/
def emitTap (p : Nat) (t : TapSample) (done : List Bool) (s : State) : State :=
  let s := poolTap p t done (feedStreams p t s)
  let x := csc s p
  setCsc p { x with queue := x.queue ++ [{ t with gaps := (done.zipIdx.filter fun (ok, _) => !ok).map (·.2) }] } s

/-- The values of a tap sample pass the stages from `k` on (R197, R199, R202). -/
def cascadeFrom (p : Nat) : Nat → Nat → List (List Int) → TapAttr → State → State
  | 0, _, _, _, s => s
  | fuel + 1, k, vals, attr, s =>
    let m := cfg s
    if k ≤ stagesOf m p then
      let c := stageOf m p k
      let x := csc s p
      let st : StageSt := smGet {} k x.stages
      let (s, outs) := stageAll c st.j p k s vals.zipIdx
      let st' : StageSt := { st with j := st.j + 1, part := (st.j + 1) % c.div, hist := (attr :: st.hist).take 160 }
      if (st.j + 1) % c.div = 0 then
        if 0 < st.skip then
          addCnt64 (cscA p 0x60) 1 (setCsc p { csc s p with stages := smPut {} k { st' with skip := st.skip - 1 } x.stages } s)
        else
          let s := setCsc p { csc s p with stages := smPut {} k { st' with fresh := false } x.stages } s
          let sats := (outs.filter (·.2)).length
          let s := each (List.range sats) (fun _ => raise (cscA p 0x40) 1) (addHold (cscA p 0x68) sats s)
          let out := stageAttr c st.fresh st'.hist
          let (i, s) := nextIndex p k s
          let pair := pairTap m p k
          let vs := outs.map fun o => o.1
          let t : TapSample := { tap := k, index := i, slot := 0, pair := pair, attr := out,
                                 values := if pair then vs else vs.map (·.take 1) }
          cascadeFrom p fuel (k + 1) vs out (emitTap p t (vs.map fun _ => true) s)
      else setCsc p { csc s p with stages := smPut {} k st' x.stages } s
    else s

/-- Clears the Cascade registers of every channel of a port. -/
def clearStages (p : Nat) (s : State) : State :=
  let bare (k : Nat) (c : Chan) : Option (Nat × Chan) :=
    let d : Chan := { c with stages := [] }
    if d = {} then none else some (k, d)
  let chans := s.basin.chans.filterMap fun (k, c) => if k / 65536 = p then bare k c else some (k, c)
  { s with basin := { s.basin with chans := chans } }

/-- A restart of a port's chain (R202): incomplete groups are discarded and counted, and every FILTER stage will
suppress its first n + 5 outputs. A block of the port's Pool engine closes early (R210). -/
def cascadeRestart (p : Nat) (s : State) : State :=
  let x := csc s p
  let lost := (x.stages.filter fun (k, st) => decide (k ≠ 0) && decide (st.part ≠ 0)).length
  let s := if lost = 0 then s else raise (cscA p 0x40) 2 (addHold (cscA p 0x6C) lost s)
  let s := blockClose true p s
  raise (cscA p 0x40) 0 (clearStages p s)

/-- The stages as they start after a restart, under the active configuration. -/
def cascadeBegin (p : Nat) (s : State) : State :=
  let m := cfg s
  let fresh (k : Nat) : StageSt :=
    { skip := if (stageOf m p (k + 1)).mode = 3 then (stageOf m p (k + 1)).order + 5 else 0 }
  setCsc p { csc s p with stages := (List.range (stagesOf m p)).foldl (fun a k => smPut {} (k + 1) (fresh k) a) [] } s

/-- A repaired channel's CASCADE field becomes 0 (R202). -/
def cascadeZero (p ch : Nat) (s : State) : State :=
  let key := 65536 * p + ch
  let c : Chan := smGet {} key s.basin.chans
  { s with basin := { s.basin with chans := smPut {} key { c with stages := [] } s.basin.chans } }

end Sys2Proof.Machine
end

