-- ==== Sys2Proof/Machine/Reservoir.lean ====
section
/-!
DEFINITION. The OTP as it reads, the wear map and its pending writes (R409 to R413), and the hold of R82 and R85.
-/

namespace Sys2Proof.Machine

/-! ### The OTP (R423, R424) -/

/-- The 36 identity bytes of a die: PROFILE is 1 (R1, R426). -/
def idDelivered (a : Nat) : Byte := if 0x14 ≤ a ∧ a < 0x18 then (if a = 0x14 then 1 else 0) else Config.idByte a

/-- The OTP as a die is delivered: its identity with CHECK over it, PROVISIONED, its keys and the maker's signatures;
nothing else is programmed (R423, R426, R429, R435, R441). -/
def otpDelivered (a : Nat) : Byte :=
  if a = 0x40 then 0xFF
  else if a < 0x24 then idDelivered a
  else if a < 0x28 then (crc32c ((List.range 0x24).map idDelivered) >>> (8 * (a - 0x24))).setWidth 8
  else if a = 0x28 then Config.idByte a
  else if 0x100 ≤ a ∧ a < 0x180 then Config.keyByte (a - 0x100)
  else if 0x180 ≤ a ∧ a < 0x900 then Config.makerByte (a - 0x180)
  else 0

/-- A byte of the OTP, with the bits of the objects still to be programmed. -/
def otpByte (s : State) (a : Nat) : Byte :=
  s.sec.otpQueue.foldl (fun b o => o.foldl (fun b (k, v) => if k = a then b ||| v else b) b)
    (smGet (otpDelivered a) a s.sec.otp)

/-- `n` bytes of the OTP from an address. -/
def otpBytes (s : State) (a n : Nat) : List Byte := (List.range n).map fun i => otpByte s (a + i)

/-- The fingerprint of the die: the first 8 bytes of the SHA-384 of its identity (R426). -/
def fingerprint (s : State) : List Byte := (sha384 (otpBytes s 0 36)).take 8

/-- The device's ECDSA public key (R429). -/
def devEcdsa (s : State) : List Byte := (List.range 96).map (Config.ecdsaPoint (otpBytes s 0x100 48))

/-- The device's HSS public key: two levels, LMS type 7, LM-OTS type 4, LMS_I and LMS_T (R429). -/
def devLms (s : State) : List Byte := [0, 0, 0, 2, 0, 0, 0, 7, 0, 0, 0, 4] ++ otpBytes s 0x150 48

/-- Programs bits of a byte of the OTP: a bit once set stays set (R423). -/
def otpSet (a : Nat) (b : Byte) (s : State) : State :=
  { s with sec := { s.sec with otp := smIns a (smGet (otpDelivered a) a s.sec.otp ||| b) s.sec.otp } }

/-- Programs bytes from an address. -/
def otpSetAll (a : Nat) (l : List Byte) (s : State) : State := l.zipIdx.foldl (fun t (b, i) => otpSet (a + i) b t) s

/-- Commits are held, or a window is open: no OTP pulse starts (R82, R85). -/
def otpHeld (s : State) : Bool := s.pwr.window.isSome || s.pwr.holdEnd.isSome

/-- A write that the hold defers is counted (R85). -/
def otpDefer (s : State) : State := if otpHeld s then raise 0xF0040 4 (addCnt 0xF0060 1 s) else s

/-- A command writes an OTP object: it reads as written, and waits to be programmed in its turn (R424, R85). -/
def otpRequest (a : Nat) (l : List Byte) (s : State) : State :=
  let o := (l.zipIdx.map fun (b, i) => (a + i, b)).filter fun (_, b) => b ≠ 0
  otpDefer { s with sec := { s.sec with otpQueue := s.sec.otpQueue ++ [o] } }

/-! ### The wear map (R410 to R413) -/

/-- The base of the wear map in the OTP (R424). -/
abbrev wearBase := 0x2000

/-- One bit of the CRC-8 of R410. -/
def crc8Bit (c : Nat) : Nat := if c.testBit 7 then (c * 2 ^^^ 0x07) % 256 else c * 2 % 256

/-- One byte of the CRC-8 of R410. -/
def crc8Byte (c : Nat) (b : Byte) : Nat := (List.range 8).foldl (fun c _ => crc8Bit c) (c ^^^ b.toNat)

/-- CRC-8 of a list of bytes (R410). -/
def crc8 (l : List Byte) : Nat := l.foldl crc8Byte 0

/-- A wear-map entry as a 64-bit number (R410). -/
def wearWord (kind cause gen index : Nat) : Nat :=
  let hi := cause % 256 + 2 ^ 8 * (kind % 16) + 2 ^ 12 * (gen % 16) + 2 ^ 16 * (index % 2 ^ 40)
  crc8 (le 7 hi) + 256 * hi

/-- Wear-map entry `e` as programmed. -/
def wearEntry (s : State) (e : Nat) : Nat := ofLe (otpBytes s (wearBase + 8 * e) 8)

/-- Entries used: any bit programmed (R410); entries are written in ascending order. -/
def wearUsed (s : State) : Nat :=
  ((s.sec.otp.filter fun (a, b) => wearBase ≤ a ∧ a < wearBase + 8192 ∧ b ≠ 0).map fun (a, _) => (a - wearBase) / 8).eraseDups.length

/-- An entry whose CHECK holds (R412). -/
def wearGood (w : Nat) : Bool := decide (crc8 (le 7 (w / 256)) = w % 256)

/-- The good entries of the wear map, in order (R412). -/
def wearGoodEntries (s : State) : List Nat :=
  ((List.range (wearUsed s)).map (wearEntry s)).filter fun w => decide (w ≠ 0) && wearGood w

/-- KIND of an entry. -/
def wearKind (w : Nat) : Nat := w / 2 ^ 16 % 16

/-- CAUSE of an entry. -/
def wearCause (w : Nat) : Nat := w / 2 ^ 8 % 256

/-- GEN of an entry. -/
def wearGen (w : Nat) : Nat := w / 2 ^ 20 % 16

/-- INDEX of an entry. -/
def wearIndex (w : Nat) : Nat := w / 2 ^ 24

/-- A retirement is recorded: its entry waits to be programmed; with the list full or no entry free, WEAR_FULL is set
and nothing will be programmed for it (R412, R413). -/
def wearAdd (kind cause gen index : Nat) (s : State) : State :=
  if 16 ≤ s.lgr.wearPend.length ∨ 1024 ≤ wearUsed s + s.lgr.wearPend.length then raise 0xD0040 5 s
  else
    rill 174 1 (otpDefer { s with lgr := { s.lgr with wearPend := s.lgr.wearPend ++ [wearWord kind cause gen index] } })

/-- WEAR_BAD (R412, R422). -/
def wearBad (s : State) : Nat := fld (hw s 0xD0058) 16 11

/-- Counts a bad entry (R412). -/
def wearCountBad (s : State) : State :=
  raise 0xD0040 6 (setHw 0xD0058 (hw s 0xD0058 + wd (2 ^ 16)) s)

/-- The bits of an entry that took where its verification fails: which ones is free, but not all and not none
(R412: the failed entry stays used). -/
def wearTorn (w f : Nat) : Nat :=
  let got := w &&& f
  if got = 0 ∨ got = w then w &&& (w - 1) else got

/-- WEAR_MAP_WRITE: the oldest pending entry is programmed in the next free entry; one that fails verification leaves
that entry used and bad, and waits to be written again (R412). Nothing is programmed while the hold of R85 lasts. -/
def execWearMapWrite (verified : Bool) : State → Host.Outcome State Fault Refusal := run fun s =>
  match s.lgr.wearPend with
  | [] => s
  | w :: ws =>
    if otpHeld s ∨ 1024 ≤ wearUsed s then s
    else
      let a := wearBase + 8 * wearUsed s
      if verified then
        raise 0xD0040 4 { otpSetAll a (le 8 w) s with lgr := { s.lgr with wearPend := ws } }
      else
        let (f, s) := freeNext s
        wearCountBad (otpSetAll a (le 8 (wearTorn w f)) s)

end Sys2Proof.Machine
end

