-- ==== Sys2Proof/Machine/Phase.lean ====
section
/-!
DEFINITION. The phase engine (07_phase_engine): alignment, NCO and bin filter, the channel update, Basin rows and their
repair, and the shot header.
-/

namespace Sys2Proof.Machine

/-! ### The bin stage (R164, R172 to R176) -/

/-- The interpolator coefficient h_j(a) of R164: the product over m = −3 … 4 but j − 3, exact, rounded once. -/
def lagrange (a j : Nat) : Int :=
  let ms := (List.range 8).filter (· ≠ j)
  let num := ms.foldl (fun (p : Int) (m : Nat) => p * ((a : Int) - 256 * ((m : Int) - 3))) (2 ^ 14)
  let den := ms.foldl (fun (p : Int) (m : Nat) => p * (256 * ((j : Int) - m))) 1
  if den < 0 then rhe (-num) den.natAbs else rhe num den.natAbs

/-- The coefficients h_0 to h_7. -/
def interp (a : Nat) : List Int := (List.range 8).map (lagrange a)

/-- COS14 of R174. -/
def cos14 (k : Nat) : Int := rhe (32767 * cosTurn k 14) (2 ^ 80)

/-- SIN14 of R174. -/
def sin14 (k : Nat) : Int := rhe (32767 * sinTurn k 14) (2 ^ 80)

/-- Lane sample at a record index; operands begin at index −35, and an index the operand does not hold is 0 (R173). -/
def laneAt (lane : List Int) (i : Int) : Int := if i < -35 then 0 else lane.getD (i + 35).toNat 0

/-- The aligned sample y[i] of a lane under the applied alignment value `A` (R164, R173). -/
def aligned (hs : List Int) (A : Int) (lane : List Int) (i : Nat) : Int :=
  if A = 0 then laneAt lane i
  else
    let I := A / 256
    satS 16 (rsh ((hs.zipIdx).foldl (fun a (h, j) => a + h * laneAt lane ((i : Int) + I - 3 + j)) 0) 14)

/-- One complex product by the NCO of a slot (R174). -/
def mixed (ftw ph0 i : Nat) (re im : Int) : Cpx :=
  let th := (ph0 + ftw * i) % 2 ^ 32 / 2 ^ 18
  let c := cos14 th
  let n := sin14 th
  { re := satS 16 (rsh (re * c + im * n) 15), im := satS 16 (rsh (im * c - re * n) 15) }

/-- What a shot's bins are made from: the interpolator, the NCO of its slot, the box and the lanes of its streams. -/
structure BinSrc where
  hs   : List Int
  a    : Int
  nco  : Option (Nat × Nat)
  box  : Nat
  re   : List Int
  im   : Option (List Int)
  deriving DecidableEq, Repr

/-- The sample u_p[i] (R172 to R174). -/
def mixAt (b : BinSrc) (i : Nat) : Cpx :=
  let re := aligned b.hs b.a b.re i
  let im := match b.im with | some l => aligned b.hs b.a l i | none => 0
  match b.nco with
  | some (f, p) => mixed f p i re im
  | none => { re := re, im := im }

/-- The bin z_p[b] (R175). -/
def binAt (b : BinSrc) (k : Nat) : Cpx :=
  let us := (List.range b.box).map fun j => mixAt b (k + j)
  { re := rhe (us.foldl (fun a u => a + u.re) 0) b.box, im := rhe (us.foldl (fun a u => a + u.im) 0) b.box }

/-- |z|². -/
def norm2 (z : Cpx) : Int := z.re * z.re + z.im * z.im

/-- The streams of a shot by polarisation: X, and Y where the mode has one (R172). -/
def binSrcs (m : Nat → Word) (p : Nat) (t : Shot) (lanes : List (List Int)) : BinSrc × Option BinSrc :=
  let mode := fpMode m p
  let nco := if ncoOn m p then some (ftwOf m p t.slot, ph0Of m p t.slot) else none
  let base : BinSrc := { hs := interp (t.a % 256).toNat, a := t.a, nco := nco, box := boxOf m p, re := lanes.getD 0 [], im := none }
  match mode with
  | 1 => ({ base with im := some (lanes.getD 1 []) }, some { base with re := lanes.getD 2 [], im := some (lanes.getD 3 []) })
  | 2 => ({ base with im := some (lanes.getD 1 []) }, none)
  | 4 => (base, some { base with re := lanes.getD 1 [] })
  | _ => (base, none)

/-- PWR(b) of R176: the sum over the polarisations in use, `use` being POL_USE in effect (R139). -/
def binPower (use : Nat) (x : BinSrc) (y : Option BinSrc) (b : Nat) : Int :=
  satU 32 ((if nbit use 0 then norm2 (binAt x b) else 0)
    + (match y with | some y => if nbit use 1 then norm2 (binAt y b) else 0 | none => 0))

/-! ### The channel stage (R179 to R182) -/

/-- x · conj(y). -/
def cconj (x y : Cpx) : Cpx := { re := x.re * y.re + x.im * y.im, im := x.im * y.re - x.re * y.im }

/-- Sum of two complex numbers. -/
def cadd (x y : Cpx) : Cpx := { re := x.re + y.re, im := x.im + y.im }

/-- mag(q): the floor of the modulus (R179). -/
def cmag (q : Cpx) : Nat := isqrt (norm2 q).toNat

/-- qlog(m) of R181: floor(256 × log2 m), 0 for 0. -/
def qlog (m : Nat) : Nat := if m = 0 then 0 else (m ^ 256).log2

/-- atan_t(q) of R180 in 2^-32 turns. -/
def atanT (q : Cpx) : Int := wrapS 32 (turns q.im q.re 32)

/-- The near and far bins of one channel in one shot. -/
structure Bins where
  nX : Cpx
  nY : Cpx
  fX : Cpx
  fY : Cpx
  deriving DecidableEq, Repr

/-- What an update yields beside the slot record: the products' ingredients, and what it counts. -/
structure Upd where
  d     : Int := 0
  u     : Int := 0
  ampl  : Int := 0
  qual  : Nat := 0
  faded : Bool := false
  sat   : Bool := false
  deriving DecidableEq, Repr

/-- One channel update (R179): `use` is POL_USE in effect (bit 0 X, bit 1 Y), `dual` whether the mode has Y. -/
def updateSlot (primed : Bool) (use : Nat) (dual : Bool) (qmin : Nat) (b : Bins) (r : SlotRec) : SlotRec × Upd :=
  let useX := nbit use 0
  let useY := dual && nbit use 1
  let zero : Cpx := {}
  let pr (ok : Bool) (z p : Cpx) : Cpx := if ok && primed then cconj z p else zero
  let qN := cadd (pr useX b.nX r.pnX) (pr useY b.nY r.pnY)
  let qF := cadd (pr useX b.fX r.pfX) (pr useY b.fY r.pfY)
  let qual := qlog (Nat.min (cmag qN) (cmag qF))
  let fades := primed && decide (qual < qmin)
  let d := if primed && !fades then wrapS 32 (atanT qF - atanT qN) else 0
  let u := r.u + d
  let v := clampI (-(2 ^ 47)) (2 ^ 47 - 1) u
  let ampl := satU 32 ((if useX then norm2 b.nX else 0) + (if useY then norm2 b.nY else 0))
  ({ pnX := b.nX, pnY := if dual then b.nY else {}, pfX := b.fX, pfY := if dual then b.fY else {},
     u := v, primed := true, uSat := r.uSat || decide (v ≠ u), faded := if primed then fades else r.faded },
   { d := d, u := v, ampl := ampl, qual := qual, faded := fades, sat := decide (v ≠ u) })

/-- P_STRAIN of R182. -/
def strainOf (m : Nat → Word) (p : Nat) (u : Int) : Int := satS 32 (rsh (u * multS m p) 53)

/-- P_STRAIN_RATE of R182. -/
def rateProduct (m : Nat → Word) (p interval : Nat) (d : Int) : Int :=
  satS 32 (rhe (d * multR m p * (periodOf m p : Nat)) (interval * 2 ^ 45))

/-- The five products of an update, in code order (R182, R196). -/
def products (m : Nat → Word) (p interval : Nat) (x : Upd) : List Int :=
  [x.d, rateProduct m p interval x.d, strainOf m p x.u, x.ampl, (x.qual : Int)]

/-! ### Basin (R178, R191, R192) -/

/-- A channel's entry. -/
def chanOf (s : State) (p k : Nat) : Chan := smGet {} (65536 * p + k) s.basin.chans

/-- Sets a channel's entry. -/
def setChan (p k : Nat) (c : Chan) (s : State) : State :=
  { s with basin := { s.basin with chans := smPut {} (65536 * p + k) c s.basin.chans } }

/-- Changes every slot record of every channel of a port. -/
def mapSlots (p : Nat) (f : SlotRec → SlotRec) (s : State) : State :=
  let one (c : Chan) : Chan := { c with slots := c.slots.filterMap fun (k, r) => if f r = {} then none else some (k, f r) }
  let chans := s.basin.chans.filterMap fun (k, c) =>
    if k / 65536 = p then (if one c = {} then none else some (k, one c)) else some (k, c)
  { s with basin := { s.basin with chans := chans } }

/-- The logical row of a channel (R178). -/
def rowOfChan (p k : Nat) : Nat := 16384 * p + k / 4

/-- Rows a port has lost. -/
def rowsLost (s : State) (p : Nat) : Nat := smGet 0 p s.basin.lost

/-- PHS_BASIN_USABLE_n (R178). -/
def usableRows (s : State) (p : Nat) : Nat := 16384 - rowsLost s p

/-- The channels of a port that its committed configuration holds: none where MODE is OFF. -/
def committedChannels (s : State) (p : Nat) : Nat := if fpMode (cfg s) p = 0 then 0 else Nat.min 65536 (channelsOf (cfg s) p)

/-- The lowest of `n` spares from `k` on that is not retired (R411). -/
def spareFrom (bad : List Nat) : Nat → Nat → Option Nat
  | 0, _ => none
  | n + 1, k => if k ∈ bad then spareFrom bad n (k + 1) else some k

/-- The spare of Basin that is assigned next (R192). -/
def nextSpare (s : State) : Option Nat := spareFrom s.basin.badSpares (4096 - s.basin.used) s.basin.used

/-- A logical row takes a spare. -/
def takeSpare (row k : Nat) (s : State) : State :=
  { s with basin := { s.basin with used := k + 1, rowMap := smIns row (65536 + k) s.basin.rowMap } }

/-- A spare row that no channel uses is retired after a failed read-back (R192); its wear-map entry names it as the
physical row, and logical row 0, since it stands for none (DESIGN CHOICE: log 204). -/
def retireSpare (k : Nat) (s : State) : State :=
  if k < s.basin.used ∨ 4096 ≤ k ∨ k ∈ s.basin.badSpares then s
  else wearAdd 7 1 0 (65536 + k) { s with basin := { s.basin with badSpares := s.basin.badSpares ++ [k] } }

/-- A row waits to be retired after a failed read-back. -/
def rowFailed (row : Nat) (s : State) : State :=
  { s with basin := { s.basin with repair := smPut 0 row 1 s.basin.repair } }

/-- The physical row of a logical row. -/
def physRow (s : State) (row : Nat) : Nat := smGet row row s.basin.rowMap

/-- A logical row's channels become 0 in every field. -/
def clearRow (row : Nat) (s : State) : State :=
  let lo := 65536 * (row / 16384) + 4 * (row % 16384)
  { s with basin := { s.basin with chans := s.basin.chans.filter fun (k, _) => !(decide (lo ≤ k) && decide (k < lo + 4)) } }

/-- The retirement of a logical row's physical row (R192): a spare takes over and keeps the row's entries; with no spare
left the port's highest row gives its own, or the row's channels produce 0. -/
def retireRow (row : Nat) (s : State) : State :=
  let p := row / 16384
  let phys := physRow s row
  let s := { s with basin := { s.basin with repair := smPut 0 row 0 s.basin.repair } }
  let s := wearAdd 7 1 0 (phys % 2 ^ 17 + 2 ^ 17 * row) s
  match nextSpare s with
  | some k => raise 0x43800 2 (takeSpare row k s)
  | none =>
    let top := 16384 * p + usableRows s p - 1
    let need := ceilDiv (committedChannels s p) 4
    let s := if 16384 * p + need ≤ top ∧ row < top then
        { s with basin := { s.basin with rowMap := smIns row (physRow s top) s.basin.rowMap } }
      else clearRow row { s with basin := { s.basin with zeroed := s.basin.zeroed ++ [row] } }
    let s := { s with basin := { s.basin with lost := smPut 0 p (rowsLost s p + 1) s.basin.lost } }
    loss 14 1 (raise (0x40080 + 0x1000 * p) 6 (raise 0x43800 3 s))

/-- A corrected Basin error (R192). -/
def basinCorrected (s : State) : State := raise 0x43800 0 (addCnt64 0x43820 1 s)

/-- An uncorrectable Basin error is counted (R192). -/
def basinUncorrectable (s : State) : State := raise 0x43800 1 (addHold 0x43828 1 s)

/-- An uncorrectable error met by an update: the channel loses PRIMED and U in every slot record and its Cascade field,
and the row is rewritten and read back (R192, R202). -/
def basinRepair (p : Nat) (e : BasinErr) (s : State) : State :=
  if e.corrected then basinCorrected s
  else
    let c := chanOf s p e.channel
    let one (r : SlotRec) : SlotRec := { r with primed := false, u := 0, uSat := false }
    let slots := c.slots.filterMap fun (k, r) => if one r = {} then none else some (k, one r)
    let s := setChan p e.channel { c with slots := slots, stages := [] } s
    let s := setHw (0x400A8 + 0x1000 * p) (wd e.channel) s
    let s := loss 13 1 (raise (0x40080 + 0x1000 * p) 5 (basinUncorrectable s))
    if e.readBackOk then s else rowFailed (rowOfChan p e.channel) s

/-! ### Shot headers (R193, R194) -/

/-- Bits of the FLAGS word of a header. -/
abbrev fCLOCK := 1
abbrev fSUPPLY := 2
abbrev fSEAL := 4
abbrev fDEGRADED := 8
abbrev fMISS := 0x10
abbrev fALIGNOFF := 0x20
abbrev fALIGNRANGE := 0x40
abbrev fCALHELD := 0x80
abbrev fSPARE := 0x100
abbrev fPRIME := 0x200
abbrev fLONG := 0x400
abbrev fCONFIG := 0x800
abbrev fOVERRANGE := 0x1000
abbrev fUNWRAP := 0x2000
abbrev fREPAIR := 0x4000
abbrev fSUB := 0x8000
abbrev fZEROED := 0x10000

/-- The 160 bytes of a shot's header (R193). A BIN_LEN beyond the range of UQ0.32, as a small NG gives, keeps its low 32
bits (DESIGN CHOICE: log 205). -/
def headerBytes (m : Nat → Word) (p : Nat) (t : Shot) : List Byte :=
  let raw := fld (m (0x20010 + 4 * p)) 20 2
  let sub (r : Nat) : Nat := smGet 0xFFFFFFFF r t.subFirst
  le 8 t.index ++ le 1 p ++ le 1 t.slot
    ++ le 1 (fpMode m p + 16 * (if raw = 0 then 3 else raw) + 64 * ilv m) ++ le 1 (slotsOf m p)
    ++ stampBytes t.tIdeal ++ [t.tqb] ++ [if t.launch.isSome then t.tqbStamp else 0] ++ le 2 (twos 16 t.a)
    ++ (match t.launch with | some x => stampBytes x | none => zeros 12)
    ++ le 4 (if t.launch.isSome then twos 32 t.delta else 0) ++ le 4 t.flags ++ le 4 (Nat.min (2 ^ 32 - 1) t.interval)
    ++ le 4 (recordOf m p) ++ le 4 t.commitSeq ++ wordBytes t.sealRef
    ++ ((List.range 16).flatMap fun i => le 4 (t.maps.getD i 0))
    ++ ((List.range 4).flatMap fun r => le 4 (sub r))
    ++ ((List.range 4).flatMap fun r => le 1 (Nat.min 255 (smGet 0 r t.subCount)))
    ++ le 4 (binLen m p) ++ le 4 (channelsOf m p) ++ zeros 4

/-- Keeps the header of the port's last shot in PHS_n_LAST_HDR (R195). -/
def keepHeader (p : Nat) (l : List Byte) (s : State) : State :=
  each (List.range 40) (fun i => setHw (0x40100 + 0x1000 * p + 4 * i) (wd (leAt l (4 * i) 4))) s

/-! ### What takes effect in the channel stage at a shot boundary (R188, R202) -/

/-- A slot record as R191 shows it under the present mode: slots beyond S − 1 and an unused Y hold 0. -/
def slotShown (m : Nat → Word) (p k : Nat) (r : SlotRec) : SlotRec :=
  if slotsOf m p ≤ k then {} else if dualPol (fpMode m p) then r else { r with pnY := {}, pfY := {} }

/-- The slot records of a port's channels hold 0 where its slots and mode do not use them (R191). -/
def trimSlots (p : Nat) (s : State) : State :=
  let m := cfg s
  let one (c : Chan) : Chan :=
    { c with slots := c.slots.filterMap fun (k, r) => if slotShown m p k r = {} then none else some (k, slotShown m p k r) }
  let chans := s.basin.chans.filterMap fun (k, c) =>
    if k / 65536 = p then (if one c = {} then none else some (k, one c)) else some (k, c)
  { s with basin := { s.basin with chans := chans } }

/-- Carries out the effects that `acts` names: bit 0 restarts Cascade, bit 1 clears PRIMED, bit 2 sets U to 0 for a new
geometry or an arm, bit 3 is ZERO_STRAIN. -/
def boundaryActs (p acts : Nat) (s : State) : State :=
  let s := if nbit acts 1 then mapSlots p (fun r => { r with primed := false }) s else s
  let s := if nbit acts 2 then trimSlots p s else s
  let s := if nbit acts 2 ∨ nbit acts 3 then mapSlots p (fun r => { r with u := 0, uSat := false }) s else s
  let s := if nbit acts 3 then raise (0x40080 + 0x1000 * p) 4 s else s
  if nbit acts 0 then cascadeBegin p (cascadeRestart p s) else s

/-- Effects at a boundary: at once where no shot of the port is still to be processed, else before the next shot. -/
def atBoundary (p acts : Nat) (s : State) : State :=
  let x := lch s p
  if x.shots = [] then boundaryActs p acts s else setLch p { x with acts := x.acts ||| acts } s

/-! ### A whole shot -/

/-- Whether every sample a channel depends on was digitised (R189): the far end of its box and interpolator lies within
the samples a clock stop left. Where the applied A is 0 no interpolator runs, and it reaches no sample beyond the box
(DESIGN CHOICE: log 206). -/
def channelDone (m : Nat → Word) (p k : Nat) (t : Shot) : Bool :=
  match t.cut with
  | none => true
  | some n =>
    let top := firstBin m p + k * pitchOf m p + gaugeOf m p + boxOf m p - 1
    decide ((top : Int) + (if t.a = 0 then 0 else t.a / 256 + 4) < n)

/-- Updates one channel: its five products and whether it was complete. -/
def updateChannel (m : Nat → Word) (p : Nat) (t : Shot) (src : BinSrc × Option BinSrc) (k : Nat) (s : State) :
    State × (List Int × Bool × Upd) :=
  let c := chanOf s p k
  let r : SlotRec := smGet {} t.slot c.slots
  if decide (rowOfChan p k ∈ s.basin.zeroed) then (s, ([0, 0, 0, 0, 0], true, {}))
  else if channelDone m p k t then
    let near := firstBin m p + k * pitchOf m p
    let zero : Cpx := {}
    let y (b : Nat) : Cpx := match src.2 with | some v => binAt v b | none => zero
    let b : Bins := { nX := binAt src.1 near, nY := y near, fX := binAt src.1 (near + gaugeOf m p), fY := y (near + gaugeOf m p) }
    let primed := r.primed && !decide (t.flags / fPRIME % 2 = 1)
    let (r', x) := updateSlot primed (polUse m p) (dualPol (fpMode m p)) (qualMin m p) b r
    let per := if t.interval = 0 then periodOf m p else t.interval
    (setChan p k { c with slots := smPut {} t.slot r' c.slots } s, (products m p per x, true, x))
  else (s, ([0, 0, strainOf m p r.u, 0, 0], false, {}))

/-- Updates channels `k`, `k` + 1, … in order. -/
def updateChannels (m : Nat → Word) (p : Nat) (t : Shot) (src : BinSrc × Option BinSrc) :
    Nat → Nat → State → State × List (List Int × Bool × Upd)
  | 0, _, s => (s, [])
  | n + 1, k, s =>
    let (s, x) := updateChannel m p t src k s
    let (s, xs) := updateChannels m p t src n (k + 1) s
    (s, x :: xs)

/-- Whether any committed channel of a port produces 0 for want of a row (R192, R195). -/
def rowsDegraded (s : State) (p : Nat) : Bool :=
  s.basin.zeroed.any fun r => decide (r / 16384 = p) && decide (4 * (r % 16384) < channelsOf (cfg s) p)

/-- The committed POL_USE and MODE differ from the active ones of a port (R139). -/
def fellBack (s : State) (p : Nat) : Bool :=
  decide (fld (imageGet s.regs.committed (0x20010 + 4 * p)) 20 2 ≠ cfgF s (0x20010 + 4 * p) 20 2)

/-- The channel stage processes a shot (R179, R187, R189, R192, R193): errors met first, then every channel, then the
header, the counts, and the T0 sample's way on. -/
def processShot (p : Nat) (t : Shot) (lanes : List (List Int)) (ovr : Bool) (errs : List BasinErr) (s : State) : State :=
  let m := cfg s
  let A := 0x1000 * p
  let s := boundaryActs p t.acts s
  let s := each errs (basinRepair p) s
  let src := binSrcs m p t lanes
  let n := Nat.min 65536 (channelsOf m p)
  let s := rill (32 + 8 * p + 2 * t.slot) (ceilDiv (8 * n) 64) s
  let s := if dualPol (fpMode m p) then rill (33 + 8 * p + 2 * t.slot) (ceilDiv (8 * n) 64) s else s
  let s := rill (64 + p) (ceilDiv (4 * n) 64) s
  let (s, out) := updateChannels m p t src n 0 s
  let done := out.map fun o => o.2.1
  let upd := out.map fun o => o.2.2
  let sats := (upd.filter (·.sat)).length
  let fl := t.flags ||| (if t.cut.isSome then fCLOCK else 0)
    ||| (if s.sealing.mismatch ∧ cfgF s 0x14 0 2 ≠ 0 then fSEAL else 0)
    ||| (if s.cnv.fgLate.getLsbD p ∨ fellBack s p ∨ rowsDegraded s p then fDEGRADED else 0)
    ||| (if ovr then fOVERRANGE else 0) ||| (if 0 < sats then fUNWRAP else 0)
    ||| (if errs.any (!·.corrected) then fREPAIR else 0) ||| (if t.subCount ≠ [] then fSUB else 0)
  let t := { t with flags := fl }
  let prime := decide (fl / fPRIME % 2 = 1)
  let updated := (done.filter id).length
  let s := addCnt64 (0x40090 + A) updated (addCnt64 (0x40098 + A) (upd.filter (·.faded)).length s)
  let s := if sats = 0 then s else raise (0x40080 + A) 2 (addHold (0x400A0 + A) sats s)
  let s := if prime then raise (0x40080 + A) 0 (addHold (0x400A4 + A) 1 s) else s
  let s := raiseIf (decide (fl / fLONG % 2 = 1)) (0x40080 + A) 1 s
  let s := raiseIf t.cut.isSome (0x40080 + A) 3 s
  let s := keepHeader p (headerBytes m p t) s
  let x := csc s p
  let first : StageSt := smGet {} 0 x.stages
  let attr : TapAttr := { stamp := t.tIdeal, tqb := t.tqb, first := t.index, last := t.index,
                          flags := (fl &&& 0x420F) ||| (if first.fresh then 0x100000 else 0), since := fl &&& 0x420F }
  let s := setCsc p { x with stages := smPut {} 0 { first with fresh := false } x.stages } s
  let (i, s) := nextIndex p 0 s
  let vals := out.map fun o => o.1
  let tap : TapSample := { tap := 0, index := i, slot := t.slot, pair := false, attr := attr, values := vals }
  let s := if n = 0 then s else emitTap p tap done s
  let whole (b : Nat) : Bool := match t.cut with
    | none => true
    | some c => decide (((b + boxOf m p - 1 : Nat) : Int) + (if t.a = 0 then 0 else t.a / 256 + 4) < c)
  let s := poolBins p t.slot (fun b => if whole b then some (binPower (polUse m p) src.1 src.2 b) else none) t.tIdeal t.tqb attr.flags s
  if n = 0 then s
  else cascadeFrom p 4 1 (vals.map fun v => [v.getD (cscProduct m p) 0]) attr s

/-- The words of an image with those of some addresses taken from another. -/
def mergeWhere (own : Nat → Bool) (other image : SMap Word) : SMap Word :=
  (other.filter fun (a, _) => own a).foldl (fun m (a, w) => smIns a w m) (image.filter fun (a, _) => !own a)

/-- The words of an image with those of one commit group taken from another. -/
def groupMerge (g : Nat) (other image : SMap Word) : SMap Word := mergeWhere (fun a => decide (groupOf a = g)) other image

/-- The addresses of the words a shot is taken under: its fibre group, the sample rate and the lane assignment. -/
def shotWord (p a : Nat) : Bool :=
  decide (groupOf a = p + 1) || decide (a = 0x10000) || (decide (0x20000 ≤ a) && decide (a < 0x20040))

/-- Does something under the words that a shot was launched with (R46, R139). -/
def underWords (p : Nat) (words : Option (SMap Word)) (f : State → State) (s : State) : State :=
  match words with
  | none => f s
  | some w =>
    let act := mergeWhere (shotWord p) w s.regs.active
    let t := f { s with regs := { s.regs with active := act, overrides := s.regs.overrides.filter fun o => !shotWord p o.addr } }
    { t with regs := { t.regs with active := s.regs.active, overrides := s.regs.overrides } }

/-- The active words that the shots of a port are taken under, with the overrides in force. -/
def portWords (p : Nat) (s : State) : SMap Word :=
  (s.regs.overrides.filter fun o => shotWord p o.addr).foldl (fun w o => imagePut o.addr (cfg s o.addr) w)
    (s.regs.active.filter fun (a, _) => shotWord p a)

/-- The outstanding shots of a port keep the words they were launched under, as these are about to change. -/
def stashShots (p : Nat) (s : State) : State :=
  let x := lch s p
  let w := portWords p s
  setLch p { x with shots := x.shots.map fun t => if t.words.isNone then { t with words := some w } else t } s

/-- The port's Pool block closes early: at once, or after the last outstanding shot (R210, R417). -/
def poolEnds (p : Nat) (s : State) : State :=
  let x := lch s p
  match x.shots.getLast? with
  | none => blockClose true p s
  | some t => setLch p { x with shots := x.shots.dropLast ++ [{ t with acts := setBit t.acts 4 }] } s

/-- BASIN_SCRUB: what the scrub of a row that no channel updates finds (R192). Rows from 65,536 on are spares; one that has
been assigned is scrubbed as its logical row. -/
def execBasinScrub (row : Nat) (found : BasinFound) : State → Host.Outcome State Fault Refusal := run fun s =>
  let used := decide (row < 65536) && decide (4 * (row % 16384) < committedChannels s (row / 16384)) && (lch s (row / 16384)).armed
  if used then s
  else match found with
    | .clean => s
    | .corrected => basinCorrected s
    | .uncorrectable ok =>
      let s := basinUncorrectable s
      if row < 65536 then (if ok then clearRow row s else rowFailed row (clearRow row s))
      else if ok then s else retireSpare (row - 65536) s

/-- BASIN_ROW_RETIRE: a logical row whose read-back failed moves to a spare row (R192). -/
def execBasinRowRetire (row : Nat) : State → Host.Outcome State Fault Refusal := run fun s =>
  if smGet 0 row s.basin.repair = 0 then s else retireRow row s

end Sys2Proof.Machine
end

