-- ==== Sys2Proof/Machine/Operands.lean ====
section
/-!
DEFINITION. The operand forms of triggers and captures: what the words of a lane trigger unit (R241), of a watch (R242)
and of a Cistern region (R275) mean, and the layout of a segment (R251, R260 to R262).
-/

namespace Sys2Proof.Machine

/-! ### Conditions (R219 to R221) -/

/-- The settings of a condition: TYPE, POLARITY, QUAL, SLOPE, levels and hysteresis, limits in 1/256 sample. -/
structure CondCfg where
  typ      : Nat
  negative : Bool
  qual     : Nat
  slope    : Nat
  lo       : Int
  hi       : Int
  hyst     : Nat
  lim1     : Nat
  lim2     : Nat
  deriving DecidableEq, Repr

/-- SLOPE; 0b00 is treated as 0b01. -/
def slopeOf (v : Nat) : Nat := if v = 0 then 1 else v

/-- The condition of a lane trigger unit; stream clocks become 1/256 lane samples (R219). -/
def unitCond (m : Nat → Word) (u : Nat) : CondCfg :=
  let c := m (unitAt u)
  let l := m (unitAt u + 4)
  let spc := 4 * lps m
  { typ := fld c 9 2, negative := bit c 11, qual := fld c 12 2, slope := slopeOf (fld c 14 2),
    lo := sgn 14 (fld l 0 14), hi := sgn 14 (fld l 16 14), hyst := fld (m (unitAt u + 8)) 0 13,
    lim1 := (m (unitAt u + 0xC)).toNat * spc * 256, lim2 := (m (unitAt u + 0x10)).toNat * spc * 256 }

/-! ### Lane trigger units (R222 to R224, R241) -/

/-- SOURCE: 0 LANE, 1 TIN, 2 FORCE; 3 is treated as FORCE. -/
def unitSource (m : Nat → Word) (u : Nat) : Nat := Nat.min 2 (fld (m (unitAt u)) 4 2)

/-- LANE. -/
def unitLane (m : Nat → Word) (u : Nat) : Nat := fld (m (unitAt u)) 0 4

/-- TIN; 7 is treated as 6. -/
def unitTin (m : Nat → Word) (u : Nat) : Nat := Nat.min 6 (fld (m (unitAt u)) 6 3)

/-- HOLD_UNIT of a unit: conditions. -/
def unitHoldConds (m : Nat → Word) (u : Nat) : Bool := bit (m (unitAt u)) 16

/-- ACTIONS of a unit. -/
def unitActions (m : Nat → Word) (u : Nat) : Word := m (unitAt u + 0x18)

/-- The unit's own lane, or lane 0 for TIN and FORCE (R222, R224). -/
def ownLane (m : Nat → Word) (u : Nat) : Nat := if unitSource m u = 0 then unitLane m u else 0

/-- CAP_LANES as a mask; 0 stands for the own lane (R224). -/
def capLanes (m : Nat → Word) (u : Nat) : Nat :=
  let v := fld (unitActions m u) 16 16
  if v = 0 then 2 ^ ownLane m u else v

/-- PRE and POST of a unit. -/
def unitPre (m : Nat → Word) (u : Nat) : Nat := fld (m (unitAt u + 0x1C)) 0 24

/-- POST of a unit, 0 treated as 1. -/
def unitPost (m : Nat → Word) (u : Nat) : Nat := Nat.max 1 (fld (m (unitAt u + 0x20)) 0 24)

/-- A unit is enabled while it has an action or a RAW Pool engine names it (R470). -/
def unitEnabled (m : Nat → Word) (u : Nat) : Bool :=
  decide (fld (unitActions m u) 0 4 ≠ 0) ||
    (List.range 4).any fun e => decide (polSource m e = 3) && decide (polUnit m e = u)

/-! ### Watches (R226 to R230, R242) -/

/-- A word of a watch-table entry. -/
def watchWord (m : Nat → Word) (w off : Nat) : Word := m (watchAt w + off)

/-- ENABLE. -/
def watchOn (m : Nat → Word) (w : Nat) : Bool := bit (watchWord m w 0) 0

/-- FIBRE. -/
def watchFibre (m : Nat → Word) (w : Nat) : Nat := fld (watchWord m w 0) 1 2

/-- TAP, 5 to 7 treated as 4. -/
def watchTap (m : Nat → Word) (w : Nat) : Nat := Nat.min 4 (fld (watchWord m w 0) 3 3)

/-- PRODUCT as written. -/
def watchProduct (m : Nat → Word) (w : Nat) : Nat := fld (watchWord m w 0) 6 3

/-- COMBINE: 0 ANY, 1 K_OF_N, 2 RUN; 3 is treated as ANY. -/
def watchCombine (m : Nat → Word) (w : Nat) : Nat :=
  let v := fld (watchWord m w 0) 17 2
  if v = 3 then 0 else v

/-- HOLD_UNIT of a watch: conditions. -/
def watchHoldConds (m : Nat → Word) (w : Nat) : Bool := bit (watchWord m w 0) 19

/-- FIRST_CH. -/
def watchFirst (m : Nat → Word) (w : Nat) : Nat := fld (watchWord m w 4) 0 17

/-- COUNT_CH as written; a count above 65,536 never passes the check of R226. -/
def watchCount (m : Nat → Word) (w : Nat) : Nat := fld (watchWord m w 8) 0 17

/-- Whether a product is compared unsigned: P_AMPL and P_QUAL (R219). -/
def unsignedProduct (p : Nat) : Bool := decide (p = 3 ∨ p = 4)

/-- The condition of a watch; its limits are already in 1/256 tap sample. -/
def watchCond (m : Nat → Word) (w : Nat) : CondCfg :=
  let c := watchWord m w 0
  let lev (off : Nat) : Int :=
    let v := (watchWord m w off).toNat
    if unsignedProduct (watchProduct m w) then v else sgn 32 v
  { typ := fld c 10 2, negative := bit c 12, qual := fld c 13 2, slope := slopeOf (fld c 15 2), lo := lev 0xC, hi := lev 0x10,
    hyst := (watchWord m w 0x14).toNat, lim1 := (watchWord m w 0x18).toNat, lim2 := (watchWord m w 0x1C).toNat }

/-- K_OR_M, 1 to 65,536. -/
def watchK (m : Nat → Word) (w : Nat) : Nat := clampN 1 65536 (fld (watchWord m w 0x20) 0 17)

/-- WINDOW, 0 treated as 1. -/
def watchWindow (m : Nat → Word) (w : Nat) : Nat := Nat.max 1 (fld (watchWord m w 0x24) 0 16)

/-- ACTIONS of a watch. -/
def watchActions (m : Nat → Word) (w : Nat) : Word := watchWord m w 0x2C

/-- PROD_MASK. -/
def watchProds (m : Nat → Word) (w : Nat) : Nat := fld (watchActions m w) 16 5

/-- PRE_SHOTS. -/
def watchPre (m : Nat → Word) (w : Nat) : Nat := fld (watchWord m w 0x30) 0 16

/-- POST_SHOTS, 0 treated as 1. -/
def watchPost (m : Nat → Word) (w : Nat) : Nat := Nat.max 1 (fld (watchWord m w 0x34) 0 16)

/-- Watches whose entry differs from reset, ascending; the others are disabled. -/
def listedWatches (m : SMap Word) : List Nat :=
  (m.filterMap fun (a, _) => if 0x1000000 ≤ a ∧ a < 0x1100000 ∧ (a - 0x1000000) % 0x40 = 0 then some ((a - 0x1000000) / 0x40) else none)

/-- The enabled watches of an image, ascending. -/
def enabledWatches (m : SMap Word) : List Nat := (listedWatches m).filter fun w => bit (imageGet m (watchAt w)) 0

/-! ### Capturing units of either kind -/

/-- Whether a unit or watch captures. -/
def captures (m : Nat → Word) : UnitId → Bool
  | .unit u => bit (unitActions m u) 0
  | .watch w => bit (watchActions m w) 0 || bit (watchActions m w) 1

/-- REGION of a unit or watch. -/
def regionOf (m : Nat → Word) : UnitId → Nat
  | .unit u => fld (unitActions m u) 8 6
  | .watch w => fld (watchActions m w) 8 6

/-- EVENT, ALARM and TRIG of a unit or watch, and the pin. -/
def wantsEvent (m : Nat → Word) : UnitId → Bool
  | .unit u => bit (unitActions m u) 1
  | .watch w => bit (watchActions m w) 2

/-- ALARM in ACTIONS. -/
def wantsAlarm (m : Nat → Word) : UnitId → Bool
  | .unit u => bit (unitActions m u) 2
  | .watch w => bit (watchActions m w) 3

/-- The TRIG_OUT pin that ACTIONS name. -/
def wantsTrig (m : Nat → Word) : UnitId → Option Nat
  | .unit u => if bit (unitActions m u) 3 then some (fld (unitActions m u) 4 2) else none
  | .watch w => if bit (watchActions m w) 4 then some (fld (watchActions m w) 5 2) else none

/-- HOLDOFF, and whether it counts conditions (R234). -/
def holdoffOf (m : Nat → Word) : UnitId → Nat × Bool
  | .unit u => ((m (unitAt u + 0x14)).toNat, unitHoldConds m u)
  | .watch w => ((watchWord m w 0x28).toNat, watchHoldConds m w)

/-! ### Regions (R244, R275) -/

/-- A register of region `r`. -/
def cisR (r off : Nat) : Nat := 0x71000 + 0x40 * r + off

/-- ENABLE of a region. -/
def regionOn (m : Nat → Word) (r : Nat) : Bool := bit (m (cisR r 0)) 0

/-- POLICY: stop when full. -/
def stopFull (m : Nat → Word) (r : Nat) : Bool := bit (m (cisR r 0)) 1

/-- PIN_ON_CLOSE. -/
def pinOnClose (m : Nat → Word) (r : Nat) : Bool := bit (m (cisR r 0)) 2

/-- The base address of a region. -/
def regionBase (m : Nat → Word) (r : Nat) : Nat := 2 ^ 20 * fld (m (cisR r 4)) 0 20

/-- The size of a region in bytes; 0 MiB is treated as 1, and more than 524,288 MiB as that. -/
def regionSize (m : Nat → Word) (r : Nat) : Nat := 2 ^ 20 * clampN 1 524288 (fld (m (cisR r 8)) 0 20)

/-- The directory base. -/
def dirBase (m : Nat → Word) : Nat := 2 ^ 30 * fld (m 0x70000) 0 10

/-- HIST_LOG2. -/
def histLog2 (m : Nat → Word) : Nat := clampN 20 30 (fld (m 0x70004) 0 5)

/-- The shots of the shot history. -/
def histShots (m : Nat → Word) : Nat := 256 * Nat.max 1 (fld (m 0x70004) 16 16)

/-- The history base. -/
def histBase (m : Nat → Word) : Nat := 2 ^ 20 * fld (m 0x70008) 0 20

/-- The history size in bytes. -/
def histSize (m : Nat → Word) : Nat := 2 ^ 20 * Nat.min 524288 (fld (m 0x7000C) 0 20)

/-! ### Segment layout (R251, R260 to R262) -/

/-- What a segment holds: for KIND 0 the lanes and the lane samples; for KIND 1 the shots, zone and parts. -/
structure Layout where
  watch    : Bool
  fibre    : Nat := 0xFF
  tap      : Nat := 0xFF
  raw      : Bool
  prod     : Bool := false
  lanes    : Nat
  prodMask : Nat := 0
  first    : Int
  pre      : Nat
  post     : Nat
  firstCh  : Nat := 0
  countCh  : Nat := 0
  spanFirst : Nat := 0
  spanLen  : Nat := 0
  nTap     : Nat := 0
  pair     : Bool := false
  units    : Nat := 1
  deriving DecidableEq, Repr

/-- The record samples of a zone, rounded outward to packed-14 blocks: first sample and length (R230). -/
def rawSpan (m : Nat → Word) (p firstCh countCh : Nat) : Nat × Nat :=
  let near := firstBin m p + firstCh * pitchOf m p
  let far := firstBin m p + (firstCh + countCh - 1) * pitchOf m p + gaugeOf m p
  let a := (near - 4) / 16 * 16
  let b := Nat.min (recordOf m p - 1) (far + boxOf m p + 3)
  (a, (b / 16 + 1) * 16 - a)

/-- The bytes of one shot unit (R262). -/
def shotUnitBytes (l : Layout) : Nat :=
  roundUp 64 (160 + (if l.raw then popcount 16 l.lanes * (l.spanLen / 16 * 28) else 0)
    + (if l.tap = 0 ∧ l.prod then 4 * l.countCh * popcount 5 l.prodMask else 0))

/-- The bytes of one tap unit (R262). -/
def tapUnitBytes (l : Layout) : Nat := roundUp 64 (48 + l.countCh * (if l.pair then 8 else 4))

/-- The shots of a KIND 1 window that exist: shot indices run from 0 (R147, R262). -/
def windowShots (l : Layout) : Nat := ((l.pre + l.post : Nat) - (if l.first < 0 then -l.first else 0)).toNat

/-- The packed-14 blocks of one lane of a KIND 0 segment (R141, R262). -/
def laneBlocks (l : Layout) : Nat :=
  let last := l.first + (l.pre + l.post : Nat) - 1
  (last / 16 - l.first / 16 + 1).toNat

/-- The bytes of the data of a segment (R262). -/
def dataLenOf (l : Layout) : Nat :=
  if l.watch then
    (if l.tap = 0 ∨ l.raw then windowShots l * shotUnitBytes l else 0) + (if l.tap ≠ 0 ∧ l.prod then l.nTap * tapUnitBytes l else 0)
  else popcount 16 l.lanes * roundUp 64 (28 * laneBlocks l)

/-- The bytes of a whole segment (R260). -/
def segBytes (l : Layout) : Nat := 256 + roundUp 64 (16 * l.units) + dataLenOf l

/-- The products a watch's segment names (R260): PROD_MASK at T0, the Cascade product's bit elsewhere. -/
def prodMaskOf (m : Nat → Word) (w : Nat) : Nat :=
  if bit (watchActions m w) 1 then (if watchTap m w = 0 then watchProds m w else 2 ^ cscProduct m (watchFibre m w)) else 0

/-- Lanes of a fibre port as a mask. -/
def groupMask (m : Nat → Word) (p : Nat) : Nat := (lanesOf m p).foldl (fun a l => a ||| 2 ^ l) 0

/-- The layout of the segment a watch makes alone when it fires on shot `k`; `nTap` counts its tap samples. -/
def watchLayout (m : Nat → Word) (w : Nat) (k : Int) (nTap : Nat) : Layout :=
  let p := watchFibre m w
  let raw := bit (watchActions m w) 0
  let span := rawSpan m p (watchFirst m w) (watchCount m w)
  { watch := true, fibre := p, tap := watchTap m w, raw := raw, prod := bit (watchActions m w) 1,
    lanes := if raw then groupMask m p else 0, prodMask := prodMaskOf m w, first := k - (watchPre m w : Nat),
    pre := watchPre m w, post := watchPost m w, firstCh := watchFirst m w, countCh := watchCount m w,
    spanFirst := if raw then span.1 else 0, spanLen := if raw then span.2 else 0, nTap := nTap,
    pair := pairTap m p (watchTap m w) }

/-- A_u (R251): the size of the unit's own segment with its largest data. -/
def ownSize (m : Nat → Word) : UnitId → Nat
  | .unit u =>
    let blocks := ceilDiv (unitPre m u + unitPost m u) 16 + 1
    256 + 64 + popcount 16 (capLanes m u) * roundUp 64 (28 * blocks)
  | .watch w =>
    let n := watchPre m w + watchPost m w
    let taps := if watchTap m w = 0 then 0 else ceilDiv n (divTo m (watchFibre m w) (watchTap m w))
    segBytes (watchLayout m w (watchPre m w : Nat) taps)

end Sys2Proof.Machine
end

