-- ==== Sys2Proof/Machine/Budget.lean ====
section
/-!
DEFINITION. The budgets of R21 to R24: demands and limits of an image as exact fractions, and the budgets that the
active configuration has lost (R26, R418).
-/

namespace Sys2Proof.Machine

/-- A fraction: numerator and denominator. -/
abbrev Frac := Nat × Nat

/-- The sum of two fractions. -/
def fAdd (a b : Frac) : Frac := (a.1 * b.2 + b.1 * a.2, a.2 * b.2)

/-- Whether one fraction exceeds another. -/
def fOver (a b : Frac) : Bool := decide (b.1 * a.2 < a.1 * b.2)

/-! ### Demands -/

/-- Budget 1: channel updates per second of a fibre port; none where MODE is OFF (R190). -/
def phaseDemand (m : Nat → Word) (p : Nat) : Frac :=
  if fpMode m p = 0 then (0, 1) else (fsHz m * slotsOf m p * channelsOf m p, periodOf m p)

/-- Budget 2: watch-channel tests per second of a fibre port (R21, R226). -/
def weirDemand (m : Nat → Word) (ws : List Nat) (p : Nat) : Frac :=
  if fpMode m p = 0 then (0, 1)
  else
    let d4 := divTo m p 4
    let n := (ws.filter fun w => decide (watchFibre m w = p)).foldl (fun a w =>
      a + watchCount m w * (d4 / divTo m p (watchTap m w))) 0
    (n * fsHz m * slotsOf m p, periodOf m p * d4)

/-- The raw lanes under capture (R13): those of capturing lane trigger units and of watches that capture raw data. -/
def rawLanes (m : Nat → Word) (ws : List Nat) : Nat :=
  let a := (List.range 8).foldl (fun a u => if captures m (.unit u) then a ||| capLanes m u else a) 0
  ws.foldl (fun a w => if bit (watchActions m w) 0 ∧ fpMode m (watchFibre m w) ≠ 0 then a ||| groupMask m (watchFibre m w) else a) a

/-- The product streams under capture, by fibre port, tap and product (R13, R248), as fibre, tap and product. -/
def productStreams (m : Nat → Word) (ws : List Nat) : List (Nat × Nat × Nat) :=
  (List.range 4).flatMap fun p => (List.range 5).flatMap fun tap =>
    let here := ws.filter fun w => decide (watchFibre m w = p) && decide (watchTap m w = tap) && bit (watchActions m w) 1
    if fpMode m p = 0 then []
    else (bitsOf 5 (here.foldl (fun a w => a ||| prodMaskOf m w) 0)).map fun k => (p, tap, k)

/-- NB of R349. -/
def rawBlocks (m : Nat → Word) : Nat := Nat.min 320 (plOf m / 28)

/-- LANES of a RAW stream. -/
def streamLanes (m : Nat → Word) (n : Nat) : Nat := fld (m (streamAt n + 4)) 0 16

/-- The blocks of an engine per second; the spec gives no rate to the blocks of a RAW engine (R206). -/
def blockRate (m : Nat → Word) (e : Nat) : Frac :=
  match polSource m e with
  | 1 =>
    let (a, b) := tapRate m e (polTap m e)
    (a, b * polDecim m e * polN m e)
  | 2 => (fsHz m * popcount 4 (polSlots m e), periodOf m e * polDecim m e * polN m e)
  | _ => (0, 1)

/-- The payload bytes per second of a stream (R24, R352). -/
def payloadRate (m : Nat → Word) (n : Nat) : Frac :=
  match fld (m (streamAt n)) 1 3 with
  | 0 => (laneHz m * popcount 16 (streamLanes m n) * 7, 4)
  | 1 =>
    let p := fld (m (streamAt n + 4)) 0 2
    let v := if pairTap m p (streamTap m n) then 8 else 4
    let (a, b) := tapRate m p (streamTap m n)
    (a * (v * countChOf m n), b)
  | 2 =>
    let e := fld (m (streamAt n + 4)) 0 2
    let (a, b) := blockRate m e
    (a * blockBytes m e, b)
  | _ => (0, 1)

/-- The bytes of a record beside its payload, from the Spout header on: the header, and the GMAC tag of a destination that
asks for one (R348, R353). -/
def recOverhead (m : Nat → Word) (n : Nat) : Nat :=
  64 + if bit (m (0xB1000 + 0x20 * fld (m (streamAt n)) 8 8)) 3 then 16 else 0

/-- The packet rate of a miniSEED stream from the Spout header on: records of one channel, as long as their room or
MSEED_MAX_S lets them be, at 4 bytes per value (R366, R368, R369). A Steim-2 record is counted at the same 4 bytes, since
its length hangs on its data (DESIGN CHOICE: log 200). -/
def mseedPackets (m : Nat → Word) (n : Nat) : Frac :=
  let p := fld (m (streamAt n + 4)) 0 2
  let (a, b) := tapRate m p (streamTap m n)
  let head := 40 + (mseedId m (fld (m (streamAt n + 8)) 17 4) 0 (streamProduct m n)).length
  let room := (Nat.min 4096 (plOf m) - head) / 4
  let k := Nat.max 1 (Nat.min room (ceilDiv (a * Nat.max 1 (fld (m 0xB0000) 24 8)) b))
  (a * countChOf m n * (recOverhead m n + head + 4 * k), b * k)

/-- A PRODUCT stream whose ENCODING is miniSEED. -/
def isMseed (m : Nat → Word) (n : Nat) : Bool :=
  decide (fld (m (streamAt n)) 1 3 = 1) && (decide (fld (m (streamAt n)) 28 2 = 1) || decide (fld (m (streamAt n)) 28 2 = 2))

/-- The bytes per second of a stream's packets from the Spout header on (R23). -/
def packetRate (m : Nat → Word) (n : Nat) : Frac :=
  let pl := plOf m
  let extra := recOverhead m n
  match fld (m (streamAt n)) 1 3 with
  | 0 =>
    let nb := rawBlocks m
    (laneHz m * popcount 16 (streamLanes m n) * (extra + 28 * nb), 16 * nb)
  | 1 =>
    if isMseed m n then mseedPackets m n
    else
      let p := fld (m (streamAt n + 4)) 0 2
      let v := if pairTap m p (streamTap m n) then 8 else 4
      let (a, b) := tapRate m p (streamTap m n)
      let c := countChOf m n
      (a * (v * c + extra * ceilDiv c (Nat.max 1 (pl / v))), b)
  | 2 =>
    let e := fld (m (streamAt n + 4)) 0 2
    let (a, b) := blockRate m e
    let bytes := blockBytes m e
    let cut := Nat.min 8192 ((pl - 16) / 64 * 64)
    (a * (bytes + extra * ceilDiv bytes (Nat.max 1 cut)), b)
  | _ => (0, 1)

/-- REPLAY code of a stream. -/
def replayCode (m : Nat → Word) (n : Nat) : Nat := fld (m (streamAt n)) 20 4

/-- Budget 3: the continuous write load in bytes per second (R23). -/
def dramDemand (m : Nat → Word) (ws ss : List Nat) : Frac :=
  let a : Frac := (laneHz m * 7 * popcount 16 (rawLanes m ws), 4)
  let a := (productStreams m ws).foldl (fun a (p, tap, _) =>
    let (n, d) := tapRate m p tap
    fAdd a (n * channelsOf m p * (if pairTap m p tap then 8 else 4), d)) a
  (ss.filter fun n => decide (replayCode m n ≠ 0)).foldl (fun a n => fAdd a (packetRate m n)) a

/-- Budget 4: bits per second of the streams placed on a port; a stream on either counts on P0 (R24). -/
def portDemand (m : Nat → Word) (ss : List Nat) (p : Nat) : Frac :=
  let a := (ss.filter fun n => decide ((if fld (m (streamAt n)) 4 2 = 1 then 1 else 0) = p)).foldl
    (fun a n => fAdd a (payloadRate m n)) (0, 1)
  (8 * a.1, a.2)

/-! ### Limits -/

/-- Evaluation lanes that a fibre engine has lost (R231). -/
def lanesLost (s : State) (p : Nat) : Nat := (smGet (0, 0) p s.weir.lanes).1

/-- Spare evaluation lanes used. -/
def sparesUsed (s : State) (p : Nat) : Nat := (smGet (0, 0) p s.weir.lanes).2

/-- The limit of budget 2 of a fibre port (R21, R231). -/
def weirLimit (s : State) (p : Nat) : Nat := 156250000 * (16 - lanesLost s p)

/-- Three times the data rate of a grade in MT/s (R90, R279). -/
def gradeRate (g : Nat) : Nat := 7200 + 800 * Nat.min 3 g

/-- The limit of budget 3 for a number of active channels and a grade. -/
def dramLimit (n grade : Nat) : Frac := (135000000000 * n * gradeRate grade, 8 * 9600)

/-- The line rate of a port MODE in bits per second (R337). -/
def lineRate (mode : Nat) : Nat :=
  match mode with
  | 1 | 2 => 400000000000
  | 3 | 4 => 200000000000
  | 5 | 6 => 100000000000
  | _ => 0

/-- The limit of budget 4: nothing for a port that has gone down (R24). -/
def portLimit (m : Nat → Word) (down : Bool) (p : Nat) : Frac :=
  if down then (0, 1) else (lineRate (portMode m p) * (maxFrame m p - 280), maxFrame m p)

/-- A port has gone down since it was last up (R24, R339). -/
def goneDown (s : State) (p : Nat) : Bool := (port s p).wasUp && !(port s p).up

/-! ### Every budget of an image -/

/-- A budget: identifier, index, demand and limit. -/
structure Budget where
  id     : Nat
  index  : Nat
  demand : Frac
  limit  : Frac
  deriving DecidableEq, Repr

/-- The budgets of an image in the order of R21 and R211, with the channels and grade that count and the ports gone down. -/
def budgets (s : State) (m : Nat → Word) (ws ss : List Nat) (nActive grade : Nat) (down : Nat → Bool) : List Budget :=
  ((List.range 4).map fun p => { id := 1, index := p, demand := phaseDemand m p, limit := (625000000, 1) })
    ++ ((List.range 4).map fun p => { id := 2, index := p, demand := weirDemand m ws p, limit := (weirLimit s p, 1) })
    ++ [{ id := 3, index := 0, demand := dramDemand m ws ss, limit := dramLimit nActive grade }]
    ++ ((List.range 2).map fun p => { id := 4, index := p, demand := portDemand m ss p, limit := portLimit m (down p) p })
    ++ ((List.range 4).map fun e => { id := 5, index := e, demand := polDemand m e, limit := (1250000000, 1) })

/-- Whether the memory PLL of a channel in CHMAP is out (R100). -/
def memOut (s : State) (chans : List Nat) : Bool := chans.any fun c => decide (pll s (4 + c / 3) ≠ .inUse)

/-- The channels that count in budget 3: those of the map that are not dead, and none while a memory PLL of the map is
out (R26, R100, R316). -/
def liveChannels (s : State) (chans : List Nat) : Nat :=
  if memOut s chans then 0 else (chans.filter fun c => decide ((dch s c).code ≠ 5)).length

/-- The budgets of the active configuration as the device now stands. -/
def activeBudgets (s : State) : List Budget :=
  budgets s (cfg s) (enabledWatches s.regs.active) (enabledStreams s.regs.active)
    (liveChannels s (s.dram.chmap.take s.dram.nActive)) s.dram.grade (goneDown s)

/-- A budget that is not met. -/
def overBudget (b : Budget) : Bool := fOver b.demand b.limit

/-- The bit of a budget in LGR_BUDGET_STATE (R422); budgets 1 and 5, which the device cannot lose, have none. -/
def budgetBit (b : Budget) : Option Nat :=
  match b.id with
  | 2 => some b.index
  | 3 => some 4
  | 4 => some (5 + b.index)
  | _ => none

/-- The demand as reported: a whole number, rounded up. -/
def demandOf (b : Budget) : Nat := ceilDiv b.demand.1 b.demand.2

/-- The limit as reported: its integer part. -/
def limitOf (b : Budget) : Nat := b.limit.1 / b.limit.2

/-- BUDGET_LOST, and its end: each budget is compared with its bit (R26, R418, R420). -/
def budgetCheck (s : State) : State :=
  each (activeBudgets s) (fun b s =>
    match budgetBit b with
    | none => s
    | some i =>
      let was := bit (hw s 0xD0068) i
      if overBudget b && !was then
        let s := setHw 0xD0068 (wd (setBit (hw s 0xD0068).toNat i)) s
        let s := sendEvent 0xD { code := 0x1006, src := b.index, stamp := now s, tqb := tqb s,
                                 body := le 2 b.id ++ zeros 6 ++ le 8 (demandOf b) ++ le 8 (limitOf b) } s
        raise 0xD0040 2 s
      else if !overBudget b && was then
        let s := setHw 0xD0068 (wd (clrBit (hw s 0xD0068).toNat i)) s
        let s := sendEvent 0xD { code := 0x1007, src := b.index, stamp := now s, tqb := tqb s, body := le 2 b.id ++ zeros 6 } s
        raise 0xD0040 3 s
      else s) s

end Sys2Proof.Machine
end

