-- ==== Sys2Proof/Machine/Cistern.lean ====
section
/-!
DEFINITION. Cistern (10_cistern): placement of allocations, segments from their fire to their release, the directory,
the hash chains and the seals.
-/

namespace Sys2Proof.Machine

/-! ### Ledger of a region (R276) -/

/-- The entry of a region in the LGR block (R406). -/
def lgrR (r off : Nat) : Nat := 0xD1000 + 0x40 * r + off

/-- A segment leaves a region's live terms for RELEASED (`off` 0x10) or OVERWRITTEN (`off` 0x18). -/
def ledgerFree (r off len : Nat) (s : State) : State :=
  let live := cnt64 s (lgrR r 8)
  let bytes := cnt64 s (lgrR r 0x28)
  let s := setCnt64 (lgrR r 0x28) (bytes - len / 64) (setCnt64 (lgrR r 8) (live - 1) s)
  addCnt64 (lgrR r (off + 0x20)) (len / 64) (addCnt64 (lgrR r off) 1 s)

/-- A segment is created (R276). -/
def ledgerAlloc (r len : Nat) (s : State) : State :=
  addCnt64 (lgrR r 0x28) (len / 64) (addCnt64 (lgrR r 0x20) (len / 64) (addCnt64 (lgrR r 8) 1 (addCnt64 (lgrR r 0) 1 s)))

/-! ### Segments and descriptors (R255, R265, R267) -/

/-- The segment with an identifier. -/
def segOf (s : State) (id : Nat) : Option Seg := s.cis.segs.find? fun g => decide (g.id = id)

/-- Changes one segment. -/
def mapSeg (id : Nat) (f : Seg → Seg) (s : State) : State :=
  { s with cis := { s.cis with segs := s.cis.segs.map fun g => if g.id = id then f g else g } }

/-- The STATE byte of a descriptor (R267). -/
def stateByte (g : Seg) : Nat :=
  (match g.state with | .opened => 1 | .closed => 2) + (if g.pinned then 4 else 0) + (if g.late then 8 else 0)

/-- SOURCE of a descriptor (R267). -/
def sourceOf (g : Seg) : Nat :=
  if g.watch then ((g.units.map (·.unit)).headD 0) + 2 ^ 16 * g.units.length
  else g.units.foldl (fun a u => a ||| 2 ^ u.unit) 0

/-- The 64 bytes of a descriptor with a given STATE byte (R267). -/
def descriptor (g : Seg) (st : Nat) : List Byte :=
  let lead := g.units.headD { unit := 0, frac := 0, tqb := 0, stamp := 0 }
  le 8 g.id ++ le 8 g.prevId ++ le 8 (g.base / 64 + 2 ^ 34 * (g.len / 64)) ++ le 1 (g.region + (if g.watch then 64 else 0))
    ++ le 1 st ++ le 2 g.flags ++ le 4 (sourceOf g) ++ stampBytes lead.stamp ++ [lead.tqb] ++ le 1 lead.frac
    ++ le 2 (Nat.min 65535 g.missed) ++ le 4 (Nat.min (2 ^ 32 - 1) g.dead) ++ padTo 12 (g.digest.take 12)

/-- The head block, with a given DIGEST field (R260). -/
def headBlock (g : Seg) (digest : List Byte) : List Byte :=
  padTo 256 (le 8 g.id ++ le 1 g.region ++ le 1 (b2n g.watch) ++ le 1 g.fibre ++ le 1 g.tap ++ le 2 g.units.length ++ le 2 g.flags
    ++ le 8 g.dead ++ le 8 g.missed ++ le 4 g.pre ++ le 4 g.post ++ le 8 g.tFirst ++ le 2 g.lanes ++ le 1 g.prodMask ++ le 1 0
    ++ le 4 g.firstCh ++ le 4 g.countCh ++ le 4 g.spanFirst ++ le 4 g.spanLen ++ le 4 g.nTap ++ le 8 g.missing ++ le 8 g.hole
    ++ le 8 g.dataLen ++ le 4 g.tag ++ wordBytes g.sealRef ++ le 4 g.commitSeq ++ le 4 0 ++ padTo 48 digest)

/-- The unit table, padded (R261). -/
def unitTable (g : Seg) : List Byte :=
  padTo (roundUp 64 (16 * g.units.length))
    (g.units.flatMap fun u => le 2 u.unit ++ le 1 u.frac ++ [u.tqb] ++ stampBytes u.stamp)

/-- Where a slot of the directory lies (R265). -/
def slotAt (s : State) (slot : Nat) : Nat := dirBase (cfg s) + 64 * slot

/-- Writes a segment's whole descriptor. -/
def writeDesc (g : Seg) (s : State) : State := dramWrite (slotAt s g.slot) (descriptor g (stateByte g)) false s

/-- Writes only the STATE byte of a slot. -/
def writeState (slot st : Nat) (s : State) : State := dramWrite (slotAt s slot + 0x19) (le 1 st) false s

/-- The descriptor of a segment as the state now gives it. -/
def rewriteState (id : Nat) (s : State) : State :=
  match segOf s id with
  | some g => writeState g.slot (stateByte g) s
  | none => s

/-- A segment becomes FREE: slot and extent are free, the rest of the descriptor stays (R255). -/
def freeSeg (g : Seg) (s : State) : State :=
  writeState g.slot 0 { s with cis := { s.cis with segs := s.cis.segs.filter fun x => decide (x.id ≠ g.id) } }

/-- A segment is overwritten by a placement or a growth (R252, R253). -/
def overwriteSeg (g : Seg) (s : State) : State :=
  raise (cisR g.region 0xC) 1 (ledgerFree g.region 0x18 g.len (freeSeg g s))

/-- The lowest-numbered FREE slot (R265). -/
def freeSlot (s : State) : Nat :=
  ((List.range (s.cis.segs.length + 1)).find? fun i => !(s.cis.segs.any fun g => decide (g.slot = i))).getD 0

/-- FREE slots of the directory. -/
def slotsFree (s : State) : Nat := 16777216 - s.cis.segs.length

/-! ### Room in a region (R247, R252) -/

/-- The segments of a region. -/
def segsIn (s : State) (r : Nat) : List Seg := s.cis.segs.filter fun g => decide (g.region = r)

/-- Whether a placement may overwrite a segment: CLOSED, neither pinned nor held, in a ring region (R245, R252). -/
def takeable (s : State) (g : Seg) : Bool :=
  !stopFull (cfg s) g.region && decide (g.state = .closed) && !g.pinned && decide (g.held = 0)

/-- The ranges a placement in a region must step over, by base. -/
def obstacles (s : State) (r : Nat) (self : Option UnitId) : List (Nat × Nat) :=
  let a := ((segsIn s r).filter fun g => !takeable s g).map fun g => (g.base, g.len)
  let b := ((region s r).allocs.filter fun e => decide (some e.unit ≠ self)).map fun e => (e.base, e.len)
  sortBy (fun x y => decide (x.1 ≤ y.1)) (a ++ b)

/-- The first address from `a` on where `n` bytes meet none of the ranges. -/
def firstFit (n : Nat) : Nat → List (Nat × Nat) → Nat
  | a, [] => a
  | a, (b, k) :: os => if meets a n b k then firstFit n (b + k) os else firstFit n a os

/-- Where an extent of `n` bytes goes (R252): scanning from the write pointer, wrapping once. -/
def placeAt (s : State) (r n : Nat) : Option Nat :=
  let lo := regionBase (cfg s) r
  let hi := lo + regionSize (cfg s) r
  let os := obstacles s r none
  let a := firstFit n (lo + (region s r).write) os
  let b := firstFit n lo os
  if a + n ≤ hi then some a else if b + n ≤ hi then some b else none

/-- Overwrites every takeable segment that meets a range. -/
def clearRange (r a n : Nat) (s : State) : State :=
  each ((segsIn s r).filter fun g => takeable s g && meets a n g.base g.len) overwriteSeg s

/-- The bytes that a region's pins hold: a pin on an OPEN segment holds from its close (R247, R258). -/
def pinnedBytes (s : State) (r : Nat) : Nat :=
  (((segsIn s r).filter fun g => g.pinned && decide (g.state = .closed)).map (·.len)).sum

/-- The usable size of a region (R247). -/
def usableSize (s : State) (r : Nat) : Nat := regionSize (cfg s) r - pinnedBytes s r

/-- The committed capturing units and watches of a region. -/
def capturersIn (s : State) (r : Nat) : List UnitId :=
  let m := cfg s
  (((List.range 8).map UnitId.unit) ++ ((enabledWatches s.regs.active).map UnitId.watch)).filter fun u =>
    captures m u && decide (regionOf m u = r)

/-- A unit or watch in motion. -/
def wst (s : State) : UnitId → Weir
  | .unit u => unitSt s u
  | .watch w => watchSt s w

/-- Sets a unit or watch in motion. -/
def setWst (u : UnitId) (x : Weir) (s : State) : State :=
  match u with
  | .unit k => setUnit k x s
  | .watch w => setWatch w x s

/-- Units that pins leave without room are suspended (R247). -/
def checkShort (r : Nat) (s : State) : State :=
  each (capturersIn s r) (fun u s =>
    let x := wst s u
    if !x.suspended && decide (usableSize s r < ownSize (cfg s) u) then
      let s := raise (cisR r 0xC) 3 (setWst u { x with suspended := true } s)
      match u with
      | .unit k => raise (unitAt k + 0x40) 3 s
      | .watch _ => s
    else s) s

/-! ### The chain (R266) -/

/-- H_0 of a region. -/
def chainStart (s : State) (r : Nat) : List Byte :=
  sha384 (ascii "LOSUFER-CISTERN" ++ le 1 0 ++ le 8 s.lgr.epoch ++ le 1 r ++ zeros 7)

/-- H of a region. -/
def chainOf (s : State) (r : Nat) : List Byte := (region s r).chain.getD (chainStart s r)

/-- CHAIN_ADVANCE: the chain moves over the descriptor and digest of a segment that closes. -/
def chainAdvance (g : Seg) (digest : List Byte) (s : State) : State :=
  let h := sha384 (chainOf s g.region ++ descriptor g 0 ++ digest)
  let x := region s g.region
  setRegion g.region { x with chain := some h, links := (x.links + 1) % 2 ^ 64, lastSeg := g.id, advanced := true } s

/-! ### Fires (R253) -/

/-- A unit's part in a fire: its instant `u` in 1/256 sample, stamp and quality, its dead-time figures and its layout. -/
structure Fire where
  unit   : UnitId
  u      : Int
  stamp  : Stamp
  tqb    : Byte
  dead   : Nat
  missed : Nat
  layout : Layout
  deriving DecidableEq, Repr

/-- The number of a unit or watch. -/
def unitNo : UnitId → Nat
  | .unit u => u
  | .watch w => w

/-- The layout that covers two (R238). -/
def mergeLayout (m : Nat → Word) (a b : Layout) : Layout :=
  let first := min a.first b.first
  let last := max (a.first + (a.pre + a.post : Nat)) (b.first + (b.pre + b.post : Nat))
  let trig := if a.first ≤ b.first then a.first + (a.pre : Nat) else b.first + (b.pre : Nat)
  let lo := Nat.min a.firstCh b.firstCh
  let hi := Nat.max (a.firstCh + a.countCh) (b.firstCh + b.countCh)
  let span := if a.watch ∧ (a.raw ∨ b.raw) then rawSpan m a.fibre lo (hi - lo) else (0, 0)
  { a with raw := a.raw || b.raw, prod := a.prod || b.prod, lanes := a.lanes ||| b.lanes, prodMask := a.prodMask ||| b.prodMask,
           first := first, pre := (trig - first).toNat, post := (last - trig).toNat, firstCh := lo, countCh := hi - lo,
           spanFirst := span.1, spanLen := span.2, units := a.units + b.units }

/-- The lead of a set of fires and the rest in ascending number (R253, R261). -/
def leadFirst : List Fire → List Fire
  | [] => []
  | f :: fs =>
    let lead := fs.foldl (fun a b => if b.u < a.u ∨ (b.u = a.u ∧ unitNo b.unit < unitNo a.unit) then b else a) f
    lead :: sortBy (fun x y => decide (unitNo x.unit ≤ unitNo y.unit)) ((f :: fs).filter fun x => decide (x.unit ≠ lead.unit))

/-- A unit returns its allocation to the region. -/
def dropAlloc (r : Nat) (u : UnitId) (s : State) : State :=
  let x := region s r
  setRegion r { x with allocs := x.allocs.filter fun e => decide (e.unit ≠ u) } s

/-- A unit returns the allocation it holds, whichever region holds it. -/
def returnAlloc (u : UnitId) (s : State) : State :=
  let s := each (s.cis.regions.map (·.1)) (fun r s => dropAlloc r u s) s
  setWst u { wst s u with alloc := .none } s

/-- The extent a unit holds. -/
def extentOf (s : State) (r : Nat) (u : UnitId) : Option Extent := (region s r).allocs.find? fun e => decide (e.unit = u)

/-- The device time that the pre-trigger part of a layout spans, in stamp units (R80). -/
def preSpan (m : Nat → Word) (l : Layout) : Nat :=
  if l.watch then ceilDiv l.pre (slotsOf m l.fibre) * periodOf m l.fibre * second / fsHz m else l.pre * second / laneHz m

/-- The region that holds a unit's allocation, else the one its configuration names: a unit keeps the allocation it holds
over a change of REGION, and its next segment is built there (R232, R254). -/
def holdRegion (s : State) (u : UnitId) : Nat :=
  match s.cis.regions.find? fun (_, y) => y.allocs.any fun e => decide (e.unit = u) with
  | some (r, _) => r
  | none => regionOf (cfg s) u

/-- SUPPLY and SEAL of a segment as it opens: the coverage of R80 lasts or ended within its pre-trigger span (R80, R52). -/
def openFlags (s : State) (l : Layout) (stamp : Stamp) : Nat :=
  createFlags s ||| (if 0 < s.pwr.covEnd ∧ stamp ≤ s.pwr.covEnd + preSpan (cfg s) l then 2 else 0)

/-- Where the post-trigger window of a unit's own layout ends: for lanes the position of the sample clock past its last
sample, for a watch one past its last shot (R224, R230). -/
def windowEnd (s : State) (l : Layout) : Nat :=
  let past := (l.first + (l.pre + l.post : Nat)).toNat
  if l.watch then past else s.cnv.base + ceilDiv (4000 * past) (lps (cfg s))

/-- SEGMENT_OPEN: the units that fired into a region start one segment in the lead's allocation (R238, R253, R255). -/
def segmentOpen (r : Nat) (fires : List Fire) (s : State) : State :=
  match leadFirst fires with
  | [] => s
  | lead :: rest =>
    match extentOf s r lead.unit with
    | none => s
    | some e =>
      let m := cfg s
      let lay := rest.foldl (fun a f => mergeLayout m a f.layout) lead.layout
      let steps := divTo m lay.fibre lay.tap
      let lay := if lay.watch ∧ lay.tap ≠ 0 ∧ lay.prod then
          let before := Nat.min lay.pre (lay.first + (lay.pre : Nat)).toNat
          { lay with nTap := before / steps + (lay.post - 1) / steps + 1 }
        else { lay with nTap := 0 }
      let need := segBytes lay
      let hi := regionBase m r + regionSize m r
      let wall := (obstacles s r (some lead.unit)).foldl (fun a o => if e.base + e.len ≤ o.1 then Nat.min a o.1 else a) hi
      let len := Nat.min need (wall - e.base)
      let s := if e.len < len then clearRange r (e.base + e.len) (len - e.len) s else s
      let s := each fires (fun f s => setWst f.unit { wst s f.unit with alloc := .none } (dropAlloc r f.unit s)) s
      let cut := need - len
      let tag := match lead.unit with | .watch w => (watchWord m w 0x38).toNat | .unit _ => 0
      let g : Seg := {
        id := s.cis.nextSeg, slot := freeSlot s, region := r, watch := lay.watch, fibre := lay.fibre, tap := lay.tap,
        base := e.base, len := len,
        units := (lead :: rest).map fun f => { unit := unitNo f.unit, frac := (f.u % 256).toNat, tqb := f.tqb, stamp := f.stamp },
        origin := s.cnv.origin,
        flags := openFlags s lay lead.stamp ||| (if lay.watch && s.weir.degraded.getLsbD lay.fibre then 8 else 0)
          ||| (if 0 < cut then 0x20 else 0) ||| (if rest ≠ [] then 0x80 else 0) ||| (if lay.raw then 0x100 else 0)
          ||| (if lay.prod then 0x200 else 0),
        dead := ((lead :: rest).map (·.dead)).foldl Nat.max 0, missed := ((lead :: rest).map (·.missed)).sum,
        pre := lay.pre, post := lay.post, tFirst := twos 64 lay.first, lanes := lay.lanes, prodMask := lay.prodMask,
        firstCh := lay.firstCh, countCh := lay.countCh, spanFirst := lay.spanFirst, spanLen := lay.spanLen, nTap := lay.nTap,
        missing := cut, dataLen := need - 256, tag := tag, sealRef := s.sealing.ref, commitSeq := (hw s 0x40).toNat }
      let s := { s with cis := { s.cis with segs := s.cis.segs ++ [g], nextSeg := s.cis.nextSeg + 1 } }
      let s := ledgerAlloc r len (writeDesc g s)
      let opens (f : Fire) (s : State) : State := setWst f.unit { wst s f.unit with post := some g.id, postEnd := windowEnd s f.layout } s
      let merged (f : Fire) (s : State) : State := match f.unit with
        | .unit k => raise (unitAt k + 0x40) 4 s
        | .watch _ => s
      let s := each fires opens s
      if rest = [] then s else each fires merged s

/-! ### Poison found after a close (R269, R408) -/

/-- A CLOSED segment is found poisoned: STATE carries POISONED_LATE, the region is told, and the loss is counted. -/
def markLate (g : Seg) (s : State) : State :=
  if g.late then s
  else
    let s := rewriteState g.id (mapSeg g.id (fun x => { x with late := true }) s)
    loss 5 1 (raise 0x70040 5 (raise (cisR g.region 0xC) 6 s))

/-- Poison found in a range of DRAM reaches the segments that hold it. -/
def poisonSeen (a n : Nat) (s : State) : State :=
  each (s.cis.segs.filter fun g => decide (g.state = .closed) && meets a n g.base g.len) markLate s

/-- Whether a range of DRAM holds a burst of a channel (R282). -/
def holdsChannel (s : State) (a n c : Nat) : Bool :=
  let g := 2 ^ s.dram.grain
  let k := if n = 0 then 0 else (a + n - 1) / g - a / g + 1
  (List.range (Nat.min s.dram.nActive k)).any fun i => decide ((placeOf s ((a / g + i) * g)).1 = c)

/-- A DRAM channel has died: CLOSED segments that hold bursts of it are marked, OPEN ones close POISONED (R408). -/
def markChannel (c : Nat) (s : State) : State :=
  each (s.cis.segs.filter fun g => holdsChannel s g.base g.len c) (fun g s =>
    match g.state with
    | .closed => markLate g s
    | .opened => mapSeg g.id (fun x => { x with flags := x.flags ||| 0x10 }) s) s

/-- A unit whose allocation is gone asks anew. -/
def allocLost (x : Weir) : Weir := if x.alloc = .accepted then { x with alloc := .asked } else x

/-- The histories hold nothing, as when DRAM is filled anew. -/
def histEmpty (s : State) : State :=
  { s with cis := { s.cis with hist := s.cis.hist.map fun (k, h) => (k, { h with held := [] }) } }

/-- A rebuild: every slot becomes FREE, every chain starts again, the histories hold nothing and no unit holds an
allocation (R271). -/
def cisRebuild (s : State) : State :=
  let s := histEmpty (each s.cis.segs (fun g s => ledgerFree g.region 0x10 g.len (loss 7 g.len (loss 6 1 s))) s)
  { s with
    cis := { s.cis with segs := [], regions := [] },
    weir := { s.weir with units := s.weir.units.map fun (k, x) => (k, allocLost x),
                          watches := s.weir.watches.map fun (k, x) => (k, allocLost x) } }

/-! ### Seals (R272 to R274) and the LMS epochs they spend (R430, R431) -/

/-- Bits of LMS_CTR used; they are used in ascending order. -/
def lmsUsed (s : State) : Nat :=
  ((s.sec.otp.filter fun (a, _) => 0x1000 ≤ a ∧ a < 0x2000).map fun (_, b) => popcount 8 b.toNat).sum

/-- LMS signing is exhausted (R431). -/
def lmsExhausted (s : State) : Bool := decide (32768 ≤ lmsUsed s) && decide (s.sec.lmsLeft = 0) && !s.sec.lmsGen

/-- Programs the next bit of LMS_CTR for the epoch being set up (R430); LMS_LOW where few are left (R431). -/
def lmsTake (s : State) : State :=
  let e := lmsUsed s
  let s := otpSet (0x1000 + e / 8) (BitVec.ofNat 8 (2 ^ (e % 8))) s
  let s := { s with sec := { s.sec with lmsEpoch := some e } }
  raiseIf (decide (32768 - (e + 1) < cfgF s 0xE0030 0 12)) 0xE0040 3 s

/-- An epoch begins to be set up; the hold of R85 delays its bit. -/
def lmsStart (s : State) : State :=
  if s.sec.lmsGen then s
  else
    let s := { s with sec := { s.sec with lmsGen := true, lmsEpoch := none } }
    if otpHeld s then otpDefer s else lmsTake s

/-- One leaf is spent; after the last one the next epoch begins, or LMS signing is exhausted. -/
def lmsSpend (s : State) : State :=
  let s := addCnt64 0xE0050 1 { s with sec := { s.sec with lmsLeft := s.sec.lmsLeft - 1 } }
  if s.sec.lmsLeft = 0 then (if 32768 ≤ lmsUsed s then raise 0xE0040 4 s else lmsStart s) else s

/-- The HSS signature of the present leaf over a message. -/
def lmsSign (s : State) (msg : List Byte) : List Byte :=
  Config.hssSign msg (s.sec.lmsEpoch.getD 0) (32768 - s.sec.lmsLeft)

/-- A head entry of a seal (R273). -/
def headEntry (s : State) (r : Nat) : List Byte :=
  le 1 r ++ le 7 (region s r).links ++ le 8 (region s r).lastSeg ++ chainOf s r

/-- The regions of an interval seal: those whose chain has advanced; of a requested one: those enabled (R272). -/
def sealRegions (s : State) (demand : Bool) : List Nat :=
  (List.range 64).filter fun r => if demand then regionOn (cfg s) r else (region s r).advanced

/-- The interval of R272 begins. -/
def sealTimed (s : State) : State := timerSet tmSeal 0 (500000000 * Nat.max 1 (cfgF s 0x70010 0 16)) s

/-- A seal is made, signed, kept and sent as an event (R272, R273). -/
def makeSeal (demand : Bool) (s : State) : State :=
  let rs := sealRegions s demand
  let ecdsaOnly := lmsExhausted s
  let no := s.cis.sealNo + 1
  let signed := le 8 no ++ stampBytes (now s) ++ [tqb s] ++ le 1 (b2n demand + 2 * b2n ecdsaOnly) ++ le 2 rs.length
    ++ le 8 s.lgr.epoch ++ wordBytes s.sealing.ref ++ le 4 0 ++ padTo 48 s.cis.sealPrev ++ rs.flatMap (headEntry s)
  let lms := if ecdsaOnly then [] else lmsSign s signed
  let record := signed ++ Config.ecdsaSign (sha384 signed) ++ le 4 (if ecdsaOnly then 0 else 3284) ++ lms
  let t := now s
  let s := each rs (fun r s => setRegion r { region s r with advanced := false } s) s
  let s := { s with cis := { s.cis with sealNo := no, seals := (record :: s.cis.seals).take 16, sealPrev := sha384 signed,
                                        sealAt := some s.cnt.ticks } }
  let s := setStamp 0x70068 t (setCnt64 0x70050 no s)
  let s := sealTimed s
  let s := sendEvent 7 { code := 0x1002, src := 0, stamp := t, tqb := tqb s, body := record } s
  let s := raise 0x70040 0 (raiseIf ecdsaOnly 0x70040 4 s)
  if ecdsaOnly then s else lmsSpend s

/-- The reply of a life-cycle advance leaves, and the objects of the new state wait to be programmed: the key kill before
the byte of DECOMMISSIONED (R442). -/
def lifecycleProceed (s : State) : State :=
  match s.slc.sessions.find? fun (_, x) => match x.wait with | some (.lifecycle _) => true | _ => false with
  | some (n, x) =>
    match x.wait with
    | some (.lifecycle 2) =>
      otpRequest 0x42 [0xFF] (otpRequest 0x100 (List.replicate 80 0xFF) (otpRequest 0x44 (List.replicate 4 0xFF)
        (answer n 0x0A04 stOK [] s)))
    | _ => otpRequest 0x41 [0xFF] (answer n 0x0A04 stOK [] s)
  | none => s

/-- What waits for a seal that has been made: the cmd bit of SEAL_NOW completes, and a queued start waits for the next
second; a life-cycle advance goes on. -/
def sealMade (k : SealKind) (s : State) : State :=
  match k with
  | .cmd => cmdDone 0x70044 0 (fun s => { s with cis := { s.cis with nowWait := true } }) s
  | .life => lifecycleProceed s
  | _ => s

/-- A seal is made for its reason. -/
def sealDo (k : SealKind) (s : State) : State := sealMade k (makeSeal (decide (k ≠ .interval)) s)

/-- A seal falls due: it is made, or waits for an epoch that is being set up (R272, R430). -/
def sealDue (k : SealKind) (s : State) : State :=
  if lmsExhausted s ∨ (0 < s.sec.lmsLeft ∧ s.cis.sealWait = [] ∧ ¬ s.sec.lmsGen) then sealDo k s
  else
    let s := raise 0x70040 3 { s with cis := { s.cis with sealWait := s.cis.sealWait ++ [k] } }
    if s.sec.lmsLeft = 0 then lmsStart s else s

/-- A second has passed since the previous seal began (R272). -/
def sealSpaced (s : State) : Bool :=
  match s.cis.sealAt with
  | none => true
  | some t => decide (t + 500000000 ≤ s.cnt.ticks)

/-- SEAL_TIMER: INTERVAL_S seconds have passed since the previous seal, or since the interval before passed without one: a
seal of the regions that advanced, or none (R272). -/
def execSealTimer : State → Host.Outcome State Fault Refusal := run fun s =>
  if !timerDue s tmSeal 0 then s
  else if sealRegions s false = [] then sealTimed s else sealDue .interval (sealTimed s)

/-- SEAL_DEFERRED_START: the work a seal waited for is complete. A requested seal still keeps the second after the previous
one, and an interval seal that no chain needs any longer is not made (R272, R273). -/
def execSealDeferredStart : State → Host.Outcome State Fault Refusal := run fun s =>
  match s.cis.sealWait with
  | [] => s
  | d :: ds =>
    if s.sec.lmsGen ∨ (s.sec.lmsLeft = 0 ∧ ¬ lmsExhausted s) then s
    else if d = .interval then
      let s := { s with cis := { s.cis with sealWait := ds } }
      if sealRegions s false = [] then s else sealDo d s
    else if sealSpaced s ∨ d = .life then sealDo d { s with cis := { s.cis with sealWait := ds } }
    else s

/-- SEAL_NOW in CIS_CMD: the seal starts, or waits for the second after the previous one (R272). -/
def sealNowCommand (s : State) : State :=
  if sealSpaced s then sealDue .cmd s else { s with cis := { s.cis with nowWait := true } }

/-- SEAL_SPACING_END: 1 s has passed since the previous seal began; a SEAL_NOW that waited starts (R272). -/
def execSealSpacingEnd : State → Host.Outcome State Fault Refusal := run fun s =>
  if s.cis.nowWait && sealSpaced s then sealDue .cmd { s with cis := { s.cis with nowWait := false } } else s

/-! ### The sequencer's commands and events -/

/-- Whether a unit's post-trigger window still runs into a segment. -/
def windowOpenOn (s : State) (id : Nat) : Bool :=
  s.weir.units.any (fun (_, x) => decide (x.post = some id)) || s.weir.watches.any (fun (_, x) => decide (x.post = some id))

/-- A segment read request joins a stream's queue; the first in it starts, and its segment is held from then on (R259,
R351). -/
def queueRead (n : Nat) (q : SegRead) (s : State) : State :=
  let x := stream s n
  let s := if x.reads = [] then mapSeg q.seg (fun g => { g with held := g.held + 1 }) s else s
  setStream n { x with reads := x.reads ++ [q] } s

/-- SEGMENT streams with AUTO of a region queue a segment that closes; one with 16 requests skips it (R351). -/
def autoQueue (r id len : Nat) (s : State) : State :=
  each (enabledStreams s.regs.active) (fun n s =>
    if streamType s n = 3 ∧ cfgF s (streamAt n + 4) 0 6 = r ∧ cfgB s (streamAt n + 4) 6 then
      let x := stream s n
      if x.reads.length < 16 then queueRead n { seg := id, offset := 0, bytes := len } s
      else raise 0xB0040 7 (setCnt64 0xB0068 id (addHold 0xB0064 1 s))
    else s) s

/-- PIN_SUSPENSION_END: the region again holds A_u (R247). -/
def execPinSuspensionEnd (u : UnitId) : State → Host.Outcome State Fault Refusal := run fun s =>
  let x := wst s u
  let r := regionOf (cfg s) u
  if x.suspended && decide (ownSize (cfg s) u ≤ usableSize s r) then
    raise (cisR r 0xC) 5 (setWst u { x with suspended := false } s)
  else s

/-- SEG_QUERY: slot and descriptor (R258, R388). -/
def execSegQuery (ses seg : Nat) : State → Host.Outcome State Fault Refusal := run fun s =>
  hostCmd ses 0x0400 true true 72 (fun s =>
    match segOf s seg with
    | none => answer ses 0x0400 stState [] s
    | some g => answer ses 0x0400 stOK (le 4 g.slot ++ le 4 0 ++ descriptor g (stateByte g)) s) s

/-- SEG_PIN (R258). -/
def execSegPin (ses seg : Nat) : State → Host.Outcome State Fault Refusal := run fun s =>
  hostCmd ses 0x0401 false true 0 (needLease ses 0x0401 fun s =>
    match segOf s seg with
    | none => answer ses 0x0401 stState [] s
    | some g =>
      let s := rewriteState seg (mapSeg seg (fun x => { x with pinned := true }) s)
      answer ses 0x0401 stOK [] (if g.state = .closed then checkShort g.region s else s)) s

/-- SEG_UNPIN (R258). -/
def execSegUnpin (ses seg : Nat) : State → Host.Outcome State Fault Refusal := run fun s =>
  hostCmd ses 0x0402 false true 0 (needLease ses 0x0402 fun s =>
    match segOf s seg with
    | none => answer ses 0x0402 stState [] s
    | some _ => answer ses 0x0402 stOK [] (rewriteState seg (mapSeg seg (fun x => { x with pinned := false }) s))) s

/-- SEG_RELEASE (R258). -/
def execSegRelease (ses seg : Nat) : State → Host.Outcome State Fault Refusal := run fun s =>
  hostCmd ses 0x0403 false true 0 (needLease ses 0x0403 fun s =>
    match segOf s seg with
    | none => answer ses 0x0403 stState [] s
    | some g =>
      if g.state = .opened ∨ g.pinned then answer ses 0x0403 stState [] s
      else if 0 < g.held then answer ses 0x0403 stBusy [] s
      else answer ses 0x0403 stOK [] (ledgerFree g.region 0x10 g.len (freeSeg g s))) s

/-- SEAL: a request, or a record of the last sixteen (R272, R273, R388). A request needs the lease and returns BUSY
within 1 s of the previous seal. -/
def execSealCmd (ses : Nat) (nowFlag : Bool) (index : Nat) : State → Host.Outcome State Fault Refusal := run fun s =>
  if nowFlag then
    hostCmd ses 0x0405 false true 8 (needLease ses 0x0405 fun s =>
      if sealSpaced s then
        let no := s.cis.sealNo + s.cis.sealWait.length + 1
        answer ses 0x0405 stOK (le 8 no) (sealDue .host s)
      else answer ses 0x0405 stBusy [] s) s
  else
    let record := s.cis.seals.getD index []
    hostCmd ses 0x0405 true (decide (index < 16)) record.length (fun s =>
      if index < s.cis.seals.length then answer ses 0x0405 stOK record s else answer ses 0x0405 stState [] s) s

end Sys2Proof.Machine
end

