-- ==== Sys2Proof/Machine/History.lean ====
section
/-!
DEFINITION. The pre-trigger histories of Cistern (R13, R248, R250): how the history area is divided, what is written to
each ring, and which of it a segment can still read.
-/

namespace Sys2Proof.Machine

/-! ### Division of the area (R248) -/

/-- The key of a port's header history, of a product's at T0 and of a tap's. -/
def headKey (p : Nat) : Nat := 16 + p

/-- The key of the history of a product stream. -/
def prodKey (p tap code : Nat) : Nat := if tap = 0 then 32 + 8 * p + code else 64 + 8 * p + tap

/-- A stream of the history area: its key, the bytes of one entry and the entries of its ring. -/
structure HStream where
  key  : Nat
  unit : Nat
  cap  : Nat
  deriving DecidableEq, Repr

/-- The streams under capture in the order of R248: raw lanes in packed-14 blocks, headers, product streams. -/
def histStreams (m : Nat → Word) (ws : List Nat) : List HStream :=
  let raw := (bitsOf 16 (rawLanes m ws)).map fun l => { key := l, unit := 28, cap := 2 ^ histLog2 m / 16 : HStream }
  let heads := ((List.range 4).filter fun p => decide (fpMode m p ≠ 0) &&
    ws.any fun w => decide (watchFibre m w = p) && captures m (.watch w)).map fun p =>
      { key := headKey p, unit := 160, cap := histShots m : HStream }
  let prods := (productStreams m ws).map fun (p, tap, code) =>
    let v := if pairTap m p tap then 8 else 4
    if tap = 0 then { key := prodKey p tap code, unit := 4 * channelsOf m p, cap := histShots m : HStream }
    else { key := prodKey p tap code, unit := 48 + channelsOf m p * v, cap := ceilDiv (histShots m) (divTo m p tap) }
  raw ++ heads ++ prods

/-- The bytes of the history area in use, each stream from a 4 KiB boundary. -/
def histUsed (m : Nat → Word) (ws : List Nat) : Nat := ((histStreams m ws).map fun h => roundUp 4096 (h.unit * h.cap)).sum

/-- The rings of some streams from an address on. -/
def histRings (old : SMap Hist) : Nat → List HStream → SMap Hist
  | _, [] => []
  | a, h :: hs =>
    let bare : Hist := { base := a, unit := h.unit, cap := h.cap }
    let ring := match smFind h.key old with
      | some x => if x.base = a ∧ x.unit = h.unit ∧ x.cap = h.cap then x else bare
      | none => bare
    smIns h.key ring (histRings old (a + roundUp 4096 (h.unit * h.cap)) hs)

/-- The area is divided anew; a stream whose ring stays where it is keeps what it holds (R248). -/
def histPlan (s : State) : State :=
  let m := cfg s
  { s with cis := { s.cis with hist := histRings s.cis.hist (histBase m) (histStreams m (enabledWatches s.regs.active)) } }

/-! ### Writing (R248, R250) -/

/-- Adds a run to those held: it continues the last one where it can, and a number written again replaces what the ring
held from there on. -/
def runAdd (a b : Nat) (l : List (Nat × Nat)) : List (Nat × Nat) :=
  match l.getLast? with
  | some (x, y) => if a ≤ y ∧ x ≤ a then l.dropLast ++ [(x, Nat.max y b)] else l ++ [(a, b)]
  | none => [(a, b)]

/-- An entry of a history is written to its place in the ring, and the numbers from `lo` to `hi` are held; one whose
channels are out is dropped and counted (R250). -/
def histPut (key entry lo hi : Nat) (data : List Byte) (s : State) : State :=
  match smFind key s.cis.hist with
  | none => s
  | some h =>
    let bytes := data.take h.unit
    let a := h.base + entry % h.cap * h.unit
    if dramUp s a bytes.length then
      let s := dramWrite a bytes false s
      { s with cis := { s.cis with hist := smIns key { h with held := runAdd lo hi h.held } s.cis.hist } }
    else addCnt64 0x70060 bytes.length s

/-- Whether a history is kept under a key. -/
def histOn (s : State) (key : Nat) : Bool := (smFind key s.cis.hist).isSome

/-- The entry written last, and one past it. -/
def histTop (h : Hist) : Nat := (h.held.map (·.2)).foldl Nat.max 0

/-- Whether a number whose entry is `entry` is still in its ring: written, and not yet overwritten (R250). `per` numbers
share an entry. -/
def histHas (h : Hist) (per n : Nat) : Bool :=
  h.held.any (fun r => decide (r.1 ≤ n ∧ n < r.2)) && decide ((histTop h - 1) / per < n / per + h.cap)

/-- The bytes of an entry from an offset, and whether a word of them reads poisoned. -/
def histGet (h : Hist) (entry off n : Nat) (s : State) : (List Byte × Bool) × State :=
  dramRead (h.base + entry % h.cap * h.unit + off) n s

/-! ### Raw lanes (R118, R140, R141, R248) -/

/-- The 16-bit container of a corrected sample: bits [15:14] repeat bit 13 (R140). -/
def container (y : Int) : BitVec 16 := BitVec.ofInt 16 y

/-- The 14-bit code of a container. -/
def code14 (v : BitVec 16) : BitVec 14 := v.setWidth 14

/-- Packed-14 blocks of samples (R141). -/
def pack14 : Nat → List (BitVec 14) → List Byte
  | 0, _ => []
  | k + 1, xs => le 28 ((xs.take 16).foldr (fun v a => v.toNat + 2 ^ 14 * a) 0) ++ pack14 k (xs.drop 16)

/-- The samples of a packed-14 block (R141). -/
def unpack14 (l : List Byte) : List (BitVec 14) :=
  let v := ofLe l
  (List.range 16).map fun i => BitVec.ofNat 14 (v / 2 ^ (14 * i))

/-- The samples of a lane now held. -/
def laneRun (s : State) (lane : Nat) : LaneRun := smGet {} lane s.cnv.lanes

/-- The lane number of a lane sample index (R219). -/
def laneNo (s : State) (i : Nat) : Nat := 16 * s.cnv.origin + i

/-- The lane samples digitised up to a position of the sample clock, since the indices restarted (R219). -/
def laneSamples (s : State) (pos : Nat) : Nat := (pos - s.cnv.base) / 4000 * lps (cfg s)

/-- The samples of a lane from a lane number on, none for one that no notice has brought. -/
def laneSlice (s : State) (lane a n : Nat) : List (Option (BitVec 14)) :=
  let r := laneRun s lane
  let got := List.replicate (r.start - a) none ++ (r.xs.drop (a - r.start)).map fun v => some (code14 v)
  (got ++ List.replicate n none).take n

/-- A packed-14 block of a lane goes to its history with the samples the lane holds of it. -/
def lanePut (lane b : Nat) (s : State) : State :=
  let r := laneRun s lane
  let xs := (laneSlice s lane (16 * b) 16).map (·.getD 0)
  histPut lane b (Nat.max r.start (16 * b)) (Nat.min (r.start + r.xs.length) (16 * b + 16)) (pack14 1 xs) s

/-- Samples of a lane in use, from a lane number on: they continue the run or begin a new one, and the blocks they complete
go to the history. `zero` says that a foreground window put zeros among them. -/
def laneAppend (lane a : Nat) (xs : List (BitVec 16)) (zero : Bool) (s : State) : State :=
  let r := laneRun s lane
  let zeros := if zero then runAdd a (a + xs.length) r.zeros else r.zeros
  let stop := r.start + r.xs.length
  let joins := decide (stop = a) && decide (r.xs ≠ [])
  let s := if !joins && histOn s lane && decide (stop % 16 ≠ 0) then lanePut lane (stop / 16) s else s
  let r := if joins then { r with xs := r.xs ++ xs, zeros := zeros } else { start := a, xs := xs, zeros := zeros }
  let s := { s with cnv := { s.cnv with lanes := smIns lane r s.cnv.lanes } }
  if histOn s lane then
    each ((List.range ((a + xs.length) / 16 - a / 16)).map (a / 16 + ·)) (lanePut lane) s
  else s

/-- The last block of every lane, which the clock has cut, goes to its history. -/
def lanesFlush (s : State) : State :=
  each (s.cnv.lanes.map (·.1)) (fun lane s =>
    let r := laneRun s lane
    let stop := r.start + r.xs.length
    if histOn s lane ∧ stop % 16 ≠ 0 then lanePut lane (stop / 16) s else s) s

end Sys2Proof.Machine
end

