-- ==== Sys2Proof/Machine/Weir.lean ====
section
/-!
DEFINITION. Weir (09_weir): comparators and conditions, firing, holdoff and dead time, watches, the alarm and the
trigger pins.
-/

namespace Sys2Proof.Machine

/-! ### Conditions (R217 to R221) -/

/-- A comparator after a sample: its state, and the transition it makes, true for a rising one (R217). -/
def cmpStep (level : Int) (hyst : Nat) (x : Int) : Option Bool → Bool × Option Bool
  | none => (decide (level ≤ x), none)
  | some st =>
    if level ≤ x then (true, if st then none else some true)
    else if x < level - (hyst : Nat) then (false, if st then some false else none)
    else (st, none)

/-- The instant of a transition at sample `i`, in 1/256 sample (R218). -/
def instantAt (i w x0 x1 : Int) : Int :=
  256 * (i - 1) + (if x0 < x1 then rhe (256 * (w - x0)) (x1 - x0).toNat else rhe (256 * (x0 - w)) (x0 - x1).toNat)

/-- A transition of a comparator: whether it is the one at HI, whether it rises, and its instant. -/
structure Edge2 where
  hi    : Bool
  rise  : Bool
  u     : Int
  deriving DecidableEq, Repr

/-- The transition that begins a pulse, runt or edge (R221). -/
def begins (c : CondCfg) (e : Edge2) : Bool :=
  match c.typ with
  | 0 => !e.hi && (e.rise != c.negative)
  | 1 => if c.negative then e.hi && !e.rise else !e.hi && e.rise
  | 3 => if c.negative then e.hi && !e.rise else !e.hi && e.rise
  | _ => false

/-- The transition that ends it. -/
def ends (c : CondCfg) (e : Edge2) : Bool :=
  match c.typ with
  | 0 => !e.hi && (e.rise == c.negative)
  | 1 => if c.negative then e.hi && e.rise else !e.hi && !e.rise
  | 3 => if c.negative then !e.hi && !e.rise else e.hi && e.rise
  | _ => false

/-- The transition that cancels it. -/
def cancels (c : CondCfg) (e : Edge2) : Bool :=
  match c.typ with
  | 1 => if c.negative then !e.hi && !e.rise else e.hi && e.rise
  | 3 => if c.negative then e.hi && e.rise else !e.hi && !e.rise
  | _ => false

/-- Whether a duration passes QUAL (R221). -/
def qualPass (c : CondCfg) (d : Int) : Bool :=
  match c.qual with
  | 1 => decide (d < c.lim1)
  | 2 => decide ((c.lim1 : Int) ≤ d)
  | 3 => decide ((c.lim1 : Int) ≤ d ∧ d < c.lim2)
  | _ => true

/-- Whether the condition is a PULSE with QUAL = LONGER. -/
def longPulse (c : CondCfg) : Bool := decide (c.typ = 0) && decide (c.qual = 2)

/-- A transition acts on the pulse, runt or edge: its new state and the instant of a condition it meets. -/
def edgeStep (c : CondCfg) (d : Cond) (e : Edge2) : Cond × Option Int :=
  if begins c e then ({ d with start := some e.u, met := false }, none)
  else if cancels c e then ({ d with start := none }, none)
  else if ends c e then
    match d.start with
    | none => (d, none)
    | some b =>
      let d' := { d with start := none }
      if longPulse c then
        (d', if !d.met && decide (b + (c.lim1 : Int) ≤ e.u) then some (b + (c.lim1 : Int)) else none)
      else (d', if qualPass c (e.u - b) then some e.u else none)
  else (d, none)

/-- Transitions act in turn. -/
def edgesStep (c : CondCfg) : Cond → List Edge2 → Cond × Option Int
  | d, [] => (d, none)
  | d, e :: es =>
    let (d, a) := edgeStep c d e
    let (d, b) := edgesStep c d es
    (d, match a with | some u => some u | none => b)

/-- A detector after sample `i` of value `x`: its new state, and the instant of the condition it meets (R220, R221). -/
def condStep (c : CondCfg) (i x : Int) (d : Cond) : Cond × Option Int :=
  let (lo, tlo) := cmpStep c.lo c.hyst x d.lo
  let (hi, thi) := cmpStep c.hi c.hyst x d.hi
  let w (level : Int) (rise : Bool) : Int := if rise then level else level - (c.hyst : Nat)
  let elo : List Edge2 := match tlo with
    | some r => [{ hi := false, rise := r, u := instantAt i (w c.lo r) d.last x }]
    | none => []
  let ehi : List Edge2 := match thi with
    | some r => [{ hi := true, rise := r, u := instantAt i (w c.hi r) d.last x }]
    | none => []
  let two := decide (c.typ = 1 ∨ c.typ = 3)
  let es := if two then (if tlo = some true then elo ++ ehi else ehi ++ elo) else elo
  let first := d.lo.isNone
  let (d1, met) := edgesStep c { d with lo := some lo, hi := some hi, last := x } es
  if c.typ = 2 then
    let want (e : Edge2) : Bool := if e.rise then nbit c.slope 0 else nbit c.slope 1
    let d2 := if first then { d1 with q := some (256 * i), qMet := false }
      else match elo.find? want with
        | some e => { d1 with q := some e.u, qMet := false }
        | none => d1
    match d2.q with
    | some q =>
      if !d2.qMet && decide (q + (c.lim1 : Int) ≤ 256 * i) then ({ d2 with qMet := true }, some (q + (c.lim1 : Int))) else (d2, none)
    | none => (d2, none)
  else if longPulse c then
    match d1.start with
    | some b =>
      if !d1.met && decide (b + (c.lim1 : Int) ≤ 256 * i) then
        ({ d1 with met := true }, match met with | some u => some u | none => some (b + (c.lim1 : Int)))
      else (d1, met)
    | none => (d1, met)
  else (d1, met)

/-! ### Status records (R233, R237, R243) -/

/-- The status record of a watch with one term changed. -/
def Weir.bump (off n : Nat) (x : Weir) : Weir :=
  let t := x.stat
  let t := match off with
    | 0 => { t with met := t.met + n }
    | 8 => { t with started := t.started + n }
    | 0x10 => { t with holdoff := t.holdoff + n }
    | 0x18 => { t with dead := t.dead + n }
    | 0x20 => { t with capacity := t.capacity + n }
    | 0x28 => { t with deadSum := t.deadSum + n }
    | _ => { t with deadCount := t.deadCount + n }
  { x with stat := t }

/-- Advances a term of a unit's ledger, in the LGR block or in the watch status record. -/
def bump (u : UnitId) (off n : Nat) (s : State) : State :=
  match u with
  | .unit k => addCnt64 (0xD0800 + 0x40 * k + off) n s
  | .watch w => setWatch w ((watchSt s w).bump off n) s

/-- DEAD_MAX takes a new length. -/
def bumpMax (u : UnitId) (len : Nat) (s : State) : State :=
  let v := Nat.min (2 ^ 32 - 1) len
  match u with
  | .unit k =>
    let a := 0xD0838 + 0x40 * k
    let s := if (hw s a).toNat < v then setHw a (wd v) s else s
    if cnt64 s (unitAt k + 0x60) < len then setCnt64 (unitAt k + 0x60) len s else s
  | .watch w =>
    let x := watchSt s w
    if x.stat.deadMax < v then setWatch w { x with stat := { x.stat with deadMax := v } } s else s

/-! ### Holdoff, dead time and re-arming (R234 to R236) -/

/-- UNIT_RE_ARM: with its holdoff over and its allocation accepted a unit is re-armed, and its dead-time interval
closes (R235, R236). -/
def rearm (u : UnitId) (s : State) : State :=
  let x := wst s u
  match x.deadOpen with
  | none => s
  | some t0 =>
    if decide (x.hold = .none) && (!captures (cfg s) u || (x.post.isNone && decide (x.alloc = .accepted))) then
      let len := streamClocks s - t0
      let s := setWst u { x with deadOpen := none, missed := 0, deadLast := len, missedLast := Nat.min (2 ^ 32 - 1) x.missed,
                                 sumSince := x.sumSince + len, missSince := x.missSince + x.missed } s
      let s := bumpMax u len (bump u 0x30 1 (bump u 0x28 len s))
      match u with
      | .unit k => setHw (unitAt k + 0x70) (wd (Nat.min (2 ^ 32 - 1) x.missed)) (setCnt64 (unitAt k + 0x68) len s)
      | .watch _ => s
    else s

/-- A dead-time interval opens, where none is open. -/
def openDead (u : UnitId) (s : State) : State :=
  let x := wst s u
  if x.deadOpen.isSome then s else setWst u { x with deadOpen := some (streamClocks s), missed := 0 } s

/-- A holdoff has run out: for a unit that captures it still lasts while the post-trigger window does (R234, R235). -/
def endHold (u : UnitId) (s : State) : State :=
  let x := wst s u
  if captures (cfg s) u && x.post.isSome then setWst u { x with hold := .conds 0 } s
  else rearm u (setWst u { x with hold := .none } s)

/-- The holdoff that a fire starts; `at` is the count of the unit's clock at the fire (R234). -/
def startHold (u : UnitId) (clk : Nat) (capture : Bool) (s : State) : State :=
  let (h, conds) := holdoffOf (cfg s) u
  let hold : Hold :=
    if h = 0 then (if capture then .conds 0 else .none)
    else if conds then .conds h else .until (clk + h)
  setWst u { wst s u with hold := hold } s

/-- A time holdoff that ends at or before a count of the unit's clock is over. -/
def holdPast (u : UnitId) (clk : Nat) (s : State) : State :=
  match (wst s u).hold with
  | .until t => if t ≤ clk then endHold u s else s
  | _ => s

/-- A condition suppressed by the holdoff uses one of those it counts. -/
def useHold (u : UnitId) (s : State) : State :=
  let x := wst s u
  match x.hold with
  | .conds (n + 1) => if n = 0 then endHold u s else setWst u { x with hold := .conds n } s
  | _ => s

/-- A unit asks Cistern for its next allocation (R235). -/
def askAlloc (u : UnitId) (s : State) : State := setWst u { wst s u with alloc := .asked } s

/-! ### Firing (R233, R238 to R240) -/

/-- Captures are suspended: under R52, under R84, or by R247 for this unit. -/
def capSuspended (s : State) (u : UnitId) : Bool :=
  (s.sealing.mismatch && decide (2 ≤ cfgF s 0x14 0 2)) || (s.pwr.coverage && cfgB s 0xF0000 24) || (wst s u).suspended

/-- What a condition comes to: whether the unit fires, whether with REFUSED, and its part in a capture. -/
structure Shoot where
  unit    : UnitId
  fires   : Bool
  refused : Bool
  capture : Option Fire
  t       : Int
  frac    : Nat
  place   : Nat
  flags   : Nat
  chan    : Nat
  stamp   : Stamp
  tqb     : Byte
  deriving DecidableEq, Repr

/-- A condition met: it enters exactly one ledger term, and the unit fires or not (R233). `f` is its part in a capture
and `clk` the count of its clock. -/
def condMet (clk : Nat) (f : Fire) (place flags chan : Nat) (s : State) : Shoot × State :=
  let u := f.unit
  let m := cfg s
  let s := holdPast u clk (bump u 0 1 s)
  let x := wst s u
  let s := if x.deadOpen.isSome then setWst u { x with missed := x.missed + 1 } s else s
  let x := wst s u
  let sh : Shoot := { unit := u, fires := false, refused := false, capture := none, t := f.u / 256, frac := (f.u % 256).toNat,
                      place := place, flags := flags, chan := chan, stamp := f.stamp, tqb := f.tqb }
  if x.hold ≠ .none then (sh, useHold u (bump u 0x10 1 s))
  else if captures m u && (capSuspended s u || decide (x.alloc = .refused)) then
    let s := startHold u clk false (openDead u (bump u 0x20 1 s))
    let s := match u with
      | .unit k => raise (unitAt k + 0x40) 1 s
      | .watch _ => s
    ({ sh with fires := true, refused := true }, rearm u s)
  else if captures m u && decide (x.alloc ≠ .accepted) then (sh, bump u 0x18 1 s)
  else if captures m u then
    let f := { f with dead := x.sumSince, missed := x.missSince }
    let s := setWst u { x with sumSince := 0, missSince := 0 } (bump u 8 1 s)
    ({ sh with fires := true, capture := some f }, startHold u clk true s)
  else
    let s := startHold u clk false (openDead u (bump u 8 1 s))
    ({ sh with fires := true }, rearm u s)

/-- The Weir alarm is set by a fire, and the PULSE_MS of pulse mode begin again (R240). -/
def setAlarm (u : UnitId) (s : State) : State :=
  let s := timerSet tmAlarm 0 (msTicks * Nat.max 1 (cfgF s 0x61010 16 16)) s
  if s.weir.alarm then s
  else
    let src := match u with | .unit k => k | .watch w => w + 65536
    raise 0x61040 0 (setHw 0x61044 (wd src) { s with weir := { s.weir with alarm := true, alarmSrc := src } })

/-- The Weir alarm clears. -/
def clearAlarm (s : State) : State :=
  if s.weir.alarm then raise 0x61040 1 { s with weir := { s.weir with alarm := false } } else s

/-- WIDTH of a TRIG_OUT pin in TIU clock periods, rounded up; 0 is treated as 1 stream clock (R239, R241). -/
def trigTicks (s : State) (k : Nat) : Nat :=
  ceilDiv (16000 * Nat.max 1 (cfgF s (0x61000 + 4 * k) 0 16)) (samplePace (cfg s))

/-- The level of a TRIG_OUT ball: `Pins.trigOut` holds whether a pulse is asserted, which ACTIVE_LOW inverts after READY;
before it the ball is low (R69, R239). -/
def trigLevel (s : State) (k : Nat) : Bool := s.pins.ready && (s.pins.trigOut.getLsbD k != cfgB s (0x61000 + 4 * k) 16)

/-- A TRIG_OUT pin is fired: a pulse begins, or its width starts again (R239). -/
def pulsePin (k : Nat) (s : State) : State :=
  let s := timerSet tmTrig k (trigTicks s k) s
  if s.pins.trigOut.getLsbD k then s
  else addCnt (0x610A0 + 4 * k) 1 { s with pins := { s.pins with trigOut := s.pins.trigOut ||| BitVec.ofNat 4 (2 ^ k) } }

/-- The event of a fire (R420, R421). -/
def fireEvent (h : Shoot) (s : State) : State :=
  let x := wst s h.unit
  let seg := match h.capture with | some _ => x.post.getD 0 | none => 0
  let tag := match h.unit with | .watch w => (watchWord (cfg s) w 0x38).toNat | .unit _ => 0
  let code := match h.unit with | .watch _ => 0x1001 | .unit _ => 0x1000
  sendEvent 6 { code := code, src := unitNo h.unit, stamp := h.stamp, tqb := h.tqb, eflags := if h.refused then 4 else 0,
                tag := tag, flags := h.flags,
                body := le 8 seg ++ le 8 (twos 64 h.t) ++ le 1 h.frac ++ le 1 h.place ++ le 2 0 ++ le 4 h.flags ++ le 8 x.deadLast
                  ++ le 4 x.missedLast ++ le 4 h.chan } s

/-- What a fire leaves in the unit's registers. -/
def noteFire (h : Shoot) (s : State) : State :=
  let s := setWst h.unit { wst s h.unit with lastT := twos 64 h.t, lastF := h.frac } s
  match h.unit with
  | .unit k => raise (unitAt k + 0x40) 0 (setHw (unitAt k + 0x50) (wd h.frac) (setCnt64 (unitAt k + 0x48) (twos 64 h.t) s))
  | .watch _ => s

/-- Units that fired on one sample or tap sample: segments by region first, then the actions, each pin and the alarm
once (R238). -/
def fireAll (l : List Shoot) (s : State) : State :=
  let m := cfg s
  let fs := l.filter (·.fires)
  let caps := fs.filterMap (·.capture)
  let s := each (List.range 64) (fun r s =>
    let here := caps.filter fun f => decide (holdRegion s f.unit = r)
    if here = [] then s else segmentOpen r here s) s
  let s := each fs noteFire s
  let s := each (fs.filter fun h => wantsEvent m h.unit) fireEvent s
  let s := match fs.find? fun h => wantsAlarm m h.unit with
    | some h => setAlarm h.unit s
    | none => s
  each (List.range 4) (fun k s => if fs.any fun h => decide (wantsTrig m h.unit = some k) then pulsePin k s else s) s

/-! ### Lane trigger units (R222 to R224) -/

/-- A start of the unit's comparators: they take their state from the next sample (R217, R223). -/
def restartUnit (u : Nat) (s : State) : State := setUnit u { unitSt s u with cond := {} } s

/-- A start of the sample clock restarts every armed unit whose SOURCE is LANE (R223). -/
def restartLaneUnits (s : State) : State :=
  each (List.range 8) (fun u s => if (unitSt s u).armed && decide (unitSource (cfg s) u = 0) then restartUnit u s else s) s

/-- A lane trigger unit is armed (R223, R235). -/
def armUnit (u : Nat) (s : State) : State :=
  if (unitSt s u).armed then s
  else
    let s := restartUnit u (setUnit u { unitSt s u with armed := true, force := false, tins := [] } s)
    if captures (cfg s) (.unit u) then askAlloc (.unit u) s else s

/-- A lane trigger unit is disarmed; its allocation returns to the region (R223, R246). -/
def disarmUnit (u : Nat) (s : State) : State :=
  if (unitSt s u).armed then returnAlloc (.unit u) (setUnit u { unitSt s u with armed := false, force := false, tins := [] } s) else s

/-- The device disarms a unit, with an event (R223). -/
def deviceDisarm (u : Nat) (s : State) : State :=
  if (unitSt s u).armed then raise (unitAt u + 0x40) 2 (disarmUnit u s) else s

/-- The stamp of an instant on the lane's sample grid (R166, R224). -/
def laneStamp (s : State) (u : Int) : Stamp :=
  let k := 256 * lps (cfg s)
  timeOfPos s (s.cnv.base * k + 4000 * u) k

/-- A unit's part in a capture at an instant (R224). -/
def unitFire (s : State) (u : Nat) (at256 : Int) : Fire :=
  let m := cfg s
  { unit := .unit u, u := at256, stamp := laneStamp s at256, tqb := tqb s, dead := 0, missed := 0,
    layout := { watch := false, raw := true, lanes := capLanes m u, first := at256 / 256 - (unitPre m u : Nat), pre := unitPre m u,
                post := unitPost m u } }

/-- An edge that a TIU channel stamps is a condition of the armed units whose TIN it is: the stamp becomes a lane instant on
the relation of R166 (R222). -/
def tinEdge (c : Nat) (t : Stamp) (s : State) : State :=
  let m := cfg s
  let k := 256 * lps m
  let u := rhe (posOfTime s t k - (s.cnv.base * k : Nat)) 4000
  each (List.range 8) (fun n s =>
    if (unitSt s n).armed && decide (unitSource m n = 1 ∧ unitTin m n + 5 = c) then
      setUnit n { unitSt s n with tins := (unitSt s n).tins ++ [u] } s
    else s) s

/-- The lane sample indices restart: instants of TIN edges that wait count from the new start, `old` and `new` being the
positions of the sample clock from which they count (R219). -/
def tinsShift (old new : Nat) (s : State) : State :=
  let d := 256 * (((new - old) / 4000 * lps (cfg s) : Nat) : Int)
  each (List.range 8) (fun n s =>
    if (unitSt s n).tins = [] then s else setUnit n { unitSt s n with tins := (unitSt s n).tins.map (· - d) } s) s

/-- The conditions a unit meets on lane sample `i` of the lanes given: instants in order (R221, R222). A TIN edge is met on
the first sample at or after its instant (DEDUCED: log 207). -/
def unitConds (u : Nat) (i : Nat) (xs : List (Nat × Int)) (s : State) : State × List Int :=
  let m := cfg s
  let x := unitSt s u
  if !x.armed then (s, [])
  else
    let own := xs.find? fun e => decide (e.1 = ownLane m u)
    let (s, forced) := if x.force && own.isSome then (setUnit u { x with force := false } s, [(256 * i : Int)]) else (s, [])
    match unitSource m u with
    | 0 => match own with
      | some e =>
        let x := unitSt s u
        let (d, met) := condStep (unitCond m u) i e.2 x.cond
        (setUnit u { x with cond := d } s, forced ++ met.toList)
      | none => (s, forced)
    | 1 =>
      let x := unitSt s u
      let due (t : Int) : Bool := decide (t ≤ 256 * (i : Nat))
      (setUnit u { x with tins := x.tins.filter fun t => !due t } s, forced ++ x.tins.filter due)
    | _ => (s, forced)

/-- The conditions of one unit at a sample come to what R233 says; RAW Pool engines take every instant (R225). -/
def unitShoots (u : Nat) (spc : Nat) (l : List Int) (s : State) : List Shoot × State :=
  l.foldl (fun (acc : List Shoot × State) at256 =>
    let s := acc.2
    let f := unitFire s u at256
    let s := poolTrigger u (at256 / 256) (at256 % 256).toNat f.stamp f.tqb s
    let (h, s) := condMet ((at256 / 256).toNat / spc) f (ownLane (cfg s) u) (createFlags s) 0 s
    (acc.1 ++ [h], s)) ([], s)

/-- LANE_TRIGGER_CONDITION: lane sample index `i` with the samples of the lanes that carry one (lane, value): every armed
unit evaluates it, and what is met fires together (R217 to R224, R233, R238). -/
def execLaneTriggerCondition (i : Nat) (xs : List (Nat × Int)) : State → Host.Outcome State Fault Refusal := run fun s =>
  if s.clk.stopped then s
  else
    let spc := 4 * lps (cfg s)
    let (shoots, s) := (List.range 8).foldl (fun (acc : List Shoot × State) u =>
      let (s, l) := unitConds u i xs acc.2
      let (hs, s) := unitShoots u spc l (if l = [] then s else rill (72 + u) l.length s)
      (acc.1 ++ hs, s)) ([], s)
    fireAll shoots s

/-! ### Watches (R226 to R230) -/

/-- A watch is active (R227). -/
def watchActive (s : State) (w : Nat) : Bool :=
  let m := cfg s
  watchOn m w && (lch s (watchFibre m w)).armed && decide (fpMode m (watchFibre m w) ≠ 0)

/-- The value a watch takes of a channel's tap sample (R226). -/
def watchValue (m : Nat → Word) (w : Nat) (t : TapSample) (v : List Int) : Int :=
  let x := if t.tap = 0 then v.getD (watchProduct m w) 0
    else if t.pair then v.getD (if bit (watchWord m w 0) 9 then 0 else 1) 0 else v.getD 0 0
  if unsignedProduct (watchProduct m w) then (twos 32 x : Nat) else x

/-- One channel of a watch takes a tap sample: its instant where it completes. -/
def watchChannel (m : Nat → Word) (w : Nat) (t : TapSample) (restart : Bool) (x : Weir) (ch : Nat) : Weir × Option Int :=
  if decide (ch ∈ t.gaps) then ({ x with chans := smPut {} ch {} x.chans }, none)
  else
    let d : Cond := if restart then {} else smGet {} ch x.chans
    let (d, met) := condStep (watchCond m w) t.index (watchValue m w t (t.values.getD ch [])) d
    ({ x with chans := smPut {} ch d x.chans }, if restart then none else met)

/-- Every channel of a watch's zone takes a tap sample: those that complete, with their instants, in channel order. -/
def watchChannels (m : Nat → Word) (w : Nat) (t : TapSample) (restart : Bool) (x : Weir) : Weir × List (Nat × Int) :=
  (List.range (watchCount m w)).foldl (fun (acc : Weir × List (Nat × Int)) i =>
    let ch := watchFirst m w + i
    let (x, met) := watchChannel m w t restart acc.1 ch
    (x, match met with | some u => acc.2 ++ [(ch, u)] | none => acc.2)) (x, [])

/-- Whether a channel has completed within the last WINDOW tap samples. -/
def markedIn (x : Weir) (j win ch : Nat) : Bool :=
  match smFind ch x.marks with
  | some k => decide (j < k + win)
  | none => false

/-- The length of the run of marked channels upward from a channel, and downward. -/
def runUp (x : Weir) (j win : Nat) : Nat → Nat → Nat
  | 0, _ => 0
  | n + 1, ch => if markedIn x j win ch then 1 + runUp x j win n (ch + 1) else 0

/-- The length of the run of marked channels downward, at most to `lo`. -/
def runDown (x : Weir) (j win lo : Nat) : Nat → Nat → Nat
  | 0, _ => 0
  | n + 1, ch => if lo ≤ ch ∧ markedIn x j win ch then (if ch = 0 then 1 else 1 + runDown x j win lo n (ch - 1)) else 0

/-- The channels that complete on `j` and take part in the watch's condition; none where it is not met (R228). -/
def completing (m : Nat → Word) (w j : Nat) (x : Weir) (done : List (Nat × Int)) : List (Nat × Int) :=
  let win := watchWindow m w
  let k := watchK m w
  let first := watchFirst m w
  let n := watchCount m w
  match watchCombine m w with
  | 1 => if k ≤ ((List.range n).filter fun i => markedIn x j win (first + i)).length then done else []
  | 2 => done.filter fun (ch, _) =>
      decide (k ≤ runUp x j win (first + n - ch) ch + (if ch = first then 0 else runDown x j win first n (ch - 1)))
  | _ => done

/-- The earliest of some instants, the lower channel on a tie. -/
def earliest : List (Nat × Int) → Option (Nat × Int)
  | [] => none
  | e :: es => match earliest es with
    | some f => if f.2 < e.2 then some f else some e
    | none => some e

/-- STAMP of a tap sample by its INDEX, from those kept (R204); one not kept is taken as the newest. -/
def logStamp (l : List (Nat × Stamp)) (q : Int) : Stamp :=
  match l.find? fun e => decide ((e.1 : Int) = q) with
  | some e => e.2
  | none => (l.headD (0, 0)).2

/-- The device time of a watch's instant (R229): STAMP(q), and the part of the way to STAMP(q + 1) that `r` tells. -/
def tapStamp (l : List (Nat × Stamp)) (u : Int) : Stamp :=
  let q := u / 256
  let r := u % 256
  let a := logStamp l q
  if r = 0 then a else ((a : Int) + rhe (r * ((logStamp l (q + 1) : Int) - a)) 256).toNat

/-- A watch evaluates a tap sample: the fire it comes to, if its condition is met. -/
def watchTake (w : Nat) (t : TapSample) (l : List (Nat × Stamp)) (s : State) : State × List Shoot :=
  let m := cfg s
  let p := watchFibre m w
  let restart := nbit t.attr.flags 9 || nbit t.attr.flags 20
  let s := holdPast (.watch w) t.index s
  let (x, done) := watchChannels m w t restart (watchSt s w)
  let x := { x with marks := done.foldl (fun a (ch, _) => smIns ch t.index a) x.marks, seenShot := t.attr.last + 1 }
  match earliest (completing m w t.index x done) with
  | none => (setWatch w x s, [])
  | some (ch, u) =>
    let s := setWatch w { x with marks := [] } s
    let f : Fire := { unit := .watch w, u := u, stamp := tapStamp l u, tqb := t.attr.tqb, dead := 0, missed := 0,
                      layout := watchLayout m w t.attr.last 0 }
    let fl := (t.attr.flags % 16) ||| createFlags s ||| (if s.weir.degraded.getLsbD p then 8 else 0)
    let (h, s) := condMet t.index f p fl ch s
    (s, [{ h with t := t.index, frac := (u % 256).toNat }])

/-- Once a disarmed port has no shot left to process and no tap sample left to evaluate, the allocations of its watches
return to their regions (R227, R246). -/
def watchesSettle (p : Nat) (s : State) : State :=
  if !(lch s p).armed && decide ((lch s p).shots = []) && decide ((csc s p).queue = []) then
    each ((enabledWatches s.regs.active).filter fun w => decide (watchFibre (cfg s) w = p)) (fun w s => returnAlloc (.watch w) s) s
  else s

/-- The key of the last tap sample of a port and tap. -/
def tapKey (p tap : Nat) : Nat := 8 * p + tap

/-- The watch engine of a fibre port takes the oldest tap sample that waits, evaluates it for every watch at its tap that is
active or was when its shots were launched, and fires what is met (R227 to R232, R238). A port over its limit evaluates a
tap sample for every watch or for none. -/
def watchStep (p : Nat) (s : State) : State :=
  match (csc s p).queue with
  | [] => s
  | t :: ts =>
    let s := setCsc p { csc s p with queue := ts } s
    let m := cfg s
    let tooMuch := fOver (weirDemand m (enabledWatches s.regs.active) p) (weirLimit s p, 1)
    let (f, s') := freeNext s
    let (skip, s) := if tooMuch then (decide (f % 2 = 1), s') else (false, s)
    let l := (t.index, t.attr.stamp) :: smGet [] (tapKey p t.tap) s.weir.tapLog
    let keep (l : List (Nat × Stamp)) (s : State) : State :=
      { s with weir := { s.weir with tapLog := smIns (tapKey p t.tap) l s.weir.tapLog } }
    let s := keep (if skip then l else l.take 1) s
    if skip then
      raise 0x61040 5 (addHold (0x6105C + 0x10 * p) 1
        { s with weir := { s.weir with degraded := s.weir.degraded ||| BitVec.ofNat 4 (2 ^ p) } })
    else
      let ws := (enabledWatches s.regs.active).filter fun w => decide (watchFibre m w = p) && decide (watchTap m w = t.tap)
      let (s, shoots) := ws.foldl (fun (acc : State × List Shoot) w =>
        let x := watchSt acc.1 w
        let (s, h) := if t.index < x.since ∨ t.attr.last < x.sinceShot then (acc.1, []) else watchTake w t l acc.1
        (s, acc.2 ++ h)) (s, [])
      watchesSettle p (fireAll shoots s)

/-- WATCH_CONDITION: a tap sample of a fibre port is evaluated. -/
def execWatchCondition (port : Fin 4) : State → Host.Outcome State Fault Refusal := run (watchStep port)

/-- Every tap sample emitted before a strobe is evaluated under the watches as they stand: a change takes effect at the
first sample emitted after it (R232). -/
def watchesDrain (s : State) : State :=
  each (List.range 4) (fun p s => each (csc s p).queue (fun _ => watchStep p) s) s

/-- A watch that is added or changed at a strobe takes effect with the next sample of its tap: it starts its channels and
clears its marks, and keeps the rest. One added while its port is disarmed takes no tap sample of shots launched before
(R227, R232). -/
def restartWatch (added : Bool) (w : Nat) (s : State) : State :=
  let x := watchSt s w
  let p := watchFibre (cfg s) w
  let next := smGet 0 (watchTap (cfg s) w) (csc s p).index
  let shot := if !added then x.sinceShot else if watchActive s w then 0 else (lch s p).nextIndex
  setWatch w { x with chans := [], marks := [], since := next, sinceShot := shot } s

/-- A removed watch: an open interval ends unreported and its allocation returns (R232). -/
def removeWatch (w : Nat) (s : State) : State :=
  let s := returnAlloc (.watch w) s
  setWatch w { watchSt s w with chans := [], marks := [], deadOpen := none, missed := 0, hold := .none } s

/-- Watches that become active ask for their first allocation (R235). -/
def watchesStart (p : Nat) (s : State) : State :=
  each (enabledWatches s.regs.active) (fun w s =>
    if decide (watchFibre (cfg s) w = p) && watchActive s w then
      if captures (cfg s) (.watch w) && decide ((watchSt s w).alloc = .none) && (watchSt s w).post.isNone then askAlloc (.watch w) s else s
    else s) s

/-- The watches of a fibre port that is disabled are suspended (R232). -/
def watchesStop (p : Nat) (s : State) : State :=
  let ws := (enabledWatches s.regs.active).filter fun w => decide (watchFibre (cfg s) w = p)
  raiseIf (decide (ws ≠ [])) 0x61040 4 (watchesSettle p s)

/-! ### Events of a unit in motion -/

/-- Whether a unit still takes part: an armed lane trigger unit, an active watch. -/
def inService (s : State) : UnitId → Bool
  | .unit u => (unitSt s u).armed
  | .watch w => watchActive s w

/-- Whether the count of a unit's clock has reached a value: stream clocks, measured on the stream count, or tap samples
emitted, those before it evaluated (R234). -/
def clockPast (s : State) (u : UnitId) (t : Nat) : Bool :=
  match u with
  | .unit _ => decide (t ≤ (s.cnt.str - s.cnv.strBase) / 16000)
  | .watch w =>
    let x := csc s (watchFibre (cfg s) w)
    let tap := watchTap (cfg s) w
    decide (t < smGet 0 tap x.index) && x.queue.all fun e => decide (e.tap ≠ tap ∨ t ≤ e.index)

/-- HOLDOFF_EXPIRY: the time of a holdoff has passed (R234). -/
def execHoldoffExpiry (u : UnitId) : State → Host.Outcome State Fault Refusal := run fun s =>
  match (wst s u).hold with
  | .until t => if clockPast s u t then endHold u s else s
  | _ => s

/-- Whether the post-trigger window of a unit has ended: its last lane sample is digitised, or a stop of the sample clock
has cut it (`postEnd` then stands at the stop); for a watch, it has evaluated a tap sample at or after its last shot, or its
disarmed port has no shot and no tap sample left (R224, R230, R263). -/
def windowDone (s : State) (u : UnitId) : Bool :=
  let x := wst s u
  match u with
  | .unit _ => decide (x.postEnd ≤ s.cnt.smp)
  | .watch w =>
    let p := watchFibre (cfg s) w
    decide (x.postEnd ≤ x.seenShot) || (!(lch s p).armed && decide ((lch s p).shots = []) && decide ((csc s p).queue = []))

/-- POST_WINDOW_END: the post-trigger window of a unit ends; its dead-time interval opens and it asks for its next
allocation (R230, R235, R236). -/
def execPostWindowEnd (u : UnitId) : State → Host.Outcome State Fault Refusal := run fun s =>
  let x := wst s u
  match x.post with
  | none => s
  | some id =>
    if !windowDone s u then s
    else
      let s := setWst u { x with post := none, hold := if x.hold = .conds 0 then .none else x.hold } s
      let s := if windowOpenOn s id then s else mapSeg id (fun g => { g with ended := now s }) s
      if inService s u then
        let s := openDead u s
        rearm u (if captures (cfg s) u && decide ((wst s u).alloc = .none) then askAlloc u s else s)
      else s

/-- ALLOCATION_ANSWER: Cistern places an extent of A_u bytes for a unit that has asked, or refuses (R252). While a
memory PLL the placement would write to is out, the request waits (R270). -/
def execAllocationAnswer (u : UnitId) : State → Host.Outcome State Fault Refusal := run fun s =>
  let x := wst s u
  let m := cfg s
  let r := regionOf m u
  if (x.alloc = .asked ∨ x.alloc = .refused) ∧ regionOn m r ∧ dramUp s (dirBase m) 64 then
    let n := ownSize m u
    match (if slotsFree s = 0 then none else placeAt s r n) with
    | some a =>
      let taken := (segsIn s r).filter fun g => takeable s g && meets a n g.base g.len
      if !dramUp s a n || taken.any (fun g => !dramUp s (slotAt s g.slot) 64) then s
      else
        let s := clearRange r a n s
        let y := region s r
        let s := setRegion r { y with allocs := y.allocs ++ [{ unit := u, base := a, len := n }],
                                      write := (a + n - regionBase m r) % regionSize m r } s
        rearm u (setWst u { wst s u with alloc := .accepted } s)
    | none =>
      let s := setWst u { x with alloc := .refused } s
      let s := raiseIf (decide (slotsFree s = 0)) 0x70040 2 s
      raiseIf (stopFull m r) (cisR r 0xC) 4 s
  else s

/-- TRIG_OUT_PULSE_END: the width of a pulse has passed (R239). -/
def execTrigOutPulseEnd (pin : Fin 4) : State → Host.Outcome State Fault Refusal := run fun s =>
  if timerDue s tmTrig pin then
    timerStop tmTrig pin { s with pins := { s.pins with trigOut := s.pins.trigOut &&& ~~~(BitVec.ofNat 4 (2 ^ pin.val)) } }
  else s

/-- ALARM_PULSE_END: in pulse mode the Weir alarm clears PULSE_MS after the last fire that set it (R240). -/
def execAlarmPulseEnd : State → Host.Outcome State Fault Refusal := run fun s =>
  if cfgB s 0x61010 0 && timerDue s tmAlarm 0 then clearAlarm s else s

/-- EVAL_LANE_CHECK: what the third evaluation says of a lane and of the spare that checked it (R231). The one that
disagrees is retired; with no spare left the engine and its limit shrink. -/
def execEvalLaneCheck (port : Fin 4) (lane : Nat) (laneOk spareOk : Bool) : State → Host.Outcome State Fault Refusal :=
  run fun s =>
  let p := port.val
  let (lost, used) := (smGet (0, 0) p s.weir.lanes : Nat × Nat)
  let put (v : Nat × Nat) (s : State) : State := { s with weir := { s.weir with lanes := smPut (0, 0) p v s.weir.lanes } }
  if 18 ≤ lane then s
  else if !laneOk then
    let s := wearAdd 9 1 0 (p + 4 * lane) s
    if used < 2 then raise 0x61040 2 (put (lost, used + 1) s)
    else if lost < 16 then budgetCheck (raise 0x61040 3 (put (lost + 1, used) s))
    else s
  else if !spareOk && decide (used < 2) then put (lost, used + 1) (wearAdd 9 1 0 (p + 4 * (16 + used)) s)
  else s

/-- The STATE word of a unit or watch (R241, R243): DISARMED, ARMED, CAPTURING, DEAD, REFUSING or SUSPENDED, whether its
holdoff runs and whether the watch is active. -/
def weirState (s : State) (u : UnitId) : Nat :=
  let x := wst s u
  let armed := match u with | .unit k => (unitSt s k).armed | .watch w => watchActive s w
  let on := match u with | .unit _ => true | .watch w => watchOn (cfg s) w
  let code :=
    if x.post.isSome then 2
    else if !armed then (match u with | .unit _ => 0 | .watch _ => if on then 5 else 0)
    else if captures (cfg s) u && (capSuspended s u || decide (x.alloc = .refused)) then 4
    else if x.deadOpen.isSome || (captures (cfg s) u && decide (x.alloc ≠ .accepted)) then 3
    else 1
  let active := match u with | .unit _ => false | .watch w => watchActive s w
  code + (if x.hold = .none then 0 else 8) + (if active then 16 else 0)

/-- The 64 bytes of a status record (R243). -/
def statusBytes (t : Status) : List Byte :=
  le 8 t.met ++ le 8 t.started ++ le 8 t.holdoff ++ le 8 t.dead ++ le 8 t.capacity ++ le 8 t.deadSum ++ le 8 t.deadCount
    ++ le 4 t.deadMax ++ le 4 t.state

/-- The status record of a watch as it stands. -/
def watchStatus (s : State) (w : Nat) : Status := { (watchSt s w).stat with state := weirState s (.watch w) }

/-- WATCH_STATUS: the status records of watches FIRST to FIRST + COUNT − 1 (R243, R388). -/
def execWatchStatus (ses first count : Nat) : State → Host.Outcome State Fault Refusal := run fun s =>
  hostCmd ses 0x0300 true (decide (1 ≤ count ∧ count ≤ 128 ∧ first + count ≤ 16384)) (64 * count) (fun s =>
    answer ses 0x0300 stOK ((List.range count).flatMap fun i => statusBytes (watchStatus s (first + i))) s) s

end Sys2Proof.Machine
end

