-- ==== Sys2Proof/Machine/TimeBase.lean ====
section
/-!
DEFINITION. The device time base (R104 to R112): the state of device time, steps and the servo, the backup accumulator,
PTP as an ordinary clock (R346), PPS_OUT, leap seconds and the time commands (R109).
-/

namespace Sys2Proof.Machine

/-! ### Settings (R113) -/

/-- SOURCE: 0 FREE, 1 PTP, 2 PPS; 3 is treated as FREE. -/
def tbSource (m : Nat → Word) : Nat := if fld (m 0x10100) 0 2 = 3 then 0 else fld (m 0x10100) 0 2

/-- TAU_S, 0 treated as 1. -/
def tauS (m : Nat → Word) : Nat := Nat.max 1 (fld (m 0x10100) 16 8)

/-- STEP_LIMIT in 2^-8 ns, 0 treated as 1 ns. -/
def stepLimit (m : Nat → Word) : Nat := 256 * Nat.max 1 (m 0x10104).toNat

/-- LOCK_NS in 2^-8 ns. -/
def lockLimit (m : Nat → Word) : Nat := 256 * fld (m 0x10108) 0 16

/-- SLEW_PPM in units of F (R104): 1 ppm of 2 ns in 2^-40 ns. -/
def slewLimit (m : Nat → Word) : Nat := clampN 1 500 (fld (m 0x10108) 16 10) * 2 ^ 41 / 1000000

/-- The limit of F, 500 ppm (R104). -/
abbrev freqLimit : Int := 1099511628

/-- A signed 32-bit register takes a value; one outside its range leaves a value that the spec does not state. -/
def putSigned32 (a : Nat) (v : Int) (s : State) : State :=
  if -(2 ^ 31) ≤ v ∧ v < 2 ^ 31 then setHw a (wd (twos 32 v)) s
  else
    let (f, s) := freeNext s
    setHw a (wd f) s

/-! ### The state of device time (R106, R107) -/

/-- The mean of F over the last 64 s (R107): each value weighted by the ticks it held, newest first; `till` is the tick
up to which the first one held and `left` the ticks still to cover. -/
def freqSum (till left : Nat) : List (Nat × Int) → Int × Nat
  | [] => (0, 0)
  | (t, f) :: l =>
    let n := Nat.min left (till - t)
    let (a, k) := freqSum t (left - n) l
    (f * (n : Nat) + a, n + k)

/-- 64 s in ticks of 2 ns. -/
abbrev histTicks := 32000000000

/-- The mean of F over the last 64 s, or since reset where that is shorter. -/
def freqMean (s : State) : Int :=
  let (a, n) := freqSum s.cnt.ticks histTicks (s.tb.freqHist ++ [(0, 0)])
  if n = 0 then s.tb.freq else rhe a n

/-- The values of F that the last 64 s still need. -/
def freqTrim (now : Nat) : List (Nat × Int) → List (Nat × Int)
  | [] => []
  | (t, f) :: l => if t + histTicks ≤ now then [(t, f)] else (t, f) :: freqTrim now l

/-- F takes a value, within ±500 ppm, in both accumulators (R104, R105). -/
def setFreq (f : Int) (s : State) : State :=
  let v := clampI (-freqLimit) freqLimit f
  let hist := freqTrim s.cnt.ticks ((s.cnt.ticks, v) :: s.tb.freqHist)
  rill 109 1 { s with tb := { s.tb with freq := v, backStep := (2 ^ 49 + v * 2 ^ 8).toNat, freqHist := hist } }

/-- Device time has become valid: the ledger epoch keeps the first instant (R422). -/
def noteValid (s : State) : State :=
  if s.lgr.epochSet ∨ s.tb.state = .unset then s
  else setStamp 0xD0008 (now s) { s with lgr := { s.lgr with epochSet := true } }

/-- The state moves, with its event (R107, R113). -/
def setTbState (x : TbState) (s : State) : State :=
  let s := { s with tb := { s.tb with state := x, lockCount := 0 } }
  match x with
  | .locked => raise 0x10140 2 s
  | .holdover =>
    timerSet tmHoldover 0 (1000 * cfgF s 0x1010C 0 24 * msTicks)
      (raise 0x10140 5 (raise 0x10140 3 (setFreq (freqMean s) { s with tb := { s.tb with source := 0 } })))
  | .freerun => raise 0x10140 4 { s with tb := { s.tb with source := 0 } }
  | _ => s

/-- The state after a measurement of offset `th`, 2^-8 ns (R107). -/
def tbMeasured (th : Int) (s : State) : State :=
  let lim := lockLimit (cfg s)
  match s.tb.state with
  | .acquiring =>
    if th.natAbs < lim then
      if 15 ≤ s.tb.lockCount then setTbState .locked s
      else { s with tb := { s.tb with lockCount := s.tb.lockCount + 1 } }
    else { s with tb := { s.tb with lockCount := 0 } }
  | .locked => if 4 * lim < th.natAbs then setTbState .acquiring s else s
  | _ => setTbState .acquiring s

/-! ### Steps and the servo (R108) -/

/-- The TAI second of the UTC midnight that follows an announced leap second, from an offset and a device time (R112). -/
def leapSecond (offset sign : Int) (t : Stamp) : Nat :=
  let utc := ((t / second : Nat) : Int) - offset
  ((utc / 86400 + 1) * 86400 + offset + sign).toNat

/-- Device time moves by an amount in 2^-48 ns. An announced leap second is placed at the midnight that follows the new
time. -/
def moveTime (d : Int) (s : State) : State :=
  let s := rill 109 1 { s with tb := { s.tb with acc := ((s.tb.acc : Int) + d).toNat, backAcc := ((s.tb.backAcc : Int) + d).toNat,
                                                 wasSet := true } }
  if s.tb.leapSign = 0 ∨ s.tb.leapDone then s
  else { s with tb := { s.tb with leapAt := leapSecond (sgn 16 (hw s 0x10160).toNat) s.tb.leapSign (now s) } }

/-- A step: the amount in 2^-16 ns and the time before it are logged and counted; `set` is the UNSET case (R108). -/
def stepTime (d : Int) (unset : Bool) (s : State) : State :=
  let before := now s
  let s := moveTime (d * 2 ^ 32) s
  let s := { s with tb := { s.tb with epoch := (s.tb.epoch + 1) % 16 } }
  let s := setStamp 0x10170 before (setCnt64 0x10168 (twos 64 d) (addCnt 0x10164 1 s))
  raise 0x10140 (if unset then 0 else 1) s

/-- OFFSET_MEASUREMENT: a measurement of device time against its source, in 2^-8 ns, steps or slews it. The slew removes the
offset with time constant TAU_S and the frequency error with 4 × TAU_S (R108). -/
def measure (src : Nat) (th : Int) (s : State) : State :=
  let s := putSigned32 0x10154 th { s with tb := { s.tb with source := src } }
  let m := cfg s
  let s := if s.tb.state = .unset then stepTime (-th * 256) true s
    else if stepLimit m ≤ th.natAbs then stepTime (-th * 256) false s
    else
      let lim : Int := (slewLimit m : Nat)
      let corr := Config.servoOffset th (tauS m) + Config.servoFreq th s.tb.freq (4 * tauS m)
      setFreq (s.tb.freq + clampI (-lim) lim corr) s
  noteValid (tbMeasured th (timerSet tmMeas 0 ((if src = 1 then 3000 else 2500) * msTicks) s))

/-- A commit has changed SOURCE (R107): HOLDOVER, or FREERUN where device time runs free and has been set. With PTP_PORT
set to either, PTP starts on P0, or on P1 where that alone has its link. -/
def sourceChanged (s : State) : State :=
  let first := if !(port s 0).up && (port s 1).up then 1 else 0
  let s := { s with ptp := { s.ptp with state := if tbSource (cfg s) = 1 then 4 else 0, master := false, port := first } }
  if tbSource (cfg s) = 0 then (if s.tb.state = .freerun ∨ !s.tb.wasSet then s else noteValid (setTbState .freerun s))
  else if s.tb.state = .acquiring ∨ s.tb.state = .locked then setTbState .holdover s
  else s

/-! ### The backup accumulator (R105) -/

/-- BACKUP_TAKEOVER: the TIU clock has stopped. -/
def backupOn (s : State) : State :=
  if s.tb.backup then s else raise 0x10140 8 { s with tb := { s.tb with backup := true } }

/-- The TIU clock has returned: the primary is reloaded. -/
def backupOff (s : State) : State :=
  if s.tb.backup then raise 0x10140 9 { s with tb := { s.tb with backup := false, acc := s.tb.backAcc } } else s

/-- BACKUP_STEER: every 1 ms the backup is steered to the primary and keeps the step per tick it has learned. Ticks are the
common measure of the model's clocks, so the ratio learned for CORE and for its bypass source is exact (DESIGN CHOICE:
log 203). -/
def execBackupSteer : State → Host.Outcome State Fault Refusal := run fun s =>
  if s.tb.backup ∨ !timerDue s tmSteer 0 then s
  else
    let s := timerGrid tmSteer 0 msTicks s
    { s with tb := { s.tb with backAcc := s.tb.acc, backStep := timePace s } }

/-- HOLDOVER_ENTRY: no accepted measurement for 3 s (PTP) or 2.5 s (PPS) (R107). With PTP_PORT set to either, PTP then
moves from P0 to P1. -/
def execHoldoverEntry : State → Host.Outcome State Fault Refusal := run fun s =>
  if (s.tb.state = .acquiring ∨ s.tb.state = .locked) ∧ timerDue s tmMeas 0 then
    let s := setTbState .holdover s
    if tbSource (cfg s) = 1 ∧ 2 ≤ cfgF s 0x10100 2 2 ∧ s.ptp.port = 0 then
      { s with ptp := { s.ptp with port := 1, state := 4, master := false } }
    else s
  else s

/-- FREERUN_ENTRY: HOLDOVER_S has elapsed (R107). -/
def execFreerunEntry : State → Host.Outcome State Fault Refusal := run fun s =>
  if s.tb.state = .holdover ∧ timerDue s tmHoldover 0 then setTbState .freerun s else s

/-! ### PPS_OUT (R111) -/

/-- Device time, advanced by OUT_ADVANCE, crosses a whole second on the present TIU clock (R111). -/
def crossesSecond (s : State) : Bool :=
  let t : Int := (now s : Int) + sgn 16 (cfgF s 0x10114 16 16) * 65536
  let step : Nat := (if s.tb.backup then s.tb.backStep else timePace s) / 2 ^ 32
  decide ((t - (step : Nat)) / (second : Nat) < t / (second : Nat))

/-- WIDTH_MS; 0 is treated as 1, more than 500 as 500. -/
def ppsWidth (s : State) : Nat := clampN 1 500 (cfgF s 0x10110 8 10)

/-- PPS_OUT_PULSE: PPS_OUT rises as device time crosses a whole second. -/
def execPpsOutPulse : State → Host.Outcome State Fault Refusal := run fun s =>
  let c := cfg s 0x10110
  if bit c 0 && (timeValid s || bit c 1) && crossesSecond s then
    timerSet tmPpsWidth 0 (ppsWidth s * msTicks) { s with pins := { s.pins with ppsOut := true } }
  else s

/-- PPS_OUT_WIDTH_END: WIDTH_MS has passed. -/
def execPpsOutWidthEnd : State → Host.Outcome State Fault Refusal := run fun s =>
  if timerDue s tmPpsWidth 0 then timerStop tmPpsWidth 0 { s with pins := { s.pins with ppsOut := false } } else s

/-! ### UTC (R112) -/

/-- The TAI−UTC offset and the announcements now in force are reported, and an announced leap is placed at the next UTC
midnight. -/
def utcNews (offset : Int) (l61 l59 : Bool) (s : State) : State :=
  let s := setHw 0x10160 (wd (twos 16 offset + (if l61 then 2 ^ 16 else 0) + (if l59 then 2 ^ 17 else 0))) s
  if l61 || l59 then
    let sign : Int := if l61 then 1 else -1
    { s with tb := { s.tb with leapSign := sign, leapDone := false, leapAt := leapSecond offset sign (now s) } }
  else if s.tb.leapDone then s else { s with tb := { s.tb with leapSign := 0 } }

/-- The UTC settings of the active copy take effect where PTP does not give them. -/
def utcFromCfg (s : State) : State :=
  let w := cfg s 0x10118
  if tbSource (cfg s) = 1 then s else utcNews (sgn 16 w.toNat) (bit w 16) (bit w 17) s

/-- LEAP_APPLY: at the UTC midnight of an announced leap second the reported offset changes and the announcement
clears. -/
def execLeapApply : State → Host.Outcome State Fault Refusal := run fun s =>
  if s.tb.leapSign ≠ 0 ∧ ¬ s.tb.leapDone ∧ s.tb.leapAt * second ≤ now s then
    let off := sgn 16 (hw s 0x10160).toNat + s.tb.leapSign
    raise 0x10140 7 (setHw 0x10160 (wd (twos 16 off)) { s with tb := { s.tb with leapDone := true } })
  else s

/-! ### PTP (R107, R346) -/

/-- The port PTP uses: PTP_PORT, or the one in use where it is either. -/
def ptpPort (s : State) : Nat :=
  match cfgF s 0x10100 2 2 with
  | 0 => 0
  | 1 => 1
  | _ => s.ptp.port

/-- P0 has lost its link: with PTP_PORT set to either, PTP moves to P1. -/
def ptpLinkLost (p : Nat) (s : State) : State :=
  if p = 0 ∧ tbSource (cfg s) = 1 ∧ 2 ≤ cfgF s 0x10100 2 2 ∧ s.ptp.port = 0 then
    { s with ptp := { s.ptp with port := 1, state := 4, master := false } }
  else s

/-- A PTP message joins the class-A queue of a port, known by its message type of IEEE 1588-2019. -/
def ptpSend (p typ : Nat) (s : State) : State :=
  let x := port s p
  setPort p { x with classA := x.classA ++ [{ kind := .ptp, dst := 0, bytes := le 1 typ }] } s

/-- The parent clock identity. -/
def ptpParent (s : State) : Nat := cnt64 s 0xA2044

/-- ASYM of a port in 2^-8 ns: what it adds to the offset that the messages show (R347, R370; DEDUCED: log 218). -/
def ptpAsym (s : State) (p : Nat) : Int := 256 * sgn 16 (cfgF s (0xA2008 + 4 * p) 0 16)

/-- The ticks of a PTP interval: a signed log2 of seconds (R370). -/
def ptpTicks (v : Nat) : Nat := let k := sgn 8 v; if k < 0 then secTicks / 2 ^ k.natAbs else secTicks * 2 ^ k.natAbs

/-- PTP_MESSAGE: a received PTP message (R107, R108, R346); with P2P at 1 a delay request is that of the peer. One on the
port not selected is dropped and counted. -/
def execPtpMessage (port : Fin 2) (msg : PtpMsg) : State → Host.Outcome State Fault Refusal := run fun s =>
  if port.val ≠ ptpPort s then addCnt 0xA2050 1 s
  else if tbSource (cfg s) ≠ 1 then s
  else match msg.kind with
    | .announce =>
      if msg.better then
        let fresh := decide (ptpParent s ≠ msg.parent % 2 ^ 64) || !(decide (s.ptp.state = 8) || decide (s.ptp.state = 9))
        let st := if fresh then 8 else s.ptp.state
        let s := { s with ptp := { s.ptp with state := st, master := false } }
        utcNews msg.utc msg.leap61 msg.leap59 (setCnt64 0xA2044 (msg.parent % 2 ^ 64) s)
      else if cfgB s 0x10100 4 then s
      else { s with ptp := { s.ptp with state := 6, master := true } }
    | .delayReq =>
      if cfgB s 0xA2000 2 then (if cfgB s 0xA2000 3 then ptpSend port 3 s else ptpSend port 0xA (ptpSend port 3 s))
      else if s.ptp.master then ptpSend port 9 s
      else s
    | .other => s
    | _ =>
      if ptpParent s ≠ msg.parent % 2 ^ 64 ∨ ¬ (s.ptp.state = 8 ∨ s.ptp.state = 9) then s
      else match msg.offset with
        | none => s
        | some th =>
          let s := { s with ptp := { s.ptp with state := 9 } }
          measure 1 (th - ptpAsym s port) (setCnt 0xA204C msg.delay s)

/-- PTP_SYNC_TX: a master sends Sync, and Follow_Up where ONE_STEP is 0 (R346). -/
def execPtpSyncTx : State → Host.Outcome State Fault Refusal := run fun s =>
  if s.ptp.master ∧ tbSource (cfg s) = 1 ∧ s.ptp.syncAt ≤ s.cnt.ticks then
    let p := ptpPort s
    let due := nextDue s s.ptp.syncAt (ptpTicks (cfgF s 0xA2004 0 8))
    let s := ptpSend p 0 { s with ptp := { s.ptp with syncAt := due } }
    if cfgB s 0xA2000 3 then s else ptpSend p 8 s
  else s

/-- DELAY_REQ_TX: a slave sends its delay request; peer-to-peer with P2P at 1 (R346). -/
def execDelayReqTx : State → Host.Outcome State Fault Refusal := run fun s =>
  if tbSource (cfg s) = 1 ∧ (s.ptp.state = 8 ∨ s.ptp.state = 9) ∧ s.ptp.reqAt ≤ s.cnt.ticks then
    let due := s.cnt.ticks + ptpTicks (cfgF s 0xA2004 16 8)
    ptpSend (ptpPort s) (if cfgB s 0xA2000 2 then 2 else 1) { s with ptp := { s.ptp with reqAt := due } }
  else s

/-- ANNOUNCE_TX: a master sends Announce (R346). -/
def execAnnounceTx : State → Host.Outcome State Fault Refusal := run fun s =>
  if s.ptp.master ∧ tbSource (cfg s) = 1 ∧ s.ptp.annAt ≤ s.cnt.ticks then
    let due := nextDue s s.ptp.annAt (ptpTicks (cfgF s 0xA2004 8 8))
    ptpSend (ptpPort s) 0xB { s with ptp := { s.ptp with annAt := due } }
  else s

/-! ### The time commands (R109) -/

/-- Device time takes a stamp that was to hold at the instant device time read `at'`; where device time was valid this
counts as a step. -/
def takeTime (t at' : Stamp) (s : State) : State :=
  let d : Int := (t : Int) - at'
  if s.tb.state = .unset then
    let s := raise 0x10140 0 (moveTime (d * 2 ^ 32) s)
    noteValid (if tbSource (cfg s) = 0 then setTbState .freerun s else s)
  else stepTime d false s

/-- Sessions whose head command waits for a PPS edge. -/
def timeWaiters (s : State) : List (Nat × Stamp) :=
  s.slc.sessions.filterMap fun (n, x) => match x.wait with | some (.timeSet t) => some (n, t) | _ => none

/-- TIME_SET (R109, R388). -/
def execTimeSet (ses : Nat) (stamp : Stamp) (atPps : Bool) : State → Host.Outcome State Fault Refusal := run fun s =>
  hostCmd ses 0x0700 false true 12 (needLease ses 0x0700 fun s =>
    if tbSource (cfg s) = 1 then answer ses 0x0700 stState [] s
    else if atPps then
      timerSet tmTimeSet ses (10000 * msTicks) (setSes ses { Machine.ses s ses with wait := some (.timeSet stamp) } s)
    else answer ses 0x0700 stOK (stampBytes stamp) (takeTime stamp (now s) s)) s

/-- TIME_SET_TIMEOUT: 10 s without an accepted edge; device time is unchanged (R388). -/
def execTimeSetTimeout : State → Host.Outcome State Fault Refusal := run fun s =>
  each ((timeWaiters s).filter fun e => timerDue s tmTimeSet e.1) (fun (n, _) s => answer n 0x0700 stTimeout [] s) s

/-- TIME_GET: device time, quality, offset and UTC (R388). -/
def execTimeGet (ses : Nat) : State → Host.Outcome State Fault Refusal := run fun s =>
  hostCmd ses 0x0701 true true 24 (fun s =>
    answer ses 0x0701 stOK (stampTqb s ++ wordBytes (hw s 0x10154) ++ wordBytes (hw s 0x10160)) s) s

end Sys2Proof.Machine
end

