-- ==== Sys2Proof/Machine/Tiu.lean ====
section
/-!
DEFINITION. The time-interval unit (R149 to R160, R167): lines and their calibration, stamps, the FIFO, measurement
contexts and statistics, the launch stamps, and the discipline by PPS_IN (R110).
-/

namespace Sys2Proof.Machine

/-! ### Registers (R171) -/

/-- A word of channel `c`. -/
def tiuA (c off : Nat) : Nat := 0x31000 + 0x20 * c + off

/-- A word of context `m`. -/
def ctxA (m off : Nat) : Nat := 0x31200 + 0x80 * m + off

/-- SLOPE of a channel: bit 0 rising, bit 1 falling. -/
def tiuSlope (m : Nat → Word) (c : Nat) : Nat := fld (m (tiuA c 0)) 14 2

/-- CAL_EACH of a channel. -/
def calEach (m : Nat → Word) (c : Nat) : Bool := bit (m (tiuA c 0)) 18

/-- A channel. -/
def tiuCh (s : State) (c : Nat) : TiuCh := smGet {} c s.tiu.chs

/-- Sets a channel. -/
def setTiuCh (c : Nat) (x : TiuCh) (s : State) : State := { s with tiu := { s.tiu with chs := smPut {} c x s.tiu.chs } }

/-- A context. -/
def tiuCtx (s : State) (m : Nat) : Ctx := smGet {} m s.tiu.ctxs

/-- Sets a context. -/
def setTiuCtx (m : Nat) (x : Ctx) (s : State) : State := { s with tiu := { s.tiu with ctxs := smPut {} m x s.tiu.ctxs } }

/-- The configuration of a context. -/
structure CtxCfg where
  mode    : Nat
  startCh : Nat
  startSl : Nat
  stopCh  : Nat
  stopSl  : Nat
  win     : Nat
  nPer    : Nat
  nStat   : Nat
  deriving DecidableEq, Repr

/-- A context's settings; MODE counts as off while RUN is 0. -/
def ctxCfg (m : Nat → Word) (k : Nat) : CtxCfg :=
  let w := m (ctxA k 0)
  { mode := if bit w 14 then fld w 0 2 else 0, startCh := Nat.min 11 (fld w 2 4), startSl := slopeOf (fld w 6 2),
    stopCh := Nat.min 11 (fld w 8 4), stopSl := slopeOf (fld w 12 2), win := Nat.max 1 (m (ctxA k 4)).toNat,
    nPer := Nat.max 1 (fld (m (ctxA k 8)) 0 24), nStat := clampN 1 (2 ^ 24) (fld (m (ctxA k 0xC)) 0 25) }

/-- Whether an edge has a slope that a 2-bit code takes. -/
def takesEdge (code : Nat) (rising : Bool) : Bool := nbit code (if rising then 0 else 1)

/-- The difference of two coarse counts, modulo 2^48, signed. -/
def coarseDiff (a b : Nat) : Int := sgn 48 (twos 48 ((a : Int) - b))

/-- The input delay of a channel in 2^-16 ns (R155). -/
def dly16 (m : Nat → Word) (c : Nat) : Int :=
  if c < 4 then 0
  else if c = 4 then sgn 16 (fld (m 0x10114) 0 16) * 65536
  else sgn 24 (fld (m (tiuA c 4)) 0 24) * 256

/-! ### The FIFO (R157) -/

/-- STAMP_FIFO_ENTRY: an entry enters the FIFO, or is lost to overflow. -/
def fifoPush (e : FifoEntry) (s : State) : State :=
  if 4096 ≤ s.tiu.fifo.length then
    raise 0x31600 3 (addHold 0x3160C 1 { s with tiu := { s.tiu with lost := Nat.min (2 ^ 32 - 1) (s.tiu.lost + 1) } })
  else
    rill 98 1 { s with tiu := { s.tiu with fifo := s.tiu.fifo ++ [{ e with lost := s.tiu.lost }], lost := 0 } }

/-- The 32 bytes of an entry. -/
def fifoBytes (e : FifoEntry) : List Byte :=
  stampBytes e.stamp ++ [e.tqb] ++ le 1 e.typ ++ le 1 e.source ++ le 1 e.flags ++ le 8 (twos 64 e.value) ++ le 4 e.count ++ le 4 e.lost

/-! ### Statistics (R160) -/

/-- Mean, standard deviation, minimum and maximum of a block's results. -/
def blockStats (xs : List Int) : Int × Int × Int × Int :=
  match xs with
  | [] => (0, 0, 0, 0)
  | x :: t =>
    let n := xs.length
    let s1 := xs.foldl (· + ·) 0
    let s2 := xs.foldl (fun a v => a + v * v) 0
    (rhe s1 n, rsqrt ((n : Int) * s2 - s1 * s1).toNat (n * n), t.foldl min x, t.foldl max x)

/-- Latches MEAN, SD, MIN and MAX as four 64-bit registers from an address. -/
def latchStats (a : Nat) (xs : List Int) (s : State) : State :=
  let (mean, sd, mn, mx) := blockStats xs
  setCnt64 (a + 0x18) (twos 64 mx) (setCnt64 (a + 0x10) (twos 64 mn) (setCnt64 (a + 8) (twos 64 sd) (setCnt64 a (twos 64 mean) s)))

/-- STAT_BLOCK_END: the block of a context is latched, and the next one starts (R160). -/
def statBlockEnd (k : Nat) (period : Bool) (s : State) : State :=
  let x := tiuCtx s k
  let mean := (blockStats x.results).1
  let freq := if 0 < mean then (rhe (1000000000 * 2 ^ 48) mean.toNat).toNat else 0
  let s := latchStats (ctxA k 0x10) x.results s
  let s := if period then setCnt64 (ctxA k 0x30) freq s else s
  let s := setCnt (ctxA k 0x38) x.results.length (setCnt (ctxA k 0x3C) x.timeouts s)
  let s := setCnt (ctxA k 0x40) (Nat.min 65535 x.discarded + 65536 * Nat.min 65535 x.ignored) s
  raise 0x31600 4 (setTiuCtx k { x with results := [], timeouts := 0, discarded := 0, ignored := 0 } s)

/-! ### Measurements (R156 to R159) -/

/-- Δt in 2^-16 ns (R156). -/
def deltaT (a b : Edge) : Int := coarseDiff b.c a.c * 131072 - (b.f16 - a.f16) - (b.dly - a.dly)

/-- An attempt of a context ends: a result, or a TIMEOUT where there is no value. It enters the FIFO with N_STAT = 1 and
the block otherwise. -/
def attempt (k typ source flags count : Nat) (start : Edge) (v : Option Int) (s : State) : State :=
  let c := ctxCfg (cfg s) k
  let s := rill (100 + k) 1 s
  let s := if v.isNone then raise 0x31600 6 s else s
  if c.nStat = 1 then
    let e : FifoEntry := { stamp := start.stamp, tqb := start.tqb, typ := typ, source := source,
                           flags := flags ||| (if v.isNone then 2 else 0), value := v.getD 0, count := count, lost := 0 }
    fifoPush e s
  else
    let x := tiuCtx s k
    let x := match v with
      | some d => { x with results := x.results ++ [d] }
      | none => { x with timeouts := x.timeouts + 1 }
    let s := setTiuCtx k x s
    if c.nStat ≤ x.results.length + x.timeouts then statBlockEnd k (decide (typ = 2)) s else s

/-- An interval measurement ends (R158): its start, and its stop where there was one. -/
def intervalEnd (k : Nat) (start : Edge) (stop : Option Edge) (tap : Int) (s : State) : State :=
  let c := ctxCfg (cfg s) k
  let x := tiuCtx s k
  let s := setTiuCtx k { x with start := none, discNow := 0 } s
  match stop with
  | none => attempt k 1 (k + 16 * c.stopCh) start.flags x.discNow start none s
  | some b =>
    let d := deltaT start b
    let near := if d.natAbs * 65536 < tap.toNat then 1 else 0
    attempt k 1 (k + 16 * c.stopCh) (start.flags ||| b.flags % 16 ||| near) x.discNow start (some d) s

/-- The size of a tap of a channel's line, 2^-32 ns. -/
def tapOf (s : State) (c : Nat) : Int := (tiuCh s c).tap

/-- WIN in 2^-16 ns. -/
def winTime (c : CtxCfg) : Int := (c.win * 131072 : Nat)

/-- Whether a stop counts as before a start: earlier by at least one tap (R158). -/
def stopEarly (tap d : Int) : Bool := decide (d < 0) && !decide (d.natAbs * 65536 < tap.toNat)

/-- A start edge of a context with no measurement open (R158). Stops older than WIN are dropped; SIGNED uses the
earliest that is left; ORDERED uses the first that counts as at or after the start and discards those before it. -/
def intervalStart (k : Nat) (e : Edge) (s : State) : State :=
  let c := ctxCfg (cfg s) k
  let x := tiuCtx s k
  let tap := tapOf s c.startCh
  let inside (b : Edge) : Bool := decide (deltaT e b ≤ winTime c)
  let live := x.stops.filter fun b => decide (-(winTime c) ≤ deltaT e b)
  let gone := if c.mode = 2 then live.filter fun b => stopEarly tap (deltaT e b) else []
  let kept := if c.mode = 2 then live.filter fun b => !stopEarly tap (deltaT e b) else live
  let x := { x with start := some e, stops := kept.eraseP inside, discNow := gone.length, discarded := x.discarded + gone.length }
  match kept.find? inside with
  | some b => intervalEnd k e (some b) tap (setTiuCtx k x s)
  | none => setTiuCtx k x s

/-- A stop edge of a context (R158). One that comes after the window of the open measurement ends it as TIMEOUT; one
that the input delays place before the start is used, discarded or dropped as one that arrived before it. -/
def intervalStop (k : Nat) (e : Edge) (s : State) : State :=
  let c := ctxCfg (cfg s) k
  let x := tiuCtx s k
  let tap := tapOf s c.startCh
  let same := decide (c.startCh = c.stopCh)
  match x.start with
  | some a =>
    let d := deltaT a e
    if d < -(winTime c) then s
    else if c.mode = 2 ∧ stopEarly tap d then setTiuCtx k { x with discNow := x.discNow + 1, discarded := x.discarded + 1 } s
    else if d ≤ winTime c then intervalEnd k a (some e) tap s
    else
      let s := intervalEnd k a none tap s
      if same then s else setTiuCtx k { tiuCtx s k with stops := (tiuCtx s k).stops ++ [e] } s
  | none => if same then s else setTiuCtx k { x with stops := x.stops ++ [e] } s

/-- A stamped edge reaches an interval context: as the stop of the open measurement, as a start, or both where the
channels differ. An edge of a shared channel and slope that comes after the window is a start (R158). -/
def intervalEdge (k ch : Nat) (rising : Bool) (e : Edge) (s : State) : State :=
  let c := ctxCfg (cfg s) k
  let isStart := decide (ch = c.startCh) && takesEdge c.startSl rising
  let isStop := decide (ch = c.stopCh) && takesEdge c.stopSl rising
  let taken := match (tiuCtx s k).start with
    | some a => isStop && decide (deltaT a e ≤ winTime c)
    | none => false
  let s := if isStop then intervalStop k e s else s
  if isStart && !taken then
    let x := tiuCtx s k
    match x.start with
    | none => intervalStart k e s
    | some a =>
      if deltaT a e ≤ winTime c then setTiuCtx k { x with ignored := x.ignored + 1 } s
      else intervalStart k e (intervalEnd k a none (tapOf s c.startCh) s)
  else s

/-- PERIOD_RESULT: an edge of a period context, stamped or inside dead time (R159). Of dead times only that of the start
stamp makes the N_PER-th edge a TIMEOUT: that of an edge between them does not (DEDUCED: log 199). -/
def periodEdge (k : Nat) (stamped : Bool) (e : Edge) (s : State) : State :=
  let c := ctxCfg (cfg s) k
  let x := tiuCtx s k
  let fresh (on : Bool) (s : State) : State :=
    setTiuCtx k { tiuCtx s k with start := if on then some e else none, startDead := (tiuCh s c.startCh).dead, counted := 0 } s
  match x.start with
  | none => fresh stamped s
  | some a =>
    if (c.win : Int) < coarseDiff e.c a.c then fresh stamped (attempt k 2 k a.flags c.nPer a none s)
    else if x.counted + 1 < c.nPer then setTiuCtx k { x with counted := x.counted + 1 } s
    else if stamped || decide (0 ≤ coarseDiff e.c x.startDead) then
      fresh true (attempt k 2 k (a.flags ||| e.flags % 16) c.nPer a (some (rhe (deltaT a e) c.nPer)) s)
    else setTiuCtx k { tiuCtx s k with start := none, counted := 0 } (attempt k 2 k a.flags c.nPer a none s)

/-- An edge reaches every running context; one inside dead time reaches only those in period mode. -/
def contextsTake (ch : Nat) (rising stamped : Bool) (e : Edge) (s : State) : State :=
  each (List.range 4) (fun k s =>
    let c := ctxCfg (cfg s) k
    if c.mode = 0 then s
    else if c.mode = 3 then
      (if decide (ch = c.startCh) && takesEdge c.startSl rising then periodEdge k stamped e s else s)
    else if stamped then intervalEdge k ch rising e s else s) s

/-- An open measurement of a context ends as TIMEOUT. -/
def ctxTimeout (k : Nat) (s : State) : State :=
  let c := ctxCfg (cfg s) k
  let x := tiuCtx s k
  match x.start with
  | none => s
  | some a =>
    if c.mode = 3 then setTiuCtx k { tiuCtx s k with start := none, counted := 0 } (attempt k 2 k a.flags c.nPer a none s)
    else intervalEnd k a none (tapOf s c.startCh) s

/-- A context starts afresh: its open measurement ends as TIMEOUT and its block restarts (R168). -/
def ctxRestart (k : Nat) (s : State) : State :=
  let s := ctxTimeout k s
  setTiuCtx k {} s

/-! ### Calibration and lines (R151 to R154) -/

/-- The line a channel uses. -/
def lineOf (s : State) (c : Nat) : Nat := (tiuCh s c).line.getD c

/-- Whether a calibration passes the checks of R151. -/
def calPasses (n1 n2 : Nat) : Bool := decide (n1 + 250 ≤ n2 ∧ n2 ≤ n1 + 334 ∧ 200 ≤ n1 ∧ n2 ≤ 760)

/-- Tap size and line offset from a calibration (R151). -/
def calCoefs (n1 n2 : Nat) : Int × Int :=
  let t := rhe (2 ^ 33) (n2 - n1)
  (t, 2 ^ 33 - (n1 : Int) * t)

/-- The lowest spare that is neither retired nor in use. -/
def spareFree (s : State) : Option Nat :=
  ([0, 1] : List Nat).find? fun k => (smFind k s.tiu.spareOf).isNone && !s.tiu.retired.getLsbD (12 + k)

/-- A line is retired for good (R153). -/
def retireLine (line : Nat) (s : State) : State :=
  wearAdd 2 1 0 line { s with tiu := { s.tiu with retired := s.tiu.retired ||| BitVec.ofNat 14 (2 ^ line) } }

/-- A channel becomes FAILED; a TIN channel's trigger-source use is disarmed (R154). -/
def channelFails (c : Nat) (s : State) : State :=
  let s := raise 0x31600 2 (setTiuCh c { tiuCh s c with failed := true, ready := false } s)
  if 5 ≤ c then
    each (List.range 8) (fun u s =>
      if unitSource (cfg s) u = 1 ∧ unitTin (cfg s) u = c - 5 then deviceDisarm u s else s) s
  else s

/-- LINE_SWAP: the channel's line is retired; a spare takes over at the end of the dead time, which grows by 12 clocks
for its calibration, or the channel fails (R153, R154). -/
def lineSwap (c : Nat) (s : State) : State :=
  let s := retireLine (lineOf s c) s
  let s := { s with tiu := { s.tiu with spareOf := s.tiu.spareOf.filter fun (_, k) => k ≠ c } }
  match spareFree s with
  | none => channelFails c s
  | some k =>
    let x := tiuCh s c
    let s := { s with tiu := { s.tiu with spareOf := smIns k c s.tiu.spareOf } }
    let s := setHw (tiuA c 0x18) (wd (smGet 0 k s.tiu.spareCal)) s
    raise 0x31600 1 (setTiuCh c { x with line := some (12 + k), tap := 0, off := 0, fails := 0, held := false, ready := false,
                                         inCal := true, dead := (x.dead + 12) % 2 ^ 48 } s)

/-- A channel's line is calibrated (R151, R153). The channel is ready after it unless its line has never passed. -/
def calibrate (c n1 n2 : Nat) (s : State) : State :=
  let s := setHw (tiuA c 0x18) (wd (n1 % 1024 + 65536 * (n2 % 1024))) s
  let x : TiuCh := { tiuCh s c with inCal := false }
  if calPasses n1 n2 then
    let (t, o) := calCoefs n1 n2
    setTiuCh c { x with tap := t, off := o, fails := 0, held := false, ready := true } s
  else
    let s := raise 0x31600 0 (setTiuCh c { x with fails := x.fails + 1, held := true, ready := decide (x.tap ≠ 0) } s)
    if 3 ≤ x.fails + 1 then lineSwap c s else s

/-- A channel that can be calibrated now: it takes stamps of some slope, has not failed, and the TIU clock runs. -/
def calibratable (s : State) (c : Nat) : Bool :=
  decide (pll s 1 = .inUse) && !(tiuCh s c).failed && decide (tiuSlope (cfg s) c ≠ 0)

/-- A coarse count lies before the end of a channel's dead time. -/
def beforeDead (x : TiuCh) (c : Nat) : Bool :=
  let d := (x.dead + 2 ^ 48 - c) % 2 ^ 48
  decide (1 ≤ d ∧ d ≤ 64)

/-- TIU_REARM: the dead time ends; the calibration measured the two run lengths and the channel is re-armed (R152). -/
def execTiuRearm (ch : Fin 12) (n1 n2 : Nat) : State → Host.Outcome State Fault Refusal := run fun s =>
  let x := tiuCh s ch
  if calibratable s ch && !x.ready && !beforeDead x s.cnt.coarse.toNat then calibrate ch n1 n2 s else s

/-- TIU_PERIODIC_CAL: with CAL_EACH at 0 the channel calibrates in the first dead time after the 1 ms mark, which lasts as
long as that of a channel that calibrates before every stamp (R152). -/
def execTiuPeriodicCal (ch : Fin 12) (n1 n2 : Nat) : State → Host.Outcome State Fault Refusal := run fun s =>
  let x := tiuCh s ch
  if calibratable s ch && !calEach (cfg s) ch && x.inCal && !beforeDead x s.cnt.coarse.toNat then calibrate ch n1 n2 s else s

/-- A channel that a change of its settings makes active, or has calibrate before every stamp, calibrates before its first
stamp (R151). -/
def tiuActivate (old : Nat → Word) (c : Nat) (s : State) : State :=
  let m := cfg s
  if decide (tiuSlope m c ≠ 0) && (decide (tiuSlope old c = 0) || (calEach m c && !calEach old c)) then
    setTiuCh c { tiuCh s c with ready := false } s
  else s

/-- SPARE_LINE_CAL: an idle spare is calibrated once a second; the third failure in a row retires it (R153). -/
def execSpareLineCal (line : Fin 2) (n1 n2 : Nat) : State → Host.Outcome State Fault Refusal := run fun s =>
  let k := line.val
  if (smFind k s.tiu.spareOf).isSome ∨ s.tiu.retired.getLsbD (12 + k) ∨ pll s 1 ≠ .inUse ∨ !timerDue s tmSpareCal k then s
  else
    let s := timerGrid tmSpareCal k (1000 * msTicks) s
    let s := { s with tiu := { s.tiu with spareCal := smIns k (n1 % 1024 + 65536 * (n2 % 1024)) s.tiu.spareCal } }
    if calPasses n1 n2 then { s with tiu := { s.tiu with spareFails := smPut 0 k 0 s.tiu.spareFails } }
    else
      let n := smGet 0 k s.tiu.spareFails + 1
      let s := raise 0x31600 0 { s with tiu := { s.tiu with spareFails := smPut 0 k n s.tiu.spareFails } }
      if 3 ≤ n then retireLine (12 + k) s else s

/-! ### PPS_IN (R110) -/

/-- The offset of a stamp from the nearest whole second, 2^-8 ns. -/
def ppsOffset (t : Stamp) : Int :=
  let r : Int := (t % second : Nat)
  rhe (if 2 * r ≤ (second : Int) then r else r - second) 256

/-- The tick of a TIU clock edge: ticks run on while the TIU clock is stopped. -/
def tickOf (s : State) (c : Nat) : Nat := ((s.cnt.ticks : Int) + coarseDiff c s.cnt.coarse.toNat).toNat

/-- Whether an edge at a tick is accepted: 1 s ± 100 µs after the previous accepted one, the first, or after more than
2.5 s. -/
def ppsAccepted (t : Nat) : Option Nat → Bool
  | none => true
  | some b =>
    let d := t - b
    decide (499950000 ≤ d ∧ d ≤ 500050000) || decide (1250000000 < d)

/-- A stamp of PPS_IN disciplines device time: its offset is reported, an accepted edge completes a TIME_SET that waits
for it, and with SOURCE = PPS it is a measurement (R109, R110). -/
def ppsStamp (e : Edge) (s : State) : State :=
  let th := ppsOffset e.stamp
  let s := putSigned32 0x1015C th (rill 99 1 s)
  if ppsAccepted (tickOf s e.c) s.tb.lastPps then
    let s := { s with tb := { s.tb with lastPps := some (tickOf s e.c) } }
    match timeWaiters s with
    | [] => if tbSource (cfg s) = 2 then measure 2 th s else s
    | (n, t) :: rest =>
      let target := t / second * second
      let s := takeTime target e.stamp s
      let s := each ((n, t) :: rest) (fun (k, _) s => answer k 0x0700 stOK (stampBytes target) s) s
      if tbSource (cfg s) = 2 then noteValid (tbMeasured 0 { s with tb := { s.tb with source := 2 } }) else s
  else raise 0x10140 6 s

/-! ### Stamps (R150, R155) -/

/-- T16(c): device time of TIU clock edge `c`, by the accumulator in use (R105, R155). -/
def timeOfCoarse (s : State) (c : Nat) : Int :=
  let acc : Nat := if s.tb.backup then s.tb.backAcc else s.tb.acc
  ((acc : Int) + coarseDiff c s.cnt.coarse.toNat * timePace s) / 2 ^ 32

/-- Whether a coarse count lies in a channel's dead time. -/
def inDead (x : TiuCh) (c : Nat) : Bool :=
  !x.ready || beforeDead x c

/-- The stamp of an edge: fine code to F16, then T16(c) − F16 − DLY16. -/
def edgeOf (s : State) (ch c k : Nat) (rising : Bool) : Edge :=
  let x := tiuCh s ch
  let f := rhe ((k : Int) * x.tap + x.off) 65536
  let d := dly16 (cfg s) ch
  { c := c, f16 := f, dly := d, stamp := (timeOfCoarse s c - f - d).toNat, tqb := tqb s,
    flags := (if x.held then 4 else 0) + (if x.line.isSome then 8 else 0) + (if rising then 16 else 0) }

/-- A monitor window holds a stamp. -/
def inWindow (t : Stamp) (x : Shot) : Bool :=
  match x.window with
  | some (a, b) => decide (a ≤ t ∧ t ≤ b)
  | none => false

/-- LAUNCH_STAMP: the first stamp inside a monitor window is the launch stamp; a stamp outside every window is stray
(R161). -/
def monitorStamp (p : Nat) (e : Edge) (s : State) : State :=
  let x := lch s p
  let s := rill (87 + p) 1 s
  if x.shots.any (inWindow e.stamp) then
    let take (t : Shot) : Shot :=
      if inWindow e.stamp t && t.launch.isNone then
        { t with launch := some e.stamp, tqbStamp := e.tqb,
                 flags := t.flags ||| (if nbit e.flags 2 then fCALHELD else 0) ||| (if nbit e.flags 3 then fSPARE else 0) }
      else t
    setLch p { x with shots := x.shots.map take } s
  else raise (0x30040 + 0x100 * p) 4 (addHold (0x30058 + 0x100 * p) 1 s)

/-- Whether a channel calibrates in the dead time of a stamp, which then lasts 12 TIU clocks instead of 3: with CAL_EACH
always, else in the first dead time after the 1 ms mark (R152). -/
def deadCal (s : State) (ch : Nat) : Bool := calEach (cfg s) ch || timerDue s tmTiuCal ch

/-- A qualified comparator edge of a channel, at coarse count `c` with fine code `k`, one of 768 taps (R149, R150, R152,
R155). The count of missed edges goes with the entry, also where a full FIFO discards it (DESIGN CHOICE: log 198). -/
def edgeStamp (ch c k : Nat) (rising : Bool) (s : State) : State :=
  let m := cfg s
  let x := tiuCh s ch
  if pll s 1 ≠ .inUse ∨ x.failed ∨ 768 ≤ k ∨ !takesEdge (tiuSlope m ch) rising then s
  else
    let e := edgeOf s ch c k rising
    if inDead x c then
      contextsTake ch rising false e
        (addHold (tiuA ch 0x14) 1 (setTiuCh ch { x with missed := Nat.min (2 ^ 32 - 1) (x.missed + 1) } s))
    else
      let cal := deadCal s ch
      let s := if cal && !calEach m ch then timerSet tmTiuCal ch msTicks s else s
      let s := setTiuCh ch { x with ready := !cal, inCal := cal, dead := (c + (if cal then 12 else 3)) % 2 ^ 48 }
        (addCnt (tiuA ch 0x1C) 1 s)
      let s := if bit (m (tiuA ch 0)) 17 then
          let f : FifoEntry := { stamp := e.stamp, tqb := e.tqb, typ := 0, source := ch, flags := e.flags, value := 0,
                                 count := x.missed, lost := 0 }
          fifoPush f (setTiuCh ch { tiuCh s ch with missed := 0 } s)
        else s
      let s := contextsTake ch rising true e s
      if ch < 4 then monitorStamp ch e s
      else if ch = 4 then ppsStamp e s
      else tinEdge ch e.stamp (rill (91 + (ch - 5)) 1 s)

/-- TIU_EDGE_STAMP: a qualified edge of a channel is stamped, or counted inside dead time. -/
def execTiuEdgeStamp (ch : Fin 12) (c k : Nat) (rising : Bool) : State → Host.Outcome State Fault Refusal :=
  run fun s => edgeStamp ch c k rising s

/-- PPS_IN_EDGE: an edge of PPS_IN of the slope that channel 4 takes (R110). -/
def execPpsInEdge (c k : Nat) : State → Host.Outcome State Fault Refusal := run fun s =>
  edgeStamp 4 c k (decide (tiuSlope (cfg s) 4 ≠ 2)) s

/-- MEASUREMENT_TIMEOUT: no stop, or no N_PER-th edge, has arrived within WIN TIU clocks (R158, R159). -/
def execMeasurementTimeout (ctx : Fin 4) : State → Host.Outcome State Fault Refusal := run fun s =>
  match (tiuCtx s ctx).start with
  | none => s
  | some a => if ((ctxCfg (cfg s) ctx).win : Int) ≤ coarseDiff s.cnt.coarse.toNat a.c then ctxTimeout ctx s else s

/-- The TIU clock has stopped (R97, R168): open measurements end as TIMEOUT, blocks restart, and every channel must
calibrate before its next stamp. -/
def tiuStop (s : State) : State :=
  let s := each (List.range 4) ctxRestart s
  let s := each (List.range 12) (fun c s => setTiuCh c { tiuCh s c with ready := false } s) s
  raise 0x31600 7 s

end Sys2Proof.Machine
end

