-- ==== Sys2Proof/Machine/Launch.lean ====
section
/-!
DEFINITION. Launches and shot boundaries (R46, R47, R133, R143 to R148, R161 to R163, R167, R187, R188, R417): the grid,
monitor windows, the launch ledger, and the fibre-group copies that become active at a boundary.
-/

namespace Sys2Proof.Machine

/-! ### Command bits (R37) -/

/-! ### Commits whose groups become active (R46) -/

/-- Every group of a strobed commit is active: the fibre groups have reached their boundary, the clock change has
completed and the fill of R284 is over. -/
def flightDone (s : State) (f : InFlight) : Bool :=
  (List.range 4).all (fun p => !f.mask.getLsbD (p + 1) || f.applied.any (·.1 = p + 1)) && !decide (f.id ∈ s.clk.splRelock)
    && decide (s.dram.filling ≠ some f.id) && !decide (f.id ∈ s.dram.setup)

/-- The reply data of a COMMIT (R388): sequence, strobe, and the apply stamps in group order. -/
def commitReply (f : InFlight) : List Byte :=
  le 4 f.seq ++ stampBytes f.strobe ++ (List.range 4).flatMap fun p =>
    match f.applied.find? (·.1 = p + 1) with | some (_, t) => stampBytes t | none => []

/-- COMMIT_REPLY: the commits whose every group is active are answered (R46). -/
def flightsDone (s : State) : State :=
  let done := s.commits.flight.filter (flightDone s)
  let s := { s with commits := { s.commits with flight := s.commits.flight.filter fun f => !flightDone s f } }
  each done (fun f s =>
    let s := raise 0x10 1 s
    if (ses s f.ses).wait = some (.commit f.id) then answer f.ses 0x0105 stOK (commitReply f) s else s) s

/-- A fibre group of the commit in flight that holds it becomes active at a stamp. -/
def flightApplied (p : Nat) (t : Stamp) (s : State) : State :=
  let one (f : InFlight) : InFlight :=
    if f.mask.getLsbD (p + 1) && !f.applied.any (·.1 = p + 1) then { f with applied := f.applied ++ [(p + 1, t)] } else f
  flightsDone { s with commits := { s.commits with flight := s.commits.flight.map one } }

/-! ### Fibre-group copies (R46, R188, R202, R210) -/

/-- The words of R188 whose change sets PRIMED and U to 0. -/
def primeAddrs (p : Nat) : List Nat := ([0, 4, 8, 0xC] ++ (List.range 8).map (0x20 + 4 * ·)).map (0x40000 + 0x1000 * p + ·)

/-- The configuration words of a Cascade chain. -/
def cscAddrs (p : Nat) : List Nat := ([0, 0x10, 0x14, 0x18, 0x1C] : List Nat).map (cscA p)

/-- The configuration words of a Pool engine. -/
def polAddrs (e : Nat) : List Nat := (List.range 9).map fun i => polA e (4 * i)

/-- Whether some word differs between two images. -/
def differs (m n : Nat → Word) (l : List Nat) : Bool := l.any fun a => m a ≠ n a

/-- The level of LAUNCHn, swapped under INVERT. -/
def launchPin (p : Nat) (high : Bool) (s : State) : State :=
  let b := BitVec.ofNat 4 (2 ^ p)
  { s with pins := { s.pins with launch := if high != invertOf (cfg s) p then s.pins.launch ||| b else s.pins.launch &&& ~~~b } }

/-- The code on SLOTn, and the tick from which it stands (R143, R146). -/
def slotPin (p slot : Nat) (s : State) : State :=
  let code := slotCodeOf (cfg s) p slot
  if smGet 0 p s.pins.slot = code then s
  else setLch p { lch s p with codeTick := ceilDiv s.cnt.smp 4000 } { s with pins := { s.pins with slot := smPut 0 p code s.pins.slot } }

/-- The pending copy of a fibre port becomes active at an instant. -/
def fibreApply (p : Nat) (t : Stamp) (s : State) : State :=
  match smFind (p + 1) s.regs.pend with
  | none => s
  | some w =>
    let old := cfg s
    let active := groupMerge (p + 1) w s.regs.active
    let new := fun a => withOverrides s.regs.overrides a (imageGet active a)
    let s := stashShots p s
    let engine := differs old new (polAddrs p)
    let s := if engine then poolEnds p s else s
    let s := histPlan (tiuActivate old p { s with regs := { s.regs with active := active, pend := smDel (p + 1) s.regs.pend } })
    let moved := decide (ringBase old p ≠ ringBase new p) || decide (ringSize old p ≠ ringSize new p)
    let s := if engine && moved then ringDiscard p s else s
    let s := if engine && decide (polSource old p = 0) then blockStart p s else s
    let prime := differs old new (primeAddrs p) || decide (slotsOf old p ≠ slotsOf new p)
    let restart := differs old new (cscAddrs p)
    let seq := match s.commits.flight.find? fun f => f.mask.getLsbD (p + 1) && !f.applied.any (·.1 = p + 1) with
      | some f => f.seq
      | none => (lch s p).activeSeq
    let x := lch s p
    let s := setLch p { x with config := true, activeSeq := seq, prime := if prime then 15 else x.prime } s
    let s := if prime then atBoundary p 7 s else if restart then atBoundary p 1 s else s
    let s := launchPin p false s
    let s := if (lch s p).armed ∧ 1 < slotsOf (cfg s) p then s else slotPin p 0 s
    flightApplied p t s

/-! ### PHS_n_CMD (R188) -/

/-- ZERO_STRAIN (0) and REPRIME (1) take effect at the boundary. -/
def phsEffect (p b : Nat) (s : State) : State :=
  let x := lch s p
  if b = 0 then atBoundary p 8 (setLch p { x with zeroed := true } s)
  else atBoundary p 3 (setLch p { x with prime := 15 } s)

/-- The shot boundary of a port is now: waiting bits of PHS_n_CMD take effect, twice where a start is queued. -/
def phsBoundary (p : Nat) (s : State) : State :=
  let x := lch s p
  each x.cmds (fun b s => cmdDone (0x40084 + 0x1000 * p) b (fun s =>
    let y := lch s p
    setLch p { y with cmds := y.cmds ++ [b] } s) (phsEffect p b s)) (setLch p { x with cmds := [] } s)

/-- Whether a port launches: armed, with the sample clock running. -/
def launching (s : State) (p : Nat) : Bool := (lch s p).armed && !s.clk.stopped

/-- A start of a bit of PHS_n_CMD: at once where the port makes no launch, else at its shot boundary. -/
def phsStart (p b : Nat) (s : State) : State :=
  let x := lch s p
  let s := setLch p { x with cmds := x.cmds ++ [b] } s
  if launching s p then s else phsBoundary p s

/-! ### Converters of a port -/

/-- A converter on eight slices (R131). -/
def onEight (x : Conv) : Bool := x.on && !x.failed && decide (popcount 9 x.retired.toNat = 1)

/-- The converters of a port's lane group. -/
def portConvs (s : State) (p : Nat) : List Nat := (lanesOf (cfg s) p).flatMap (convsOf (cfg s))

/-- The free time a foreground window needs, in ticks: FG_LEN + 64 slice clocks of eight (R133). -/
def fgNeed (m : Nat → Word) : Nat := 8 * (fgLen m + 64)

/-- Where R133 places the windows of a port: the cycles to withhold (none in the tail), or none where two do not do. -/
def fgPlan (m : Nat → Word) (p : Nat) : Option Nat :=
  [0, 1, 2].find? fun k => decide (cycleSpan m p + fgNeed m ≤ (k + 1) * periodOf m p)

/-- A port whose group holds a converter on eight slices. -/
def needsFg (s : State) (p : Nat) : Bool := (portConvs s p).any fun c => onEight (conv s c)

/-- An event of CNV_STS of a converter and slice (R142, R419). -/
def cnvRaise (c slice e : Nat) (s : State) : State := raiseFrom c 0x20040 e (setHw 0x20048 (wd (c + 16 * slice)) s)

/-- FG_LATE of a port follows whether its windows can be placed (R133). -/
def fgLateCheck (p : Nat) (s : State) : State :=
  let late := needsFg s p && (fgPlan (cfg s) p).isNone
  let was := s.cnv.fgLate.getLsbD p
  let b := BitVec.ofNat 4 (2 ^ p)
  if late && !was then
    let c := ((portConvs s p).find? fun c => onEight (conv s c)).getD 0
    cnvRaise c 0 6 { s with cnv := { s.cnv with fgLate := s.cnv.fgLate ||| b } }
  else if !late && was then { s with cnv := { s.cnv with fgLate := s.cnv.fgLate &&& ~~~b } }
  else s

/-! ### Monitor windows and the launch ledger (R161 to R163, R167) -/

/-- An entry of the launch ledger. -/
def lgrFp (p off : Nat) : Nat := 0xD0600 + 0x20 * p + off

/-- A word of a launch generator's block. -/
def lchA (p off : Nat) : Nat := 0x30000 + 0x100 * p + off

/-- JITTER_BLOCK_END: 2^LOG2N stamped launches complete a block (R167). -/
def jitterCheck (p : Nat) (s : State) : State :=
  let x := lch s p
  let n := 2 ^ clampN 4 24 (cfgF s (0x31400 + 0x40 * p) 0 5)
  if x.deltas.length < n then s
  else
    let s := latchStats (0x31404 + 0x40 * p) x.deltas s
    rill (104 + p) 1 (raise 0x31600 5 (setCnt (0x31424 + 0x40 * p) x.misses (setLch p { x with deltas := [], misses := 0 } s)))

/-- A launch enters the ledger with its outcome, and its offset and alignment value are formed (R162, R163, R165). -/
def settleShot (p : Nat) (t : Shot) (s : State) : Shot × State :=
  let m := cfg s
  let s := addCnt64 (lgrFp p 0) 1 s
  match t.launch with
  | none =>
    let x := lch s p
    let s := setLch p { x with misses := x.misses + 1 } (raise (lchA p 0x40) 2 (addCnt64 (lgrFp p 0x10) 1 s))
    ({ t with window := none, delta := 0, a := 0, flags := t.flags ||| fMISS }, setHw (lchA p 0x70) 0 s)
  | some st =>
    let d : Int := (st : Int) - t.tIdeal - (monDelay m p * 256 : Nat)
    let a := rhe (d * (laneHz m / 1000 : Nat)) (256 * 1000000)
    let ok := decide (-8192 ≤ a ∧ a ≤ 8191)
    let used : Int := if alignEn m p && ok then a else 0
    let fl := if !alignEn m p then fALIGNOFF else if ok then 0 else fALIGNRANGE
    let x := lch s p
    let s := setLch p { x with deltas := x.deltas ++ [d] } (addCnt64 (lgrFp p 8) 1 s)
    let s := if fl = fALIGNRANGE then raise (lchA p 0x40) 3 (addHold (lchA p 0x5C) 1 s) else s
    let s := setHw (lchA p 0x70) (wd (twos 16 used)) (setHw (lchA p 0x6C) (wd (twos 32 d)) s)
    ({ t with window := none, delta := d, a := used, flags := t.flags ||| fl }, jitterCheck p s)

/-- The ledger of a disarmed port stops once its windows have closed (R417). -/
def ledgerClose (p : Nat) (s : State) : State :=
  let x := lch s p
  if x.armed ∨ x.shots.any (·.window.isSome) then s else setLch p { x with closed := true } s

/-- Closes the oldest open window of a list of shots. -/
def closeFirst (p : Nat) : List Shot → State → List Shot × State
  | [], s => ([], s)
  | t :: ts, s =>
    if t.window.isSome then
      let act := s.regs.active
      let ovr := s.regs.overrides
      let use := match t.words with | some w => mergeWhere (shotWord p) w act | none => act
      let (t, s) := settleShot p t { s with regs := { s.regs with active := use } }
      (t :: ts, { s with regs := { s.regs with active := act, overrides := ovr } })
    else
      let (ts, s) := closeFirst p ts s
      (t :: ts, s)

/-- The oldest open monitor window of a port closes. -/
def closeWindow (p : Nat) (s : State) : State :=
  let (l, s) := closeFirst p (lch s p).shots s
  ledgerClose p (setLch p { lch s p with shots := l } s)

/-- The oldest open monitor window of a port, if any. -/
def openWindow (s : State) (p : Nat) : Option (Nat × Nat) := (lch s p).shots.findSome? (·.window)

/-- MONITOR_WINDOW_CLOSE: the end of the oldest open window has come, and the launch ledger advances (R162). -/
def execMonitorWindowClose (port : Fin 4) : State → Host.Outcome State Fault Refusal := run fun s =>
  match openWindow s port with
  | some w => if w.2 ≤ now s then closeWindow port s else s
  | none => s

/-- Every open window of a port closes as a miss, as when the TIU clock stops (R168). -/
def closeAllWindows (p : Nat) (s : State) : State :=
  let x := lch s p
  let n := (x.shots.filter (·.window.isSome)).length
  let missed := x.shots.map fun t => if t.window.isSome then { t with launch := none } else t
  each (List.range n) (fun _ s => closeWindow p s) (setLch p { x with shots := missed } s)

/-- The jitter blocks of the launch generators start anew (R168). -/
def jitterRestart (s : State) : State :=
  each (List.range 4) (fun p s => setLch p { lch s p with deltas := [], misses := 0 } s) s

/-! ### Disabling (R417) -/

/-- A port leaves the ALIGNED commits it waits in: it no longer delays the others (R47). -/
def alignLeave (p : Nat) (s : State) : State :=
  let l := s.commits.align.map fun a => { a with ports := a.ports.filter (· ≠ p), reached := a.reached.filter (· ≠ p) }
  setLch p { lch s p with alignHold := false } { s with commits := { s.commits with align := l.filter fun a => a.ports ≠ [] } }

/-- Overrides that wait are laid over the active copy; shots already launched keep the words they had. -/
def overridesInstall (p : Nat) (s : State) : State :=
  let l := (lch s p).fallback
  if l = [] then s
  else
    let s := stashShots p s
    setLch p { lch s p with fallback := [] } { s with regs := { s.regs with overrides := s.regs.overrides ++ l } }

/-- A fibre port is disabled (R417): no further launch; what was launched completes. -/
def disarmPort (p : Nat) (s : State) : State :=
  let x := lch s p
  if x.armed then
    let s := setLch p { x with armed := false, grid := none, next := 0, cycle := 0, fgSkip := 0, fgSpan := none } s
    let s := phsBoundary p (fibreApply p (now s) (overridesInstall p (alignLeave p s)))
    watchesStop p (ledgerClose p (poolEnds p (slotPin p 0 s)))
  else s

/-- The overrides of R139 that wait for the boundary take effect. A port forced to OFF is disabled. -/
def overridesApply (p : Nat) (s : State) : State :=
  if (lch s p).fallback = [] then s
  else
    let s := overridesInstall p s
    if fpMode (cfg s) p = 0 then disarmPort p s else s

/-! ### Launches (R143 to R148, R187) -/

/-- The mapping word of a converter (R126). -/
def mapWord (x : Conv) : Nat := x.pos.foldr (fun v a => v + 16 * a) 0

/-- The MAP words of a shot's header (R193). -/
def shotMaps (s : State) (p : Nat) : List Nat :=
  let m := cfg s
  (List.range 4).flatMap fun r =>
    let cs := match (lanesOf m p)[r]? with | some l => convsOf m l | none => []
    (List.range 4).map fun j => match cs[j]? with | some c => mapWord (conv s c) | none => 0

/-- The ticks between which R133 places a window where `k` cycles after that of tick `c0` are withheld: from 64 slice clocks
after E to the next launch. -/
def fgSpanOf (m : Nat → Word) (p c0 k : Nat) : Option (Nat × Nat) := some (c0 + cycleSpan m p + 512, c0 + (k + 1) * periodOf m p)

/-- The grid moves to the next launch; at the end of a slot cycle a foreground gap may begin, and R133 places the windows
of the cycle (R133, R143). FG_SKIP counts the cycles launched since the last gap, withheld cycles not among them (DESIGN
CHOICE: log 195). -/
def gridNext (p : Nat) (s : State) : State :=
  let m := cfg s
  let x := lch s p
  if x.next + 1 < slotsOf m p then setLch p { x with next := x.next + 1 } s
  else
    let c0 := x.grid.getD 0
    let grid := x.grid.map (· + periodOf m p)
    let s := fgLateCheck p (setLch p { x with next := 0, grid := grid } s)
    let x := lch s p
    if 0 < x.fgSkip then setLch p { x with fgSkip := x.fgSkip - 1 } s
    else
      let due := needsFg s p && decide (fgSkip m ≤ x.cycle + 1)
      match (if due then fgPlan m p else some 0) with
      | some (k + 1) => setLch p { x with fgSkip := k + 1, cycle := 0, fgSpan := fgSpanOf m p c0 (k + 1) } s
      | _ =>
        let tail := needsFg s p && decide (fgPlan m p = some 0)
        setLch p { x with cycle := x.cycle + 1, fgSpan := if tail then fgSpanOf m p c0 0 else none } s

/-- A lane with a FAILED converter (R132). -/
def laneFailed (s : State) (m : Nat → Word) (lane : Nat) : Bool := (convsOf m lane).any fun c => (conv s c).failed

/-- The roles of a port's group whose lane is lost (R139, R179). -/
def lostRoles (s : State) (p : Nat) : List Nat :=
  let m := cfg s
  ((lanesOf m p).zipIdx.filter fun e => laneFailed s m e.1).map (·.2)

/-- A commanded launch at a tick: the boundary first, then the shot (R46, R147, R148, R161, R165, R187). -/
def launchAt (p tick : Nat) (s : State) : State :=
  let t0 := timeOfPos s (4000 * tick : Nat) 1
  let s := if (lch s p).next = 0 then phsBoundary p (fibreApply p t0 s) else s
  let m := cfg s
  let x := lch s p
  let slot := x.next
  let P := periodOf m p
  let last := smFind slot x.lastTick
  let gap := match last with | some t => tick - t | none => 0
  let prime := x.prime.getLsbD slot || last.isNone || decide (8 * P < gap)
  let long := !prime && decide (P < gap)
  let fl := (if prime then fPRIME else 0) ||| (if long then fLONG else 0) ||| (if x.config then fCONFIG else 0)
    ||| (if x.zeroed then fZEROED else 0) ||| (if s.pwr.coverage then fSUPPLY else 0)
    ||| (if x.fallback = [] then 0 else fDEGRADED)
  let watched := monEn m p && !(tiuCh s p).failed && decide (pll s 1 = .inUse)
  let mid := t0 + monDelay m p * 256
  let win := monWin m p * 65536
  let shot : Shot := { index := x.nextIndex, slot := slot, tick := tick, tIdeal := t0, tqb := tqb s,
                       window := some (mid - win, mid + win), flags := fl,
                       interval := if prime then 0 else gap, commitSeq := x.activeSeq,
                       sealRef := s.sealing.ref, maps := shotMaps s p, acts := x.acts,
                       lost := (lostRoles s p).foldl (fun a r => smIns r 0 a) [], early := 35 - laneSamples s (4000 * tick),
                       laneAt := laneNo s (laneSamples s (4000 * tick)) }
  let (shot, s) := if watched then (shot, s) else settleShot p shot s
  let x := lch s p
  let s := setLch p { x with
    shots := x.shots ++ [shot], nextIndex := x.nextIndex + 1, lastSlot := slot, lastTick := smIns slot tick x.lastTick,
    prime := x.prime &&& ~~~(BitVec.ofNat 4 (2 ^ slot)), config := false, zeroed := false, acts := 0 } s
  launchPin p true (rill (68 + p) 1 (setStamp (lchA p 0x60) t0 (setCnt64 (lchA p 0x48) shot.index s)))

/-- A port withholds launches: an ALIGNED commit waits, in a foreground gap, or while the clock is lost (R147, R168). -/
def withholding (s : State) (p : Nat) : Bool :=
  let x := lch s p
  x.alignHold || decide (0 < x.fgSkip) || (x.armed && s.clk.stopped)

/-- A launch on the grid is not driven; it is counted (R147). -/
def withheld (p : Nat) (s : State) : State := raise (lchA p 0x40) 1 (addCnt64 (lchA p 0x50) 1 s)

/-- Marks a port of an ALIGNED commit as having reached its boundary at a tick. -/
def alignReach (p tick : Nat) (s : State) : State :=
  let one (a : AlignSet) : AlignSet :=
    if p ∈ a.ports ∧ p ∉ a.reached then { a with reached := a.reached ++ [p], latest := Nat.max a.latest tick } else a
  { s with commits := { s.commits with align := s.commits.align.map one } }

/-- Whether an ALIGNED commit has every port of its set at its boundary. -/
def alignFull (a : AlignSet) : Bool := a.ports.all fun p => decide (p ∈ a.reached)

/-- The sample clock has come to a launch tick. -/
def tickCome (s : State) (tick : Nat) : Bool := decide (4000 * tick ≤ s.cnt.smp)

/-- A launch is made at its tick; the overrides that wait for the shot boundary take effect before that of slot 0 (R46,
R139, R147). -/
def launchMade (p tick : Nat) (s : State) : State :=
  let s := if (lch s p).next = 0 then overridesApply p s else s
  if launching s p then gridNext p (launchAt p tick s) else s

/-- LAUNCH: a launch tick of the grid. The launch is made, or withheld while an ALIGNED commit waits or in a foreground
gap (R143, R147). A port joins an ALIGNED commit at its shot boundary, which is a launch that would be made. The port that
reaches its boundary last, at a slice-clock edge, launches there at the common instant and has nothing withheld. -/
def execLaunch (port : Fin 4) : State → Host.Outcome State Fault Refusal := run fun s =>
  let p := port.val
  let x := lch s p
  match x.grid with
  | none => s
  | some g =>
    let tick := g + x.next * spacingOf (cfg s) p
    if !launching s p ∨ !tickCome s tick then s
    else
      let joins := decide (x.next = 0) && !x.alignHold && decide (x.fgSkip = 0) && s.commits.align.any fun a => decide (p ∈ a.ports)
      let s := if joins then setLch p { lch s p with alignHold := true } (alignReach p tick s) else s
      let atCommon := joins && decide (tick % 8 = 0) && s.commits.align.any fun a => decide (p ∈ a.ports) && alignFull a
      if atCommon then s
      else if (lch s p).alignHold ∨ 0 < x.fgSkip then gridNext p (withheld p s)
      else launchMade p tick s

/-- The tick of the next slice-clock edge (R5, R146). -/
def sliceEdge (s : State) : Nat := roundUp 8 (ceilDiv s.cnt.smp 4000)

/-- The first slice-clock edge from a tick on at which slot 0's code has stood SLOT_LEAD ticks (R146). -/
def leadEdge (s : State) (p tick : Nat) : Nat := roundUp 8 (Nat.max tick ((lch s p).codeTick + slotLead (cfg s) p))

/-- No quick calibration of the port's lane group, nor that of R119, is in progress. -/
def calDone (s : State) (p : Nat) : Bool := !s.cnv.modeCal && (portConvs s p).all fun c => (conv s c).qcal.isNone

/-- The tick of the first launch that an arm from a tick on is to make, over the ports that it newly arms: none where no
launch is due, as while the clock is stopped, a calibration runs or an ALIGNED commit waits for the port (R146, R388). -/
def firstTick (s : State) (ports : List Nat) (tick : Nat) : Option Nat :=
  let due (p : Nat) : Bool := !(lch s p).armed && !s.clk.stopped && calDone s p && !s.commits.align.any fun a => decide (p ∈ a.ports)
  ((ports.filter due).map fun p => leadEdge s p tick).foldl (fun a t => some (match a with | some b => Nat.min b t | none => t)) none

/-- Starts a grid with the launch of slot 0 at a tick. -/
def gridStart (p tick : Nat) (s : State) : State :=
  let s := setLch p { lch s p with grid := some tick, next := 0, cycle := 0, fgSkip := 0, fgSpan := none, alignHold := false } s
  gridNext p (launchAt p tick (slotPin p 0 (fgLateCheck p s)))

/-- The first launch of a port whose grid has not begun: slot 0 launches at the next slice-clock edge, once every
converter of the group has completed any quick calibration, and every converter that of R119 (R119, R146). -/
def firstLaunch (p : Nat) (s : State) : State :=
  let s := if (lch s p).grid.isNone then overridesApply p s else s
  if launching s p && (lch s p).grid.isNone && calDone s p then
    if s.commits.align.any fun a => decide (p ∈ a.ports) then
      setLch p { lch s p with alignHold := true } (alignReach p (sliceEdge s) s)
    else raise (lchA p 0x40) 0 (gridStart p (sliceEdge s) s)
  else s

/-- FIRST_LAUNCH (R146): once slot 0's code has stood SLOT_LEAD ticks. After a clock stop the fresh shot is that of
SAMPLE_CLOCK_RESUME. -/
def execFirstLaunch (port : Fin 4) : State → Host.Outcome State Fault Refusal := run fun s =>
  if s.clk.resume || decide (sliceEdge s < leadEdge s port 0) then s else firstLaunch port s

/-- The slot whose code appears next: that of the next launch, which is slot 0 with S = 1, before a fresh grid and while
an ALIGNED commit waits (R143, R146). -/
def nextSlot (s : State) (p : Nat) : Nat :=
  let x := lch s p
  if slotsOf (cfg s) p = 1 ∨ x.grid.isNone ∨ x.alignHold then 0 else x.next

/-- SLOT_CODE_UPDATE: the code of the next slot appears, SLOT_LEAD ticks before its launch (R143). -/
def execSlotCodeUpdate (port : Fin 4) : State → Host.Outcome State Fault Refusal := run fun s =>
  let p := port.val
  let x := lch s p
  let due := match x.grid with
    | some g => x.alignHold || tickCome s (g + x.next * spacingOf (cfg s) p - slotLead (cfg s) p)
    | none => true
  if x.armed && due then slotPin p (nextSlot s p) s else s

/-- The tick at which the last launch was made. -/
def lastLaunch (x : Lch) : Nat := smGet 0 x.lastSlot x.lastTick

/-- LAUNCH_PULSE_END: W ticks after a launch (R143). -/
def execLaunchPulseEnd (port : Fin 4) : State → Host.Outcome State Fault Refusal := run fun s =>
  if s.clk.stopped || tickCome s (lastLaunch (lch s port) + widthOf (cfg s) port) then launchPin port false s else s

/-- The tick of the shot boundary that a port has come to: its next launch of slot 0 where that launch is made, neither
withheld in a gap nor waiting for a common instant (R46, R147). -/
def boundaryTick (s : State) (p : Nat) : Option Nat :=
  let x := lch s p
  if x.next = 0 ∧ x.fgSkip = 0 ∧ !x.alignHold ∧ ¬ s.commits.align.any (fun a => decide (p ∈ a.ports)) then
    x.grid.filter (tickCome s)
  else none

/-- FIBRE_GROUP_APPLY: the pending copy becomes active at the port's shot boundary (R46). A port that makes no launch has
no boundary to wait for; an armed one whose grid has not begun applies its copy at its first launch, and one that waits
for a common instant there. -/
def execFibreGroupApply (port : Fin 4) : State → Host.Outcome State Fault Refusal := run fun s =>
  let p := port.val
  if !launching s p then fibreApply p (now s) (overridesApply p s)
  else match boundaryTick s p with
    | some g => fibreApply p (timeOfPos s (4000 * g : Nat) 1) (overridesApply p s)
    | none => s

/-- A port's grid begins anew at the common instant with the launch of slot 0, unless an override disables it there. The
grid of a port that has launched before is the rebuilt one of R146 and raises no FIRST_LAUNCH; that of a port armed since
raises it (DESIGN CHOICE: log 196). -/
def alignStart (p tick : Nat) (s : State) : State :=
  let fresh := (lch s p).grid.isNone
  let s := overridesApply p s
  if launching s p then raiseIf fresh (lchA p 0x40) 0 (gridStart p tick s) else s

/-- ALIGNED_COMMON_INSTANT: the ports of an ALIGNED commit that have all come to their boundaries apply together at the
latest of them, rounded up to a slice-clock edge, and launch slot 0 there (R47). -/
def execAlignedCommonInstant : State → Host.Outcome State Fault Refusal := run fun s =>
  match s.commits.align.find? fun a => alignFull a && tickCome s (roundUp 8 a.latest) with
  | none => s
  | some a =>
    each a.ports (fun p s => alignStart p (roundUp 8 a.latest) s)
      { s with commits := { s.commits with align := s.commits.align.filter fun b => b.id ≠ a.id } }

/-! ### Arming and clock stops (R146, R189) -/

/-- A fibre port becomes armed: its channels, chain and watches start afresh (R187, R188, R202, R232). -/
def armPort (p : Nat) (s : State) : State :=
  let x := lch s p
  if x.armed then s
  else
    let s := setLch p { x with armed := true, closed := false, grid := none, next := 0, cycle := 0, fgSkip := 0, fgSpan := none, prime := 15,
                               alignHold := false } s
    watchesStart p (atBoundary p 7 s)

/-- The record samples of a shot that a stop at a tick leaves digitised. A stop after record sample L − 1 cuts nothing,
also where the samples past the record that boxes and interpolators reach are not digitised: they count as 0 (DESIGN
CHOICE: log 197) (R189). -/
def cutShot (m : Nat → Word) (p tick : Nat) (t : Shot) : Shot :=
  let n := (tick - t.tick) * lps m
  if t.cut.isNone && decide (n < recordOf m p) then { t with cut := some n } else t

/-- The post-trigger window of a lane trigger unit that a stop of the sample clock cuts ends there: the samples that it
leaves undigitised never come (R263). -/
def windowsStop (s : State) : State :=
  let edge := sliceEdge s
  each (List.range 8) (fun u s =>
    let x := unitSt s u
    match x.post with
    | some id =>
      if x.postEnd ≤ 4000 * edge then s
      else
        let stop := laneNo s (laneSamples s (4000 * edge))
        let late (g : Seg) : Seg := { g with cut := some (Nat.min stop (g.cut.getD stop)), flags := g.flags ||| 0x21 }
        mapSeg id late (setUnit u { x with postEnd := 4000 * edge } s)
    | none => s) s

/-- The sample clock stops: records and windows in progress are cut, grids end, and copies that wait for a boundary become
active (R46, R96, R146, R189, R263). -/
def launchesStop (s : State) : State :=
  let m := cfg s
  let s := windowsStop s
  let edge := sliceEdge s
  each (List.range 4) (fun p s =>
    let x := lch s p
    let s := setLch p { x with grid := none, next := 0, cycle := 0, fgSkip := 0, fgSpan := none, shots := x.shots.map (cutShot m p edge) } s
    if x.armed then phsBoundary p (fibreApply p (now s) (overridesApply p (alignLeave p s))) else s) s

/-- The fresh grid after a clock stop: every slot is primed and the chain restarts (R187, R188, R202). -/
def launchesFresh (s : State) : State :=
  each (List.range 4) (fun p s =>
    if (lch s p).armed then atBoundary p 3 (setLch p { lch s p with prime := 15 } s) else s) s

end Sys2Proof.Machine
end

