-- ==== Sys2Proof/Machine/Raw.lean ====
section
/-!
DEFINITION. Records of RAW streams (R349): which lane has a whole record, what it holds, and the short record that a
stop of the sample clock leaves.
-/

namespace Sys2Proof.Machine

/-- What a raw record or segment of a lane carries DEGRADED for now, whatever its samples: it is a DIRECT lane on eight
slices whose last window, or retirement, is more than 1 s old (R135). -/
def eightLate (s : State) (lane : Nat) : Bool :=
  let m := cfg s
  decide (lane ∈ directLanes m) && (convsOf m lane).any fun c =>
    let x := conv s c
    onEight x && decide (500000000 < s.cnt.ticks - Nat.max x.fgDone x.eightAt)

/-- The lane number of the first sample of a slice clock (R118). -/
def laneNoAt (s : State) (clock : Nat) : Nat := laneNo s ((clock - s.cnv.base / 32000) * 8 * lps (cfg s))

/-- Whether the lane numbers from `a` to `b` hold samples of a foreground window, which are 0 (R134). -/
def zeroHits (s : State) (lane a b : Nat) : Bool :=
  let hits (l : List (Nat × Nat)) : Bool := l.any fun w => decide (w.1 < b ∧ a < w.2)
  hits (laneRun s lane).zeros
    || (convsOf (cfg s) lane).any fun c => hits ((conv s c).wins.map fun w => (laneNoAt s w.1, laneNoAt s w.2))

/-- The enabled RAW streams. -/
def rawStreams (s : State) : List Nat := (enabledStreams s.regs.active).filter fun n => decide (streamType s n = 0)

/-- The samples of a whole record. -/
def rawSpanOf (s : State) : Nat := 16 * rawBlocks (cfg s)

/-- Whether a lane carries samples: no converter of it is FAILED, powered down or in the calibration of R75 or R119. -/
def laneLight (s : State) (lane : Nat) : Bool :=
  (convsOf (cfg s) lane).all fun c => (conv s c).on && !(conv s c).failed && !(conv s c).dark

/-- The record of a lane that a stream creates next: the one after its last, and none that began before the stream was
enabled or the lane came to carry samples. -/
def rawNext (s : State) (n lane : Nat) : Nat :=
  let x := stream s n
  let light := (convsOf (cfg s) lane).foldl (fun a c => Nat.max a (conv s c).lightPos) 0
  Nat.max (smGet 0 lane x.nextLane) (ceilDiv (laneSamples s (Nat.max x.startPos light)) (rawSpanOf s))

/-- A record of a lane with `count` samples digitised: those that the lane's notices have brought, and a free value for
one still to come (DESIGN CHOICE: log 209). -/
def rawRec (s : State) (lane j count fl : Nat) : Rec :=
  let first := j * rawSpanOf s
  let no := laneNo s first
  let low := zeroHits s lane no (no + count) || eightLate s lane
  { typ := 0, src := lane, flags := fl ||| (if low then fDEGRADED else 0), index := first, count := count,
    stamp := laneStamp s (256 * (first : Int)), tqb := tqb s,
    payload := pack14 (ceilDiv count 16)
      ((laneSlice s lane no count).zipIdx.map fun (v, i) => v.getD (Config.laneCode s.cnt.free i)) }

/-- The samples per lane of a P_RAW record: those of a slot cycle from its slot-0 launch to the end of its last record, at
most to the next slot-0 launch (R186). -/
def pRawCount (m : Nat → Word) (p : Nat) : Nat :=
  Nat.min (recordOf m p + (slotsOf m p - 1) * spacingOf m p * lps m) (periodOf m p * lps m)

/-- The P_RAW record of the slot cycle whose slot-0 launch took lane number `no`: the packed-14 blocks of each lane of the
port's group, with 0 for a sample the lane does not hold (R186). -/
def pRawRecord (s : State) (p no : Nat) : List (List Byte) :=
  let n := pRawCount (cfg s) p
  (lanesOf (cfg s) p).map fun lane => pack14 (ceilDiv n 16) ((laneSlice s lane no n).map (·.getD 0))

/-- A record of a lane becomes ready, and the next one follows it. -/
def rawPush (n lane j count fl : Nat) (s : State) : State :=
  let r := rawRec s lane j count fl
  let s := (freeNext s).2
  let x := stream s n
  setStream n { x with ready := x.ready ++ [r], nextLane := smIns lane (j + 1) x.nextLane } s

/-- What a lane still owes a stream when the clock has stopped: its whole records, and a short one that carries CLOCK. -/
def rawRest : Nat → Nat → Nat → Nat → State → State
  | 0, _, _, _, s => s
  | k + 1, n, lane, j, s =>
    let cur := laneSamples s s.cnt.smp
    let start := j * rawSpanOf s
    if cur ≤ start then s
    else if start + rawSpanOf s ≤ cur then rawRest k n lane (j + 1) (rawPush n lane j (rawSpanOf s) 0 s)
    else rawPush n lane j (cur - start) fCLOCK s

/-- The sample clock has stopped: the records in progress are cut (R349). -/
def rawCut (s : State) : State :=
  each (rawStreams s) (fun n s =>
    each (bitsOf 16 (streamLanes (cfg s) n)) (fun lane s =>
      if laneLight s lane then
        let j := rawNext s n lane
        rawRest ((laneSamples s s.cnt.smp - j * rawSpanOf s) / rawSpanOf s + 1) n lane j s
      else s) s) s

end Sys2Proof.Machine
end

