-- ==== Sys2Proof/Machine/Ports.lean ====
section
/-!
DEFINITION. The Ethernet ports (R337 to R347, R360, R361): which frame a port starts next, what its last bit settles,
link loss and return, the streams that move, and the addresses.
-/

namespace Sys2Proof.Machine

/-- A register of port `p` (R370). -/
def ethA (p off : Nat) : Nat := 0xA0000 + 0x1000 * p + off

/-- The PCP a stream sends with: 7 is sent as 6 (R345). -/
def streamPcp (s : State) (n : Nat) : Nat := Nat.min 6 (cfgF s (streamAt n) 16 3)

/-- The words of an address register group as a number, network byte order (R370). -/
def netNum (ws : List Word) : Nat := (ws.flatMap wordBytes).foldl (fun a b => 256 * a + b.toNat) 0

/-- Word `i` of `n` of an address register group. -/
def netWord (n i v : Nat) : Word := wd (ofLe (slice (4 * i) 4 (be (4 * n) v)))

/-! ### What a port sends (R345, R353 to R357, R364, R365) -/

/-- The flags of a packet that depend on the port it leaves on (R354). -/
def movedFlag (s : State) (p n : Nat) : Nat := if p = homePort s n then 0 else 0x200

/-- SRC of a GAP marker: what the stream's own records bear where the stream has one source (R353). -/
def markerSrc (s : State) (n : Nat) : Nat :=
  match streamType s n with
  | 1 | 2 => cfgF s (streamAt n + 4) 0 2
  | 3 => cfgF s (streamAt n + 4) 0 6
  | _ => 0

/-- A GAP marker of a stream over some numbers (R353, R357, R364). -/
def marker (s : State) (n flags first count reason tx : Nat) (t : Stamp) (q : Byte) : Rec :=
  let d := destOf s n
  let key := if bit (destCtrl d) 3 then some (fld (destCtrl d) 4 4) else none
  { typ := streamType s n, flags := 0x20 ||| flags ||| (if key.isSome then 0x10000 else 0), seq := first, src := markerSrc s n,
    product := reason, tqb := q, stamp := t, txCount := tx, aux := count, dest := d, keySlot := key }

/-- Whether a replay window holds a number of a range. -/
def inReplay (x : Stream) (first count : Nat) : Bool := x.window.any fun w => decide (first ≤ w.seq ∧ w.seq < first + count)

/-- The stored bytes of a record of a replay window, and which of its bursts read poisoned. -/
def windowBytes (s : State) (n : Nat) (w : WinRec) : List Byte × List Bool :=
  match smFind n s.spt.windows with
  | none => ([], [])
  | some (base, size) =>
    let head := Nat.min w.bytes (size - w.addr)
    let a := dramBytes s (base + w.addr) head
    let b := dramBytes s base (w.bytes - head)
    ((a.1 ++ b.1).take w.len, dramMarks s (base + w.addr) head ++ dramMarks s base (w.bytes - head))

/-- A stored packet as it is sent again: RETRANSMIT, MOVED where it applies, TX_COUNT raised, and a fresh GMAC tag. -/
def resendBytes (s : State) (p n : Nat) (w : WinRec) : List Byte :=
  let b := (windowBytes s n w).1
  let flags := leAt b 4 4
  let flags := (if nbit flags 9 then flags - 0x200 else flags) ||| 0x40 ||| movedFlag s p n
  let b := b.take 4 ++ le 4 flags ++ slice 8 0x2C b ++ le 2 (w.tx + 1) ++ b.drop 0x36
  match w.keySlot with
  | none => b
  | some k => b ++ Config.gmac (smGet [] k s.sec.gmac) (le 2 n ++ le 8 w.seq ++ le 2 (w.tx + 1)) b

/-- What answers the first number of a range to send again (R364). -/
def resendItem (s : State) (n first count : Nat) : Retx :=
  let x := stream s n
  match x.window.find? fun w => decide (first ≤ w.seq) with
  | none => .expired first count
  | some w =>
    if first < w.seq then .expired first (Nat.min count (w.seq - first))
    else if 65535 ≤ w.tx then .expired first 1
    else if (windowBytes s n w).2.headD false then .poisoned first
    else .record w

/-- The next thing a stream has to send on a port, and its destination: retransmissions before live records, in the
stream's own order, within the rate of R364, and nothing while it waits for its next hop (R343, R345, R358 to R361). -/
def nextItem (s : State) (p n : Nat) : Option (Tx × List Word) :=
  let x := stream s n
  let live (q : List QItem) : Option (Tx × List Word) :=
    match q with
    | [] => none
    | .data r :: _ => if routeOk s p r.dest then some (.item n (.data r), r.dest) else none
    | .gap runs :: _ => if routeOk s p (destOf s n) then some (.item n (.gap (runs.take 1)), destOf s n) else none
  if streamHalted s n || (port s p).paused.getLsbD (streamPcp s n) then none
  else if carryPort s n = p then
    if x.other ≠ [] then none
    else match x.retx with
      | [] => live x.queue
      | (first, count) :: _ =>
        let r := resendItem s n first count
        let d := match r with | .record w => w.dest | _ => destOf s n
        if s.cnt.ticks < (port s p).retxAt then live x.queue
        else if routeOk s p d then some (.retx n r, d) else none
  else live x.other

/-- The record that a thing to send becomes on the wire, for everything but a stored record. -/
def txRec (s : State) (p n : Nat) (i : QItem) : Rec :=
  match i with
  | .data r => { r with flags := r.flags ||| movedFlag s p n }
  | .gap [] => marker s n (movedFlag s p n) 0 0 0 0 0 0
  | .gap (g :: _) =>
    marker s n (movedFlag s p n ||| (if inReplay (stream s n) g.first g.count then 0x100 else 0)) g.first g.count g.reason 0 g.stamp g.tqb

/-- The packet bytes from the Spout header on. A marker over numbers that the window no longer holds bears a creation
stamp and a TX_COUNT that the device no longer knows. -/
def txBytes (s : State) (p : Nat) : Tx → List Byte
  | .frame f => f.bytes
  | .item n i => packetBytes s n (txRec s p n i)
  | .retx n (.record w) => resendBytes s p n w
  | .retx n (.expired first count) =>
    let f := (freeNext s).1
    packetBytes s n (marker s n (movedFlag s p n ||| 0xC0) first count 0 (f % 65536) (f / 65536) (BitVec.ofNat 8 (f / 2 ^ 40)))
  | .retx n (.poisoned seq) =>
    let f := (freeNext s).1
    packetBytes s n (marker s n (movedFlag s p n ||| 0x50) seq 1 0 (f % 65536) (f / 65536) (BitVec.ofNat 8 (f / 2 ^ 40)))

/-- The bytes of a packet that count for its frame's length. -/
def txLen (s : State) (p n : Nat) (d : List Word) (t : Tx) : Nat :=
  let body := match t with
    | .frame f => f.bytes.length
    | .item _ i => recBytes (txRec s p n i)
    | .retx _ (.record w) => w.len + (if w.keySlot.isSome then 16 else 0)
    | .retx _ _ => 64 + (if bit (destCtrl d) 3 then 16 else 0)
  frameBytes s p d body

/-- The addressing of a Spout frame (R341, R342, R348, R360, R371). -/
def headOf (s : State) (p n : Nat) (d : List Word) : Head :=
  let x := port s p
  let v6 := bit (destCtrl d) 2
  let src := fld (d.getD 1 0) 0 16
  { tag := if cfgB s (ethA p 0) 4 then some (cfgF s (ethA p 0) 8 12, streamPcp s n) else none,
    raw := bit (destCtrl d) 1, v6 := v6,
    dst := if bit (destCtrl d) 1 then netNum ((d.drop 2).take 2) / 65536 else destAddr d,
    src := if v6 then x.ip6 else x.ip4,
    srcPort := if src = 0 then 29461 else src, dstPort := fld (destCtrl d) 16 16 }

/-- EVENT and LEDGER streams are class B, the others class C (R345). -/
def classB (s : State) (n : Nat) : Bool := decide (streamType s n = 4 ∨ streamType s n = 5)

/-- The streams of a class that have a frame ready on a port, ascending. -/
def readyStreams (s : State) (p : Nat) (b : Bool) : List (Nat × (Tx × List Word)) :=
  s.spt.streams.filterMap fun (n, _) =>
    if classB s n = b then (nextItem s p n).map fun t => (n, t) else none

/-- The stream that deficit round robin serves next: the one served last while its next frame fits its deficit, else the
next in ascending order, wrapping; its deficit before the frame (R345). The quantum is never less than a frame. -/
def drrPick (s : State) (p last : Nat) (l : List (Nat × (Tx × List Word))) : Option (Nat × Nat × (Tx × List Word)) :=
  match l.find? fun e => decide (e.1 = last ∧ txLen s p e.1 e.2.2 e.2.1 ≤ (stream s e.1).deficit) with
  | some e => some (e.1, (stream s e.1).deficit, e.2)
  | none =>
    match l.filter (fun e => decide (last < e.1)) ++ l.filter (fun e => decide (e.1 ≤ last)) with
    | [] => none
    | e :: _ => some (e.1, (stream s e.1).deficit + 9216, e.2)

/-- A marker whose first number the window no longer tells of uses a free value. -/
def usesFree : Tx → Bool
  | .retx _ (.expired _ _) => true
  | .retx _ (.poisoned _) => true
  | _ => false

/-- A GAP run in transmission leaves its entry, so that later numbers do not join it. -/
def takeRun (q : List QItem) : List QItem :=
  match q with
  | .gap (_ :: []) :: q => q
  | .gap (_ :: runs) :: q => .gap runs :: q
  | q => q

/-- A GAP run that was not sent returns to the front of its queue (R338, R357). -/
def putRun (runs : List Gap) (q : List QItem) : List QItem :=
  match q with
  | .gap l :: q => .gap (runs ++ l) :: q
  | q => .gap runs :: q

/-- Changes the queue of a stream that a port sends from. -/
def onQueue (p n : Nat) (f : List QItem → List QItem) (s : State) : State :=
  let x := stream s n
  if carryPort s n = p then setStream n { x with queue := f x.queue } s else setStream n { x with other := f x.other } s

/-- The tick from which a port may start a retransmission after one of some bytes: REPLAY_GBPS, taken in GB/s as
MIGRATE_GBPS is (R364, R371; DEDUCED: log 217). -/
def retxNext (s : State) (p len : Nat) : Nat :=
  Nat.max s.cnt.ticks (port s p).retxAt + ceilDiv len (2 * clampN 1 100 (cfgF s 0xB0000 16 8))

/-- The tick from which a port may start a retransmission once it has started a frame of a stream. -/
def retxAfter (s : State) (p n : Nat) (d : List Word) (t : Tx) : Nat :=
  match t with
  | .retx _ _ => retxNext s p (txLen s p n d t)
  | _ => (port s p).retxAt

/-- A port starts a frame of a stream. -/
def startItem (p n deficit : Nat) (b : Bool) (t : Tx) (d : List Word) (s : State) : State :=
  let x := port s p
  let wire := txBytes s p t
  let len := txLen s p n d t
  let x := { x with tx := some t, wire := wire, head := headOf s p n d, retxAt := retxAfter s p n d t,
                    drrB := if b then n else x.drrB, drrC := if b then x.drrC else n }
  let s := if usesFree t then (freeNext s).2 else s
  let s := setPort p x (setStream n { stream s n with deficit := deficit - len } s)
  let s := match t with
    | .item _ (.gap _) => onQueue p n takeRun s
    | .retx _ (.record w) => rnlCount 12 w.len s
    | _ => s
  rill (148 + 12 * p + streamPcp s n) (ceilDiv len 64) s

/-- The addressing of a class-A frame beside what the frame itself says: its tag. It carries PCP 7, with VID where the port
tags and with VID 0 where it does not; a PFC frame of such a port is untagged (R341, R345; DEDUCED: log 220). -/
def ownHead (s : State) (p : Nat) (f : Frame) : Head :=
  { tag := if cfgB s (ethA p 0) 4 then some (cfgF s (ethA p 0) 8 12, 7) else if f.kind = .pfc then none else some (0, 7) }

/-- FRAME_TX_START: the port starts its next frame from the first class that has one ready and not paused (R345). A port
with a fault starts none (R338). -/
def execFrameTxStart (port' : Fin 2) : State → Host.Outcome State Fault Refusal := run fun s =>
  let p := port'.val
  let x := port s p
  if x.up && !x.fault && x.tx.isNone then
    match x.classA with
    | f :: fs =>
      rill (148 + 12 * p + 7) (ceilDiv f.bytes.length 64)
        (setPort p { x with classA := fs, tx := some (.frame f), wire := f.bytes, head := ownHead s p f } s)
    | [] =>
      match drrPick s p x.drrB (readyStreams s p true) with
      | some (n, deficit, t, d) => startItem p n deficit true t d s
      | none =>
        match drrPick s p x.drrC (readyStreams s p false) with
        | some (n, deficit, t, d) => startItem p n deficit false t d s
        | none => s
  else s

/-- A 32-bit count that holds at its end. -/
def hold32 (v : Nat) : Nat := Nat.min (2 ^ 32 - 1) v

/-- MOVED of a stream's status record after a record has left on a port (R372). -/
def movedCount (s : State) (p n : Nat) : Nat :=
  let v := (stream s n).movedNo
  if p = homePort s n then v else hold32 (v + 1)

/-- The range in transmission of a stream goes on by some numbers; a finished REPLAY leaves (R364). -/
def retxAdvance (k : Nat) (x : Stream) : Stream :=
  match x.retx with
  | [] => x
  | (first, count) :: rest => { x with retx := if count ≤ k then rest else (first + k, count - k) :: rest }

/-- A stream with nothing left to send loses its deficit (R345). -/
def dropDeficit (x : Stream) : Stream :=
  if x.queue = [] ∧ x.other = [] ∧ x.retx = [] then { x with deficit := 0 } else x

/-- The numbers of a frame whose last bit has left count as delivered (R355, R364, R372). -/
def delivered (p : Nat) (t : Tx) (s : State) : State :=
  match t with
  | .frame _ => s
  | .item n (.data _) =>
    let s := onQueue p n (fun q => q.drop 1) s
    let x := stream s n
    let y := { x with data := x.data + 1, movedNo := movedCount s p n }
    setStream n (dropDeficit y) s
  | .item n (.gap runs) =>
    let x := stream s n
    setStream n (dropDeficit { x with gaps := x.gaps + (runs.map (·.count)).sum }) s
  | .retx n (.record w) =>
    let x := stream s n
    let up (v : WinRec) : WinRec := if v.seq = w.seq then { v with tx := v.tx + 1 } else v
    let y := { x with retransmitted := x.retransmitted + 1, window := x.window.map up, movedNo := movedCount s p n }
    setStream n (dropDeficit (retxAdvance 1 y)) s
  | .retx n (.expired _ count) =>
    let x := stream s n
    let y := { x with retransmitted := x.retransmitted + 1, expired := hold32 (x.expired + count) }
    raise 0xB0040 5 (setStream n (dropDeficit (retxAdvance count y)) s)
  | .retx n (.poisoned _) =>
    let x := stream s n
    setStream n (dropDeficit (retxAdvance 1 { x with retransmitted := x.retransmitted + 1 })) s

/-- FRAME_TX_END: the last bit of the frame leaves (R355). -/
def execFrameTxEnd (port' : Fin 2) : State → Host.Outcome State Fault Refusal := run fun s =>
  let p := port'.val
  match (port s p).tx with
  | none => s
  | some t =>
    let s := setPort p { port s p with tx := none, wire := [], head := {} } s
    rill (159 + 12 * p) 1 (delivered p t (addCnt64 (ethA p 0xA0) 1 s))

/-! ### Links (R338, R339, R101) -/

/-- A frame in transmission ends with an error; what it held stays at the head of its queue (R338). -/
def txAbort (p : Nat) (s : State) : State :=
  let x := port s p
  let s := setPort p { x with tx := none, wire := [], head := {} } s
  match x.tx with
  | some (.frame f) => setPort p { port s p with classA := f :: (port s p).classA } s
  | some (.item n (.gap runs)) => onQueue p n (putRun runs) s
  | _ => s

/-- A queue moved to a port: a record whose frame is too long there becomes GAP with reason FRAME (R360). -/
def movedQueue (s : State) (p : Nat) (q : List QItem) : List QItem :=
  q.foldl (fun acc i => match i with
    | .data r =>
      if maxFrame (cfg s) p < frameBytes s p r.dest (recBytes r) then
        addGap { first := r.seq, count := 1, reason := 5, stamp := r.stamp, tqb := r.tqb } acc
      else acc ++ [i]
    | .gap runs => runs.foldl (fun a g => addGap g a) acc) []

/-- Whether a move makes some record GAP. -/
def movedLoses (s : State) (p : Nat) (q : List QItem) : Bool :=
  q.any fun i => match i with
    | .data r => decide (maxFrame (cfg s) p < frameBytes s p r.dest (recBytes r))
    | .gap _ => false

/-- A stream whose home port is down moves to the other port where that is up (R360). -/
def moveStream (n : Nat) (s : State) : State :=
  let h := homePort s n
  let x := stream s n
  if !x.moved && portDown s h && (port s (1 - h)).up && !noFailover s n then
    let q := x.other ++ x.queue
    let lost := movedLoses s (1 - h) q
    raiseIf lost 0xB0040 4 (raise 0xB0040 2
      (setStream n { x with moved := true, queue := movedQueue s (1 - h) q, other := [] } s))
  else s

/-- Every stream stands where R360 puts it. -/
def placeStreams (s : State) : State :=
  each ((s.spt.streams.map (·.1)) ++ (enabledStreams s.regs.active).filter fun n => (smFind n s.spt.streams).isNone) moveStream s

/-- A port goes down: its streams move, and PTP and the budgets follow (R26, R101, R107, R338). -/
def portGoesDown (p : Nat) (s : State) : State :=
  if (port s p).up then
    let s := txAbort p s
    let s := setPort p { port s p with up := false, fault := false, paused := 0 } s
    budgetCheck (ptpLinkLost p (placeStreams (raise (ethA p 0x80) 1 s)))
  else s

/-- LINK_FAULT: the reconciliation sublayer signals a local or remote fault (R338). -/
def execLinkFault (port' : Fin 2) : State → Host.Outcome State Fault Refusal := run fun s =>
  let p := port'.val
  if (port s p).up && !(port s p).fault then
    let s := txAbort p s
    setPort p { port s p with fault := true, faultAt := s.cnt.ticks } s
  else s

/-- LINK_HOLD of a port in ticks (R338, R370). -/
def linkHold (s : State) (p : Nat) : Nat := 500 * Nat.max 1 (cfgF s (ethA p 0x10) 0 16)

/-- FAULT_CLEAR: the fault clears within LINK_HOLD and the port resumes; past it the port is down (R338). -/
def execFaultClear (port' : Fin 2) : State → Host.Outcome State Fault Refusal := run fun s =>
  let p := port'.val
  if (port s p).up && (port s p).fault then
    if (port s p).faultAt + linkHold s p < s.cnt.ticks then portGoesDown p s
    else raise (ethA p 0x80) 2 (setPort p { port s p with fault := false } s)
  else s

/-- LINK_HOLD_EXPIRY: the fault has outlasted LINK_HOLD and the port is down (R338). -/
def execLinkHoldExpiry (port' : Fin 2) : State → Host.Outcome State Fault Refusal := run fun s =>
  let x := port s port'.val
  if x.fault && decide (x.faultAt + linkHold s port' ≤ s.cnt.ticks) then portGoesDown port'.val s else s

/-- SERDES_PLL_UNLOCK: a SerDes PLL unlocks or its reference is lost; the port loses link, and its PLL starts again
(R101, R338). -/
def execSerdesPllUnlock (port' : Fin 2) : State → Host.Outcome State Fault Refusal := run fun s =>
  let s := portGoesDown port'.val s
  setPort port' { port s port' with pllAt := s.cnt.ticks } s

/-- The static IPv4 address of a port, where DHCP is 0 (R342); 0 is no address. -/
def staticAddr (p : Nat) (s : State) : State :=
  let x := port s p
  let c := cfg s (ethA p 0x20)
  if bit c 0 then s
  else
    let a := netNum [cfg s (ethA p 0x24)]
    let y := { x with ip4 := a, ip4Valid := decide (a ≠ 0), pre4 := clampN 0 32 (fld c 8 6), gw4 := netNum [cfg s (ethA p 0x28)] }
    raiseIf (decide (a ≠ 0) && decide (x.ip4 ≠ a ∨ !x.ip4Valid)) (ethA p 0x80) 3 (setPort p y s)

/-- LINK_UP: the port's link comes up, no earlier than 10 ms after its SerDes PLL started (R338, R339). -/
def execLinkUp (port' : Fin 2) : State → Host.Outcome State Fault Refusal := run fun s =>
  let p := port'.val
  let x := port s p
  let mode := portMode (cfg s) p
  if decide (s.boot = .up) && decide (mode ≠ 0) && !x.up && decide (x.pllAt + 10 * msTicks ≤ s.cnt.ticks) then
    let s := setPort p { x with up := true, wasUp := true, fault := false, mode := mode, upSince := s.cnt.ticks } s
    budgetCheck (placeStreams (staticAddr p (raise (ethA p 0x80) 0 s)))
  else s

/-- STREAM_RETURN: the home port has been up for RETURN_S; records created from now on queue there (R361). -/
def execStreamReturn (n : Nat) : State → Host.Outcome State Fault Refusal := run fun s =>
  let x := stream s n
  let y := port s (homePort s n)
  if x.moved && y.up && decide (y.upSince + secTicks * cfgF s (ethA (homePort s n) 0x10) 16 16 ≤ s.cnt.ticks) then
    raise 0xB0040 3 (setStream n { x with moved := false, other := x.queue, queue := [] } s)
  else s

/-! ### Addresses and neighbours (R342, R343) -/

/-- DHCP_LEASE_EXPIRY: the port has no IPv4 address until a new lease arrives. -/
def execDhcpLeaseExpiry (port' : Fin 2) : State → Host.Outcome State Fault Refusal := run fun s =>
  let p := port'.val
  let x := port s p
  if cfgB s (ethA p 0x20) 0 && x.ip4Valid then raise (ethA p 0x80) 5 (setPort p { x with ip4Valid := false, ip4 := 0 } s) else s

/-- DHCP_RENEWAL: a lease is acquired or renewed, with its subnet mask and router. -/
def execDhcpRenewal (port' : Fin 2) (addr pre gw : Nat) : State → Host.Outcome State Fault Refusal := run fun s =>
  let p := port'.val
  let x := port s p
  if cfgB s (ethA p 0x20) 0 && x.up then
    raiseIf (!x.ip4Valid || decide (x.ip4 ≠ addr)) (ethA p 0x80) 3
      (setPort p { x with ip4 := addr, ip4Valid := true, pre4 := Nat.min 32 pre, gw4 := gw } s)
  else s

/-- The link-local address of a port: the modified EUI-64 of its MAC (R342). -/
def ownLinkLocal (s : State) (p : Nat) : Nat :=
  let mac := ofLe (otpBytes s (0x18 + 6 * p) 6).reverse
  let eui := (mac / 2 ^ 24 ^^^ 0x020000) * 2 ^ 40 + 0xFFFE * 2 ^ 24 + mac % 2 ^ 24
  0xFE80 * 2 ^ 112 + eui

/-- Whether an IPv6 address is link-local. -/
def linkLocal6 (a : Nat) : Bool := decide (a / 2 ^ 118 = 0x3FA)

/-- DAD_COMPLETE: duplicate address detection of an IPv6 address has completed (R342). A global address is the static
one, or with SLAAC that of a router's prefix, with the router as gateway. -/
def execDadComplete (port' : Fin 2) (addr gw : Nat) (ok : Bool) : State → Host.Outcome State Fault Refusal := run fun s =>
  let p := port'.val
  let x := port s p
  let c := cfg s (ethA p 0x30)
  let slaac := bit c 0
  let fixed := netNum ((List.range 4).map fun i => cfg s (ethA p (0x34 + 4 * i)))
  let fixedGw := netNum ((List.range 4).map fun i => cfg s (ethA p (0x44 + 4 * i)))
  let fits := if linkLocal6 addr then decide (addr = ownLinkLocal s p) else slaac || decide (addr = fixed)
  if !x.up || !fits then s
  else if !ok then raise (ethA p 0x80) 4 s
  else if linkLocal6 addr then setPort p { x with linkLocalOk := true } s
  else
    let y := { x with ip6 := addr, ip6Valid := true, pre6 := if slaac then 64 else clampN 0 128 (fld c 8 8),
                      gw6 := if slaac then gw else fixedGw }
    raiseIf (!x.ip6Valid || decide (x.ip6 ≠ addr)) (ethA p 0x80) 3 (setPort p y s)

/-- NEXT_HOP_RETRY: every 1 s each unresolved next hop is asked for again (R343). -/
def execNextHopRetry (port' : Fin 2) : State → Host.Outcome State Fault Refusal := run fun s =>
  let p := port'.val
  let x := port s p
  if x.up && decide (x.retryAt ≤ s.cnt.ticks) then
    let ask (h : Nat) : Frame := { kind := if h < 2 ^ 32 then .arp else .ndp, dst := h, bytes := [] }
    setPort p { x with retryAt := nextDue s x.retryAt secTicks, classA := x.classA ++ x.want.map ask } s
  else s

/-! ### Flow control (R344) -/

/-- A PFC frame for the priorities of PFC_TX: XOFF, or XON; it joins class A. -/
def pfcSend (p : Nat) (xoff : Bool) (s : State) : State :=
  let x := port s p
  let mask := cfgF s (ethA p 0x14) 8 7
  let s := setPort p { x with xoff := xoff, classA := x.classA ++ [{ kind := .pfc, dst := 0, bytes := le 1 mask ++ le 1 (b2n xoff) }] } s
  if xoff then addCnt (ethA p 0xC8) 1 s else s

/-- XON_SEND: the bulk buffer has fallen below 128 KiB (R344). -/
def execXonSend (port' : Fin 2) : State → Host.Outcome State Fault Refusal := run fun s =>
  let p := port'.val
  let x := port s p
  if x.xoff && decide (x.bulk < 131072) then pfcSend p false s else s

/-- PFC_PAUSE_EXPIRY: the pause time of a priority runs out (R344). -/
def execPfcPauseExpiry (port' : Fin 2) (prio : Fin 8) : State → Host.Outcome State Fault Refusal := run fun s =>
  let p := port'.val
  let x := port s p
  setPort p { x with paused := x.paused &&& ~~~(BitVec.ofNat 8 (2 ^ prio.val)) } s

end Sys2Proof.Machine
end

