-- ==== Sys2Proof/Machine/Converter.lean ====
section
/-!
DEFINITION. The converter array (05_converter_array): rotation, quick calibration, retirement, the in-service check,
foreground windows, FAILED converters and the fallback of their fibre ports, powered inputs and their ledgers.
-/

namespace Sys2Proof.Machine

/-- A register of converter `c` (R142). -/
def cvA (c off : Nat) : Nat := 0x21000 + 0x100 * c + off

/-! ### Coefficients and checks (R120, R123) -/

/-- The code of the first check of R123 that a slice fails, in the order gain, offset, skew, built-in test (DESIGN CHOICE:
log 194); 0 where it passes all. -/
def sliceCheck (m : SliceMeas) : Nat :=
  let o := rhe (4 * m.offset) (2 ^ 16)
  let t := -(rhe (64 * m.skew) (2 ^ 16))
  if 3 * 2 ^ 32 < 100 * m.gainErr.natAbs then 1
  else if 2 ^ 32 < 100 * m.offset.natAbs ∨ 2621 < o.natAbs then 2
  else if t < -128 ∨ 127 < t then 3
  else if m.bist then 0
  else 4

/-- New coefficients of a slice, as its COEF registers hold them (R120). -/
def loadCoef (c slice : Nat) (m : SliceMeas) (s : State) : State :=
  let g := rhe (2 ^ 47) (2 ^ 32 + m.gainErr).toNat
  let o := rhe (4 * m.offset) (2 ^ 16)
  let t := -(rhe (64 * m.skew) (2 ^ 16))
  setHw (cvA c (0x44 + 8 * slice)) (wd (twos 18 o + 2 ^ 24 * twos 8 t)) (setHw (cvA c (0x40 + 8 * slice)) (wd (satU 16 g).toNat) s)

/-! ### Substitutions (R125, R126, R193) -/

/-- A substitution on position `q` as a shot in progress records it, on the lane of role `r`, place `j` of the lane. -/
def shotSub (m : Nat → Word) (p r j q edge : Nat) (t : Shot) : Shot :=
  let i : Int := ((edge : Int) + q - t.tick) * lps m + j
  if t.cut.isNone && decide (0 ≤ i ∧ i < recordOf m p) then
    { t with subFirst := smIns r (match smFind r t.subFirst with | some v => Nat.min v i.toNat | none => i.toNat) t.subFirst,
             subCount := smIns r (smGet 0 r t.subCount + 1) t.subCount }
  else t

/-- The shots in progress of the lane's fibre port record a substitution. -/
def shotsSub (c q : Nat) (s : State) : State :=
  let m := cfg s
  let lane := laneOfConv m c
  match portOfLane m lane with
  | none => s
  | some p =>
    let r := (lanesOf m p).findIdx (· = lane)
    let x := lch s p
    setLch p { x with shots := x.shots.map (shotSub m p r (c - lps m * lane) q (sliceEdge s)) } s

/-- Slice clocks from the restart of lane sample indices to the next slice-clock edge (R126). -/
def sliceIndex (s : State) : Nat := ceilDiv (s.cnt.smp - s.cnv.base) 32000

/-- A slice takes over a position at the next slice-clock edge; it answers the slice that goes out (R125, R126). -/
def substitute (c q into : Nat) (quick : Bool) (s : State) : Nat × State :=
  let x := conv s c
  let out := x.pos.getD q 0
  let s := shotsSub c q s
  let s := setHw (cvA c 0x18) (wd (q + 16 * into + 256 * out + 4096 * b2n quick)) s
  let s := addCnt64 (cvA c 8) 1 (setCnt64 (cvA c 0x10) (sliceIndex s) s)
  (out, setConv c { conv s c with pos := x.pos.set q into, swaps := (ceilDiv s.cnt.smp 32000, q, out) :: x.swaps } s)

/-! ### Lost lanes (R132, R139) -/

/-- What the loss of lanes asks of the field a hardware override may change in CNV_FPn_CFG (R139). -/
def fallbackOf (m : Nat → Word) (p : Nat) (lost : List Bool) : Option Override :=
  let a := 0x20010 + 4 * p
  let off : Override := { addr := a, mask := 7, value := 0 }
  let use (v : Nat) : Override := { addr := a, mask := 0x300000, value := wd (v * 2 ^ 20) }
  let x := match fpMode m p with
    | 1 => lost.getD 0 false || lost.getD 1 false
    | _ => lost.getD 0 false
  let y := match fpMode m p with
    | 1 => lost.getD 2 false || lost.getD 3 false
    | _ => lost.getD 1 false
  match fpMode m p with
  | 1 | 4 => if x && y then some off else if x then some (use 2) else if y then some (use 1) else none
  | 2 => if x || y then some off else none
  | 3 => if x then some off else none
  | _ => none

/-- A hardware override is named in the registers of R55. -/
def noteOverride (o : Override) (s : State) : State :=
  let low := ((List.range 32).find? fun i => bit o.mask i).getD 0
  raise 0x10 3 (setHw 0x3C (wd low) (setHw 0x38 (wd o.addr) s))

/-- The override that lost lanes ask of a fibre port takes effect at its next shot boundary, at once where it makes no
launch (R139). -/
def laneFallback (c slice p : Nat) (s : State) : State :=
  let m := cfg s
  match fallbackOf m p ((lanesOf m p).map (laneFailed s m)) with
  | none => s
  | some o =>
    let off := decide (o.mask = 7)
    let x := lch s p
    let edge := sliceEdge s
    let roles := lostRoles s p
    let late (t : Shot) : Shot :=
      if decide (edge < t.tick + ceilDiv (recordOf m p) (lps m)) then
        let at' := (edge - t.tick) * lps m
        { t with flags := t.flags ||| fDEGRADED,
                 lost := roles.foldl (fun a r => if (smFind r a).isSome then a else smIns r at' a) t.lost }
      else t
    let s := setLch p { x with fallback := x.fallback ++ [o], shots := x.shots.map late } s
    let s := cnvRaise c slice (if off then 3 else 2) (noteOverride o s)
    if launching s p && (lch s p).grid.isSome then s else overridesApply p s

/-! ### Quick calibration (R119, R127, R128) -/

/-- Whether a port makes launches: armed, the sample clock running and its grid begun. -/
def makesLaunches (s : State) (p : Nat) : Bool := launching s p && (lch s p).grid.isSome

/-- A foreground window of FG_LEN slice clocks opens on a converter at the next slice-clock edge (R134). -/
def windowStart (c : Nat) (s : State) : State :=
  let x := conv s c
  let a := ceilDiv s.cnt.smp 32000
  setConv c { x with inWindow := true, wins := x.wins ++ [(a, a + fgLen (cfg s))] } s

/-- A converter's part in a quick calibration is over; its rotation period starts again (R124, R127). -/
def qcalEnd (c : Nat) (s : State) : State :=
  let x := conv s c
  setConv c { x with qcal := none, qcalWin := false, dark := s.cnv.modeCal, rotStart := s.cnt.smp,
                     lightPos := if x.dark && !s.cnv.modeCal then s.cnt.smp else x.lightPos } s

/-- Slice clocks of a rotation period, in units of the sample position: 2^ROT_LOG2 (R124, R142). -/
def rotLen (m : Nat → Word) : Nat := 32000 * 2 ^ clampN 16 24 (fld (m 0x20008) 0 5)

/-- Slice clocks of a quick-calibration step: 2^QCAL_LOG2 (R127, R142). -/
def stepLen (m : Nat → Word) : Nat := 32000 * 2 ^ clampN 12 16 (fld (m 0x20008) 8 5)

/-- The quick calibration of a converter on eight slices is one foreground window, placed as R128 says. -/
def qcalEight (c : Nat) (s : State) : State :=
  let m := cfg s
  let s := setConv c { conv s c with qcal := some 0, qcalWin := true } s
  match portOfLane m (laneOfConv m c) with
  | none => windowStart c s
  | some p =>
    let was := s.cnv.fgLate.getLsbD p
    if !makesLaunches s p then windowStart c s
    else if (fgPlan m p).isSome then s
    else
      let s := fgLateCheck p s
      qcalEnd c (if s.cnv.fgLate.getLsbD p && was then cnvRaise c 0 6 s else s)

/-- The quick calibration starts on a converter, or starts again (R127). -/
def qcalBegin (c : Nat) (s : State) : State :=
  let x := conv s c
  if !x.on || x.failed then s
  else if onEight x then qcalEight c s
  else setConv c { x with qcal := some 0, qcalWin := false, spareOk := false, stepStart := s.cnt.smp } s

/-- Converters that are powered. -/
def poweredConvs (s : State) : List Nat := (List.range 16).filter fun c => (conv s c).on

/-- A quick calibration of the powered converters among some begins. -/
def qcalRun (l : List Nat) (s : State) : State :=
  let l := l.filter fun c => (conv s c).on
  if l = [] then s else each l qcalBegin { s with cnv := { s.cnv with qcalOpen := true } }

/-- QCAL of CNV_CMD starts on every powered converter (R127). -/
def qcalAgain (s : State) : State :=
  let s := qcalRun (poweredConvs s) s
  if s.cnv.qcalOpen then s else cmdDone 0x20044 0 id s

/-- A quick calibration has completed on every converter it covered: QCAL_DONE, the lanes carry samples again, the
command completes, and the commits that waited for it (R94, R119, R142). `c` completed last, and `again` is what a queued
QCAL does. -/
def qcalFinish (again : State → State) (c : Nat) (s : State) : State :=
  if s.cnv.qcalOpen && (List.range 16).all fun k => (conv s k).qcal.isNone then
    let up (x : Conv) : Conv := { x with dark := false, lightPos := if x.dark then s.cnt.smp else x.lightPos }
    let light := (s.cnv.convs.map fun (k, x) => (k, up x)).filter fun (_, x) => decide (x ≠ {})
    let s := { s with cnv := { s.cnv with convs := light, qcalOpen := false, modeCal := false } }
    let s := cnvRaise c 0 5 s
    let s := if bit (hw s 0x20044) 0 then cmdDone 0x20044 0 again s else s
    let s := if s.cnv.qcalOpen ∨ s.clk.stopped then s else { s with clk := { s.clk with splRelock := [] } }
    flightsDone s
  else s

/-- A quick calibration that a converter may have completed; one that a queued QCAL starts may complete at once (R128). -/
def qcalCheck (c : Nat) (s : State) : State := qcalFinish (fun s => qcalFinish id c (qcalAgain s)) c s

/-- A quick calibration of the powered converters among some starts; where it completes at once on all of them it is over
(R127, R128). -/
def qcalStart (l : List Nat) (s : State) : State :=
  let l := l.filter fun c => (conv s c).on
  if l = [] then s else qcalCheck (l.headD 0) (qcalRun l s)

/-- QCAL of CNV_CMD starts on every powered converter (R127). -/
def qcalCommand (s : State) : State :=
  let s := qcalAgain (rill 86 1 s)
  qcalCheck ((poweredConvs s).headD 0) s

/-- FG_CAL of CNV_CMD completes when no window it asked for is left. -/
def fgCalCheck (again : State → State) (s : State) : State :=
  if bit (hw s 0x20044) 1 && (List.range 16).all fun k => !(conv s k).fgWant then cmdDone 0x20044 1 again s else s

/-- FG_CAL runs one window at once on every converter of a DIRECT lane that is on eight slices (R135). -/
def fgCalCommand (s : State) : State :=
  let m := cfg s
  let cs := ((directLanes m).flatMap (convsOf m)).filter fun c => onEight (conv s c)
  let s := each cs (fun c s => windowStart c (setConv c { conv s c with fgWant := true } s)) (rill 86 1 s)
  if cs = [] then cmdDone 0x20044 1 id s else s

/-! ### Retirement (R129 to R132) -/

/-! ### Input ledgers (R96, R138, R403) -/

/-- A term of an input's ledger (R422). -/
def inputLedger (c term : Nat) : Nat := 0xD0400 + 0x20 * c + 8 * term

/-- A lane is in use (R138). -/
def laneInUse (s : State) (lane : Nat) : Bool :=
  let m := cfg s
  (match portOfLane m lane with | some p => (lch s p).armed | none => false)
    || (s.cnv.direct && decide (lane ∈ directLanes m))
    || ((List.range 8).any fun u => (unitSt s u).armed &&
      (decide (unitSource m u = 0 ∧ unitLane m u = lane) || (captures m (.unit u) && nbit (capLanes m u) lane)))
    || ((enabledStreams s.regs.active).any fun n => decide (streamType s n = 0) && nbit (streamLanes m n) lane)
    || ((enabledWatches s.regs.active).any fun w => watchActive s w && bit (watchActions m w) 0 && nbit (groupMask m (watchFibre m w)) lane)

/-- Whether a slice clock lies in a foreground window of a converter. -/
def clockInWindow (x : Conv) (k : Nat) : Bool := x.wins.any fun w => decide (w.1 ≤ k ∧ k < w.2)

/-- The position of the sample clock from which a lane carries samples. -/
def lightFrom (s : State) (lane : Nat) : Nat := (convsOf (cfg s) lane).foldl (fun a c => Nat.max a (conv s c).lightPos) 0

/-- A lane is in use and carries samples in a slice clock. -/
def laneRuns (s : State) (lane k : Nat) : Bool :=
  laneInUse s lane && laneLight s lane && decide (lightFrom s lane ≤ 32000 * k)

/-- Slice clocks of a converter enter its ledger, elapsed and delivered or discarded (R138). -/
def clockTerms (c : Nat) (ks : List Nat) (s : State) : State :=
  let lane := laneOfConv (cfg s) c
  let out := (ks.filter fun k => laneRuns s lane k && !clockInWindow (conv s c) k).length
  addCnt64 (inputLedger c 2) (ks.length - out) (addCnt64 (inputLedger c 1) out (addCnt64 (inputLedger c 0) ks.length s))

/-- The slice clocks that have elapsed without a notice enter the ledger: no notice brings their samples (DESIGN CHOICE: log
213). -/
def clocksRest (c : Nat) (s : State) : State :=
  let x := conv s c
  if !x.on then s
  else
    let n := s.cnt.smp / 32000 - x.done
    clockTerms c ((List.range n).map (x.done + ·)) (setConv c { x with done := x.done + n } s)

/-- A converter is FAILED: powered down, its lane lost to units and to its fibre port (R132, R223). -/
def convFail (c slice : Nat) (s : State) : State :=
  let s := clocksRest c s
  let x := conv s c
  let s := setConv c { x with on := false, failed := true, qcal := none, qcalWin := false, dark := false, faulty := [],
                              inWindow := false, fgWant := false, rows := [] } s
  let s := cnvRaise c slice 1 s
  let m := cfg s
  let lane := laneOfConv m c
  let s := each (List.range 8) (fun u s =>
    if unitSource m u = 0 ∧ unitLane m u = lane then deviceDisarm u s else s) s
  let s := match portOfLane m lane with | some p => laneFallback c slice p s | none => s
  fgCalCheck fgCalCommand (qcalCheck c s)

/-- A slice is retired (R129); the second retirement of a converter makes it FAILED. -/
def retireSlice (c slice cause : Nat) (s : State) : State :=
  let x := conv s c
  let s := setConv c { x with retired := x.retired ||| BitVec.ofNat 9 (2 ^ slice), eightAt := s.cnt.ticks,
                              faulty := x.faulty.filter (· ≠ slice) } s
  let s := cnvRaise c slice 0 (setHw (cvA c 0x24) (wd (cause + 16 * slice)) (wearAdd 1 cause 0 (slice + 16 * c) s))
  if 2 ≤ popcount 9 (conv s c).retired.toNat ∧ !(conv s c).failed then convFail c slice s else s

/-- The converter is left without a spare: slices that an in-service check failed and that still serve have no
replacement (R130, R132), and the windows of the port are planned anew (R133). -/
def spareGone (c : Nat) (s : State) : State :=
  let s := setConv c { conv s c with spare := none, spareOk := false } s
  let s := each (conv s c).faulty (fun f s => retireSlice c f 5 s) s
  match portOfLane (cfg s) (laneOfConv (cfg s) c) with
  | some p => fgLateCheck p s
  | none => s

/-- The spare takes over from a slice that failed its in-service check, which is retired (R130). -/
def replaceFaulty (c f into : Nat) (quick : Bool) (s : State) : State :=
  let q := (conv s c).pos.findIdx (· = f)
  spareGone c (retireSlice c f 5 (substitute c q into quick s).2)

/-- The spare's calibration has ended: it takes over a position, or is retired (R125, R129, R130). -/
def spareEnd (c sp : Nat) (m : SliceMeas) (quick : Bool) (s : State) : State :=
  if sliceCheck m = 0 then
    let s := loadCoef c sp m s
    match (conv s c).faulty with
    | f :: _ => replaceFaulty c f sp quick s
    | [] =>
      let q := (conv s c).q
      let (out, s) := substitute c q sp quick s
      setConv c { conv s c with spare := some out, q := (q + 1) % 8, spareOk := false } s
  else spareGone c (retireSlice c sp (sliceCheck m) s)

/-- ROTATION_PERIOD_END: a rotation period of 2^ROT_LOG2 slice clocks ends with what was measured of the spare, and the
next one starts (R124, R125). -/
def execRotationPeriodEnd (c : Fin 16) (m : SliceMeas) : State → Host.Outcome State Fault Refusal := run fun s =>
  let x := conv s c
  let due := x.rotStart + rotLen (cfg s)
  match x.spare with
  | some sp =>
    if x.on && x.qcal.isNone && !s.clk.stopped && decide (due ≤ s.cnt.smp) then
      spareEnd c sp m false (setConv c { x with rotStart := due } s)
    else s
  | none => s

/-- QCAL_STEP_END: a step of the quick calibration ends, 2^QCAL_LOG2 slice clocks and its computation after it began; after
nine it is complete, and a converter that loses its spare goes on as one on eight slices (R127). -/
def execQcalStepEnd (c : Fin 16) (m : SliceMeas) : State → Host.Outcome State Fault Refusal := run fun s =>
  let x := conv s c
  match x.qcal, x.spare with
  | some k, some sp =>
    if x.qcalWin ∨ s.clk.stopped ∨ s.cnt.smp < x.stepStart + stepLen (cfg s) then s
    else
      let s := spareEnd c sp m true s
      if (conv s c).failed then s
      else if onEight (conv s c) then qcalCheck c (qcalEight c s)
      else if k + 1 < 9 then setConv c { conv s c with qcal := some (k + 1), stepStart := s.cnt.smp } s
      else qcalCheck c (qcalEnd c (setConv c { conv s c with spareOk := true } s))
  | _, _ => s

/-! ### The in-service check (R130) -/

/-- Twice the median of eight values: the two middle ones together. -/
def median2 (l : List Int) : Int :=
  let t := sortBy (fun a b => decide (a ≤ b)) l
  t.getD 3 0 + t.getD 4 0

/-- The positions whose statistics fail the check of R130; none where the signal is too small. -/
def iscFailed (l : List PosStat) : List Nat :=
  let mean := median2 (l.map (·.mean))
  let sq := median2 (l.map fun x => (x.meanSq : Int))
  if 2 ^ 47 < 100 * sq then
    (List.range 8).filter fun q => match l[q]? with
      | some x => decide (2 ^ 33 < 100 * (2 * x.mean - mean).natAbs) || decide (6 * sq < 100 * (2 * (x.meanSq : Int) - sq).natAbs)
      | none => false
  else []

/-- The spare has passed its calibration of the present rotation period, whose first half is over: `m` is what it
measured (R124, R130). -/
def sparePassed (s : State) (c : Nat) (m : Option SliceMeas) : Option SliceMeas :=
  let x := conv s c
  if x.qcal.isNone ∧ x.rotStart + rotLen (cfg s) / 2 ≤ s.cnt.smp then m.filter fun v => decide (sliceCheck v = 0) else none

/-- A position fails its check: SLICE_FAULT at the start of the block, and the outcome that R130 gives. -/
def iscFail (c q : Nat) (m : Option SliceMeas) (start : Stamp) (s : State) : State :=
  let x := conv s c
  let f := x.pos.getD q 0
  let s := raiseAt start (tqb s) c 0x20040 4 (setHw 0x20048 (wd (c + 16 * f)) s)
  match x.spare with
  | some sp =>
    if x.spareOk then replaceFaulty c f sp x.qcal.isSome s
    else match sparePassed s c m with
      | some v => replaceFaulty c f sp x.qcal.isSome (loadCoef c sp v s)
      | none => if f ∈ x.faulty then s else setConv c { conv s c with faulty := x.faulty ++ [f] } s
  | none => retireSlice c f 5 s

/-- ISC_BLOCK_END: the statistics of every position over a block that began at `start`, and what the spare's calibration
of the present rotation period has measured, if it has (R130). -/
def execIscBlockEnd (c : Fin 16) (stats : List PosStat) (start : Stamp) (m : Option SliceMeas) :
    State → Host.Outcome State Fault Refusal :=
  run fun s =>
  let x := conv s c
  if bit (cfg s 0x20008) 31 && x.on && !x.inWindow && !s.clk.stopped && decide (stats.length = 8) then
    let s := each (iscFailed stats) (fun q s => if (conv s c).on then iscFail c q m start s else s) s
    let y := conv s c
    if y.qcal.isSome && !y.qcalWin && onEight y then qcalCheck c (qcalEight c s) else s
  else s

/-! ### Foreground windows (R133 to R136) -/

/-- The start of the place that R133 gives a window of a port now, where it still fits before the next launch. -/
def fgPlace (s : State) (p : Nat) : Option Nat :=
  let t := ceilDiv s.cnt.smp 4000
  match (lch s p).fgSpan with
  | some (a, b) => if makesLaunches s p ∧ a ≤ t ∧ roundUp 8 t + 8 * fgLen (cfg s) ≤ b then some a else none
  | none => none

/-- FG_WINDOW_START: the window that R133 places on a converter on eight slices opens, once in each place. -/
def execFgWindowStart (c : Fin 16) : State → Host.Outcome State Fault Refusal := run fun s =>
  let m := cfg s
  let x := conv s c
  match (portOfLane m (laneOfConv m c)).bind (fgPlace s) with
  | none => s
  | some a =>
    if onEight x && !x.inWindow && !s.clk.stopped && decide (x.fgFrom ≠ a) then
      windowStart c (setConv c { x with fgFrom := a } s)
    else s

/-- The foreground window of a converter is over: FG_LEN slice clocks have passed (R134). -/
def windowOver (s : State) (x : Conv) : Bool := x.wins.all fun w => decide (32000 * w.2 ≤ s.cnt.smp)

/-- FG_WINDOW_END: every slice has been measured, `ms` by position. Those that pass take their coefficients; one that
fails is retired (R134). -/
def execFgWindowEnd (c : Fin 16) (ms : List SliceMeas) : State → Host.Outcome State Fault Refusal := run fun s =>
  let x := conv s c
  if x.inWindow && windowOver s x then
    let all := x.pos.zip ms
    let s := each (all.filter fun e => decide (sliceCheck e.2 = 0)) (fun e s => loadCoef c e.1 e.2 s) s
    let s := setConv c { conv s c with inWindow := false, fgWant := false, fgDone := s.cnt.ticks } (addCnt (cvA c 0x20) 1 s)
    let s := each (all.filter fun e => decide (sliceCheck e.2 ≠ 0)) (fun e s => retireSlice c e.1 (sliceCheck e.2) s) s
    let s := if (conv s c).qcalWin then qcalCheck c (qcalEnd c s) else s
    fgCalCheck fgCalCommand s
  else s

/-! ### Powered inputs and their ledgers (R75, R138, R403) -/

/-- The lanes that a configuration names, with the units that are armed (R75, R470). -/
def namedLanes (m : Nat → Word) (ss : List Nat) (armed : Nat → Bool) : List Nat :=
  ((List.range 4).flatMap (lanesOf m)) ++ directLanes m
    ++ ((List.range 8).filter fun u => unitEnabled m u || armed u).flatMap (fun u =>
      unitLane m u :: (if captures m (.unit u) then bitsOf 16 (capLanes m u) else []))
    ++ (ss.filter fun n => decide (fld (m (streamAt n)) 1 3 = 0)).flatMap (fun n => bitsOf 16 (streamLanes m n))
    ++ ((List.range 4).filter fun e => decide (polSource m e = 3)).map (polLane m)

/-- The lanes of RAW engines whose copy waits for its shot boundary; they are powered from the commit on (R75). -/
def pendingLanes (s : State) : List Nat :=
  s.regs.pend.filterMap fun (g, w) => if g = 0 ∨ 4 < g ∨ polSource (imageGet w) (g - 1) ≠ 3 then none else some (polLane (imageGet w) (g - 1))

/-- A converter whose input the configuration in force names. -/
def convNamed (s : State) (c : Nat) : Bool :=
  let m := cfg s
  decide (laneOfConv m c ∈ pendingLanes s ++ namedLanes m (enabledStreams s.regs.active) fun u => (unitSt s u).armed)

/-- The slice clocks of a clock loss so far, measured in device time and rounded, enter the ledger of every powered
input (R96). A step of device time during the stop enters the measured duration (DESIGN CHOICE: log 201). -/
def lossCount (s : State) : State :=
  if s.clk.stopped && s.clk.loss then
    let n := (rhe ((now s - s.clk.stopStart) * fsHz (cfg s)) (8 * second)).toNat
    let s := each (poweredConvs s) (fun c s => addCnt64 (inputLedger c 3) n (addCnt64 (inputLedger c 0) n s)) s
    { s with clk := { s.clk with stopStart := now s } }
  else s

/-- A powered-down converter keeps its slices and its coefficients, and starts afresh when it is powered (R124). -/
def convOff (c : Nat) (s : State) : State :=
  let s := clocksRest c s
  setConv c { conv s c with on := false, qcal := none, qcalWin := false, dark := false, inWindow := false, fgWant := false,
                            spareOk := false, wins := [], rows := [] } s

/-- With no converter left in it, the quick calibration of R119 is over. -/
def modeCalDone (s : State) : State := if s.cnv.qcalOpen then s else { s with cnv := { s.cnv with modeCal := false } }

/-- Inputs that the configuration names are powered, and run the quick calibration before their lanes carry samples;
the others are powered down (R75). -/
def powerUpdate (s : State) : State :=
  let gone := (List.range 16).filter fun c => (conv s c).on && !convNamed s c
  let come := (List.range 16).filter fun c => !(conv s c).on && !(conv s c).failed && convNamed s c
  let s := each gone convOff (if gone = [] ∧ come = [] then s else lossCount s)
  let s := if gone = [] then s else fgCalCheck fgCalCommand (qcalCheck (gone.headD 0) s)
  let at' := ceilDiv s.cnt.smp 32000
  let s := each come (fun c s => setConv c { conv s c with on := true, dark := true, done := at', rows := [], rowsAt := at' } s) s
  modeCalDone (qcalStart come s)

/-- The quick calibration of R119 on every powered converter, with those that the same commit powers: no lane carries
samples until the last completes. -/
def modeCalibrate (s : State) : State :=
  let on := poweredConvs s
  let s := each on (fun c s => setConv c { conv s c with dark := true, inWindow := false, wins := [] } s) s
  qcalStart on { s with cnv := { s.cnv with modeCal := true } }

/-- Time holdoffs of the units that count on lane samples keep their instant over a restart of the indices (R223,
R234). -/
def holdsShift (clocks : Nat) (s : State) : State :=
  each (List.range 8) (fun u s =>
    match (unitSt s u).hold with
    | .until t => setUnit u { unitSt s u with hold := .until (t - clocks) } s
    | _ => s) s

/-- Lane sample indices restart at 0 with the next slice clock, which every armed lane unit takes as a start of the
sample clock (R119, R219, R223). Triggers whose record the restart cuts are skipped (R208), and the records of RAW
streams begin anew (R349). -/
def indicesRestart (s : State) : State :=
  let s := holdsShift ((s.cnt.str - s.cnv.strBase) / 16000) s
  let s := each (List.range 4) (fun e s =>
    let n := (pol s e).trigs.length
    each (List.range n) (fun _ s => poolSkip e s) (setPol e { pol s e with trigs := [], lastEnd := none } s)) s
  let s := each (rawStreams s) (fun n s => setStream n { stream s n with nextLane := [] } s) s
  let first := ceilDiv s.cnt.smp 32000
  let runs := s.cnv.lanes.map fun (_, r) => ceilDiv (r.start + r.xs.length) 16 - s.cnv.origin
  let past := runs.foldl Nat.max (ceilDiv (laneSamples s s.cnt.smp) 16)
  let s := lanesFlush (each (poweredConvs s) clocksRest s)
  let s := each (List.range 16) (fun c s =>
    let x := conv s c
    setConv c { x with done := if x.on then first else x.done, rows := [], rowsAt := if x.on then first else x.rowsAt, swaps := [],
                       wins := x.wins.filter fun w => decide (first < w.2) } s) s
  let s := tinsShift (s.cnv.base : Nat) (32000 * first) s
  restartLaneUnits
    { s with cnv := { s.cnv with base := 32000 * first, strBase := s.cnt.str, origin := s.cnv.origin + past, lanes := [] } }

/-! ### Samples (R118, R121, R138, R403) -/

/-- The slices at the positions of a converter in a slice clock (R126). -/
def slicesAt (x : Conv) (k : Nat) : List Nat := x.swaps.foldl (fun pos e => if k < e.1 then pos.set e.2.1 e.2.2 else pos) x.pos

/-- A code corrected with the coefficients of the slice that took it, and whether it is overrange (R121). -/
def correct (s : State) (c slice : Nat) (code : Int) : Int × Bool :=
  let g := fld (hw s (cvA c (0x40 + 8 * slice))) 0 16
  let o := sgn 18 (fld (hw s (cvA c (0x44 + 8 * slice))) 0 18)
  let y := rhe ((4 * code - o) * (g : Nat)) (2 ^ 19)
  (satS 14 y, decide (code = -32768 ∨ code = 32767 ∨ y < -8192 ∨ 8191 < y))

/-- The lane samples of a slice clock in index order: position by position, each position converter by converter (R118). -/
def interleave (rows : List (List (BitVec 16))) : List (BitVec 16) :=
  (List.range 8).flatMap fun p => rows.map fun r => r.getD p 0

/-- The slice clocks whose samples every converter of a lane has brought go to the lane (R118). A lane that is not in use
keeps none (R138). -/
def laneTake (lane : Nat) (s : State) : State :=
  let cs := convsOf (cfg s) lane
  let xs := cs.map (conv s)
  let lo := (xs.map (·.rowsAt)).foldl Nat.max 0
  let hi := (xs.map fun x => x.rowsAt + x.rows.length).foldl Nat.min (lo + 64)
  let s := each ((List.range (hi - lo)).map (lo + ·)) (fun k s =>
    if laneRuns s lane k then
      rill lane 1 (laneAppend lane (laneNoAt s k) (interleave (xs.map fun x => x.rows.getD (k - x.rowsAt) []))
        (xs.any fun x => clockInWindow x k) s)
    else s) s
  each cs (fun c s =>
    let x := conv s c
    setConv c { x with rows := x.rows.drop (hi - x.rowsAt), rowsAt := Nat.max x.rowsAt (Nat.min hi (x.rowsAt + x.rows.length)) } s) s

/-- INPUT_LEDGER_NOTICE: the notice for a block of slice clocks: they have elapsed, and were delivered or discarded
(R138, R403). `codes` are the codes of each slice clock by position; they are corrected as the coefficients now stand
(DESIGN CHOICE: log 212), those of a foreground window are replaced with 0, and the overrange ones are counted (R121,
R134). -/
def execInputLedgerNotice (c : Fin 16) (codes : List (List Int)) : State → Host.Outcome State Fault Refusal := run fun s =>
  let x := conv s c
  let n := codes.length
  if !x.on || decide (n = 0) || decide (64 < n) || decide (s.cnt.smp / 32000 < x.done + n) then s
  else
    let row (e : List Int × Nat) : List (BitVec 16) × Nat :=
      let k := x.done + e.2
      if clockInWindow x k then (List.replicate 8 0, 0)
      else
        let ys := (e.1.zip (slicesAt x k)).map fun (code, slice) => correct s c slice code
        (ys.map fun y => container y.1, (ys.filter (·.2)).length)
    let rows := codes.zipIdx.map row
    let hot := (rows.map (·.2)).sum
    let s := rill (16 + c) 1 (clockTerms c ((List.range n).map (x.done + ·)) s)
    let s := setConv c { conv s c with
      done := x.done + n, rowsAt := if x.rows = [] then x.done else x.rowsAt, rows := x.rows ++ rows.map (·.1),
      swaps := x.swaps.filter fun e => decide (x.done + n < e.1) } s
    let s := laneTake (laneOfConv (cfg s) c) s
    if hot = 0 then s
    else
      let s := addHold (cvA c 0x1C) hot s
      let soon := match x.lastOvr with | some t => decide (s.cnt.ticks < t + msTicks) | none => false
      if soon then s else cnvRaise c 0 7 (setConv c { conv s c with lastOvr := some s.cnt.ticks } s)

/-- CNV_IN_STATE of a converter (R142). -/
def convState (x : Conv) : Nat :=
  let st := if x.failed then 3 else if !x.on then 0 else if x.retired = 0 then 1 else 2
  st + 8 * b2n x.qcal.isSome + 256 * (x.spare.getD 15) + 2 ^ 14 * x.q + 2 ^ 17 * x.retired.toNat

end Sys2Proof.Machine
end

