-- ==== Sys2Proof/Machine/Clock.lean ====
section
/-!
DEFINITION. PLLs, references and the AON oscillator (R90 to R103): loss and return of a clock, and what stops and
resumes with it (R20, R96 to R100).
-/

namespace Sys2Proof.Machine

/-! ### PLLs -/

/-- The core PLL in use (R90). -/
def coreIndex (s : State) : Nat := if s.clk.coreB then 3 else 2

/-- The other core PLL. -/
def coreOther (s : State) : Nat := if s.clk.coreB then 2 else 3

/-- SETTLE_US in ticks; less than 20 µs is treated as 20 (R94, R113). -/
def settleTicks (s : State) : Nat := 500 * clampN 20 1000 (cfgF s 0x10008 0 10)

/-- WARM of CLK_CPLL_CFG. -/
def warm (s : State) : Bool := cfgB s 0x10004 0

/-- A PLL begins to lock, unless it is retired. -/
def pllStart (p : Nat) (s : State) : State := if pll s p = .retired then s else setPll p .locking s

/-- A PLL loses its reference. -/
def pllNoRef (p : Nat) (s : State) : State := if pll s p = .retired then s else setPll p .noref s

/-- A PLL drives its output; RELOCKED where it had done so before (R94, R113). -/
def pllDrives (p : Nat) (s : State) : State :=
  let again := decide (p ∈ s.clk.been)
  let s := setPll p .inUse { s with clk := { s.clk with been := if again then s.clk.been else s.clk.been ++ [p] } }
  raiseIf again 0x10040 9 s

/-- An unlock is counted and signalled (R113). -/
def unlocked (p e : Nat) (s : State) : State := raise 0x10040 e (addCnt (0x10050 + 4 * p) 1 s)

/-! ### The sample clock (R20, R94, R96) -/

/-- The sample clock stops at a slice-clock edge: records are cut and grids end, and the loss is counted from here. -/
def sampleStop (s : State) : State :=
  if s.clk.stopped then
    if s.clk.loss then s else { s with clk := { s.clk with loss := true, stopStart := now s } }
  else
    let s := launchesStop s
    rawCut { s with clk := { s.clk with stopped := true, loss := true, stopStart := now s },
                    cnt := { s.cnt with smp := roundUp 32000 s.cnt.smp } }

/-- The stop of R94 and R119 at a commit that changes the sample rate, which is no clock loss. The sample PLL locks anew
unless its reference is absent (R92). -/
def sampleStopRate (s : State) : State :=
  let run := !s.clk.stopped
  let s := if run then launchesStop s else s
  let s := if run then rawCut { s with cnt := { s.cnt with smp := roundUp 32000 s.cnt.smp } } else s
  let s := { s with clk := { s.clk with stopped := true, rate := true } }
  if s.clk.refS then pllStart 0 s else s

/-- The sample clock runs again once its PLL and a core PLL drive their outputs; a quick calibration of the powered
inputs follows (R94, R96, R98, R119). -/
def sampleStart (s : State) : State :=
  if s.clk.stopped && decide (pll s 0 = .inUse) && decide (s.clk.coreSrc = .pll) then
    let s := lossCount s
    let rate := s.clk.rate
    let first := decide (s.cnt.smp = 0)
    let again := s.clk.loss && !first
    let s := { s with clk := { s.clk with stopped := false, loss := false, rate := false, resume := s.clk.resume || again } }
    let s := indicesRestart s
    let s := if rate then modeCalDone (modeCalibrate s) else qcalStart (poweredConvs s) s
    if s.cnv.qcalOpen then s else flightsDone { s with clk := { s.clk with splRelock := [] } }
  else s

/-- SAMPLE_CLOCK_RESUME: after the quick calibration every armed fibre port begins a fresh grid with slot 0 (R96, R146,
R223). -/
def execSampleClockResume : State → Host.Outcome State Fault Refusal := run fun s =>
  if s.clk.resume && !s.clk.stopped && (List.range 16).all fun c => (conv s c).qcal.isNone then
    let s := restartLaneUnits (launchesFresh { s with clk := { s.clk with resume := false } })
    each (List.range 4) firstLaunch s
  else s

/-- SAMPLE_PLL_UNLOCK (R96). -/
def execSamplePllUnlock : State → Host.Outcome State Fault Refusal := run fun s =>
  match pll s 0 with
  | .inUse => unlocked 0 0 (pllStart 0 (sampleStop s))
  | .settling => unlocked 0 0 (pllStart 0 (sampleStop s))
  | _ => s

/-! ### The TIU clock (R97, R105, R168) -/

/-- The TIU clock stops: measurements and open windows end, and the backup stands in. -/
def tiuClockStop (s : State) : State := backupOn (jitterRestart (each (List.range 4) closeAllWindows (tiuStop s)))

/-- A change of the declared reference changes the time PLL's N: it locks anew, unless its reference is absent (R94). -/
def timeRelock (s : State) : State :=
  if pll s 1 = .inUse then pllStart 1 (tiuClockStop s) else if s.clk.refS then pllStart 1 s else s

/-- TIME_PLL_UNLOCK (R97). -/
def execTimePllUnlock : State → Host.Outcome State Fault Refusal := run fun s =>
  match pll s 1 with
  | .inUse => unlocked 1 1 (pllStart 1 (tiuClockStop s))
  | .settling => unlocked 1 1 (pllStart 1 s)
  | _ => s

/-- TIU_CLOCK_RETURN (R105). -/
def execTiuClockReturn : State → Host.Outcome State Fault Refusal := run fun s =>
  if pll s 1 = .inUse then backupOff s else s

/-! ### REFCLK_S (R92, R96) -/

/-- REFCLK_S is lost: the sample clock and the TIU stop; a stop that ran already is a clock loss from here (R96). -/
def refSLost (s : State) : State :=
  if s.clk.refS then
    let s := sampleStop s
    let s := if pll s 1 = .inUse then tiuClockStop s else s
    raise 0x10040 6 (pllNoRef 1 (pllNoRef 0 { s with clk := { s.clk with refS := false, refSFine := false } }))
  else s

/-- REFCLK_S is present: the time PLL starts, then the sample PLL. In boot they wait for the core and memory PLLs to have
started (R102). -/
def refSBack (s : State) : State :=
  if s.clk.refS then s
  else
    let s := { s with clk := { s.clk with refS := true } }
    if s.boot ≠ .up ∧ !s.clk.refC then s else pllStart 0 (pllStart 1 s)

/-- REFCLK_S_LOSS (R95, R96). -/
def execRefclkSLoss : State → Host.Outcome State Fault Refusal := run refSLost

/-! ### The core PLLs (R98, R99) -/

/-- The standby core PLL is kept locked with WARM = 1, else it is off (R98). -/
def warmUpdate (s : State) : State :=
  let o := coreOther s
  if warm s then (if pll s o = .off ∧ s.clk.refC then pllStart o s else s)
  else if pll s o = .retired ∨ pll s o = .noref then s
  else setPll o .off s

/-- A core PLL drives CORE; C_SWITCHED where it is the other one. -/
def coreDrives (s : State) : State :=
  let sw := s.clk.switching
  let s := timerStop tmRelock 0 (timerStop tmCoreRetry 0 s)
  let s := pllDrives (coreIndex s) { s with clk := { s.clk with coreSrc := .pll, switching := false } }
  sampleStart (warmUpdate (raiseIf sw 0x10040 3 s))

/-- RELOCK_MS, 0 treated as 1. -/
def relockMs (s : State) : Nat := Nat.max 1 (cfgF s 0x10004 8 4)

/-- CORE_PLL_UNLOCK: the core PLL in use unlocks and CORE moves to bypass on REFCLK_C, or it unlocks again while it
settles; a standby PLL that unlocks locks again, and is only counted (R20, R95, R98, R113). -/
def execCorePllUnlock (standby : Bool) : State → Host.Outcome State Fault Refusal := run fun s =>
  let k := coreIndex s
  let o := coreOther s
  if !s.clk.refC then s
  else if standby then
    (if pll s o = .standbyReady ∨ pll s o = .settling then pllStart o (addCnt (0x10050 + 4 * o) 1 s) else s)
  else match pll s k with
    | .inUse =>
      let s := sampleStop { s with clk := { s.clk with coreSrc := .bypass } }
      timerSet tmRelock 0 (relockMs s * msTicks) (unlocked k 2 (pllStart k s))
    | .settling => unlocked k 2 (pllStart k s)
    | _ => s

/-- CORE_RELOCK_TIMEOUT: the PLL in use, which unlocked, has not relocked within RELOCK_MS. The other core PLL is brought
in, and the failed one is retired; with no other left, CORE stays in bypass and is tried again every 1 s (R98). -/
def execCoreRelockTimeout : State → Host.Outcome State Fault Refusal := run fun s =>
  let k := coreIndex s
  let o := coreOther s
  if s.clk.coreSrc = .bypass ∧ pll s k = .locking ∧ timerRan s tmRelock 0 then
    let s := timerSet tmCoreRetry 0 (1000 * msTicks) (timerStop tmRelock 0 s)
    if pll s o = .retired then s
    else
      let s := raise 0x10040 4 (wearAdd 8 1 0 (b2n s.clk.coreB) (setPll k .retired s))
      let s := { s with clk := { s.clk with coreB := !s.clk.coreB, switching := true } }
      match pll s o with
      | .standbyReady => coreDrives s
      | .locking | .settling => s
      | _ => pllStart o s
  else s

/-- CORE_PLL_RETRY: with CORE in bypass and no other core PLL left, each one that is not retired and has not locked is
tried again every 1 s, with what came of it (R98). -/
def execCorePllRetry (lockedA lockedB : Bool) : State → Host.Outcome State Fault Refusal := run fun s =>
  if s.clk.coreSrc = .bypass ∧ pll s (coreOther s) = .retired ∧ timerDue s tmCoreRetry 0 ∧ !timerRuns s tmRelock 0 then
    let try1 (k : Nat) (ok : Bool) (s : State) : State :=
      if pll s k = .locking ∧ ok then timerSet tmSettle k (settleTicks s) (setPll k .settling s) else s
    try1 3 lockedB (try1 2 lockedA (timerSet tmCoreRetry 0 (1000 * msTicks) s))
  else s

/-- A memory PLL's output is gated: its channels have entered self-refresh with every bank precharged (R100). -/
def memGated (i : Nat) (s : State) : State :=
  let s := each [3 * i, 3 * i + 1, 3 * i + 2] (fun c s =>
    let x := dch s c
    if x.code = 0 then s
    else setDch c { x with selfRef := true, zqcs := true, banks := x.banks.map fun (b, y) => (b, { y with row := none }) } s) s
  budgetCheck (setPll (4 + i) .hold s)

/-- MEM_PLL_UNLOCK: one that unlocks again while it settles holds once more (R95, R100). -/
def execMemPllUnlock (i : Fin 3) : State → Host.Outcome State Fault Refusal := run fun s =>
  match pll s (4 + i) with
  | .inUse => memGated i (unlocked (4 + i) 5 s)
  | .settling => unlocked (4 + i) 5 (setPll (4 + i) .hold s)
  | _ => s

/-- An in-service retraining begins: the channel's requests wait (R305). `relock` marks one that a memory PLL's relock
causes. -/
def retrainStart (c : Nat) (relock : Bool) (s : State) : State :=
  let x := dch s c
  setDch c { x with code := 7, relock := relock, selfRef := false } s

/-- The channels have retrained for every commit that made them: those commits are answered where nothing else delays
them (R46, R305). -/
def setupDone (s : State) : State :=
  if s.dram.setup = [] ∨ s.dram.regrade ∨ (List.range 9).any (fun c => decide ((dch s c).code = 7)) then s
  else flightsDone { s with dram := { s.dram with setup := [] } }

/-- A memory PLL drives its channels again: those in service leave self-refresh and retrain (R100, R305). -/
def memBack (i : Nat) (s : State) : State :=
  let s := pllDrives (4 + i) s
  let s := each [3 * i, 3 * i + 1, 3 * i + 2] (fun c s =>
    if (dch s c).selfRef ∧ ((dch s c).code = 1 ∨ (dch s c).code = 2) then retrainStart c (!s.dram.regrade) s else s) s
  let wait := (List.range 3).any fun k => decide (pll s (4 + k) ≠ .inUse)
  budgetCheck (setupDone { s with dram := { s.dram with regrade := s.dram.regrade && wait } })

/-- MEM_PLL_RELOCK: the relock and the settling timer are over. -/
def execMemPllRelock (i : Fin 3) : State → Host.Outcome State Fault Refusal := run fun s =>
  match pll s (4 + i) with
  | .off | .noref | .retired | .inUse => s
  | .settling => if s.clk.refC && timerDue s tmSettle (4 + i) then memBack i s else s
  | _ => if s.clk.refC then memBack i s else s

/-! ### REFCLK_C (R92, R99) -/

/-- REFCLK_C is lost: CORE runs from AON, and every PLL that locks to REFCLK_C stops; none is retired. -/
def refCLost (s : State) : State :=
  if s.clk.refC then
    let s := sampleStop { s with clk := { s.clk with refC := false, coreSrc := .aon } }
    let s := raise 0x10040 7 (pllNoRef 3 (pllNoRef 2 s))
    each (List.range 3) (fun i s => if pll s (4 + i) = .inUse then memGated i s else pllNoRef (4 + i) s) s
  else s

/-- REFCLK_C is present: CORE runs from its bypass source while the PLLs lock through the steps of R94, the core PLLs
first and then those of the memory; the time and sample PLLs follow where boot has had them wait (R102). -/
def refCBack (s : State) : State :=
  if s.clk.refC then s
  else
    let s := timerSet tmTrim 0 (1000 * msTicks) { s with clk := { s.clk with refC := true, coreSrc := .bypass } }
    let s := each [2, 3, 4, 5, 6] pllStart s
    if s.clk.refS then each ([1, 0].filter fun p => decide (pll s p = .off)) pllStart s else s

/-- REFCLK_C_LOSS (R99). -/
def execRefclkCLoss : State → Host.Outcome State Fault Refusal := run refCLost

/-- REFCLK_C_RETURN: the check of R92 has passed (R95, R99). -/
def execRefclkCReturn : State → Host.Outcome State Fault Refusal := run refCBack

/-- The declared frequency of a reference in edges per millisecond (R92). -/
def refEdges (s : State) : Ref → Nat
  | .refS => if cfgB s 0x10000 8 then 100000 else 10000
  | .refC => 100000

/-- Whether a count over 1 ms lies within a tolerance in percent. -/
def countOk (want count pct : Nat) : Bool := decide (100 * ((count : Int) - want).natAbs ≤ pct * want)

/-- REF_COUNT_CHECK: the edges of a reference in 1 ms of AON time (R92). A first check that fails leaves its PLLs in
NOREF; a later one is handled as a loss. A count that failed is retried after 100 ms. -/
def execRefCountCheck (r : Ref) (count : Nat) : State → Host.Outcome State Fault Refusal := run fun s =>
  let pct := if s.clk.trimmed ∧ r = .refS then 1 else 5
  let i := match r with | .refS => 0 | .refC => 1
  if !timerDue s tmRefCount i then s
  else if countOk (refEdges s r) count pct then
    match r with
    | .refS => refSBack { s with clk := { s.clk with refSFine := s.clk.refSFine || s.clk.trimmed } }
    | .refC => refCBack s
  else
    let s := timerSet tmRefCount i (100 * msTicks) (raise 0x10040 8 s)
    match r with
    | .refS => if s.clk.refS then refSLost s else pllNoRef 0 (pllNoRef 1 s)
    | .refC => if s.clk.refC then refCLost s else each [2, 3, 4, 5, 6] pllNoRef s

/-- REFCLK_C_CROSSCHECK: the edges of REFCLK_C in 1 ms of REFCLK_S, once REFCLK_S has passed at 1 %, every 1 s (R92). -/
def execRefclkCCrosscheck (count : Nat) : State → Host.Outcome State Fault Refusal := run fun s =>
  if s.clk.refS && s.clk.refSFine && timerDue s tmCross 0 then
    let s := timerGrid tmCross 0 (1000 * msTicks) s
    if countOk 100000 count 1 then refCBack s else refCLost (raise 0x10040 8 s)
  else s

/-- AON_TRIM: AON is trimmed against REFCLK_C, 1 s after it is present and then every 1 s (R103). -/
def execAonTrim (hz : Nat) : State → Host.Outcome State Fault Refusal := run fun s =>
  if s.clk.refC ∧ timerDue s tmTrim 0 then
    let s := timerGrid tmTrim 0 (1000 * msTicks) s
    setHw 0x10048 (wd (2 ^ 31 + hz % 2 ^ 25)) { s with clk := { s.clk with trimmed := true } }
  else s

/-! ### Lock and settling (R94, R95) -/

/-- PLL_LOCK_DETECT: lock detect asserts and the settling timer starts. -/
def execPllLockDetect (p : Fin 7) : State → Host.Outcome State Fault Refusal := run fun s =>
  if pll s p = .locking ∨ pll s p = .hold then timerSet tmSettle p (settleTicks s) (setPll p .settling s) else s

/-- SETTLE_TIMER_EXPIRY: SETTLE_US after lock detect the output switches back to the PLL. -/
def execSettleTimerExpiry (p : Fin 7) : State → Host.Outcome State Fault Refusal := run fun s =>
  if pll s p ≠ .settling ∨ !timerDue s tmSettle p then s
  else match p.val with
    | 0 => sampleStart (pllDrives 0 s)
    | 1 => pllDrives 1 s
    | 2 | 3 =>
      if p.val = coreIndex s then coreDrives s
      else if warm s ∨ s.clk.coreSrc ≠ .pll then setPll p .standbyReady s
      else setPll p .off s
    | k => memBack (k - 4) s

/-- CLK_PLL_STATE (R113). -/
def pllCode : PllState → Nat
  | .off => 0
  | .locking => 1
  | .settling => 2
  | .inUse => 3
  | .bypass => 4
  | .hold => 5
  | .noref => 6
  | .retired => 7
  | .standbyReady => 8

/-- A PLL whose output runs from its bypass source, or is the stopped sample clock (R113). -/
def pllBypassed (s : State) (p : Nat) : Bool :=
  (decide (p = 0) && s.clk.stopped) || (decide (p = coreIndex s) && decide (s.clk.coreSrc = .bypass))

/-- The CLK_PLL_STATE word. A PLL that locks, settles or is in use while its output is bypassed or stopped shows BYPASS;
the memory and time PLLs, whose outputs have nothing to run from, show LOCKING and SETTLING (DESIGN CHOICE: log 202). -/
def pllStates (s : State) : Nat :=
  let code (p : Nat) : Nat := match pll s p with
    | .locking | .settling | .inUse => if pllBypassed s p then 4 else pllCode (pll s p)
    | x => pllCode x
  ((List.range 7).map fun p => code p * 16 ^ p).sum + 2 ^ 28 * b2n s.clk.coreB

end Sys2Proof.Machine
end

