-- ==== Sys2Proof/Machine/Seal.lean ====
section
/-!
DEFINITION. The seal scan (R49 to R52) and the images it and a commit refer to.
-/

namespace Sys2Proof.Machine

/-- The image that a scan reads: the active copies, with the pending copy of a fibre group while one exists (R49, R51).
Overrides stay outside it. -/
def scanImage (s : State) : SMap Word := s.regs.pend.foldl (fun m (g, w) => groupMerge g w m) s.regs.active

/-- A scan starts; one outside the 1.0 ms schedule sets RESCAN. No scan runs before READY (R51). -/
def scanStart (scheduled : Bool) (s : State) : State :=
  if s.boot ≠ .up then s
  else
    let s := { s with sealing := { s.sealing with scan := some { scheduled := scheduled, restarted := false } } }
    raiseIf (!scheduled) 0x2C 2 s

/-- SEAL_SCAN_START: a scheduled scan falls due, 1.0 ms after the last scheduled start; it waits for an unscheduled one
that runs (R51). -/
def execSealScanStart : State → Host.Outcome State Fault Refusal := run fun s =>
  if s.boot ≠ .up ∨ !timerDue s tmScan 0 then s
  else
    let s := timerGrid tmScan 0 msTicks s
    match s.sealing.scan with
    | none => scanStart true s
    | some x => if x.scheduled then s else { s with sealing := { s.sealing with waiting := true } }

/-- A mismatch that is answered with more than an event marks the segments still open (R52). -/
def sealMarks (s : State) : State :=
  if cfgF s 0x14 0 2 = 0 then s
  else { s with cis := { s.cis with segs := s.cis.segs.map fun g => if g.state = .opened then { g with flags := g.flags ||| 4 } else g } }

/-- What a completed scan's result says against the reference (R52). -/
def scanJudge (result : Word) (s : State) : State :=
  if result ≠ s.sealing.ref then
    raise 0x2C 0 (addCnt 0x28 1 (sealMarks { s with sealing := { s.sealing with mismatch := true } }))
  else if s.sealing.mismatch then raise 0x2C 1 { s with sealing := { s.sealing with mismatch := false } }
  else s

/-- SEAL_SCAN_COMPLETE: GLB_SEAL_LAST is written and compared with the reference; a scan that waited starts, and a
SEAL_RESCAN completes (R37, R51, R52). -/
def execSealScanComplete : State → Host.Outcome State Fault Refusal := run fun s =>
  match s.sealing.scan with
  | none => s
  | some _ =>
    let image := scanImage s
    let result := sealOf image
    let s := addCnt64 0x20 1 (setHw 0x1C result { s with sealing := { s.sealing with scan := none, last := image } })
    let s := scanJudge result s
    let s := if bit (hw s 0x54) 0 then cmdDone 0x54 0 (scanStart false) s else s
    if s.sealing.waiting ∧ s.sealing.scan = none then
      scanStart true { s with sealing := { s.sealing with waiting := false } }
    else s

/-- Whether accepted commits are held after a brown-out window (R82). -/
def commitsHeld (s : State) : Bool := s.pwr.window.isSome || s.pwr.holdEnd.isSome

/-- HELD is set where the hold delays a commit that could strobe (R45, R82). -/
def noteHeld (s : State) : State :=
  match s.commits.queue with
  | [] => s
  | q :: _ =>
    let due := match q.stamp with | some t => decide (t ≤ now s) | none => true
    if commitsHeld s && due && !s.commits.held then raise 0x10 6 { s with commits := { s.commits with held := true } } else s

end Sys2Proof.Machine
end

