-- ==== Sys2Proof/Machine/Power.lean ====
section
/-!
DEFINITION. Supplies and temperature (R76 to R89): brown-out windows with their log, coverage and commit hold, and the
thermal sensors.
-/

namespace Sys2Proof.Machine

/-! ### The window log (R89) -/

/-- The 64 bytes of a log entry, in R89's layout, which has no byte for the TQB that R106 gives log entries (DESIGN CHOICE:
log 192). -/
def logBytes (e : LogEntry) : List Byte :=
  let t (x : Stamp) : List Byte := if x = 0 then zeros 12 else stampBytes x
  t e.start ++ t e.stop ++ t e.qcal ++ le 4 e.rails.toNat ++ le 4 e.min ++ le 4 e.flags ++ le 8 e.index ++ le 4 e.longest
    ++ zeros 4

/-- A log entry. -/
def logEntry (s : State) (i : Nat) : LogEntry := smGet {} i s.pwr.log

/-- Sets a log entry. -/
def setLog (i : Nat) (e : LogEntry) (s : State) : State := { s with pwr := { s.pwr with log := smPut {} i e s.pwr.log } }

/-- The entry of the last window. -/
def lastLog (s : State) : Nat := (s.pwr.logNext + 7) % 8

/-- MIN with the code of a rail raised to at least `code` (R79, R89). -/
def minRaise (rail code v : Nat) : Nat :=
  let old := v / 8 ^ rail % 8
  if old < code then v + (code - old) * 8 ^ rail else v

/-- The event of a window (R420). -/
def windowEvent (code i : Nat) (s : State) : State :=
  sendEvent 0xF { code := code, src := i, stamp := now s, tqb := tqb s, body := logBytes (logEntry s i) } s

/-! ### The rail monitors (R76)

A sample is the level of a rail on one AON clock, in 1/100 % of nominal away from nominal: −500 is 5 % below it. -/

/-- FILTER; 0 is treated as 1. -/
def boFilter (s : State) : Nat := Nat.max 1 (cfgF s 0xF0000 0 8)

/-- CLOSE; 0 is treated as 1. -/
def boClose (s : State) : Nat := Nat.max 1 (cfgF s 0xF0000 8 16)

/-- The warning threshold of a rail: −(2.0 + 0.5 v) %, v above 10 treated as 10 (R76, R88). -/
def warnLevel (s : State) (rail : Nat) : Int := -(200 + 50 * (Nat.min 10 (cfgF s (0xF0010 + 4 * rail) 0 4) : Nat) : Int)

/-- The last `n` samples of a list, oldest first. -/
def lastN (n : Nat) (l : List Int) : List Int := l.drop (l.length - n)

/-- A rail meets the warning condition: its last FILTER samples lie below the threshold (R76). -/
def meetsWarning (s : State) (rail : Nat) (samples : List Int) : Bool :=
  decide (boFilter s ≤ samples.length) && (lastN (boFilter s) samples).all fun v => decide (v < warnLevel s rail)

/-- A rail clears: its last CLOSE samples lie above the threshold plus 0.5 % (R76). -/
def railClears (s : State) (rail : Nat) (samples : List Int) : Bool :=
  decide (boClose s ≤ samples.length) && (lastN (boClose s) samples).all fun v => decide (warnLevel s rail + 50 < v)

/-- The coarse-minimum code of a rail in a window: 1 and the ladder steps below its warning threshold that the lowest of
its samples crossed (R76, R79, R89). -/
def coarseCode (s : State) (rail : Nat) (samples : List Int) : Nat :=
  let low := samples.foldl min 0
  1 + ([-500, -600, -700].filter fun (l : Int) => decide (l < warnLevel s rail) && decide (low < l)).length

/-- The last sample of a rail says whether it is now below its warning threshold (R88). -/
def railNow (rail : Nat) (samples : List Int) (s : State) : State :=
  match samples.getLast? with
  | none => s
  | some v =>
    let b := BitVec.ofNat 9 (2 ^ rail)
    { s with pwr := { s.pwr with below := if v < warnLevel s rail then s.pwr.below ||| b else s.pwr.below &&& ~~~b } }

/-! ### Windows (R78 to R86) -/

/-- The start stamp: (FILTER + 2) × 40 ns before the indication reaches CORE (R78). One that would lie before device time
0 reads 0 (DESIGN CHOICE: log 193). -/
def windowStartStamp (s : State) : Stamp := now s - (boFilter s + 2) * 40 * 65536

/-- A shot whose span from launch to end of record is not past at a stamp carries SUPPLY (R80). -/
def shotSupply (m : Nat → Word) (p : Nat) (start : Stamp) (t : Shot) : Shot :=
  if start ≤ t.tIdeal + recordOf m p * second / laneHz m then { t with flags := t.flags ||| fSUPPLY } else t

/-- Shots and open segments that a coverage beginning at a stamp meets carry SUPPLY: a segment whose post-trigger window is
open or ended no earlier than that stamp (R80). -/
def supplyMarks (start : Stamp) (s : State) : State :=
  let m := cfg s
  let s := each (List.range 4) (fun p s => setLch p { lch s p with shots := (lch s p).shots.map (shotSupply m p start) } s) s
  let one (g : Seg) : Seg :=
    if g.state = .opened ∧ (windowOpenOn s g.id ∨ start ≤ g.ended) then { g with flags := g.flags ||| 2 } else g
  { s with cis := { s.cis with segs := s.cis.segs.map one } }

/-- The OTP writes that wait as a window opens: wear-map entries and commands' objects (R85). -/
def deferWaiting (s : State) : State :=
  let n := s.lgr.wearPend.length + s.sec.otpQueue.length
  if n = 0 ∨ otpHeld s then s else raise 0xF0040 4 (addCnt 0xF0060 n s)

/-- WINDOW_OPEN: the samples of a rail as they reach CORE. Where no window is open and they meet its warning condition, a
window opens (R78, R81, R82, R84 to R86). -/
def execWindowOpen (rail : Fin 9) (samples : List Int) : State → Host.Outcome State Fault Refusal := run fun s =>
  let s := railNow rail.val samples s
  if s.pwr.window.isSome ∨ !meetsWarning s rail.val samples then s
  else
    let s := deferWaiting s
    let code := coarseCode s rail.val samples
    let i := s.pwr.logNext
    let start := windowStartStamp s
    let rails := BitVec.ofNat 9 (2 ^ rail.val)
    let fl := 1 + 2 * b2n (cfgB s 0xF0000 24) + 4 * b2n (s.boot ≠ .up)
    let e : LogEntry := { start := start, rails := rails, min := minRaise rail code 0, flags := fl, index := s.pwr.windowNo + 1 }
    let s := { s with pwr := { s.pwr with window := some rails, coverage := true, holdEnd := none, logNext := (i + 1) % 8,
                                          windowNo := s.pwr.windowNo + 1 } }
    let s := addCnt64 0xF0058 1 (supplyMarks start (setLog i e s))
    noteHeld (scanStart false (windowEvent 0x1003 i (raise 0xF0040 0 (rill 172 1 s))))

/-- A rail of the open window, or one that meets its warning condition while it is open, is in the mask with the lowest
level its samples reached (R79). -/
def railJoin (rail : Nat) (samples : List Int) (s : State) : State :=
  match s.pwr.window with
  | none => s
  | some w =>
    if w.getLsbD rail || meetsWarning s rail samples then
      let rails := w ||| BitVec.ofNat 9 (2 ^ rail)
      let i := lastLog s
      let e := logEntry s i
      setLog i { e with rails := rails, min := minRaise rail (coarseCode s rail samples) e.min }
        { s with pwr := { s.pwr with window := some rails } }
    else s

/-- RAIL_JOINS_WINDOW: the samples of a rail while a window is open. A further rail that meets its warning condition joins
the mask; one in the mask may reach a lower level (R79). -/
def execRailJoinsWindow (rail : Fin 9) (samples : List Int) : State → Host.Outcome State Fault Refusal := run fun s =>
  railJoin rail.val samples (railNow rail.val samples s)

/-- The quick calibration after windows is complete: its stamp is logged, and the coverage ends where no window is open
(R80, R83). -/
def windowQcalEnd (s : State) : State :=
  let t := now s
  let s := each s.pwr.qcalFor (fun i s => setLog i { logEntry s i with qcal := t } s) s
  let past := s.pwr.window.isNone
  let s := { s with pwr := { s.pwr with qcalFor := [], coverage := s.pwr.coverage && !past,
                                        covEnd := if past then t else s.pwr.covEnd } }
  raise 0xF0040 2 s

/-- WINDOW_CLOSE: the samples of each rail by index; the window closes where every rail in the mask has cleared (R79, R81 to
R83). With no input powered there is nothing to calibrate: QCAL_DONE and the QCAL stamp follow at once (DESIGN CHOICE:
log 68). -/
def execWindowClose (rails : List (List Int)) (longest : Nat) : State → Host.Outcome State Fault Refusal := run fun s =>
  let s := each rails.zipIdx (fun (l, r) s => railJoin r l (railNow r l s)) s
  match s.pwr.window with
  | none => s
  | some w =>
    if (List.range 9).any (fun r => w.getLsbD r && !railClears s r (rails.getD r [])) then s
    else
      let i := lastLog s
      let e := logEntry s i
      let s := setLog i { e with stop := now s, flags := e.flags - e.flags % 2, longest := Nat.min (2 ^ 32 - 1) longest } s
      let s := { s with pwr := { s.pwr with window := none, holdEnd := some (s.cnt.ticks + 5000000), qcalFor := s.pwr.qcalFor ++ [i] } }
      let s := windowEvent 0x1004 i (raise 0xF0040 1 (rill 172 1 s))
      if poweredConvs s = [] then windowQcalEnd s else qcalStart (poweredConvs s) s

/-- WINDOW_QCAL_DONE: the last input has completed (R83). -/
def execWindowQcalDone : State → Host.Outcome State Fault Refusal := run fun s =>
  if s.pwr.qcalFor ≠ [] ∧ !s.clk.stopped ∧ (List.range 16).all fun c => (conv s c).qcal.isNone then windowQcalEnd s else s

/-- COMMIT_HOLD_END: 10 ms have passed since the end stamp of the last window (R82). -/
def execCommitHoldEnd : State → Host.Outcome State Fault Refusal := run fun s =>
  match s.pwr.window, s.pwr.holdEnd with
  | none, some t =>
    if t ≤ s.cnt.ticks then
      raise 0xF0040 3 { s with pwr := { s.pwr with holdEnd := none, lifeNoted := 0 }, commits := { s.commits with held := false } }
    else s
  | _, _ => s

/-- PWR_WINDOW_STATE (R88). -/
def windowState (s : State) : Nat :=
  b2n s.pwr.window.isSome + 2 * b2n (commitsHeld s) + 4 * b2n (s.pwr.qcalFor ≠ [])
    + 8 * b2n (s.pwr.coverage && cfgB s 0xF0000 24)

/-- PWR_HOLD_REMAIN in µs (R88); the whole 10 ms while a window is open. -/
def holdRemain (s : State) : Nat :=
  match s.pwr.window, s.pwr.holdEnd with
  | some _, _ => 10000
  | none, some t => ceilDiv (t - s.cnt.ticks) 500
  | none, none => 0

/-- CHECK of the identity holds (R426). -/
def identityOk (s : State) : Bool := decide ((crc32c (otpBytes s 0 36)).toNat = leAt (otpBytes s 0x24 4) 0 4)

/-- A condition of R448 holds READY low: between the release of reset and READY, REFCLK_C absent, CHECK or the noise source
failing, or no channel that trains; and the reset that a temperature caused. -/
def readyBlocked (s : State) : Bool :=
  match s.boot with
  | .held => decide (s.pwr.cause = 3)
  | .booting => !s.clk.refC || !s.sec.rngOk || !identityOk s
  | .trained | .filled => !s.clk.refC || !s.sec.rngOk || !identityOk s || decide (s.dram.nActive = 0)
  | .up => false

/-- The level of ALARM_N, true while it is asserted: while a condition of R448 holds READY low, during a coverage with
ALARM set (R81), and while the Weir alarm is set (R240). -/
def alarmAsserted (s : State) : Bool := readyBlocked s || (s.pwr.coverage && cfgB s 0xF0000 25) || s.weir.alarm

/-! ### Temperature (R87, R401, R415) -/

/-- A Q8.8 reading as a number of 1/256 °C. -/
def tempOf (v : BitVec 16) : Int := sgn 16 v.toNat

/-- What the AON sequencer keeps of a reading: whether the sensor is below 100 °C, and since when it has read 120 °C or
more (R87). -/
def thermalWatch (sensor : Nat) (v : Int) (s : State) : State :=
  let b := BitVec.ofNat 8 (2 ^ sensor)
  let x := s.pwr
  let since := if v < 256 * 120 then smDel sensor x.hotSince
    else smIns sensor ((smFind sensor x.hotSince).getD s.cnt.ticks) x.hotSince
  { s with pwr := { x with over100 := if v < 256 * 100 then x.over100 &&& ~~~b else x.over100 ||| b, hotSince := since } }

/-- THERMAL_READING in operation: WARN and ABOVE_OPERATING are set as a sensor goes above its level. -/
def thermalSets (sensor : Fin 8) (value : BitVec 16) (s : State) : State :=
  let v := tempOf value
  let b := BitVec.ofNat 8 (2 ^ sensor.val)
  let warn : Int := 256 * (Nat.min 110 (cfgF s 0xF0004 0 8) : Nat)
  let x := s.pwr
  let wasHot := x.hot.getLsbD sensor
  let wasOver := x.over110.getLsbD sensor
  let hot := decide (warn < v)
  let past := decide (256 * 110 < v)
  let top := if x.tempSeen then max (sgn 16 (hw s 0xF00A0).toNat) v else v
  let s := setHw (0xF0080 + 4 * sensor.val) (wd value.toNat) (setHw 0xF00A0 (wd (twos 16 top)) s)
  let s := { s with
    pwr := { x with hot := if hot then x.hot ||| b else x.hot &&& ~~~b, over110 := if past then x.over110 ||| b else x.over110 &&& ~~~b,
                    tempSeen := true, outside := x.outside || past || decide (v < -256 * 40) },
    lgr := { s.lgr with minuteMax := max s.lgr.minuteMax v } }
  let s := raiseIf (hot && !wasHot) 0xF0044 0 s
  let s := raiseIf (past && !wasOver) 0xF0044 1 s
  if x.outside || !(past || decide (v < -256 * 40)) then s else raise 0xD0040 9 s

/-- THERMAL_READING: a sensor is read; in reset the sequencer alone takes notice (R87). -/
def execThermalReading (sensor : Fin 8) (value : BitVec 16) : State → Host.Outcome State Fault Refusal := runBoot fun s =>
  let s := thermalWatch sensor.val (tempOf value) s
  if s.boot = .held then s else { thermalSets sensor value (rill 173 1 s) with boot := s.boot }

end Sys2Proof.Machine
end

