-- ==== Sys2Proof/Machine/CommitChecks.lean ====
section
/-!
DEFINITION. What refuses a commit (R25, R43, and the capacity and state rules of each block's chapter), and the checks
that an ARM of a lane trigger unit shares with it (R470). `m` reads a word of the candidate image, `img` lists it.
-/

namespace Sys2Proof.Machine

/-! ### STATE (R32, R43 step 2) -/

/-- Whether anything is armed (R32). -/
def anyArmed (s : State) : Bool :=
  (List.range 4).any (fun p => (lch s p).armed) || s.cnv.direct || (List.range 8).any (fun u => (unitSt s u).armed)
    || (enabledWatches s.regs.active).any (watchActive s)

/-- The words whose fields are disarmed only (R91, R117, R142, R284). -/
def disarmedOnly : List Nat :=
  [0x10000, 0x20000, 0x20004, 0x20010, 0x20014, 0x20018, 0x2001C, 0x80800, 0x80804] ++ (List.range 9).map fun c => memA c 0

/-- A change of a region that holds a live segment or an allocation, other than a larger SIZE (R246). -/
def regionFrozen (s : State) (old new : Nat → Word) (r : Nat) : Bool :=
  let same := decide (regionBase old r = regionBase new r) && (stopFull old r == stopFull new r) && (regionOn old r == regionOn new r)
  let grow := regionOn old r && decide (regionSize old r ≤ regionSize new r)
  (decide (segsIn s r ≠ []) || decide ((region s r).allocs ≠ [])) &&
    !(same && (grow || decide (regionSize old r = regionSize new r)))

/-- TS_EN of a TIU channel. -/
def tsEn (m : Nat → Word) (c : Nat) : Bool := bit (m (tiuA c 0)) 17

/-- RUN of a context. -/
def ctxRun (m : Nat → Word) (k : Nat) : Bool := bit (m (ctxA k 0)) 14

/-- A context or channel starts to measure, or a launch monitor is enabled (R169). -/
def startsTiu (old new : Nat → Word) : Bool :=
  let rises (a i : Nat) : Bool := bit (new a) i && !bit (old a) i
  (List.range 4).any (fun k => ctxRun new k && !ctxRun old k)
    || (List.range 12).any (fun c => (tsEn new c) && !(tsEn old c))
    || (List.range 4).any (fun p => rises (0x31008 + 0x20 * p) 16)

/-- A stream whose destination names an empty key slot (R365). -/
def emptyKey (s : State) (m : Nat → Word) (n : Nat) : Bool :=
  let d := m (0xB1000 + 0x20 * fld (m (streamAt n)) 8 8)
  bit d 3 && (smFind (fld d 4 4) s.sec.gmac).isNone

/-- A stamp that a TIMED commit or an ARM with AT_TIME may not carry (R43, R146). -/
def badStamp (s : State) : Option Stamp → Bool
  | none => false
  | some t => !timeValid s || decide (t < now s) || decide (now s + 86400 * second < t)

/-- STATE refuses a commit (R43 step 2): `old` is the image the commits already in the queue leave. -/
def stateRefuses (s : State) (mask : BitVec 16) (stamp : Option Stamp) (old new : Nat → Word) (img : SMap Word) : Bool :=
  (anyArmed s && differs old new disarmedOnly)
    || badStamp s stamp
    || (List.range 64).any (regionFrozen s old new)
    || (decide (dirBase old ≠ dirBase new) && decide (s.cis.segs ≠ []))
    || (!s.clk.refS && startsTiu old new)
    || (mask.getLsbD 8 && (enabledStreams img).any (emptyKey s new))

/-! ### CAPACITY: rates, lanes and fibre ports (R25, R91, R137, R145, R177, R178, R198, R201) -/

/-- The phase-detector frequency in half-megahertz steps, and whether it reaches the rate (R90, R91). -/
def badRate (m : Nat → Word) : Bool :=
  let ref := if bit (m 0x10000) 8 then 100 else 10
  let fpd2 := match fld (m 0x10000) 9 2 with | 0 => ref | 2 => 4 * ref | _ => 2 * ref
  let vco2 := 4 * (2000 + 25 * rateOf m)
  decide (vco2 % fpd2 ≠ 0)

/-- The lanes that are beyond the mode or FAILED. -/
def badLane (s : State) (m : Nat → Word) (lane : Nat) : Bool := decide (laneCount m ≤ lane) || laneFailed s m lane

/-- The lane rules of R25 and R137: no lane in two groups, or in a group and in DIRECT. -/
def badLanes (s : State) (m : Nat → Word) : Bool :=
  let all := ((List.range 4).flatMap fun p => (lanesOf m p).eraseDups) ++ directLanes m
  decide (¬ all.Nodup) || all.any (badLane s m)

/-- A fibre port whose MODE is not OFF breaks R25, R145, R177 or R178. -/
def badPort (s : State) (m : Nat → Word) (p : Nat) : Bool :=
  let c := channelsOf m p
  let per := periodOf m p
  let gap := if 1 < slotsOf m p then Nat.min (spacingOf m p) per else per
  let wl := widthOf m p + slotLead m p
  decide (fpMode m p ≠ 0) &&
    (decide (65536 < c) || decide (4 * usableRows s p < c)
      || (decide (1 ≤ c) && decide (recordOf m p ≤ firstBin m p + (c - 1) * pitchOf m p + gaugeOf m p))
      || decide (per * lps m < recordOf m p)
      || decide (per < wl) || (decide (1 < slotsOf m p) && (decide (spacingOf m p < wl) || decide (per < slotsOf m p * spacingOf m p)))
      || (monEn m p && decide (gap * 1000000000 < (2 * monWin m p + 24) * fsHz m)))

/-- A Cascade chain breaks R198 or R201. -/
def badCascade (m : Nat → Word) (p : Nat) : Bool := badChain m p || decide (160 < cascadeBytes m p)

/-- A tap and product that a fibre port does not provide (R197, R198). -/
def badTap (m : Nat → Word) (p tap product : Nat) : Bool :=
  decide (stagesOf m p < tap) || (if tap = 0 then decide (4 < product) else decide (product ≠ cscProduct m p))

/-! ### CAPACITY: watches and units (R220, R222, R224, R226, R230, R242, R244, R247, R249) -/

/-- R220. -/
def badCond (c : CondCfg) : Bool :=
  (decide (c.typ = 1 ∨ c.typ = 3) && decide (c.hi ≤ c.lo)) || (decide (c.qual = 3) && decide (c.lim2 ≤ c.lim1))

/-- A capturing unit's region is not enabled, or does not hold its own size (R244, R247). -/
def badRegionOf (s : State) (m : Nat → Word) (u : UnitId) : Bool :=
  let r := regionOf m u
  let pinned := pinnedBytes s r
  !regionOn m r || decide (regionSize m r - pinned < ownSize m u) || decide (2 ^ 36 - 64 < ownSize m u)

/-- A unit that is enabled or armed, or that an ARM names, breaks R222, R224, R244, R247 or R249 (R470). -/
def badUnit (s : State) (m : Nat → Word) (u : Nat) : Bool :=
  (decide (unitSource m u = 0) && badLane s m (unitLane m u))
    || (decide (unitSource m u = 1) && (tiuCh s (5 + unitTin m u)).failed)
    || (captures m (.unit u) &&
      ((bitsOf 16 (capLanes m u)).any (badLane s m) || badRegionOf s m (.unit u)
        || decide (2 ^ (histLog2 m - 1) < unitPre m u + unitPost m u)))

/-- An enabled watch breaks R226, R230, R242, R244, R247 or R249. -/
def badWatch (s : State) (m : Nat → Word) (w : Nat) : Bool :=
  let p := watchFibre m w
  let shots := watchPre m w + watchPost m w
  let nc := ceilDiv shots (slotsOf m p) + 1
  decide (watchCount m w = 0) || decide (fpMode m p = 0) || decide (channelsOf m p < watchFirst m w + watchCount m w)
    || badTap m p (watchTap m w) (watchProduct m w)
    || (decide (watchCombine m w = 1 ∨ watchCombine m w = 2) && decide (watchCount m w < watchK m w))
    || badCond (watchCond m w)
    || (captures m (.watch w) &&
      (badRegionOf s m (.watch w) || decide (histShots m < 2 * shots)
        || (bit (watchActions m w) 0 && decide (2 ^ (histLog2 m - 1) < nc * periodOf m p * lps m))))

/-- The first channel of some watch's zone that lies in more than four zones of a port (R226). -/
def crowded (m : Nat → Word) (ws : List Nat) : Bool :=
  ws.any fun w =>
    decide (4 < (ws.filter fun v => decide (watchFibre m v = watchFibre m w) &&
      decide (watchFirst m v ≤ watchFirst m w ∧ watchFirst m w < watchFirst m v + watchCount m v)).length)

/-! ### CAPACITY: Pool (R207) -/

/-- An engine breaks R207, but for the placement of its ring. -/
def badPool (s : State) (m : Nat → Word) (e : Nat) : Bool :=
  let n := polCount m e
  let raw := fld (m (polA e 0)) 8 3
  let source := polSource m e
  (match source with
    | 1 => decide (fpMode m e = 0) || decide (channelsOf m e < polFirst m e + n) || decide (stagesOf m e < polTap m e)
        || (decide (polTap m e ≠ 0) && decide (polProduct m e ≠ cscProduct m e)) || decide (raw = 5)
    | 2 => decide (fpMode m e = 0) || decide (recordOf m e ≤ polFirst m e + (n - 1) * polStep m e)
        || decide (polSlots m e = 0) || decide (2 ^ slotsOf m e ≤ polSlots m e)
    | 3 => !nbit (directMask m) (polLane m e) || badLane s m (polLane m e)
    | _ => false)
  || (decide (source ≠ 0) && !polReadout m e && !polSpout m e)

/-! ### CAPACITY: streams (R352, R362, R369, R371) -/

/-- SPT_REPLAY_SIZE in bytes. -/
def replaySize (m : Nat → Word) : Nat := 2 ^ 20 * Nat.min 65536 (fld (m 0xB0008) 0 17)

/-- SPT_REPLAY_BASE. -/
def replayBase (m : Nat → Word) : Nat := 2 ^ 20 * fld (m 0xB0004) 0 20

/-- The streams of an image with an entry, ascending. -/
def listedStreams (img : SMap Word) : List Nat :=
  img.filterMap fun (a, _) => if 0xB4000 ≤ a ∧ a < 0xC0000 ∧ (a - 0xB4000) % 12 = 0 then some ((a - 0xB4000) / 12) else none

/-- The streams that have a replay window, ascending, each with its size in bytes (R362). -/
def windowSizes (m : Nat → Word) (img : SMap Word) : List (Nat × Nat) :=
  (listedStreams img).filterMap fun n => if replayCode m n = 0 then none else some (n, 2 ^ (replayCode m n - 1) * 2 ^ 20)

/-- The replay windows do not fit their area (R362). -/
def badReplay (m : Nat → Word) (img : SMap Word) : Bool := decide (replaySize m < ((windowSizes m img).map (·.2)).sum)

/-- Whether a byte of a template's text is a character of R369, or no character. -/
def textOk (b : Byte) : Bool :=
  decide (b = 0) || decide (65 ≤ b.toNat ∧ b.toNat ≤ 90) || decide (48 ≤ b.toNat ∧ b.toNat ≤ 57)

/-- A miniSEED stream breaks R369. -/
def badMseed (m : Nat → Word) (n : Nat) : Bool :=
  let t := fld (m (streamAt n + 8)) 17 4
  let b := (List.range 8).flatMap fun i => wordBytes (m (0xB3000 + 0x20 * t + 4 * i))
  decide (streamProduct m n = 3) || pairTap m (fld (m (streamAt n + 4)) 0 2) (streamTap m n) || decide (1024 < countChOf m n)
    || decide (b.getD 0 0 = 0) || decide (b.getD 8 0 = 0) || !(b.take 0x13).all textOk || !(slice 0x14 7 b).all textOk

/-- An enabled stream breaks R352 or R371. -/
def badStream (s : State) (m : Nat → Word) (ss : List Nat) (n : Nat) : Bool :=
  let c := m (streamAt n)
  let a := m (streamAt n + 4)
  let lanes := bitsOf 16 (streamLanes m n)
  !bit (m (0xB1000 + 0x20 * fld c 8 8)) 0 ||
    (match fld c 1 3 with
      | 0 => decide (lanes = []) || lanes.any (badLane s m)
      | 1 =>
        let p := fld a 0 2
        decide (fpMode m p = 0) || decide (channelsOf m p < fld a 8 17 + countChOf m n) || badTap m p (streamTap m n) (streamProduct m n)
      | 2 => !polSpout m (fld a 0 2)
          || ss.any fun k => decide (k ≠ n) && decide (fld (m (streamAt k)) 1 3 = 2) && decide (fld (m (streamAt k + 4)) 0 2 = fld a 0 2)
      | 3 => !regionOn m (fld a 0 6)
      | 4 | 5 => false
      | _ => true)
    || (isMseed m n && badMseed m n)

/-! ### CAPACITY: DRAM (R213, R244, R248, R265, R281, R282, R362) -/

/-- N_ACTIVE; 0 is treated as 1, larger values as 8 (R318). -/
def nActiveOf (m : Nat → Word) : Nat := clampN 1 8 (fld (m 0x80800) 4 4)

/-- CHMAP of the active indices. -/
def chmapOf (m : Nat → Word) : List Nat := (List.range (nActiveOf m)).map fun i => fld (m 0x80804) (4 * i) 4

/-- The mapping words of a candidate break R282. -/
def badChmap (s : State) (m : Nat → Word) : Bool :=
  decide (¬ (chmapOf m).Nodup) || (chmapOf m).any fun c =>
    decide (9 ≤ c) || decide ((dch s c).code = 0 ∨ (dch s c).code = 3 ∨ (dch s c).code = 6) || decide (c = s.dram.spare)

/-- The extents that must lie in backed DRAM and not meet each other, and the directory first. -/
def extents (m : Nat → Word) : List (Nat × Nat) :=
  [(dirBase m, 2 ^ 30)] ++ (if histSize m = 0 then [] else [(histBase m, histSize m)])
    ++ (if replaySize m = 0 then [] else [(replayBase m, replaySize m)])
    ++ ((List.range 64).filter (regionOn m)).map (fun r => (regionBase m r, regionSize m r))
    ++ ((List.range 4).filter fun e => decide (polSource m e ≠ 0)).map fun e => (ringBase m e, ringSize m e)

/-- Some extent of a list meets another. -/
def someMeet : List (Nat × Nat) → Bool
  | [] => false
  | e :: es => es.any (fun f => meets e.1 e.2 f.1 f.2) || someMeet es

/-- The placement rules of R213, R244, R248, R265 and R362. -/
def badPlaces (s : State) (m : Nat → Word) (ws : List Nat) : Bool :=
  let top := Nat.min (2 ^ 39) (nActiveOf m * activeBytes s)
  someMeet (extents m) || ((extents m).drop 1).any (fun e => decide (top < e.1 + e.2))
    || ((List.range 4).any fun e => decide (polSource m e ≠ 0) && (decide (ringSize m e < 65536) || decide (2 ^ 30 < ringSize m e)))
    || decide (histSize m < histUsed m ws)

/-- The channels that a running context uses; in period mode its start channel alone (R158, R159). -/
def ctxUses (m : Nat → Word) (k : Nat) : List Nat :=
  let c := ctxCfg m k
  match c.mode with
  | 0 => []
  | 3 => [c.startCh]
  | _ => [c.startCh, c.stopCh]

/-- A commit enables a FAILED TIU channel, for stamps, for the FIFO or as a launch monitor, or has a context come to use
one (R154). -/
def badTiu (s : State) (old new : Nat → Word) : Bool :=
  let failed (c : Nat) : Bool := (tiuCh s c).failed
  (List.range 12).any (fun c => failed c && ((tsEn new c && !tsEn old c)
      || (decide (tiuSlope new c ≠ 0) && decide (tiuSlope old c = 0)) || (decide (c < 4) && monEn new c && !monEn old c)))
    || (List.range 4).any fun k => (ctxUses new k).any fun c => failed c && decide (c ∉ ctxUses old k)

/-- CAPACITY refuses a candidate image (R43 step 4). -/
def capacityRefuses (s : State) (old new : Nat → Word) (img : SMap Word) : Bool :=
  let ws := enabledWatches img
  let ss := enabledStreams img
  let units := (List.range 8).filter fun u => unitEnabled new u || (unitSt s u).armed
  badRate new || badLanes s new || (List.range 4).any (badPort s new) || (List.range 4).any (badCascade new)
    || ws.any (badWatch s new) || crowded new ws
    || units.any (fun u => badCond (unitCond new u) || badUnit s new u)
    || (List.range 4).any (badPool s new)
    || ss.any (badStream s new ss) || decide (1024 < mseedChannels img new) || badReplay new img
    || (differs old new [0x80800, 0x80804] && badChmap s new)
    || badPlaces s new ws || badTiu s old new

/-- A port that has gone down and whose MODE the candidate leaves as it is: one whose MODE it sets has not come up since,
and offers its full line rate (R24). -/
def staysDown (s : State) (new : Nat → Word) (p : Nat) : Bool := goneDown s p && decide (portMode (cfg s) p = portMode new p)

/-- The grade that counts in budget 3: the candidate's where a commit sets it again, else that in effect, which R305 may
have lowered (R26, R55). -/
def gradeOf (s : State) (mask : BitVec 16) (new : Nat → Word) : Nat :=
  if mask.getLsbD 7 || s.commits.queue.any (·.mask.getLsbD 7) then fld (new 0x80800) 0 2 else s.dram.grade

/-- The first budget that a candidate image exceeds (R21, R26, R43 step 5). -/
def budgetRefuses (s : State) (mask : BitVec 16) (new : Nat → Word) (img : SMap Word) : Option Budget :=
  (budgets s new (enabledWatches img) (enabledStreams img)
    (if differs (imageGet s.regs.committed) new [0x80800, 0x80804] then liveChannels s (chmapOf new)
      else liveChannels s (s.dram.chmap.take s.dram.nActive))
    (gradeOf s mask new) (staysDown s new)).find? overBudget

end Sys2Proof.Machine
end

