-- ==== Sys2Proof/Machine/Acquire.lean ====
section
/-!
DEFINITION. The acquisition commands (R146, R223, R388, R391, R392, R470) and the stream commands of Spout (R359, R364,
R372): arming and disarming, HALT_N, halting, resuming, replay and stream status.
-/

namespace Sys2Proof.Machine

/-! ### Arming -/

/-- The targets of an ARM become armed (R146, R223, R470): inputs that a unit names are powered (R75). -/
def armTargets (t : BitVec 16) (s : State) : State :=
  let s := each (bitsOf 4 t.toNat) armPort s
  let s := if t.getLsbD 4 then { s with cnv := { s.cnv with direct := true } } else s
  let s := each ((List.range 8).filter fun u => t.getLsbD (8 + u)) armUnit s
  powerUpdate (rill 85 1 s)

/-- Whether an ARM of these targets is refused with STATE (R102, R146, R388). -/
def armState (s : State) (t : BitVec 16) (at' : Option Stamp) : Bool :=
  !s.pins.haltN || (!s.clk.refS && decide (t &&& 0xFF0F ≠ 0))
    || (bitsOf 4 t.toNat).any (fun p => decide (fpMode (cfg s) p = 0)) || badStamp s at'

/-- The tick of the sample count at a stamp, rounded up: the inverse of `timeOfPos`. -/
def tickAtStamp (s : State) (t : Stamp) : Nat :=
  let acc := if s.tb.backup then s.tb.backAcc else s.tb.acc
  let pace := if s.tb.backup then s.tb.backStep else timePace s
  ceilDiv (s.cnt.smp + ceilDiv ((t * 2 ^ 32 - acc) * samplePace (cfg s)) pace) 4000

/-- The stamp that an ARM answers: that of its first launch, else its own (R388). -/
def armStamp (s : State) (t : BitVec 16) (tick : Nat) (own : Stamp) : Stamp :=
  match firstTick s (bitsOf 4 t.toNat) tick with
  | some k => timeOfPos s (4000 * k : Nat) 1
  | none => own

/-- ARM (R388). An ARM with AT_TIME waits for its stamp. -/
def execArm (ses : Nat) (targets : BitVec 16) (atTime : Option Stamp) : State → Host.Outcome State Fault Refusal :=
  run fun s => hostCmd ses 0x0200 false true 12 (needLease ses 0x0200 fun s =>
    if armState s targets atTime then answer ses 0x0200 stState [] s
    else if (List.range 8).any fun u => targets.getLsbD (8 + u) && badUnit s (cfg s) u then answer ses 0x0200 stCapacity [] s
    else match atTime with
      | some t => answer ses 0x0200 stOK (stampBytes (armStamp s targets (tickAtStamp s t) t)) { s with arms := s.arms ++ [(targets, t)] }
      | none => 
        let first := armStamp s targets (s.cnt.smp / 4000 + 1) (now s)
        answer ses 0x0200 stOK (stampBytes first) (armTargets targets s)) s

/-- ARM_AT_TIME: device time has reached the stamp of an arm; every target it names becomes armed (R146). -/
def execArmAtTime : State → Host.Outcome State Fault Refusal := run fun s =>
  let due := s.arms.filter fun a => decide (a.2 ≤ now s)
  each due (fun a s => armTargets a.1 s) { s with arms := s.arms.filter fun a => decide (now s < a.2) }

/-- Targets become disarmed, and an arm that waits for its stamp loses them (R146, R223). -/
def disarmTargets (t : BitVec 16) (s : State) : State :=
  let s := { s with arms := s.arms.filterMap fun (a, at') => if a &&& ~~~t = 0 then none else some (a &&& ~~~t, at') }
  let s := each (bitsOf 4 t.toNat) disarmPort s
  let s := if t.getLsbD 4 then { s with cnv := { s.cnv with direct := false } } else s
  rill 85 1 (each ((List.range 8).filter fun u => t.getLsbD (8 + u)) disarmUnit s)

/-- DISARM (R388). -/
def execDisarm (ses : Nat) (targets : BitVec 16) : State → Host.Outcome State Fault Refusal :=
  run fun s => hostCmd ses 0x0201 false true 12 (needLease ses 0x0201 fun s =>
    answer ses 0x0201 stOK (stampBytes (now s)) (disarmTargets targets s)) s

/-- Everything is disarmed (R391). -/
def disarmAll (s : State) : State := disarmTargets 0xFF1F s

/-- DISARM_ALL (R388, R391). -/
def execDisarmAll (ses : Nat) : State → Host.Outcome State Fault Refusal :=
  run fun s => hostCmd ses 0x0202 false true 16 (fun s => answer ses 0x0202 stOK (stampTqb s) (disarmAll s)) s

/-- The targets that are armed, laid out as TARGETS, and HALT_N low in bit 16. -/
def acqState (s : State) : Nat :=
  ((List.range 4).map fun p => b2n (lch s p).armed * 2 ^ p).sum + 16 * b2n s.cnv.direct
    + ((List.range 8).map fun u => b2n (unitSt s u).armed * 2 ^ (8 + u)).sum + 65536 * b2n (!s.pins.haltN)

/-- ACQ_STATE (R388). -/
def execAcqState (ses : Nat) : State → Host.Outcome State Fault Refusal :=
  run fun s => hostCmd ses 0x0203 true true 4 (fun s => answer ses 0x0203 stOK (le 4 (acqState s)) s) s

/-! ### Halting (R359) -/

/-- The streams whose EXEMPT is 1. -/
def exemptStreams (s : State) : List Nat := (listedStreams s.regs.active).filter fun n => cfgB s (streamAt n) 7

/-- The streams halted now (SPT_HALTED). -/
def haltedCount (s : State) : Nat := if s.spt.haltAll then 4096 - s.spt.haltEx.length else s.spt.haltEx.length

/-- A halt has taken hold: its stamp and its event. -/
def noteHalt (s : State) : State := raise 0xB0040 0 (setStamp 0xB0058 (now s) s)

/-- Every stream whose EXEMPT is 0 is halted, whether or not it is enabled. -/
def haltStreams (s : State) : State :=
  let keep := (exemptStreams s).filter fun n => !streamHalted s n
  noteHalt { s with spt := { s.spt with haltAll := true, haltEx := keep } }

/-- A list of numbers, ascending, with one more. -/
def addTo (n : Nat) : List Nat → List Nat
  | [] => [n]
  | m :: l => if n < m then n :: m :: l else if n = m then m :: l else m :: addTo n l

/-- One stream is halted or resumes. -/
def setHalt (n : Nat) (halt : Bool) (s : State) : State :=
  if streamHalted s n = halt then s
  else
    let l := if n ∈ s.spt.haltEx then s.spt.haltEx.filter (· ≠ n) else addTo n s.spt.haltEx
    { s with spt := { s.spt with haltEx := l } }

/-- HALT_STREAMS (R388). -/
def execHaltStreams (ses : Nat) : State → Host.Outcome State Fault Refusal :=
  run fun s => hostCmd ses 0x0500 false true 16 (fun s => answer ses 0x0500 stOK (stampTqb s) (haltStreams s)) s

/-- One named stream is halted, whatever its EXEMPT. -/
def haltOne (n : Nat) (s : State) : State := noteHalt (setHalt n true s)

/-- HALT_STREAM (R388). -/
def execHaltStream (ses stream : Nat) : State → Host.Outcome State Fault Refusal :=
  run fun s => hostCmd ses 0x0501 false (decide (stream < 4096)) 16 (fun s =>
    answer ses 0x0501 stOK (stampTqb s) (haltOne stream s)) s

/-- STREAM_RESUME (R359, R388). -/
def execStreamResume (ses stream : Nat) : State → Host.Outcome State Fault Refusal :=
  run fun s => hostCmd ses 0x0502 false (decide (stream < 4096)) 0 (needLease ses 0x0502 fun s =>
    if !s.pins.haltN then answer ses 0x0502 stState [] s
    else
      let was := streamHalted s stream
      answer ses 0x0502 stOK [] (raiseIf was 0xB0040 1 (setHalt stream false s))) s

/-- Every halted stream resumes. -/
def resumeAll (s : State) : State :=
  let was := decide (0 < haltedCount s)
  raiseIf was 0xB0040 1 { s with spt := { s.spt with haltAll := false, haltEx := [] } }

/-- RESUME_ALL (R359, R388). -/
def execResumeAll (ses : Nat) : State → Host.Outcome State Fault Refusal :=
  run fun s => hostCmd ses 0x0503 false true 0 (needLease ses 0x0503 fun s =>
    if !s.pins.haltN then answer ses 0x0503 stState [] s else answer ses 0x0503 stOK [] (resumeAll s)) s

/-- HALT_N_FALL: HALT_N is sampled low on four consecutive AON clocks (R392). -/
def execHaltNFall : State → Host.Outcome State Fault Refusal := run fun s =>
  if s.pins.haltN then
    raise 0xC0040 6 (disarmAll (haltStreams { s with pins := { s.pins with haltN := false } }))
  else s

/-- HALT_N_RISE: HALT_N returns high; nothing resumes and nothing is armed again (R392). -/
def execHaltNRise : State → Host.Outcome State Fault Refusal := run fun s =>
  if s.pins.haltN then s else raise 0xC0040 7 { s with pins := { s.pins with haltN := true } }

/-! ### Replay and status (R364, R372) -/

/-- REPLAY commands in progress on all streams. -/
def replaysNow (s : State) : Nat := (s.spt.streams.map fun (_, x) => x.retx.length).sum

/-- The oldest number a stream's window holds; none is held where the window is empty, and then the reply's field is
free. -/
def oldestHeld (x : Stream) (s : State) : Nat × State :=
  match x.window with
  | w :: _ => (w.seq, s)
  | [] => freeNext s

/-- REPLAY (R364, R388). -/
def execReplay (ses stream' first count : Nat) : State → Host.Outcome State Fault Refusal :=
  run fun s => hostCmd ses 0x0504 false (decide (stream' < 4096 ∧ 1 ≤ count ∧ count ≤ 65536)) 24 (fun s =>
    let x := stream s stream'
    let sent := x.data + x.gaps
    if sent ≤ first then answer ses 0x0504 stState [] s
    else if 64 ≤ replaysNow s then answer ses 0x0504 stBusy [] s
    else
      let n := Nat.min count (sent - first)
      let (oldest, s) := oldestHeld x s
      answer ses 0x0504 stOK (le 8 first ++ le 4 n ++ le 4 0 ++ le 8 oldest)
        (setStream stream' { x with retx := x.retx ++ [(first, n)] } s)) s

/-- The STATE word of a stream status record (R372). -/
def streamState (s : State) (n : Nat) : Nat :=
  (if !streamOn s n then 0 else if streamHalted s n then 2 else 1) + (if (stream s n).moved then 4 else 0)
    + (if waitsHop s n then 8 else 0)

/-- The 64 bytes of a stream status record (R372). -/
def streamRecord (s : State) (n : Nat) : List Byte :=
  let x := stream s n
  le 8 x.issued ++ le 8 x.data ++ le 8 x.gaps ++ le 8 (x.issued - x.data - x.gaps) ++ le 8 x.notCreated ++ le 8 x.retransmitted
    ++ le 4 x.backlogMax ++ le 4 x.movedNo ++ le 4 (streamState s n) ++ le 4 x.expired

/-- STREAM_STATUS (R372, R388). -/
def execStreamStatus (ses first count : Nat) : State → Host.Outcome State Fault Refusal :=
  run fun s => hostCmd ses 0x0505 true (decide (1 ≤ count ∧ count ≤ 128 ∧ first + count ≤ 4096)) (64 * count) (fun s =>
    answer ses 0x0505 stOK ((List.range count).flatMap fun i => streamRecord s (first + i)) s) s

end Sys2Proof.Machine
end

