-- ==== Sys2Proof/Machine/Dram.lean ====
section
/-!
DEFINITION. The DRAM channels in service (11_memory): requests and their completion, refresh and power, patrol scrub and
repair, alerts and replay, retraining, faulted and dead channels, and migration onto the spare.
-/

namespace Sys2Proof.Machine

/-! ### Error correction (R306, R307) -/

/-- α times a symbol of GF(2^8) under 0x11D. -/
def gfStep (v : Nat) : Nat := if v.testBit 7 then (2 * v ^^^ 0x11D) else 2 * v

/-- The product of two symbols. -/
def gfMul (a b : Nat) : Nat :=
  ((List.range 8).foldl (fun (r, v) i => (if b.testBit i then r ^^^ v else r, gfStep v)) (0, a)).1

/-- α to a power. -/
def gfPow (n : Nat) : Nat := (List.range (n % 255)).foldl (fun v _ => gfStep v) 1

/-- The inverse of a symbol: its power 254. -/
def gfInv (a : Nat) : Nat := (List.range 253).foldl (fun v _ => gfMul v a) a

/-- Syndromes 0 to 7 of an error, symbol `i` at locator α^i. -/
def rsSyndromes (e : List Nat) : List Nat :=
  (List.range 8).map fun j => (e.zipIdx.foldl (fun v (x, i) => if x = 0 then v else v ^^^ gfMul x (gfPow (i * j))) 0)

/-- Syndromes without the part of the symbol at one locator. -/
def rsKill (loc : Nat) (l : List Nat) : List Nat := List.zipWith (fun b a => b ^^^ gfMul loc a) (l.drop 1) l

/-- The value the error takes at one symbol of a device whose symbols explain the syndromes. -/
def rsValue (syn : List Nat) (syms : List Nat) (i : Nat) : Nat :=
  let others := syms.filter (· ≠ i)
  let t := (others.foldl (fun l k => rsKill (gfPow k) l) syn).headD 0
  gfMul t (gfInv (others.foldl (fun v k => gfMul v (gfPow i ^^^ gfPow k)) 1))

/-- What the decoder makes of an error of 72 symbols: none where it is uncorrectable, else the first symbol corrected, if
any, and the error that is left. x4 devices carry four symbols, of x8 devices single symbols are corrected (R307). -/
def rsDecode (x8 : Bool) (e : List Nat) : Option (Option Nat × List Nat) :=
  let g := if x8 then 1 else 4
  let syn := rsSyndromes e
  if syn.all (· = 0) then some (none, e)
  else
    let hit := (List.range (72 / g)).find? fun d =>
      ((List.range g).foldl (fun l k => rsKill (gfPow (g * d + k)) l) syn).all (· = 0)
    hit.map fun d =>
      let syms := (List.range g).map (g * d + ·)
      (some (g * d), e.zipIdx.map fun (x, i) => if i ∈ syms then x ^^^ rsValue syn syms i else x)

/-! ### Requests and completion -/

/-- WRITE_COMPLETE: ALERT_WIN has passed since the oldest write that waits, or the replay that covered it has ended, without
an alert, and it is acknowledged (R287); a mirrored write is complete only where it is so on the spare too (R317). -/
def execWriteComplete (ch : Fin 9) : State → Host.Outcome State Fault Refusal := run fun s =>
  let c := ch.val
  let x := dch s c
  let isWrite (d : DCmd) : Bool := match d with | .column _ q _ => q.write | .refresh _ _ => false
  if x.alerted ∨ x.code = 4 then s
  else match x.retry.findIdx? isWrite with
    | none => s
    | some i => match x.retry[i]? with
      | some (.column _ q t) =>
        let y := dch s s.dram.target
        let mirrored := decide (s.dram.source = c) && (decide (s.dram.phase = 2) || decide (s.dram.phase = 3))
        if s.cnt.ticks < t + alertWin s c ∨ s.cnt.ticks < x.replayTill ∨
            (mirrored ∧ (y.alerted ∨ s.cnt.ticks < y.replayTill)) then s
        else
        let s := setDch c { x with retry := x.retry.eraseIdx i } s
        rill (112 + 4 * c + 3) 1
          (giveAnswer { who := q.who, ch := c, burst := q.burst, write := true, poison := false, data := [] } s)
      | _ => s

/-! ### Refresh and power (R294 to R297) -/

/-- Whether a rank's DRAM calls for 2x refresh: an MPR status other than "up to 85 °C" (R294). -/
def rankHot (s : State) (c r : Nat) : Bool :=
  match cfgF s (memA c 0xC) 0 2 with
  | 0 => decide ((rankSt (dch s c) r).temp ≠ 1)
  | 1 => cfgB s (memA c 0xC) 2
  | _ => true

/-- The refresh mode a channel is to run in. -/
def wantsTwoX (s : State) (c : Nat) : Bool := (List.range (dch s c).ranks).any (rankHot s c)

/-- Requests of a channel queued for a rank. -/
def rankQueue (x : DChan) (r : Nat) : List DQ := (queued x).filter fun q => decide (bankOf x q.burst / 16 = r)

/-- A REF issues on a rank: every row of the rank closes, the mode follows the temperature, and the command enters the
retry buffer (R292, R294, R313). -/
def refreshIssue (c r : Nat) (s : State) : State :=
  let x := dch s c
  let two := wantsTwoX s c
  let x' := { x with
    banks := x.banks.map fun (b, y) => (b, if b / 16 = r then { y with row := none } else y),
    retry := x.retry ++ [.refresh r s.cnt.ticks], twoX := two }
  let x' := setRank r { rankSt x' r with due := (rankSt x' r).due - 1, pd := 0, cmdAt := s.cnt.ticks } x'
  raiseIf (two != x.twoX) (memA c 0x40) 2 (setDch c x' s)

/-- Whether a REF can issue now. -/
def refreshReady (s : State) (c : Nat) : Bool :=
  let x := dch s c
  (decide (x.code = 1) || decide (x.code = 2)) && decide (pll s (4 + c / 3) = .inUse) && !x.alerted &&
    decide (x.retry.length < 64)

/-- tREFI in ticks (R294). -/
def trefi (x : DChan) : Nat := if x.twoX then 975 else 3900

/-- REFRESH_DUE: a REF falls due on a rank every tREFI. It issues, unless the rank has queued requests and fewer than nine
would be due (R294, R295). DRAM in self-refresh refreshes itself. -/
def execRefreshDue (ch : Fin 9) (rank : Fin 2) : State → Host.Outcome State Fault Refusal := run fun s =>
  let c := ch.val
  let r := rank.val
  let x := dch s c
  let k := rankSt x r
  if x.ranks ≤ r ∨ x.selfRef ∨ s.cnt.ticks < k.refAt then s
  else
    let due := Nat.min 9 (k.due + 1)
    let s := setDch c (setRank r { k with due := due, refAt := nextDue s k.refAt (trefi x) } x) s
    if refreshReady s c && (decide (rankQueue x r = []) || decide (9 ≤ due)) then refreshIssue c r s else s

/-- POSTPONED_REFRESH: the rank's queues are empty, and every REF that fell due issues (R295). -/
def execPostponedRefresh (ch : Fin 9) (rank : Fin 2) : State → Host.Outcome State Fault Refusal := run fun s =>
  let c := ch.val
  let r := rank.val
  if rankQueue (dch s c) r = [] then
    each (List.range (rankSt (dch s c) r).due) (fun _ s => if refreshReady s c then refreshIssue c r s else s) s
  else s

/-- MPR_TEMP_READ: the temperature status of a rank, read every 32 ms (R294). -/
def execMprTempRead (ch : Fin 9) (rank : Fin 2) (status : BitVec 2) : State → Host.Outcome State Fault Refusal := run fun s =>
  let x := dch s ch
  let k := rankSt x rank
  if x.ranks ≤ rank.val ∨ s.cnt.ticks < k.mprAt then s
  else setDch ch (setRank rank { k with temp := status.toNat, mprAt := nextDue s k.mprAt (32 * msTicks) } x) s

/-- ZQCS: every 128 ms the calibration runs on every rank (R297). A channel in self-refresh runs it when it leaves. -/
def execZqcs (ch : Fin 9) : State → Host.Outcome State Fault Refusal := run fun s =>
  let x := dch s ch
  if x.selfRef ∨ s.cnt.ticks < x.zqcsAt then s
  else setDch ch { x with zqcs := false, zqcsAt := nextDue s x.zqcsAt (128 * msTicks) } s

/-- PAGE_IDLE_CLOSE: PAGE_IDLE controller clocks without a column command have passed (R292). -/
def execPageIdleClose (ch : Fin 9) (bank : Nat) : State → Host.Outcome State Fault Refusal := run fun s =>
  let x := dch s ch
  let y := bankSt x bank
  if s.cnt.ticks < y.colAt + ctrlTicks s (Nat.max 16 (cfgF s (memA ch 4) 0 10)) then s
  else setDch ch (setBank bank { y with row := none } x) s

/-- POWER_DOWN_ENTRY: PD_IDLE controller clocks have passed, and a rank without a queued request enters active power-down
with a row open, else precharge power-down (R296). -/
def execPowerDownEntry (ch : Fin 9) (rank : Fin 2) : State → Host.Outcome State Fault Refusal := run fun s =>
  let x := dch s ch
  let idle := ctrlTicks s (Nat.max 8 (cfgF s (memA ch 4) 16 8))
  if x.ranks ≤ rank.val ∨ rankQueue x rank ≠ [] ∨ s.cnt.ticks < (rankSt x rank).cmdAt + idle then s
  else
    let openRow := x.banks.any fun (b, y) => decide (b / 16 = rank.val) && y.row.isSome
    setDch ch (setRank rank { rankSt x rank with pd := if openRow then 1 else 2 } x) s

/-- SELF_REFRESH_ENTRY: SR_IDLE has passed with empty queues; SR_IDLE 0 disables (R296, R318). -/
def execSelfRefreshEntry (ch : Fin 9) : State → Host.Outcome State Fault Refusal := run fun s =>
  let x := dch s ch
  let idle := cfgF s (memA ch 8) 0 16
  if (x.code = 1 ∨ x.code = 2) ∧ idle ≠ 0 ∧ queued x = [] ∧ x.held = [] ∧ x.usedAt + 500 * idle ≤ s.cnt.ticks then
    let banks := x.banks.map fun (b, y) => (b, { y with row := none })
    let ranks := x.rankSt.map fun (r, y) => (r, { y with due := 0, refAt := 0 })
    let wake := s.cnt.ticks + 1000 * msTicks * Nat.max 1 (cfgF s (memA ch 8) 16 8)
    setDch ch { x with selfRef := true, zqcs := true, banks := banks, rankSt := ranks, wakeAt := wake } s
  else s

/-- SCRUB_WAKE: every SCRUB_WAKE seconds a channel in self-refresh leaves it to run the scrub reads it owes (R296). -/
def execScrubWake (ch : Fin 9) : State → Host.Outcome State Fault Refusal := run fun s =>
  if pll s (4 + ch / 3) = .inUse ∧ (dch s ch).wakeAt ≤ s.cnt.ticks then chanWake ch s else s

/-- TREFW_TABLE_CLEAR: at the start of each tREFW every counting table of the channel is cleared (R294, R298). -/
def execTrefwTableClear (ch : Fin 9) : State → Host.Outcome State Fault Refusal := run fun s =>
  let x := dch s ch
  if s.cnt.ticks < x.trefwAt then s
  else
    let next := nextDue s x.trefwAt ((if x.twoX then 32 else 64) * msTicks)
    setDch ch { x with banks := x.banks.map fun (b, y) => (b, { y with table := [] }), trefwAt := next } s

/-! ### Patrol scrub and repair (R309, R310) -/

/-- Ticks in 24 h. -/
abbrev dayTicks := 43200000000000

/-- INDEX of a row in the wear map (R411). -/
def rowIndex (x : DChan) (c b : Nat) : Nat :=
  let k := bankOf x b
  c + 2 ^ 4 * (k / 16) + 2 ^ 5 * (k % 4) + 2 ^ 7 * (k / 4 % 4) + 2 ^ 9 * rowOf x b

/-- A failing row is repaired where its bank group has a resource left, else counted (R310). -/
def repairRow (c b cause : Nat) (s : State) : State :=
  let x := dch s c
  let k := bankOf x b
  let i := k % 4 + 4 * (k / 16)
  if x.pprUsed.testBit i then addHold (memA c 0x58) 1 s
  else
    let n := rowIndex x c b
    let s := setDch c { x with pprUsed := setBit x.pprUsed i, hppr := x.hppr ++ [n],
                               corrRows := x.corrRows.filter fun e => decide (rowIndex x c e.1 ≠ n) } s
    wearAdd 4 cause x.gen n (raise (memA c 0x40) 6 s)

/-- A corrected burst counts towards its row: at PPR_THRESH distinct bursts within 24 h the row is failing (R310). -/
def noteCorrected (c b : Nat) (s : State) : State :=
  let x := dch s c
  let fresh := x.corrRows.filter fun e => decide (s.cnt.ticks < e.2 + dayTicks) && decide (e.1 ≠ b)
  let same (l : List (Nat × Nat)) := (l.filter fun e => decide (rowIndex x c e.1 = rowIndex x c b)).length
  let before := same (x.corrRows.filter fun e => decide (s.cnt.ticks < e.2 + dayTicks))
  let all := fresh ++ [(b, s.cnt.ticks)]
  let thresh := Nat.max 1 (cfgF s (memA c 0x14) 16 4)
  let s := setDch c { x with corrRows := all } s
  if before < thresh ∧ thresh ≤ same all then repairRow c b 1 s else s

/-- MEM_n_LAST_ERR and its information: burst, device, kind, found by scrub, rank (R318). -/
def lastError (c b device : Nat) (bad scrub : Bool) (s : State) : State :=
  let rank := bankOf (dch s c) b / 16
  setHw (memA c 0xAC) (wd (device % 32 + 32 * b2n bad + 64 * b2n scrub + 256 * rank)) (setHw (memA c 0xA8) (wd b) s)

/-- What the read of a request finds where the burst's symbols have taken an error: a corrected burst is delivered corrected;
an uncorrectable one is delivered as read, with the poison flag, and the repair of its row writes it back so. The reads are
counted as the request arrives (R307, R308, R310). -/
def demandRead (c : Nat) (q : DQ) (err : List Byte) (s : State) : DQ × State :=
  let b := q.burst
  if err = [] ∨ (q.write ∧ wholeBurst q.data q.mask) ∨ burstBad s c b then (q, s)
  else
    let x := dch s c
    let e := (padTo 72 err).map (·.toNat)
    let bytes (l : List Nat) : List Byte := l.map (BitVec.ofNat 8)
    match rsDecode x.x8 e with
    | some (none, l) => ({ q with flip := bytes l }, s)
    | some (some i, l) =>
      let s := lastError c b (i / (if x.x8 then 8 else 4)) false false (addCnt64 (memA c 0x60) 1 s)
      ({ q with flip := bytes l }, noteCorrected c b (raise (memA c 0x40) 3 s))
    | none =>
      let (f, s) := freeNext s
      let s := lastError c b (f % (if x.x8 then 9 else 18)) true false (addCnt64 (memA c 0x68) 1 s)
      let t := repairRow c b 2 (raise (memA c 0x40) 4 s)
      let y := dch t c
      if y.pprUsed = x.pprUsed then ({ q with flip := bytes e, bad := true }, addCnt64 (memA c 0x70) 1 t)
      else
        let read := List.zipWith (fun (d v : Byte) => d ^^^ v) (burstData y b) (bytes e)
        ({ q with bad := true }, setDch c { y with cells := putCells (64 * b) read (List.replicate 64 true) y.cells,
                                                   poisoned := y.poisoned.filter (· ≠ b) ++ [b] } (loss 0 1 t))

/-- CHANNEL_REQUEST: a request for a 64-byte burst of the channel arrives, ends self-refresh, waits in the rill and enters its
bank queue (R285, R286, R288, R296). -/
def execChannelRequest (ch : Fin 9) (req : DramReq) : State → Host.Outcome State Fault Refusal := run fun s =>
  let c := ch.val
  let x := dch s c
  if x.code = 0 ∨ x.code = 3 ∨ x.code = 6 ∨ chanBytes x ≤ req.addr then s
  else
    let q : DQ := { write := req.write, burst := req.addr / 64, data := req.data, mask := req.mask, poison := req.poison,
                    who := req.who, order := x.arrivals }
    let (q, s) := demandRead c q (req.err.take 72) s
    let x := dch s c
    let s := chanWake c (setDch c { x with arrivals := x.arrivals + 1, held := x.held ++ [q] } s)
    let s := rillIssue (112 + 4 * c) s
    schedule c (if req.write then rill (112 + 4 * c + 1) 1 s else s)

/-- What the scrubber finds in a burst whose stored symbols have taken an error (R307 to R309). -/
def scrubBurst (c b : Nat) (err : List Nat) (s : State) : State :=
  if burstBad s c b then countRead c b s
  else
    let x := dch s c
    let whole := List.replicate 64 true
    let with' (e : List Nat) : List Byte := List.zipWith (fun d v => d ^^^ BitVec.ofNat 8 v) (burstData x b) e
    match rsDecode x.x8 err with
    | some (none, e) => setDch c { x with cells := putCells (64 * b) (with' e) whole x.cells } s
    | some (some i, e) =>
      let s := lastError c b (i / (if x.x8 then 8 else 4)) false true (addCnt64 (memA c 0x60) 1 s)
      noteCorrected c b (writeBurst c b (with' e) whole false (raise (memA c 0x40) 3 s))
    | none =>
      let (f, s) := freeNext s
      let s := addCnt64 (memA c 0x70) 1 (addCnt64 (memA c 0x68) 1 s)
      let s := lastError c b (f % (if x.x8 then 9 else 18)) true true s
      let s := raise (memA c 0x40) 5 (raise (memA c 0x40) 4 s)
      let s := loss 0 1 (writeBurst c b (with' err) whole true s)
      let s := match addrOf s c (64 * b) with
        | some a => poisonSeen a 64 s
        | none => s
      repairRow c b 2 s

/-- The ticks between two patrol reads: SCRUB_HOURS over every burst of the channel (R309). -/
def scrubPace (s : State) (c : Nat) : Nat :=
  Nat.max 1 (3600000 * msTicks * Nat.max 1 (cfgF s (memA c 0x14) 0 8) / (chanBytes (dch s c) / 64))

/-- PATROL_SCRUB_READ: the next burst in ascending a_c is read, with the error its 72 stored symbols have taken, and the
sweep goes on; a pass that ends is counted (R309). -/
def execPatrolScrubRead (ch : Fin 9) (err : List Byte) : State → Host.Outcome State Fault Refusal := run fun s =>
  let c := ch.val
  let x := dch s c
  if (x.code = 1 ∨ x.code = 2) ∧ pll s (4 + c / 3) = .inUse ∧ ¬ x.alerted ∧ ¬ x.selfRef ∧ 0 < x.ranks ∧
      x.scrubAt ≤ s.cnt.ticks then
    let b := x.sweep
    let s := setDch c { x with scrubAt := nextDue s x.scrubAt (scrubPace s c) } s
    let s := scrubBurst c b ((padTo 72 (err.take 72)).map (·.toNat)) (settle c b s)
    let last := decide (chanBytes x ≤ 64 * (b + 1))
    let s := setDch c { dch s c with sweep := if last then 0 else b + 1 } s
    let s := setHw (memA c 0x9C) (wd (if last then 0 else b + 1)) s
    if last then addCnt (memA c 0x98) 1 s else s
  else s

/-! ### Migration onto the spare (R316, R317, R399) -/

/-- STATE of a channel in service. -/
def serviceCode (s : State) (c : Nat) : Nat := if c ∈ s.dram.chmap.take s.dram.nActive then 1 else 2

/-- Requests of one channel that have not issued, and writes that are not complete, in order of arrival, go to another
channel's rill. -/
def rehome (c d : Nat) (s : State) : State :=
  let x := dch s c
  let writes := x.retry.filterMap fun e => match e with | .column _ q _ => if q.write then some q else none | _ => none
  let all := writes ++ sortBy (fun a b => decide (a.order ≤ b.order)) (queued x) ++ x.held
  let y := dch s d
  let moved := all.zipIdx.map fun (q, i) => { q with order := y.arrivals + i, passed := 0 }
  let s := setDch d { y with held := y.held ++ moved, arrivals := y.arrivals + moved.length } s
  setDch c { dch s c with held := [], retry := [], alerted := false, fails := 0,
                          banks := x.banks.map fun (b, k) => (b, { k with queue := [], inOrder := none, nbrs := [] }) } s

/-- The spare takes an active index. -/
def takeIndex (c d : Nat) (s : State) : State :=
  { s with dram := { s.dram with chmap := s.dram.chmap.map fun k => if k = c then d else k, spare := 15 } }

/-- The spare is available: trained, in no migration. -/
def spareReady (s : State) : Bool :=
  decide (s.dram.spare ≠ 15) && decide ((dch s s.dram.spare).code = 2) && decide (s.dram.phase = 0)

/-- A live migration starts: the spare leaves self-refresh and is retrained (R317). -/
def migrateStart (c : Nat) (s : State) : State :=
  retrainStart s.dram.spare false
    { s with dram := { s.dram with phase := 1, source := c, target := s.dram.spare, ptr := 0, kept := [] } }

/-- A migration is abandoned before its cut-over: the spare is retired, the source stays (R399). -/
def migrateAbort (s : State) : State :=
  let d := s.dram.target
  let s := setDch d { dch s d with code := 6 } { s with dram := { s.dram with phase := 0, kept := [], spare := 15 } }
  raise 0xD0040 7 (wearAdd 3 1 (dch s d).gen d s)

/-- Writing to the spare before its cut-over. -/
def migrating (s : State) : Bool := decide (1 ≤ s.dram.phase) && decide (s.dram.phase ≤ 3)

/-- A channel is dead (R316, R408): the spare takes its index at once, or it stays and answers with poison. -/
def channelDies (c : Nat) (s : State) : State :=
  let s := markChannel c s
  let s := setDch c { dch s c with code := 5, relock := false } s
  let s := wearAdd 3 1 (dch s c).gen c (raise (memA c 0x40) 9 s)
  let copying := migrating s && decide (s.dram.source = c)
  if c ∈ s.dram.chmap.take s.dram.nActive then
    if copying || spareReady s then
      let d := s.dram.spare
      let ptr := if copying && decide (s.dram.phase ≠ 1) then s.dram.ptr else 0
      let kept := if copying && decide (s.dram.phase ≠ 1) then s.dram.kept else []
      let s := rehome c d (takeIndex c d s)
      let s := if (dch s d).code = 2 then setDch d { dch s d with code := 1 } s else s
      budgetCheck { s with dram := { s.dram with phase := 4, source := c, target := d, ptr := ptr, kept := kept } }
    else
      let s := if s.dram.phase = 4 ∧ s.dram.target = c then { s with dram := { s.dram with phase := 0, kept := [] } } else s
      budgetCheck (raise 0x80840 4 s)
  else if s.dram.spare = c then { s with dram := { s.dram with spare := 15 } }
  else s

/-- 256 bytes of the copy or fill of Runnel channel 16 (R316, R317): a copied burst takes its poison along; a filled one
is poisoned unless it has been written meanwhile. -/
def migrateBurst (s : State) : State :=
  let c := s.dram.source
  let d := s.dram.target
  let s := chanUse d (chanWake d s)
  let bytes := chanBytes (dch s d)
  let n := Nat.min 4 ((bytes - s.dram.ptr) / 64)
  let s := each ((List.range n).map (s.dram.ptr / 64 + ·)) (fun b s =>
    if s.dram.phase = 2 then
      let s := blockAccess c b s
      setDch d (putBurst b (burstBytes s c b) (List.replicate 64 true) (burstBad s c b) (dch s d)) (countRead c b s)
    else if b ∈ s.dram.kept then s
    else loss 1 1 (setDch d { dch s d with poisoned := (dch s d).poisoned.filter (· ≠ b) ++ [b] } s)) s
  let ptr := s.dram.ptr + 64 * n
  let pace := ceilDiv 128 (clampN 1 15 (cfgF s 0x8080C 0 8))
  let s := { s with dram := { s.dram with
    ptr := ptr, copyAt := Nat.max s.cnt.ticks s.dram.copyAt + pace, kept := s.dram.kept.filter fun b => decide (ptr ≤ 64 * b) } }
  if ptr < bytes then s
  else if s.dram.phase = 2 then { s with dram := { s.dram with phase := 3 } }
  else raise 0x80840 3 { s with dram := { s.dram with phase := 0, kept := [] } }

/-- MIGRATION_CUTOVER: the copy has reached the end, every mirrored write is complete, and neither channel is faulted or
running a replay; the active index moves to the spare and the source is retired (R317, R399). -/
def execMigrationCutover : State → Host.Outcome State Fault Refusal := run fun s =>
  let c := s.dram.source
  let d := s.dram.target
  let idle (k : Nat) : Bool :=
    let x := dch s k
    !x.alerted && decide (x.replayTill ≤ s.cnt.ticks) && decide (x.code = 1 ∨ x.code = 2) &&
      x.retry.all fun e => match e with | .column _ q _ => !q.write | _ => true
  if s.dram.phase = 3 ∧ idle c ∧ idle d then
    let s := rehome c d (takeIndex c d s)
    let s := setDch d { dch s d with code := 1 } (setDch c { dch s c with code := 6 } s)
    raise 0x80840 3 (wearAdd 3 2 (dch s c).gen c { s with dram := { s.dram with phase := 0, kept := [] } })
  else s

/-- MIGRATE (0x0801): STATE without an available spare, with a migration running, or for a source that is not active
(R388). -/
def execMigrate (ses source : Nat) : State → Host.Outcome State Fault Refusal := run fun s =>
  hostCmd ses 0x0801 false true 0 (needLease ses 0x0801 fun s =>
    if spareReady s && decide (source ∈ s.dram.chmap.take s.dram.nActive) && decide ((dch s source).code = 1) then
      answer ses 0x0801 stOK [] (migrateStart source s)
    else answer ses 0x0801 stState [] s) s

/-! ### Alerts and replay (R313 to R315) -/

/-- A channel is faulted: its requests are held, and it is retrained (R315). A spare that faults before its cut-over ends
the migration (R399). -/
def channelFaults (c : Nat) (s : State) : State :=
  let x := dch s c
  let recent := x.faults.filter fun t => decide (s.cnt.ticks < t + dayTicks)
  let s := setDch c { x with code := 4, alerted := false, fails := 0, replayTill := 0, replayRanks := [],
                             faults := recent ++ [s.cnt.ticks] } s
  let s := raise (memA c 0x40) 8 s
  if migrating s && decide (s.dram.target = c) then migrateAbort s else s

/-- ALERT: Mn_ALERT_n asserts and the controller stops issuing (R314). During a replay, that replay has failed; the
fourth in a row faults the channel (R315). -/
def execAlert (ch : Fin 9) : State → Host.Outcome State Fault Refusal := run fun s =>
  let c := ch.val
  let x := dch s c
  if (x.code = 1 ∨ x.code = 2) ∧ ¬ x.alerted then
    if s.cnt.ticks < x.replayTill then
      let s := addHold (memA c 0x80) 1 s
      if x.fails + 1 = 4 then channelFaults c s else setDch c { x with alerted := true, fails := x.fails + 1 } s
    else setDch c { x with alerted := true, fails := 0 } s
  else s

/-- The rank a command of the retry buffer names. -/
def cmdRank : DCmd → Nat
  | .column b _ _ => b / 16
  | .refresh r _ => r

/-- The retry buffer is replayed in order: every rank it names is precharged, rows reopen as they did, and the replay
can fail until ALERT_WIN has passed (R314). What the replayed commands read and write is what they did before. -/
def replayRetry (c : Nat) (s : State) : State :=
  let x := dch s c
  let ranks := (x.retry.map cmdRank).eraseDups
  let t := s.cnt.ticks
  let retry := x.retry.map fun e => match e with | .column b q _ => .column b q t | .refresh r _ => .refresh r t
  let closed := x.banks.map fun (b, y) => (b, if b / 16 ∈ ranks then { y with row := none } else y)
  let x := { x with retry := retry, banks := closed, alerted := false, replayTill := t + alertWin s c, replayRanks := ranks }
  let x := retry.foldl (fun x e => match e with
    | .column b q _ => setBank b { bankSt x b with row := some (rowOf x q.burst) } x
    | .refresh r _ => { x with banks := x.banks.map fun (b, y) => (b, if b / 16 = r then { y with row := none } else y) }) x
  raise (memA c 0x40) 7 (addCnt64 (memA c 0x78) 1 (setDch c x s))

/-- ALERT_N_HIGH: Mn_ALERT_n is high again, and the replay runs (R314). -/
def execAlertNHigh (ch : Fin 9) : State → Host.Outcome State Fault Refusal := run fun s =>
  if (dch s ch).alerted then replayRetry ch s else s

/-! ### Retraining in service (R305) -/

/-- Every channel of the subsystem enters self-refresh and the memory PLLs change, after which the channels retrain
(R94, R305). -/
def regrade (s : State) : State :=
  each (List.range 3) (fun i s => if pll s (4 + i) = .inUse then pllStart (4 + i) (memGated i s) else s)
    { s with dram := { s.dram with regrade := true } }

/-- The grade falls one step by an override (R55, R305). -/
def gradeDrop (s : State) : State :=
  let g := s.dram.grade - 1
  let o : Override := { addr := 0x80800, mask := 3, value := wd g }
  let s := { s with regs := { s.regs with overrides := s.regs.overrides.filter (fun (p : Override) => decide (p.addr ≠ 0x80800)) ++ [o] } }
  let s := noteOverride o { s with dram := { s.dram with grade := g } }
  regrade (raise 0x80840 2 s)

/-- RETRAIN of MEM_n_CMD: a channel in service retrains; one that is not has nothing to do (R305). -/
def retrainCommand (c : Nat) (s : State) : State :=
  if (dch s c).code = 1 ∨ (dch s c).code = 2 then retrainStart c false s else cmdDone (memA c 0x44) 0 id s

/-- A retraining has passed: the channel is in service again; a faulted one replays its held commands, and migrates after
more than four faults in 24 h where it can (R305, R316); a spare woken for a migration starts its copy (R317). -/
def retrainPassed (c : Nat) (s : State) : State :=
  let faulted := decide ((dch s c).code = 4)
  let s := setDch c { dch s c with code := serviceCode s c, relock := false, zqcs := false } s
  let s := raise (memA c 0x40) 1 s
  let s := if faulted ∧ (dch s c).retry ≠ [] then replayRetry c s else s
  if s.dram.phase = 1 ∧ s.dram.target = c then { s with dram := { s.dram with phase := 2, ptr := 0, kept := [] } }
  else if faulted ∧ 4 < (dch s c).faults.length ∧ spareReady s ∧ c ∈ s.dram.chmap.take s.dram.nActive then migrateStart c s
  else s

/-- A retraining has failed: one after a relock of its PLL lowers the grade while it can; otherwise the channel is dead,
or the migration it was woken for is abandoned (R305, R316, R399). -/
def retrainFailed (c : Nat) (s : State) : State :=
  let x := dch s c
  if migrating s ∧ s.dram.target = c then migrateAbort s
  else if x.code = 7 ∧ x.relock ∧ 0 < s.dram.grade then
    budgetCheck (gradeDrop (setDch c { x with code := serviceCode s c, relock := false } s))
  else channelDies c s

/-- RETRAIN_COMPLETE (R305, R316). -/
def execRetrainComplete (ch : Fin 9) (passed : Bool) : State → Host.Outcome State Fault Refusal := run fun s =>
  let c := ch.val
  if (dch s c).code = 7 ∨ (dch s c).code = 4 then
    let s := if passed then retrainPassed c s else retrainFailed c s
    let s := if bit (hw s (memA c 0x44)) 0 ∧ (dch s c).code ≠ 7 then cmdDone (memA c 0x44) 0 (retrainCommand c) s else s
    setupDone s
  else s

/-! ### NEW_DRAM (R312) -/

/-- A channel is active: it has an index. -/
def chanActive (s : State) (c : Nat) : Bool := decide (c ∈ s.dram.chmap.take s.dram.nActive)

/-- NEW_DRAM of MEM_n_CMD: the channel's DRAM generation advances, up to seven times; earlier PPR records no longer
apply. -/
def newDramCommand (c : Nat) (s : State) : State :=
  let x := dch s c
  let s := if x.gen < 7 then wearAdd 6 1 (x.gen + 1) c (setDch c { x with gen := x.gen + 1, pprUsed := 0, hppr := [] } s) else s
  cmdDone (memA c 0x44) 1 id s

end Sys2Proof.Machine
end

