-- ==== Sys2Proof/Machine/Runnel.lean ====
section
/-!
DEFINITION. Runnel (12_runnel): the checks of a descriptor, the windows, bursts and their arbitration, completion and
stops, and the mailboxes.
-/

namespace Sys2Proof.Machine

/-! ### Registers of a channel (R336) -/

/-- A register of channel `c`. -/
def rnlA (c off : Nat) : Nat := 0x90000 + 0x40 * c + off

/-- The priority of a channel (R319, R336). -/
def rnlPrio (s : State) (c : Nat) : Nat :=
  if c < 4 then 5 else if c < 16 then 4 else if c = 17 then 7 else if c < 24 then 6
  else Nat.min 3 (cfgF s 0x91000 (3 * (c - 24)) 3)

/-! ### Windows (R281, R328) -/

/-- How a side may use a window. -/
inductive Use where
  | no | inc | fixed | either
  deriving DecidableEq, Repr

/-- A window: its place, how a source and a destination may use it, the width codes, and whether a host may read it. -/
structure Window where
  base : Nat
  size : Nat
  src  : Use
  dst  : Use
  low  : Nat
  high : Nat
  host : Bool
  deriving DecidableEq, Repr

/-- The base of the mailboxes. -/
abbrev mboxBase := 0x8008000000

/-- The windows of R328. -/
def windows : List Window :=
  [ { base := 0x8000000000, size := 0x4000000, src := .inc, dst := .no, low := 0, high := 6, host := true },
    { base := 0x8004000000, size := 0x800000, src := .inc, dst := .no, low := 0, high := 6, host := true },
    { base := 0x8005000000, size := 0x100000, src := .inc, dst := .no, low := 0, high := 6, host := true },
    { base := 0x8006000000, size := 0x1000000, src := .either, dst := .either, low := 0, high := 6, host := false },
    { base := 0x8007000000, size := 0x40000, src := .either, dst := .either, low := 0, high := 6, host := false },
    { base := mboxBase, size := 0x80000, src := .either, dst := .either, low := 0, high := 6, host := true },
    { base := 0xFF00000000, size := 32, src := .fixed, dst := .no, low := 3, high := 5, host := true } ]
  ++ ((List.range 4).map fun n =>
    { base := 0xFF00010000 + 0x1000 * n, size := 64, src := .fixed, dst := .no, low := 3, high := 6, host := true })
  ++ ((List.range 16).map fun p =>
    { base := 0xFF00020000 + 0x100 * p, size := 64, src := .no, dst := .fixed, low := 3, high := 6, host := false })
  ++ [ { base := 0xFF00FF0000, size := 64, src := .fixed, dst := .no, low := 0, high := 6, host := true } ]

/-- The window that holds a whole range. -/
def windowOf (a n : Nat) : Option Window := windows.find? fun w => decide (w.base ≤ a) && decide (a + n ≤ w.base + w.size)

/-- Whether a use covers an incrementing or a fixed side. -/
def allows (u : Use) (fixed : Bool) : Bool :=
  match u with
  | .no => false
  | .inc => !fixed
  | .fixed => fixed
  | .either => true

/-! ### A descriptor and its checks (R322, R324 to R327) -/

/-- A descriptor (R322). -/
structure Desc where
  src  : Nat
  dst  : Nat
  len  : Nat
  ctrl : Word
  next : Nat
  deriving DecidableEq, Repr

/-- The descriptor that 32 bytes spell. -/
def ofDesc (b : List Byte) : Desc :=
  { src := leAt b 0 5, dst := leAt b 8 5, len := leAt b 0x10 4, ctrl := wd (leAt b 0x14 4), next := leAt b 0x18 5 }

/-- SRC_WIDTH, SRC_FIXED, DST_WIDTH and DST_FIXED of a CTRL word. -/
def srcWidth (w : Word) : Nat := fld w 0 3

/-- SRC_FIXED. -/
def srcFixed (w : Word) : Bool := bit w 3

/-- DST_WIDTH. -/
def dstWidth (w : Word) : Nat := fld w 4 3

/-- DST_FIXED. -/
def dstFixed (w : Word) : Bool := bit w 7

/-- The TIU stamp FIFO window. -/
def isTiuFifo (a : Nat) : Bool := decide (0xFF00000000 ≤ a ∧ a < 0xFF00000020)

/-- The engine of a Pool readout port. -/
def readoutPort (a : Nat) : Option Nat := (List.range 4).find? fun n => decide (0xFF00010000 + 0x1000 * n ≤ a ∧ a < 0xFF00010040 + 0x1000 * n)

/-- ALIGN fails (R324, R329). -/
def alignFails (d : Desc) : Bool :=
  let ws := 2 ^ srcWidth d.ctrl
  let wt := 2 ^ dstWidth d.ctrl
  decide (srcWidth d.ctrl = 7) || decide (dstWidth d.ctrl = 7) || decide (d.src % ws ≠ 0) || decide (d.dst % wt ≠ 0) ||
    decide (d.len % Nat.max ws wt ≠ 0) || (isTiuFifo d.src && decide (d.len % 32 ≠ 0))

/-- Whether one side of a descriptor may be used (R325): backed DRAM, or a window whose directions and widths allow it. -/
def sideOk (s : State) (isDst host : Bool) (a len width : Nat) (fixed : Bool) : Bool :=
  let n := if fixed then 2 ^ width else len
  if n = 0 ∨ a + n ≤ Nat.min (2 ^ 39) (backed s) then true
  else match windowOf a n with
    | none => false
    | some w => allows (if isDst then w.dst else w.src) fixed && decide (w.low ≤ width ∧ width ≤ w.high) &&
        (isDst || w.host || !host)

/-- The areas of DRAM that no host descriptor may write (R327). -/
def protectedAreas (s : State) (m : Nat → Word) : List (Nat × Nat) :=
  (extents m).filter (fun e => decide (e ≠ (replayBase m, replaySize m))) ++ s.spt.windows.map (·.2)

/-- PROTECTED fails for a host channel (R327, R328): only its own mailbox and unprotected DRAM take its writes. -/
def protectFails (s : State) (c : Nat) (a len width : Nat) (fixed : Bool) : Bool :=
  let n := if fixed then 2 ^ width else len
  if n = 0 then false
  else if a < 2 ^ 39 then (protectedAreas s (cfg s)).any fun e => meets a n e.1 e.2
  else
    let own := mboxBase + 0x10000 * (c - 24)
    !(decide (own ≤ a) && decide (a + n ≤ own + 0x10000))

/-- The status a descriptor's checks give: 0 where it passes all of them (R324 to R327). -/
def descCheck (s : State) (c : Nat) (d : Desc) : Nat :=
  let host := decide (24 ≤ c)
  let ws := srcWidth d.ctrl
  let wt := dstWidth d.ctrl
  if alignFails d then 7
  else if !sideOk s false host d.src d.len ws (srcFixed d.ctrl) || !sideOk s true host d.dst d.len wt (dstFixed d.ctrl) then 3
  else if !srcFixed d.ctrl && !dstFixed d.ctrl && meets d.src d.len d.dst d.len then 2
  else if host && protectFails s c d.dst d.len wt (dstFixed d.ctrl) then 4
  else 0

/-! ### Reading the windows (R191, R201, R243, R328) -/

/-- The CASCADE bytes of a stage (R201). -/
def stageRegBytes (c : StageCfg) (r : StageReg) : List Byte :=
  match c.mode with
  | 0 => []
  | 1 => le 8 (twos 64 r.acc)
  | 2 => le 4 (twos 32 r.lo) ++ le 4 (twos 32 r.hi)
  | _ => padTo (6 * c.order) (r.i.flatMap fun v => le 6 (twos 48 v)) ++ padTo (6 * c.order) (r.c.flatMap fun v => le 6 (twos 48 v))
      ++ padTo 24 (r.w.flatMap fun v => le 4 (twos 32 v))

/-- A slot record (R191). -/
def slotRecBytes (r : SlotRec) : List Byte :=
  let bin (z : Cpx) : List Byte := le 2 (twos 16 z.re) ++ le 2 (twos 16 z.im)
  bin r.pnX ++ bin r.pnY ++ bin r.pfX ++ bin r.pfY ++ le 6 (twos 48 r.u)
    ++ le 1 (b2n r.primed + 2 * b2n r.uSat + 4 * b2n r.faded) ++ le 1 0

/-- The 256 bytes of a channel's Basin entry (R191, R201). -/
def entryBytes (s : State) (p k : Nat) : List Byte :=
  let x := chanOf s p k
  let m := cfg s
  ((List.range 4).flatMap fun i => slotRecBytes (slotShown m p i (smGet {} i x.slots)))
    ++ padTo 160 ((List.range (stagesOf m p)).flatMap fun i => stageRegBytes (stageOf m p (i + 1)) (smGet {} (i + 1) x.stages))

/-- Bytes of a table whose entries have a fixed size. -/
def tableBytes (size : Nat) (entry : Nat → List Byte) (off n : Nat) : List Byte :=
  if n = 0 then []
  else slice (off % size) n ((List.range ((off + n - 1) / size - off / size + 1)).flatMap fun i => entry (off / size + i))

/-- A 32-byte entry of the Pool SRAM (R206): four engines of 65,536 entries, their layout open. -/
def poolEntryBytes (s : State) (i : Nat) : List Byte :=
  let y := smGet {} (i % 65536) (pol s (i / 65536)).entries
  (List.range 32).map fun k => Config.poolByte y.s1 y.s2 y.mn y.mx y.n k

/-- Bytes of a window that is neither a FIFO nor DRAM. -/
def windowRead (s : State) (a n : Nat) : List Byte :=
  if a < 0x8004000000 then
    tableBytes 256 (fun i => entryBytes s (i / 65536) (i % 65536)) (a - 0x8000000000) n
  else if a < 0x8005000000 then tableBytes 32 (poolEntryBytes s) (a - 0x8004000000) n
  else if a < 0x8006000000 then tableBytes 64 (fun w => statusBytes (watchStatus s w)) (a - 0x8005000000) n
  else if mboxBase ≤ a ∧ a < mboxBase + 0x80000 then (List.range n).map fun i => smGet 0 (a - mboxBase + i) s.rnl.mbox
  else zeros n

/-- Bytes at an address with the poison the memory subsystem returns for each, and the state after the read. -/
def memRead (a n : Nat) (s : State) : List (Byte × Bool) × State :=
  if a < 2 ^ 39 then
    let ((bytes, _), t) := dramRead a n s
    let marks := dramMarks s a n
    (bytes.zipIdx.map fun (b, i) => (b, marks.getD ((a + i) / 64 - a / 64) false), t)
  else ((windowRead s a n).map fun b => (b, false), s)

/-! ### FIFO windows (R329) -/

/-- Bytes that the TIU stamp FIFO still holds. -/
def tiuBytes (s : State) : Nat := 32 * s.tiu.fifo.length - s.rnl.tiuOff

/-- Takes bytes of the TIU stamp FIFO: an entry leaves when its last byte has been read. -/
def tiuTake (n : Nat) (s : State) : List Byte × State :=
  let all := ((s.tiu.fifo.take ((s.rnl.tiuOff + n + 31) / 32)).flatMap fifoBytes).drop s.rnl.tiuOff
  let used := s.rnl.tiuOff + n
  (all.take n, { s with tiu := { s.tiu with fifo := s.tiu.fifo.drop (used / 32) }, rnl := { s.rnl with tiuOff := used % 32 } })

/-- Bytes that a readout port still has to give. -/
def readoutBytes (s : State) (e : Nat) : Nat :=
  if polReadout (cfg s) e then ((pol s e).ring.map fun b => b.bytes - b.readout).sum else 0

/-- Counts bytes against the blocks of a ring in order, oldest first. -/
def readoutAdvance : Nat → List Block4 → List Block4
  | _, [] => []
  | n, b :: bs =>
    let k := Nat.min n (b.bytes - b.readout)
    { b with readout := b.readout + k } :: readoutAdvance (n - k) bs

/-- Takes bytes of a readout port with their poison, block by block in address order, at most `fuel` blocks. -/
def readoutTake (e : Nat) : Nat → Nat → State → List (Byte × Bool) × State
  | 0, _, s => ([], s)
  | fuel + 1, n, s =>
    match (pol s e).ring.find? fun b => decide (b.readout < b.bytes) with
    | none => ([], s)
    | some b =>
      let m := cfg s
      let pos := (b.addr + b.readout) % ringSize m e
      let k := Nat.min n (Nat.min (b.bytes - b.readout) (ringSize m e - pos))
      if k = 0 then ([], s)
      else
        let (bytes, s) := memRead (ringBase m e + pos) k s
        let s := ringRelease e (setPol e { pol s e with ring := readoutAdvance k (pol s e).ring } s)
        let (rest, s) := readoutTake e fuel (n - k) s
        (bytes ++ rest, s)

/-- What the FIFO behind a source has to give; none where the source is no FIFO that can run empty. -/
def fifoLeft (s : State) (a : Nat) : Option Nat :=
  if isTiuFifo a then some (tiuBytes s) else (readoutPort a).map (readoutBytes s)

/-! ### Bursts (R320, R321, R330) -/

/-- The bytes a channel's next burst moves: at most 256, to the end of the descriptor, to a 4 KiB boundary of an
incrementing DRAM side, and what a FIFO holds in whole accesses. -/
def burstLen (s : State) (x : RChan) : Nat :=
  let left := Nat.min 256 (x.len - x.moved)
  let edge (a : Nat) (fixed : Bool) (n : Nat) : Nat :=
    if !fixed && decide (a < 2 ^ 39) then Nat.min n (4096 - (a + x.moved) % 4096) else n
  let n := edge x.dst (dstFixed x.ctrl) (edge x.src (srcFixed x.ctrl) left)
  match (if srcFixed x.ctrl then fifoLeft s x.src else none) with
  | none => n
  | some k =>
    let w := 2 ^ Nat.max (srcWidth x.ctrl) (dstWidth x.ctrl)
    Nat.min n (k / w * w)

/-- Whether the DRAM behind a side can serve a burst now (R335). -/
def sideUp (s : State) (a n width moved : Nat) (fixed : Bool) : Bool :=
  if a < 2 ^ 39 then (if fixed then dramUp s a (2 ^ width) else dramUp s (a + moved) n) else true

/-- A host channel is ready to move (R320). -/
def hostReady (s : State) (c : Nat) : Bool :=
  let x := rch s c
  let n := burstLen s x
  decide (x.state = .moving) && !x.stop && decide (0 < n) &&
    sideUp s x.src n (srcWidth x.ctrl) x.moved (srcFixed x.ctrl) && sideUp s x.dst n (dstWidth x.ctrl) x.moved (dstFixed x.ctrl)

/-- A DRAM channel serves the migration. -/
def chanUp (s : State) (c : Nat) : Bool :=
  decide ((dch s c).code = 1 ∨ (dch s c).code = 2) && decide (pll s (4 + c / 3) = .inUse)

/-- Channel 16 is ready: a copy or a poison fill has bytes left, and MIGRATE_GBPS allows the next burst (R316, R317). -/
def copyReady (s : State) : Bool :=
  decide (s.dram.copyAt ≤ s.cnt.ticks) &&
    (decide (s.dram.phase = 4) || (decide (s.dram.phase = 2) && chanUp s s.dram.source)) && chanUp s s.dram.target

/-- The channels ready to move. -/
def rnlReady (s : State) : List Nat := (16 :: (List.range 8).map (24 + ·)).filter fun c => if c = 16 then copyReady s else hostReady s c

/-- The channel the next burst goes to, and whether by the exception of R320. -/
def rnlGrant (s : State) : Option (Nat × Bool) :=
  let l := rnlReady s
  let starved := l.filter fun c => decide (63 ≤ (rch s c).starved)
  let worst := (starved.map fun c => (rch s c).starved).foldl Nat.max 0
  match starved.find? fun c => decide ((rch s c).starved = worst) with
  | some c => some (c, true)
  | none =>
    let top := (l.map (rnlPrio s)).foldl Nat.max 0
    let cs := l.filter fun c => decide (rnlPrio s c = top)
    let last := smGet 31 top s.rnl.last
    ((cs.find? fun c => decide (last < c)).orElse fun _ => cs.head?).map fun c => (c, false)

/-- The bytes a burst reads from a source, with their poison. -/
def srcRead (x : RChan) (n : Nat) (s : State) : List (Byte × Bool) × State :=
  if srcFixed x.ctrl then
    if isTiuFifo x.src then
      let (b, s) := tiuTake n s
      (b.map fun v => (v, false), s)
    else match readoutPort x.src with
      | some e => readoutTake e 64 n s
      | none =>
        let w := 2 ^ srcWidth x.ctrl
        let (b, s) := memRead x.src w s
        ((List.replicate (n / w) b).flatten, s)
  else memRead (x.src + x.moved) n s

/-- Bytes written into a mailbox: a poisoned byte marks its 8-byte word, a whole clean word clears its mark (R330). -/
def mboxPut (off : Nat) (l : List (Byte × Bool)) (s : State) : State :=
  let cells := l.zipIdx.foldl (fun m (b, i) => smPut 0 (off + i) b.1 m) s.rnl.mbox
  let ws := if l = [] then [] else (List.range ((off + l.length - 1) / 8 - off / 8 + 1)).map (off / 8 + ·)
  let bad := ws.foldl (fun (bad : List Nat) w =>
    let part := l.zipIdx.filter fun (_, i) => decide ((off + i) / 8 = w)
    if part.any fun (b, _) => b.2 then (if w ∈ bad then bad else bad ++ [w])
    else if part.length = 8 then bad.filter (· ≠ w) else bad) s.rnl.mboxBad
  { s with rnl := { s.rnl with mbox := cells, mboxBad := bad } }

/-- Bytes written at an address: a DRAM burst that takes a poisoned byte is written poisoned (R330). -/
def memWrite (a : Nat) (l : List (Byte × Bool)) (s : State) : State :=
  if a < 2 ^ 39 then
    each (burstsOf a l.length) (fun g s =>
      let lo := Nat.max a (64 * g)
      let part := slice (lo - a) (64 * g + 64 - lo) l
      dramWrite lo (part.map (·.1)) (part.any (·.2)) s) s
  else if mboxBase ≤ a ∧ a < mboxBase + 0x80000 then mboxPut (a - mboxBase) l s
  else s

/-- The writes of a burst: in stream order, every access at DST for a fixed side. -/
def dstWrite (x : RChan) (l : List (Byte × Bool)) (s : State) : State :=
  if dstFixed x.ctrl then
    let w := 2 ^ dstWidth x.ctrl
    each (List.range (l.length / w)) (fun i s => memWrite x.dst (slice (w * i) w l) s) s
  else memWrite (x.dst + x.moved) l s

/-- One burst of a host channel; its ledger counts what it read and wrote (R321, R334). -/
def hostBurst (c : Nat) (s : State) : State :=
  let x := rch s c
  let n := burstLen s x
  let (l, s) := srcRead x n s
  let s := dstWrite x l s
  rnlCount c n (setRch c { x with moved := x.moved + n, waitFrom := s.cnt.ticks, poisoned := x.poisoned || l.any (·.2) } s)

/-- RUNNEL_BURST: the channel that arbitration grants moves a burst; channels that were ready have waited for one more,
or for none, by whether it went to a higher level (R320). -/
def execRunnelBurst : State → Host.Outcome State Fault Refusal := run fun s =>
  match rnlGrant s with
  | none => s
  | some (c, starve) =>
    let ready := rnlReady s
    let level := rnlPrio s c
    let s := each (16 :: (List.range 8).map (24 + ·)) (fun k s =>
      let n := if k ∈ ready ∧ k ≠ c ∧ rnlPrio s k < level then (rch s k).starved + 1 else 0
      setRch k { rch s k with starved := n } s) s
    let s := addCnt64 0x9104C 1 { s with rnl := { s.rnl with last := smPut 31 level c s.rnl.last } }
    let s := if starve then addCnt 0x91054 1 s else s
    if c = 16 then rnlCount 16 256 (migrateBurst s) else hostBurst c s

/-! ### Fetch, completion and stops (R323, R332, R333) -/

/-- A channel's chain is over. -/
def chainOver (c : Nat) (st : RState) (s : State) : State :=
  let s := setRch c { rch s c with state := st, stop := false } s
  if 24 ≤ c ∧ bit (hw s 0x91044) (c - 24) then cmdDone 0x91044 (c - 24) (cmdDone 0x91044 (c - 24) id) s else s

/-- A descriptor completes with a status (R323, R330, R332). -/
def descDone (c status : Nat) (s : State) : State :=
  let x := rch s c
  let s := if bit x.ctrl 9 then memWrite (x.cur + 0x17) [(BitVec.ofNat 8 status, false)] s else s
  let s := raiseIf (bit x.ctrl 8) (rnlA c 0) 0 s
  let s := if bit x.ctrl 8 ∧ 24 ≤ c then
      sendEvent 9 { code := 0x1005, src := c, stamp := now s, tqb := tqb s, body := le 8 x.cur ++ le 1 status ++ zeros 7 } s
    else s
  let s := addCnt (rnlA c 0x14) 1 (setRch c { rch s c with status := status } s)
  let s := if status = 5 then loss 15 1 (raise (rnlA c 0) 4 s) else s
  if status = 1 ∨ status = 5 then
    if x.next = 0 then chainOver c .idle (raise (rnlA c 0) 1 s)
    else setRch c { rch s c with state := .fetch, cur := x.next } s
  else if status = 6 then chainOver c .idle (raise (rnlA c 0) 2 s)
  else chainOver c .halted (raise (rnlA c 0) 3 s)

/-- Whether a descriptor may lie at an address (R322): DRAM or a mailbox. -/
def descPlace (s : State) (a : Nat) : Bool :=
  decide (a + 32 ≤ Nat.min (2 ^ 39) (backed s)) || (decide (mboxBase ≤ a) && decide (a + 32 ≤ mboxBase + 0x80000))

/-- The descriptor at an address and the status its fetch gives: 0 where it passes every check. -/
def descFetch (c a : Nat) (s : State) : Desc × Nat × State :=
  let none' : Desc := { src := 0, dst := 0, len := 0, ctrl := 0, next := 0 }
  if a % 32 ≠ 0 then (none', 7, s)
  else if !descPlace s a then (none', 3, s)
  else
    let (l, s) := memRead a 32 s
    let marked := decide (mboxBase ≤ a) && (List.range 4).any fun i => decide ((a - mboxBase) / 8 + i ∈ s.rnl.mboxBad)
    let d := ofDesc (l.map (·.1))
    (d, if marked || l.any (·.2) then 9 else descCheck s c d, s)

/-- A channel takes a descriptor. -/
def descLoad (c a : Nat) (d : Desc) (s : State) : State :=
  setRch c { rch s c with state := .moving, cur := a, src := d.src, dst := d.dst, len := d.len, ctrl := d.ctrl, next := d.next,
                          moved := 0, poisoned := false, waitFrom := s.cnt.ticks } s

/-- RUNNEL_DESC_FETCH: the next descriptor is fetched and checked; the first failure completes it (R323, R324). -/
def execRunnelDescFetch (ch : Fin 32) : State → Host.Outcome State Fault Refusal := run fun s =>
  let c := ch.val
  let x := rch s c
  if x.state = .fetch ∧ ¬ x.stop ∧ (2 ^ 39 ≤ x.cur ∨ dramUp s x.cur 32) then
    let (d, st, s) := descFetch c x.cur s
    let s := descLoad c x.cur d s
    if st = 0 then s else descDone c st s
  else s

/-- RUNNEL_DESC_COMPLETE: every byte of the descriptor has moved (R332). -/
def execRunnelDescComplete (ch : Fin 32) : State → Host.Outcome State Fault Refusal := run fun s =>
  let x := rch s ch
  if x.state = .moving ∧ x.len ≤ x.moved then descDone ch (if x.poisoned then 5 else 1) s else s

/-- Whether a channel waits for a byte of its source FIFO (R329). -/
def waitsFifo (s : State) (c : Nat) : Bool :=
  let x := rch s c
  decide (x.state = .moving) && decide (x.moved < x.len) && srcFixed x.ctrl && (fifoLeft s x.src).isSome &&
    decide (burstLen s x = 0)

/-- RNL_FIFO_WAIT of a channel has run out (R329, R336). -/
def fifoWaited (s : State) (c : Nat) : Bool :=
  decide ((rch s c).waitFrom + 500 * Nat.max 1 (cfgF s 0x91004 0 16) ≤ s.cnt.ticks)

/-- FIFO_TIMEOUT: RNL_FIFO_WAIT has passed without a byte (R329). -/
def execFifoTimeout (ch : Fin 32) : State → Host.Outcome State Fault Refusal := run fun s =>
  if waitsFifo s ch && fifoWaited s ch then raise 0x91040 0 (descDone ch 8 s) else s

/-- A stop of a host channel: at once where it is IDLE or HALTED, else at the next burst boundary (R333). -/
def rnlStop (c : Nat) (s : State) : State :=
  match (rch s c).state with
  | .idle | .halted => chainOver c .idle s
  | _ => setRch c { rch s c with stop := true } s

/-- RUNNEL_STOP_EFFECT: a burst boundary is reached; the current descriptor completes with ABORTED (R333). -/
def execRunnelStopEffect (ch : Fin 32) : State → Host.Outcome State Fault Refusal := run fun s =>
  let x := rch s ch
  if x.stop then
    match x.state with
    | .moving => descDone ch 6 s
    | .fetch => chainOver ch .idle (raise (rnlA ch 0) 2 (setRch ch { x with status := 6 } s))
    | _ => chainOver ch .idle s
  else s

/-- The stop of every host channel that a session started (R333). -/
def rnlStopSession (n : Nat) (s : State) : State :=
  each ((List.range 8).map (24 + ·)) (fun c s =>
    if (rch s c).ses = n ∧ ((rch s c).state = .moving ∨ (rch s c).state = .fetch) then rnlStop c s else s) s

/-- The stop of every host channel at a strobe that discards DRAM (R333). -/
def rnlStopAll (s : State) : State :=
  each ((List.range 8).map (24 + ·)) (fun c s =>
    if (rch s c).state = .moving ∨ (rch s c).state = .fetch then rnlStop c s else s) s

/-- After a strobe: running host descriptors whose destination now meets a protected area stop with PROTECTED (R327). -/
def rnlProtect (s : State) : State :=
  each ((List.range 8).map (24 + ·)) (fun c s =>
    let x := rch s c
    if x.state = .moving ∧ x.dst < 2 ^ 39 ∧ protectFails s c x.dst x.len (dstWidth x.ctrl) (dstFixed x.ctrl) then
      raise 0x91040 1 (descDone c 4 s)
    else s) s

/-! ### Host commands (R388) -/

/-- RNL_START (0x0600): the first descriptor is fetched and checked before the reply. -/
def execRnlStart (ses ch desc : Nat) : State → Host.Outcome State Fault Refusal := run fun s =>
  hostCmd ses 0x0600 false (decide (24 ≤ ch ∧ ch < 32)) 4 (needLease ses 0x0600 fun s =>
    let x := rch s ch
    let a := desc % 2 ^ 40
    if x.state = .moving ∨ x.state = .fetch then answer ses 0x0600 stBusy [] s
    else if a < backed s ∧ ¬ dramUp s a 32 then s
    else
      let (d, st, s) := descFetch ch a s
      if st = 0 then answer ses 0x0600 stOK [] (descLoad ch a d (setRch ch { rch s ch with ses := ses } s))
      else
        let s := setRch ch { rch s ch with state := .idle } s
        if st = 2 then answer ses 0x0600 stOverlap [] s else answer ses 0x0600 stState (le 4 st) s) s

/-- RNL_STOP (0x0601). -/
def execRnlStop (ses : Nat) (mask : BitVec 8) : State → Host.Outcome State Fault Refusal := run fun s =>
  hostCmd ses 0x0601 false true 0 (needLease ses 0x0601 fun s =>
    answer ses 0x0601 stOK [] (each (bitsOf 8 mask.toNat) (fun i s => rnlStop (24 + i) s) s)) s

/-- MBOX_WRITE (0x0602): bytes into the mailbox of a host channel. -/
def execMboxWrite (ses ch offset : Nat) (data : List Byte) : State → Host.Outcome State Fault Refusal := run fun s =>
  hostCmd ses 0x0602 false (decide (24 ≤ ch ∧ ch < 32 ∧ offset % 8 = 0 ∧ offset + data.length ≤ 65536)) 0
    (needLease ses 0x0602 fun s =>
      answer ses 0x0602 stOK [] (mboxPut (0x10000 * (ch - 24) + offset) (data.map fun b => (b, false)) s)) s

/-- The POISON field of MBOX_READ: a bit for each 8-byte word. -/
def mboxMarks (s : State) (off n : Nat) : List Byte :=
  (List.range 128).map fun k => BitVec.ofNat 8
    (((List.range 8).map fun i => if 8 * (8 * k + i) < n ∧ off / 8 + 8 * k + i ∈ s.rnl.mboxBad then 2 ^ i else 0).sum)

/-- MBOX_READ (0x0603). -/
def execMboxRead (ses ch offset bytes : Nat) : State → Host.Outcome State Fault Refusal := run fun s =>
  let off := 0x10000 * (ch - 24) + offset
  hostCmd ses 0x0603 false (decide (24 ≤ ch ∧ ch < 32 ∧ offset % 8 = 0 ∧ 8 ≤ bytes ∧ bytes ≤ 8192 ∧ offset + bytes ≤ 65536))
    (128 + bytes) (fun s => answer ses 0x0603 stOK (mboxMarks s off bytes ++ windowRead s (mboxBase + off) bytes) s) s

end Sys2Proof.Machine
end

