-- ==== Sys2Proof/Machine/HwRead.lean ====
section
/-!
DEFINITION. What a read of a cnt, once or id word returns: the words that show the state of a unit are computed from it,
the others are counts and captured values (R36, R57 and the register tables of the chapters).
-/

namespace Sys2Proof.Machine

/-- A set of small numbers as the bits of a word. -/
def bitSet (l : List Nat) : Nat := l.foldl setBit 0

/-- A word of a byte list (R446). -/
def wordOf (l : List Byte) (w : Nat) : Word := wd (leAt l (4 * w) 4)

/-- GLB (R57). -/
def glbRead (s : State) (o : Nat) : Option Word :=
  match o with
  | 0x08 => some ((otpByte s 7).setWidth 32)
  | 0x18 => some s.sealing.ref
  | 0x44 => some (wd s.commits.queue.length)
  | 0x48 => some (wd (bitSet ((s.regs.pend.map (·.1)).filter (· ≤ 4))))
  | 0x4C => some (wd (bitSet ((s.regs.overrides.map fun o => groupOf o.addr).eraseDups)))
  | 0x50 => some (match s.slc.lease with | some n => wd (n + 2 ^ 16) | none => 0)
  | _ => none

/-- CLK (R113). -/
def clkRead (s : State) (o : Nat) : Option Word :=
  match o with
  | 0x044 => some (wd (pllStates s))
  | 0x144 =>
    let ptp := if s.tb.source = 1 then ptpPort s else 0
    some (wd ((tqb s).toNat + 2 ^ 8 * b2n (timeValid s) + 2 ^ 9 * s.tb.source + 2 ^ 11 * ptp))
  | 0x148 => some (stampWord (now s) 0)
  | 0x14C => some (stampWord (now s) 1)
  | 0x150 => some (stampWord (now s) 2)
  | 0x158 => some (wd (twos 32 s.tb.freq))
  | _ => none

/-- CNV (R140). -/
def cnvRead (s : State) (o : Nat) : Option Word :=
  if o = 0x4C then some (wd (bitSet ((List.range 16).filter fun c => (conv s c).qcal.isSome)))
  else if o = 0x50 then some (wd (bitSet ((List.range 16).filter fun c => (conv s c).failed)))
  else if 0x1000 ≤ o ∧ o % 0x100 = 0 then some (wd (convState (conv s ((o - 0x1000) / 0x100))))
  else if 0x1000 ≤ o ∧ o % 0x100 = 4 then some (wd (mapWord (conv s ((o - 0x1000) / 0x100))))
  else none

/-- LCH and TIU (R168, R169). -/
def lchRead (s : State) (o : Nat) : Option Word :=
  if o < 0x400 ∧ o % 0x100 = 0x44 then
    let p := o / 0x100
    let x := lch s p
    some (wd (b2n x.armed + 2 * b2n (makesLaunches s p) + 4 * b2n (withholding s p) + 16 * (x.lastSlot % 4)))
  else if 0x1000 ≤ o ∧ o < 0x1180 ∧ o % 0x20 = 0x10 then
    let c := (o - 0x1000) / 0x20
    let x := tiuCh s c
    some (wd (lineOf s c + 16 * b2n x.failed + 32 * b2n x.held + 64 * b2n (x.inCal || beforeDead x s.cnt.coarse.toNat)))
  else if o = 0x1604 then
    let on (i : Nat) : Nat := match smFind i s.tiu.spareOf with | some c => c | none => 15
    let left := ((List.range 2).filter fun i => !s.tiu.retired.getLsbD (12 + i) && (smFind i s.tiu.spareOf).isNone).length
    some (wd (s.tiu.retired.toNat + 2 ^ 16 * left + 2 ^ 24 * on 0 + 2 ^ 28 * on 1))
  else if o = 0x1608 then some (wd s.tiu.fifo.length)
  else none

/-- Spare Basin rows left (R192). -/
def basinSpares (s : State) : Nat := 4096 - s.basin.used - (s.basin.badSpares.filter fun k => decide (s.basin.used ≤ k)).length

/-- PHS and Basin (R196). -/
def phsRead (s : State) (o : Nat) : Option Word :=
  if o = 0x3804 then some (wd (basinSpares s))
  else if 0x3810 ≤ o ∧ o < 0x3820 then some (wd (usableRows s ((o - 0x3810) / 4)))
  else if o % 0x1000 = 0x88 then
    let p := o / 0x1000
    some (wd (b2n ((lch s p).armed && decide (fpMode (cfg s) p ≠ 0)) + 2 * b2n (fellBack s p) + 4 * b2n (rowsDegraded s p)))
  else if o % 0x1000 = 0x8C then
    let p := o / 0x1000
    some (wd (if (lch s p).closed then 0 else phsLoad (cfg s) p))
  else none

/-- POL and CSC (R214, R215). An engine whose SOURCE is OFF has no ring: RING_FULL and RING_FREE read 0, as the table gives
them at reset (DEDUCED: log 214). -/
def polRead (s : State) (o : Nat) : Option Word :=
  if o < 0x2000 then
    let e := o / 0x800
    let x := pol s e
    let used := decide (polSource (cfg s) e ≠ 0)
    match o % 0x800 with
    | 0x48 =>
      let full := used && decide (ringFree s e < blockBytes (cfg s) e) && decide (0 < ringSize (cfg s) e)
      some (wd (b2n x.running + 2 * b2n (x.running && decide (x.seen = 0)) + 4 * b2n full))
    | 0x4C => some (wd (polLoad (cfg s) e))
    | 0x64 => some (wd x.events)
    | 0x68 => some (wd (if used then ringFree s e / 64 else 0))
    | _ => none
  else if o < 0x4000 then
    let p := (o - 0x2000) / 0x800
    let off := o % 0x800
    if off = 0x44 then
      some (wd (cascadeBytes (cfg s) p + 2 ^ 8 * stagesOf (cfg s) p + 2 ^ 11 * b2n (makesLaunches s p)))
    else if 0x48 ≤ off ∧ off < 0x58 then
      let k := (off - 0x48) / 4 + 1
      some (wd (if k ≤ stagesOf (cfg s) p then divTo (cfg s) p k else 0))
    else none
  else none

/-- WEI (R243). -/
def weiRead (s : State) (o : Nat) : Option Word :=
  if o < 0x800 then
    let u := o / 0x100
    let sum := cnt64 s (0xD0800 + 0x40 * u + 0x28)
    let count := cnt64 s (0xD0800 + 0x40 * u + 0x30)
    let mean := if count = 0 then 0 else (rhe (sum : Nat) count).toNat
    match o % 0x100 with
    | 0x44 => some (wd (weirState s (.unit u) % 16))
    | 0x58 => some (wd mean)
    | 0x5C => some (wd (mean / 2 ^ 32))
    | _ => none
  else if o = 0x1018 then some (wd (bitSet ((List.range 8).filter fun u => (unitSt s u).armed)))
  else if o = 0x1048 then some (wd (b2n s.weir.alarm + 2 * b2n (alarmAsserted s)))
  else if 0x1050 ≤ o ∧ o < 0x1090 then
    let p := (o - 0x1050) / 0x10
    match o % 0x10 with
    | 0 => some (wd (if (lch s p).closed then 0 else
        let d := weirDemand (cfg s) (enabledWatches s.regs.active) p
        Nat.min (2 ^ 32 - 1) (ceilDiv d.1 d.2)))
    | 4 => some (wd (weirLimit s p))
    | 8 => some (wd (16 - lanesLost s p + 32 * (2 - sparesUsed s p)))
    | _ => none
  else none

/-- CIS (R277). -/
def cisRead (s : State) (o : Nat) : Option Word :=
  if o = 0x48 then some (wd (slotsFree s))
  else if o = 0x4C then some (wd (ceilDiv (histUsed (cfg s) (enabledWatches s.regs.active)) (2 ^ 20)))
  else if 0x1000 ≤ o ∧ o < 0x2000 then
    let r := (o - 0x1000) / 0x40
    let l := segsIn s r
    let pins := l.filter (·.pinned)
    match o % 0x40 with
    | 0x10 => some (wd l.length)
    | 0x14 => some (wd pins.length)
    | 0x18 =>
      let used := (l.map (·.len)).sum + ((region s r).allocs.map (·.len)).sum
      some (wd (if regionOn (cfg s) r then (regionSize (cfg s) r - used) / 2 ^ 20 else 0))
    | 0x1C => some (wd (ceilDiv (pins.map (·.len)).sum (2 ^ 20)))
    | 0x20 => some (wd (region s r).links)
    | 0x24 => some (wd ((region s r).links / 2 ^ 32))
    | 0x28 => some (wd (region s r).lastSeg)
    | 0x2C => some (wd ((region s r).lastSeg / 2 ^ 32))
    | _ => none
  else if 0x2000 ≤ o ∧ o < 0x3000 then some (wordOf (chainOf s ((o - 0x2000) / 0x40)) (o % 0x40 / 4))
  else none

/-- MEM_n_STATE (R318). -/
def memState (x : DChan) : Nat := x.code + 8 * b2n x.selfRef + 16 * b2n x.twoX + 32 * (x.gen % 8)

/-- MEM_n_PPR (R310, R318). -/
def memPpr (x : DChan) : Nat :=
  bitSet ((List.range (4 * x.ranks)).filter fun i => !x.pprUsed.testBit i) + 2 ^ 8 * Nat.min 255 x.hppr.length

/-- The channel that MEM_STATE shows as the spare (R280). -/
def spareNow (s : State) : Nat := if s.dram.spare < 9 then s.dram.spare else 15

/-- MEM (R318). -/
def memReadReg (s : State) (o : Nat) : Option Word :=
  if o = 0x808 then some (wd (15 - (otpByte s 0x28).toNat % 16))
  else if o = 0x844 then some (wd (s.dram.nActive + 16 * s.dram.grade + 256 * spareNow s))
  else if o = 0x848 then some (wd (backed s / 2 ^ 30))
  else if o = 0x84C then some (wd (if s.dram.phase = 0 then 0 else s.dram.source + 16 * s.dram.target + 256 * s.dram.phase))
  else if o = 0x850 then some (wd (64 * s.dram.ptr))
  else if o = 0x854 then some (wd (64 * s.dram.ptr / 2 ^ 32))
  else if o % 0x1000 < 0x800 then
    let c := o / 0x1000
    let x := dch s c
    let off := o % 0x1000
    if off = 0x48 then some (wd (memState x))
    else if off = 0x4C then some (wd (x.ranks + 4 * b2n x.x8 + 8 * b2n x.gb16 + 16 * b2n x.rdimm))
    else if off = 0x50 then some (wd ((rankSt x 0).temp % 4 + 4 * ((rankSt x 1).temp % 4)))
    else if off = 0x54 then some (wd (memPpr x))
    else if 0x200 ≤ off then some (if x.ranks = 0 then 0 else Config.trainWord c ((off - 0x200) / 4))
    else none
  else none

/-- The state code of a Runnel channel; the copy and fill of a migration is channel 16 (R316, R317, R336). -/
def rnlState (s : State) (c : Nat) : Nat :=
  if c = 16 then (if s.dram.phase = 2 ∨ s.dram.phase = 4 then 2 else 0)
  else match (rch s c).state with
    | .idle => 0
    | .fetch => 1
    | .moving => if waitsFifo s c then 3 else 2
    | .halted => 4

/-- RNL (R336). -/
def rnlRead (s : State) (o : Nat) : Option Word :=
  if o < 0x800 then
    let c := o / 0x40
    let x := rch s c
    match o % 0x40 with
    | 0x04 => some (wd (rnlState s c + 2 ^ 8 * x.status))
    | 0x08 => some (wd x.cur)
    | 0x0C => some (wd (x.cur / 2 ^ 32 % 256))
    | 0x10 => some (wd (x.len - x.moved))
    | _ => none
  else if o = 0x1048 then some (wd (bitSet ((List.range 32).filter fun c => rnlState s c ≠ 0)))
  else none

/-- Streams that are halted (R359). -/
def haltedStreams (s : State) : Nat := haltedCount s

/-- ETH, PTP (R370). -/
def ethRead (s : State) (o : Nat) : Option Word :=
  if o < 0x2000 then
    let p := o / 0x1000
    let x := port s p
    let off := o % 0x1000
    if off = 0x84 then
      some (wd (b2n x.up + 2 * b2n x.fault + 4 * x.mode + 32 * b2n x.ip4Valid + 64 * b2n x.ip6Valid
        + 128 * b2n (decide (ptpPort s = p))))
    else if off = 0x88 then some (if x.ip4Valid then netWord 1 0 x.ip4 else 0)
    else if 0x8C ≤ off ∧ off < 0x9C then some (if x.ip6Valid then netWord 4 ((off - 0x8C) / 4) x.ip6 else 0)
    else if off = 0xE0 then some (wordOf (otpBytes s (0x18 + 6 * p) 6) 0)
    else if off = 0xE4 then some (wordOf (otpBytes s (0x18 + 6 * p) 6) 1)
    else none
  else if o = 0x2040 then some (wd (s.ptp.state + 16 * ptpPort s))
  else none

/-- SPT (R371). -/
def sptRead (s : State) (o : Nat) : Option Word :=
  match o with
  | 0x48 => some (wd (ceilDiv (stagingUse s false + stagingUse s true + 4096 * mseedChannels s.regs.active (cfg s)) 1024))
  | 0x4C => some (wd (haltedStreams s))
  | 0x50 => some (wd ((s.spt.windows.map (·.2.2)).sum / 2 ^ 20))
  | 0x54 => some (wd (mseedChannels s.regs.active (cfg s)))
  | _ => none

/-- The keepalive time in effect, in ticks (R382, R396). -/
def keepaliveTicks (s : State) : Nat := 500000000 * Nat.max 1 (cfgF s 0xC0000 16 8)

/-- Ticks left before a session's keepalive runs out (R382); a bootstrap session has the same time. -/
def keepaliveLeft (s : State) (n : Nat) : Nat := (ses s n).kaStart + keepaliveTicks s - s.cnt.ticks

/-- The STATE code of a session (R388, R396). -/
def sesCode : SesKind → Nat
  | .free => 0
  | .active => 1
  | .bootstrap => 2

/-- Accepted packets that have no reply yet (R381). -/
def unanswered (x : Session) : Nat := x.packets.length

/-- The host nonce of a SESSION_OPEN (R388). -/
def openNonce (params : List Byte) : List Byte := slice 104 32 params

/-- Openings in progress: repeats of a SESSION_OPEN with one host nonce are one opening (R379, R396). -/
def openingCount (s : State) : Nat := ((s.slc.openings.map fun o => (o.boot, openNonce o.params)).eraseDups).length

/-- SLC (R396). -/
def slcRead (s : State) (o : Nat) : Option Word :=
  let openBits (from' : Nat) := bitSet ((List.range 32).filter fun i => decide ((ses s (from' + i)).kind ≠ .free))
  if o = 0x44 then some (wd (openBits 1))
  else if o = 0x48 then some (wd (openBits 33))
  else if o = 0x4C then
    let boot := (List.range 64).any fun i => decide ((ses s (i + 1)).kind = .bootstrap)
    some (wd (b2n (!s.pins.haltN) + 2 ^ 8 * openingCount s + 2 ^ 16 * b2n boot))
  else if 0x400 ≤ o ∧ o < 0x800 then
    let n := (o - 0x400) / 0x10 + 1
    let x := ses s n
    match o % 0x10 with
    | 0 =>
      if x.kind = .free then some 0
      else some (wd (sesCode x.kind + 4 * b2n (decide (s.slc.lease = some n)) + 8 * (x.lastPort % 2) + 16 * Nat.min 4 (unanswered x)
        + 2 ^ 16 * ceilDiv (keepaliveLeft s n) 50000000))
    | 4 => some (wd x.h)
    | 8 => some (wd x.f)
    | _ => some (wd x.opened)
  else none

/-- Programmed bits of a range of the OTP. -/
def otpCount (s : State) (a n : Nat) : Nat :=
  ((s.sec.otp.filter fun (k, _) => decide (a ≤ k ∧ k < a + n)).map fun (_, b) => popcount 8 b.toNat).sum

/-- Hour bits set (R415). -/
def lifeHours (s : State) : Nat := otpCount s 0xE00 256

/-- Stress bits set (R415). -/
def lifeStress (s : State) : Nat := otpCount s 0xF00 256

/-- The sender and receiver domains of a rill, in the codes of R406 (R469). -/
def rillDomains (k : Nat) : Nat × Nat :=
  if k < 80 then (0, 2)
  else if k < 87 then (2, 0)
  else if k < 98 then (1, 0)
  else if k < 108 then (1, 2)
  else if k < 110 then (2, 1)
  else if k = 110 then (2, 3)
  else if k = 111 then (3, 2)
  else if k < 148 then
    let mem := 4 + (k - 112) / 12
    if k % 4 < 2 then (2, mem) else (mem, 2)
  else if k < 172 then
    let eth := 7 + (k - 148) / 12
    if (k - 148) % 12 < 8 then (2, eth) else (eth, 2)
  else if k = 174 then (2, 9)
  else (9, 2)

/-- INFO of a rill entry (R406). -/
def rillInfo (k : Nat) : Nat := (rillDomains k).1 + 256 * (rillDomains k).2

/-- LGR (R422). -/
def lgrRead (s : State) (o : Nat) : Option Word :=
  if o = 0x58 then some (wd (wearUsed s + 2 ^ 16 * wearBad s + 2 ^ 27 * Nat.min 31 s.lgr.wearPend.length))
  else if o = 0x5C then some (wd (lifeHours s + 2 ^ 16 * lifeStress s))
  else if o = 0x60 then some (wd s.lgr.lifeMin)
  else if o = 0x64 then some (wd s.lgr.stressRun)
  else if 0x600 ≤ o ∧ o < 0x680 ∧ o % 0x20 = 0x18 then
    let p := (o - 0x600) / 0x20
    some (wd (b2n ((lch s p).armed && decide (fpMode (cfg s) p ≠ 0)) + 2 * b2n (lch s p).closed))
  else if 0x800 ≤ o ∧ o < 0xA00 ∧ o % 0x40 = 0x3C then some (wd (weirState s (.unit ((o - 0x800) / 0x40))))
  else if 0x3000 ≤ o ∧ o < 0x4600 ∧ o % 0x20 = 0x18 then some (wd (rillInfo ((o - 0x3000) / 0x20)))
  else if 0x5000 ≤ o ∧ o < 0x7000 then some (wd (leAt (otpBytes s (wearBase + (o - 0x5000)) 4) 0 4))
  else if 0x7000 ≤ o ∧ o < 0x7200 then some (wd (leAt (otpBytes s (0xE00 + (o - 0x7000)) 4) 0 4))
  else none

/-- Set bits of an OTP byte that stand for one that is written (R438, R441). -/
def byteSet (s : State) (a : Nat) : Bool := decide (5 ≤ popcount 8 (otpByte s a).toNat)

/-- Any bit of the KILL word is set (R442). -/
def killed (s : State) : Bool := (otpBytes s 0x44 4).any (· ≠ 0)

/-- The life-cycle state (R441, R442): 0 MANUFACTURE, 1 PROVISIONED, 2 FIELD, 3 DECOMMISSIONED. -/
def lifecycle (s : State) : Nat :=
  if killed s then 3
  else if !byteSet s 0x40 then 0 else if !byteSet s 0x41 then 1 else if !byteSet s 0x42 then 2 else 3

/-- The OTP address of a root slot (R438). -/
def rootAt (slot : Nat) : Nat := 0x900 + 160 * slot

/-- A root slot is installed when any of its bits is programmed (R438). -/
def rootInstalled (s : State) (slot : Nat) : Bool := (otpBytes s (rootAt slot) 160).any (· ≠ 0)

/-- A root slot is revoked (R438). -/
def rootRevoked (s : State) (slot : Nat) : Bool := byteSet s (0x48 + slot)

/-- SEC (R446). -/
def secRead (s : State) (o : Nat) : Option Word :=
  if o < 0x28 then some (wordOf (otpBytes s 0 40) (o / 4))
  else if o = 0x28 ∨ o = 0x2C then some (wordOf (fingerprint s) ((o - 0x28) / 4))
  else if o = 0x44 then
    some (wd (lifecycle s + 4 * b2n (killed s) + 8 * b2n (decide (lifecycle s ≤ 1)) + 16 * b2n s.sec.rngOk
      + 32 * b2n (s.sec.lmsEpoch.isSome && !s.sec.lmsGen) + 64 * b2n s.sec.lmsGen + 128 * b2n (lmsExhausted s)))
  else if o = 0x48 then some (wd (lmsUsed s))
  else if o = 0x4C then some (wd s.sec.lmsLeft)
  else if o = 0x58 then some (wd (s.sec.tokens + 2 ^ 16 * fld (hw s 0xE0058) 16 16))
  else if o = 0x5C then
    some (wd (bitSet ((List.range 8).filter (rootInstalled s)) + 2 ^ 8 * bitSet ((List.range 8).filter (rootRevoked s))))
  else if o = 0x60 then some (wd (bitSet (s.sec.gmac.map (·.1))))
  else if 0x80 ≤ o ∧ o < 0xB0 then
    some (if s.sec.romDone then wordOf ((List.range 48).map Config.romDigestByte) ((o - 0x80) / 4) else 0)
  else if 0xC0 ≤ o ∧ o < 0x120 then some (wordOf (devEcdsa s) ((o - 0xC0) / 4))
  else if 0x120 ≤ o ∧ o < 0x15C then some (wordOf (devLms s) ((o - 0x120) / 4))
  else if 0x200 ≤ o ∧ o < 0xA00 then
    let slot := (o - 0x200) / 0x100
    some (wordOf (otpBytes s (rootAt slot) 156) (o % 0x100 / 4))
  else if 0x1000 ≤ o ∧ o < 0x1010 then some (wordOf (otpBytes s (0x180 + 0x754) 16) ((o - 0x1000) / 4))
  else none

/-- PWR (R88, R89). -/
def pwrRead (s : State) (o : Nat) : Option Word :=
  if o = 0x48 then some (wd s.pwr.below.toNat)
  else if o = 0x4C then some (wd (windowState s))
  else if o = 0x50 then some (wd (holdRemain s))
  else if o = 0x54 then some (wd (s.pwr.cause + 16 * s.pwr.causeRails.toNat))
  else if 0x100 ≤ o ∧ o < 0x300 then some (wordOf (logBytes (logEntry s ((o - 0x100) / 0x40))) (o % 0x40 / 4))
  else if o = 0x300 then some (wd s.pwr.logNext)
  else none

/-- A word that shows the state of a unit; none for a count or a captured value. -/
def derived (s : State) (a : Nat) : Option Word :=
  match a / 0x10000 with
  | 0x0 => glbRead s a
  | 0x1 => clkRead s (a - 0x10000)
  | 0x2 => cnvRead s (a - 0x20000)
  | 0x3 => lchRead s (a - 0x30000)
  | 0x4 => phsRead s (a - 0x40000)
  | 0x5 => polRead s (a - 0x50000)
  | 0x6 => weiRead s (a - 0x60000)
  | 0x7 => cisRead s (a - 0x70000)
  | 0x8 => memReadReg s (a - 0x80000)
  | 0x9 => rnlRead s (a - 0x90000)
  | 0xA => ethRead s (a - 0xA0000)
  | 0xB => sptRead s (a - 0xB0000)
  | 0xC => slcRead s (a - 0xC0000)
  | 0xD => lgrRead s (a - 0xD0000)
  | 0xE => secRead s (a - 0xE0000)
  | 0xF => pwrRead s (a - 0xF0000)
  | _ => none

/-- A sts, cnt, cmd, once or id word as a read returns it; unimplemented bits read 0 (R7). -/
def readHw (s : State) (a : Nat) : Word := ((derived s a).getD (hw s a)) &&& maskOf a

/-- How many words after this one a read of it latches for the session: one for a 64-bit field, two for a stamp of three
words (R36, R113). -/
def latchSpan (a : Nat) : Nat :=
  let o := a % 0x10000
  let one (c : Bool) : Nat := if c then 1 else 0
  match a / 0x10000 with
  | 0x0 => one (o = 0x20)
  | 0x1 => if o = 0x148 ∨ o = 0x170 then 2 else one (o = 0x168)
  | 0x2 => one (0x1000 ≤ o && (o % 0x100 = 8 || o % 0x100 = 0x10))
  | 0x3 =>
    if o < 0x400 then (if o % 0x100 = 0x60 then 2 else one (o % 0x100 = 0x48 || o % 0x100 = 0x50))
    else one ((0x1200 ≤ o && o < 0x1400 && decide (0x10 ≤ o % 0x80 ∧ o % 0x80 < 0x38 ∧ o % 8 = 0)) ||
      (0x1400 ≤ o && o < 0x1500 && decide (o % 0x40 ∈ [4, 0xC, 0x14, 0x1C])))
  | 0x4 => one (o = 0x3820 || (o % 0x1000 = 0x90 || o % 0x1000 = 0x98))
  | 0x5 => one (if o < 0x2000 then (o % 0x800 = 0x50 || o % 0x800 = 0x58) else o % 0x800 = 0x60)
  | 0x6 => one (o < 0x800 && decide (o % 0x100 ∈ [0x48, 0x58, 0x60, 0x68]))
  | 0x7 =>
    if o = 0x68 then 2
    else one (if o < 0x1000 then decide (o ∈ [0x50, 0x58, 0x60]) else (o < 0x2000 && (o % 0x40 = 0x20 || o % 0x40 = 0x28)))
  | 0x8 => one (o = 0x850 || (o % 0x1000 < 0x800 && decide (o % 0x1000 ∈ [0x60, 0x68, 0x70, 0x78, 0x88, 0x90, 0xA0])))
  | 0x9 => one (o = 0x104C || (o < 0x800 && o % 0x40 = 8))
  | 0xA => one (o = 0x2044 || (o < 0x2000 && decide (o % 0x1000 ∈ [0xA0, 0xA8, 0xB0, 0xB8, 0xC0])))
  | 0xB => if o = 0x58 then 2 else one (o = 0x68)
  | 0xD =>
    if o = 8 then 2
    else one (o = 0 || o = 0x48 || (o % 8 = 0 && ((0x400 ≤ o && o < 0x680) || (0x800 ≤ o && o < 0xA00 && o % 0x40 < 0x38)
      || (0x1000 ≤ o && o < 0x2600) || (0x3000 ≤ o && o < 0x4600) || (0x5000 ≤ o && o < 0x7000))))
  | 0xE => one (o = 0x50)
  | 0xF => one (o = 0x58)
  | _ => 0

end Sys2Proof.Machine
end

