-- ==== Sys2Proof/Machine/Ledger.lean ====
section
/-!
DEFINITION. Ledger snapshots and their images (R404 to R406), the Reservoir inventory (R414), the life meter (R415) and
the folding of events (R419).
-/

namespace Sys2Proof.Machine

/-! ### Snapshots (R404, R405) -/

/-- The bytes of an image (R406). -/
abbrev imageLen := 1194496

/-- A buffer is busy while its image is assembled or a LEDGER stream has records of it to create (R405). -/
def snapBusy (s : State) (x : Snap) : Bool := !x.complete || s.spt.streams.any fun (_, y) => y.images.any fun (n, _) => n = x.no

/-- Whether a new snapshot finds a buffer (R405). -/
def snapRoom (s : State) : Bool := decide (s.lgr.snaps.length < 2) || s.lgr.snaps.any fun x => !snapBusy s x

/-- The images kept beside a new one: the oldest that is not busy makes way where both buffers are full. -/
def snapKeep (s : State) : List Snap :=
  if s.lgr.snaps.length < 2 then s.lgr.snaps
  else match s.lgr.snaps.reverse.find? fun x => !snapBusy s x with
    | some x => s.lgr.snaps.filter fun y => decide (y.no ≠ x.no)
    | none => s.lgr.snaps

/-- The words of the LGR block at the freeze clock, from the input ledgers to the rill ledgers. -/
def snapWords (s : State) : SMap Word :=
  let kept := s.regs.hw.filter fun (a, _) => decide (0xD0400 ≤ a ∧ a < 0xD4600)
  let shown := (List.range 4).map (fun p => 0xD0618 + 0x20 * p) ++ (List.range 8).map (fun u => 0xD083C + 0x40 * u)
    ++ (List.range 176).map (fun k => 0xD3018 + 0x20 * k)
  shown.foldl (fun m a => smPut 0 a (readHw s a) m) kept

/-- The snapshot frozen now (R404, R406). -/
def snapFreeze (s : State) : Snap :=
  let ws := (enabledWatches s.regs.active ++ s.weir.watches.map (·.1)).eraseDups
  { no := s.lgr.snapNo + 1, epoch := s.lgr.epoch, stamp := now s, tqb := tqb s,
    flags := b2n s.pwr.outside + 2 * b2n s.clk.stopped + 4 * b2n (s.lgr.wearPend ≠ []),
    freeze := s.cnt.core / 20,
    hw := snapWords s,
    watches := ws.foldl (fun m w => smPut {} w (watchStatus s w) m) [],
    streams := s.spt.streams.foldl (fun m (n, x) => smPut (0, 0, 0, 0) n (x.issued, x.data, x.gaps, x.issued - x.data - x.gaps) m) [],
    complete := false }

/-- A snapshot is taken into a free buffer. -/
def snapTake (s : State) : State :=
  { s with lgr := { s.lgr with snapNo := s.lgr.snapNo + 1, snaps := snapFreeze s :: snapKeep s } }

/-- SNAP starts, or waits for a buffer (R405). -/
def snapCommand (s : State) : State :=
  if snapRoom s then
    let s := snapTake s
    { s with lgr := { s.lgr with snapCmd := some s.lgr.snapNo } }
  else s

/-- A SNAP that waits is taken when a buffer has become free. -/
def snapNext (s : State) : State := if bit (hw s 0xD0044) 0 && s.lgr.snapCmd.isNone then snapCommand s else s

/-- LEDGER_SNAPSHOT (R388, R405). -/
def execLedgerSnapshot (ses : Nat) : State → Host.Outcome State Fault Refusal := run fun s =>
  hostCmd ses 0x0900 true true 28 (fun s =>
    if !snapRoom s then answer ses 0x0900 stBusy [] s
    else
      let s := snapTake s
      let x := Machine.ses s ses
      setSes ses { x with wait := some .snapshot }
        { s with lgr := { s.lgr with snapWait := s.lgr.snapWait ++ [(ses, s.lgr.snapNo)] } }) s

/-- The reply data of LEDGER_SNAPSHOT (R388). -/
def snapReply (x : Snap) : List Byte := le 8 x.no ++ stampBytes x.stamp ++ [x.tqb] ++ zeros 3 ++ le 4 imageLen

/-- SNAPSHOT_COMPLETE: the oldest image that is being assembled is complete: its number is shown, the event leaves, the
command that asked for it is answered, and a SNAP that waits is taken if a buffer is free (R405, R420). -/
def execSnapshotComplete : State → Host.Outcome State Fault Refusal := run fun s =>
  match s.lgr.snaps.reverse.find? fun x => !x.complete with
  | none => s
  | some x =>
    let done := s.lgr.snaps.map fun y => if y.no = x.no then { y with complete := true } else y
    let mine := s.lgr.snapWait.filter fun (_, n) => decide (n = x.no)
    let rest := s.lgr.snapWait.filter fun (_, n) => decide (n ≠ x.no)
    let s := { s with lgr := { s.lgr with snaps := done, snapWait := rest } }
    let s := raise 0xD0040 0 (setCnt64 0xD0048 x.no s)
    let s := sendEvent 0xD { code := 0x1008, src := 0, stamp := now s, tqb := tqb s, body := le 8 x.no ++ le 4 imageLen ++ zeros 4 } s
    let s := each mine (fun (n, _) s =>
      if (Machine.ses s n).wait = some .snapshot then answer n 0x0900 stOK (snapReply x) s else s) s
    let s := if s.lgr.snapCmd = some x.no then
        cmdDone 0xD0044 0 id { s with lgr := { s.lgr with snapCmd := none } } else s
    snapNext s

/-! ### The image (R406) -/

/-- The part of a section (offset, length) that `n` bytes from `off` take in: where it begins inside the section, and
how long it is. -/
def clip (base size off n : Nat) : Nat × Nat :=
  let a := Nat.max base off
  let b := Nat.min (base + size) (off + n)
  (a - base, b - a)

/-- The 64 bytes of the image header. -/
def snapHeader (x : Snap) : List Byte :=
  le 8 x.no ++ le 8 x.epoch ++ stampBytes x.stamp ++ [x.tqb] ++ le 1 x.flags ++ le 2 1 ++ le 4 imageLen ++ le 4 176
    ++ le 8 x.freeze ++ zeros 16

/-- Bytes of captured LGR words. -/
def snapWordBytes (x : Snap) (a off n : Nat) : List Byte :=
  (List.range n).map fun i => (wordBytes (smGet 0 (a + (off + i) / 4 * 4) x.hw)).getD ((off + i) % 4) 0

/-- The first 32 bytes of a stream status record (R372). -/
def snapStream (x : Snap) (n : Nat) : List Byte :=
  let (i, d, g, p) := smGet (0, 0, 0, 0) n x.streams
  le 8 i ++ le 8 d ++ le 8 g ++ le 8 p

/-- `n` bytes of an image from an offset. -/
def imageBytes (x : Snap) (off n : Nat) : List Byte :=
  let part (base size : Nat) (f : Nat → Nat → List Byte) : List Byte :=
    let (a, k) := clip base size off n
    if k = 0 then [] else f a k
  part 0 0x40 (fun a k => slice a k (snapHeader x))
    ++ part 0x40 512 (snapWordBytes x 0xD0400)
    ++ part 0x240 128 (snapWordBytes x 0xD0600)
    ++ part 0x2C0 512 (snapWordBytes x 0xD0800)
    ++ part 0x4C0 1048576 (tableBytes 64 fun w => statusBytes (smGet {} w x.watches))
    ++ part 0x1004C0 4096 (snapWordBytes x 0xD1000)
    ++ part 0x1014C0 131072 (tableBytes 32 (snapStream x))
    ++ part 0x1214C0 1024 (snapWordBytes x 0xD2000)
    ++ part 0x1218C0 5632 (snapWordBytes x 0xD3000)
    ++ part 0x122EC0 2560 (fun _ k => zeros k)
    ++ part 0x1238C0 64 (snapWordBytes x 0xD2400)
    ++ part 0x123900 256 (snapWordBytes x 0xD2500)

/-- The complete image of a snapshot that is held. -/
def snapHeld (s : State) (no : Nat) : Option Snap := s.lgr.snaps.find? fun x => x.complete && decide (x.no = no)

/-- LEDGER_READ (R388, R405). -/
def execLedgerRead (ses snap offset bytes : Nat) : State → Host.Outcome State Fault Refusal := run fun s =>
  let lenOk := decide (1 ≤ bytes ∧ bytes ≤ 8192 ∧ offset + bytes ≤ imageLen)
  hostCmd ses 0x0901 true lenOk bytes (fun s =>
    match snapHeld s snap with
    | some x => answer ses 0x0901 stOK (imageBytes x offset bytes) s
    | none => answer ses 0x0901 stState [] s) s

/-! ### The Reservoir (R409, R414) -/

/-- The byte of an input in the inventory. -/
def sliceByte (x : Conv) : Nat := b2n x.spare.isSome + 2 * Nat.min 2 (popcount 9 x.retired.toNat) + 8 * b2n x.failed

/-- The 96 bytes of the Reservoir inventory (R414). -/
def reservoirBytes (s : State) : List Byte :=
  let lost := ((List.range 4).map (rowsLost s)).sum
  let core := b2n (decide (pll s 2 = .retired)) + 2 * b2n (decide (pll s 3 = .retired)) + 4 * b2n s.clk.coreB
    + 8 * b2n (decide (pll s (if s.clk.coreB then 2 else 3) = .standbyReady))
  let away := (s.spt.streams.filter fun (_, x) => x.moved).length
  le 2 1 ++ le 2 (wearUsed s) ++ le 2 s.lgr.wearPend.length ++ le 2 (wearBad s)
    ++ (List.range 16).flatMap (fun c => le 1 (sliceByte (conv s c)))
    ++ wordBytes (readHw s 0x31604)
    ++ (List.range 9).flatMap (fun c => le 1 (memState (dch s c)))
    ++ le 1 (spareNow s) ++ zeros 2
    ++ (List.range 9).flatMap (fun c => le 2 (memPpr (dch s c)))
    ++ zeros 2
    ++ le 4 (basinSpares s + 2 ^ 16 * Nat.min 65535 lost)
    ++ le 4 core
    ++ (List.range 4).flatMap (fun p => le 1 (16 - lanesLost s p + 32 * (2 - sparesUsed s p)))
    ++ le 4 (b2n (port s 0).up + 2 * b2n (port s 1).up + 2 ^ 16 * Nat.min 4095 away)
    ++ le 4 (lifeHours s) ++ le 4 (lifeStress s) ++ stampBytes (now s)

/-- RESERVOIR_READ (R388, R414). -/
def execReservoirRead (ses : Nat) : State → Host.Outcome State Fault Refusal := run fun s =>
  hostCmd ses 0x0800 true true 96 (fun s => answer ses 0x0800 stOK (reservoirBytes s) s) s

/-! ### The life meter (R415) -/

/-- Programs bit `n` of the life meter (R415). -/
def lifeProgram (n : Nat) (s : State) : State :=
  raise 0xD0040 8 (otpSet (0xE00 + n / 8) (BitVec.ofNat 8 (2 ^ (n % 8))) s)

/-- A bit of the life meter waits: PWR_OTP_DEFERRED counts it once in a hold; bit 0 is the hour bit, bit 1 the stress bit
(R85). -/
def lifeDefer (b : Nat) (s : State) : State :=
  if s.pwr.lifeNoted.getLsbD b then s
  else otpDefer { s with pwr := { s.pwr with lifeNoted := s.pwr.lifeNoted ||| BitVec.ofNat 2 (2 ^ b) } }

/-- LIFE_HOUR_BIT: 1,024 powered hours have accrued since the last hour bit: the next one is programmed, or waits while
commits are held (R85, R415). -/
def execLifeHourBit : State → Host.Outcome State Fault Refusal := run fun s =>
  if s.lgr.lifeMin < 61440 then s
  else if otpHeld s then lifeDefer 0 s
  else
    let n := lifeHours s
    let s := { s with lgr := { s.lgr with lifeMin := s.lgr.lifeMin - 61440 } }
    if n < 2048 then lifeProgram n s else s

/-- The stress units of a minute from its highest reading in 1/256 °C (R415). -/
def stressWeight (t : Int) : Nat :=
  if t ≤ 55 * 256 then 2
  else if t ≤ 65 * 256 then 3
  else if t ≤ 75 * 256 then 5
  else if t ≤ 85 * 256 then 9
  else if t ≤ 95 * 256 then 16
  else if t ≤ 105 * 256 then 29
  else 66

/-- STRESS_MINUTE: a powered minute ends: its stress units accrue, and the next stress bit is programmed where they have
reached 983,040 and no hold prevents it (R85, R415). -/
def execStressMinute : State → Host.Outcome State Fault Refusal := run fun s =>
  let run' := s.lgr.stressRun + stressWeight s.lgr.minuteMax
  if s.cnt.ticks < s.lgr.minuteAt then s
  else
  let due := nextDue s s.lgr.minuteAt (60 * secTicks)
  let s := rill 175 1
    { s with lgr := { s.lgr with lifeMin := s.lgr.lifeMin + 1, stressRun := run', minuteMax := -32768, minuteAt := due } }
  if run' < 983040 then s
  else if otpHeld s then lifeDefer 1 s
  else
    let n := lifeStress s
    let s := { s with lgr := { s.lgr with stressRun := run' - 983040 } }
    if n < 2048 then lifeProgram (2048 + n) s else s

/-! ### Folded events (R419) -/

/-- EVENT_FOLD_TIMER: 1 ms has passed since the last entry of a register instance: what was folded in leaves as one entry
and starts another millisecond, or the instance is free to send at once again (R419). -/
def execEventFoldTimer (addr src : Nat) : State → Host.Outcome State Fault Refusal := run fun s =>
  let k := foldKey addr src
  match smFind k s.folds with
  | none => s
  | some f =>
    if s.cnt.ticks < f.due then s
    else if f.count = 0 then { s with folds := smDel k s.folds }
    else
      let (b, _, _) := stsKind addr
      let body := le 4 f.value.toNat ++ le 4 (Nat.min (2 ^ 32 - 1) f.count)
      let s := sendEvent b { code := f.code, src := src, stamp := f.stamp, tqb := f.tqb, body := body } s
      let next : Fold := { code := 0, stamp := 0, tqb := 0, count := 0, due := s.cnt.ticks + msTicks }
      { s with folds := smIns k next s.folds }

end Sys2Proof.Machine
end

