-- ==== Sys2Proof/Machine/Records.lean ====
section
/-!
DEFINITION. The creation of Spout records (R349 to R351, R359): the record a stream creates next, from its queue of
complete contents, its lanes, a Pool ring, a held segment or a snapshot image; and the triggered records of Pool (R208).
-/

namespace Sys2Proof.Machine

/-- M of R349: the payload bytes of a POOL, SEGMENT or LEDGER record. -/
def recordSpan (s : State) : Nat := Nat.min 8192 ((plOf (cfg s) - 16) / 64 * 64)

/-- The poison map of a payload: one bit for each 64-byte unit, or nothing where no unit is poisoned (R351). -/
def poisonMap (l : List (Byte × Bool)) : List Byte :=
  if l.any (·.2) then le 16 (bitSet ((List.range (ceilDiv l.length 64)).filter fun i => (slice (64 * i) 64 l).any (·.2)))
  else []

/-! ### RAW (R349) -/

/-- The lanes of a stream that have a whole record, with its number: a lane that carries no samples has none. -/
def rawReady (s : State) (n : Nat) : List (Nat × Nat) :=
  let span := rawSpanOf s
  let have' := laneSamples s s.cnt.smp
  ((bitsOf 16 (streamLanes (cfg s) n)).filter (laneLight s)).filterMap fun lane =>
    let j := rawNext s n lane
    if (j + 1) * span ≤ have' then some (lane, j) else none

/-- The record whose last sample was digitised first; the lowest lane of several (R349, R355). -/
def rawPick : List (Nat × Nat) → Option (Nat × Nat)
  | [] => none
  | (lane, j) :: l =>
    match rawPick l with
    | none => some (lane, j)
    | some (lane', j') => if j' < j then some (lane', j') else some (lane, j)

/-- A whole record of a lane is created. -/
def rawCreate (n : Nat) (s : State) : State :=
  match rawPick (rawReady s n) with
  | none => s
  | some (lane, j) =>
    let r := rawRec s lane j (rawSpanOf s) 0
    let s := (freeNext s).2
    createRec n r (setStream n { stream s n with nextLane := smIns lane (j + 1) (stream s n).nextLane } s)

/-! ### POOL (R212, R349) -/

/-- A record of the oldest block that Spout has not taken whole. -/
def poolCreate (n : Nat) (s : State) : State :=
  let e := cfgF s (streamAt n + 4) 0 2
  match (pol s e).ring.find? fun b => decide (b.spout < b.bytes) with
  | none => s
  | some b =>
    let len := Nat.min (recordSpan s) (b.bytes - b.spout)
    let pos := (b.addr + b.spout) % ringSize (cfg s) e
    let first := Nat.min len (ringSize (cfg s) e - pos)
    if !dramUp s (ringBase (cfg s) e + pos) first || !dramUp s (ringBase (cfg s) e) (len - first) then s
    else
      let (l1, s) := memRead (ringBase (cfg s) e + pos) first s
      let (l2, s) := memRead (ringBase (cfg s) e) (len - first) s
      let l := l1 ++ l2
      let last := decide (b.spout + len = b.bytes)
      let ring := (pol s e).ring.map fun c => if c.no = b.no then { c with spout := c.spout + len } else c
      let s := ringRelease e (setPol e { pol s e with ring := ring } s)
      createRec n { typ := 2, src := e, index := b.no, aux := b.spout, payload := l.map (·.1), poison := poisonMap l,
                    flags := b.flags % 16 + (if last then 0x1000 else 0) } s

/-! ### SEGMENT (R259, R351) -/

/-- Drops the requests at the front whose segment is no longer CLOSED. -/
def dropReads (s : State) : List SegRead → List SegRead
  | [] => []
  | q :: qs =>
    match segOf s q.seg with
    | some g => if g.state = .closed then q :: qs else dropReads s qs
    | none => dropReads s qs

/-- Requests at the front whose segment a rebuild has released are dropped, and the segment of the next one is held. -/
def readsSkip (n : Nat) (s : State) : State :=
  let qs := dropReads s (stream s n).reads
  let s := setStream n { stream s n with reads := qs } s
  match qs with
  | [] => s
  | r :: _ => mapSeg r.seg (fun g => { g with held := g.held + 1 }) s

/-- A record of the segment at the front of the stream's requests. -/
def segmentCreate (n : Nat) (s : State) : State :=
  let x := stream s n
  match x.reads with
  | [] => s
  | q :: qs =>
    match segOf s q.seg with
    | none => readsSkip n s
    | some g =>
      let len := Nat.min (recordSpan s) q.bytes
      if len = 0 ∨ !dramUp s (g.base + q.offset) len then s
      else
        let (l, s) := memRead (g.base + q.offset) len s
        let s := if l.any (·.2) then poisonSeen (g.base + q.offset) len s else s
        let last := decide (q.offset + len = g.len)
        let s := setStream n { stream s n with reads := { q with offset := q.offset + len, bytes := q.bytes - len } :: qs } s
        createRec n { typ := 3, src := g.region, index := g.id, aux := q.offset, payload := l.map (·.1), poison := poisonMap l,
                      flags := g.flags % 16 + (if last then 0x1000 else 0) } s

/-! ### LEDGER (R349, R405) -/

/-- A record of the oldest snapshot image the stream has still to send; a buffer that becomes free may take a SNAP. -/
def ledgerCreate (n : Nat) (s : State) : State :=
  let x := stream s n
  match x.images with
  | [] => s
  | (no, off) :: rest =>
    match snapHeld s no with
    | none => s
    | some im =>
      let len := Nat.min (recordSpan s) (imageLen - off)
      let last := decide (off + len = imageLen)
      let s := setStream n { x with images := if last then rest else (no, off + len) :: rest } s
      let s := createRec n { typ := 5, index := no, aux := off, payload := imageBytes im off len,
                             flags := if last then 0x1000 else 0 } s
      snapNext s

/-! ### The commands -/

/-- Creates the records of a stream whose contents are complete, oldest first. -/
def createReady (n : Nat) (s : State) : State :=
  let l := (stream s n).ready
  each l (createRec n) (setStream n { stream s n with ready := [] } s)

/-- RECORD_CREATE: the stream creates its next record, if it has one: of a content that is complete, else from its source
while it is enabled. A halted stream takes nothing from a ring, a segment or an image, and counts the records of the
other sources as not created (R349, R359). -/
def execRecordCreate (n : Nat) : State → Host.Outcome State Fault Refusal := run fun s =>
  let x := stream s n
  match x.ready with
  | r :: rs => createRec n r (setStream n { x with ready := rs } s)
  | [] =>
    if !streamOn s n then s
    else
      let pulls := !streamHalted s n
      match streamType s n with
      | 0 => rawCreate n s
      | 2 => when pulls (poolCreate n) s
      | 3 => when pulls (segmentCreate n) s
      | 5 => when pulls (ledgerCreate n) s
      | _ => s

/-- EVENT_LINGER_EXPIRY: EVENT_LINGER has passed since the first entry being collected: the record is created (R349). -/
def execEventLingerExpiry (n : Nat) : State → Host.Outcome State Fault Refusal := run fun s =>
  if (stream s n).lingering && decide ((stream s n).lingerAt ≤ s.cnt.ticks) then createReady n (setStream n (closeEvents (stream s n)) s) else s

/-- LEDGER_STREAM_PERIOD: the stream's period has passed: a snapshot is taken for it, or skipped where both buffers are
busy (R349, R405). -/
def execLedgerStreamPeriod (n : Nat) : State → Host.Outcome State Fault Refusal := run fun s =>
  let x := stream s n
  if streamOn s n && decide (streamType s n = 5) && decide (x.periodAt ≤ s.cnt.ticks) then
    let period := 100 * msTicks * Nat.max 1 (cfgF s (streamAt n + 4) 0 16)
    let s := setStream n { x with periodAt := nextDue s x.periodAt period } s
    if snapRoom s then
      let s := snapTake s
      setStream n { stream s n with images := (stream s n).images ++ [(s.lgr.snapNo, 0)] } s
    else raise 0xD0040 1 (addHold 0xD0050 1 s)
  else s

/-- SEG_READ (R259, R351, R388): a byte range that does not lie in the extent is a count out of range. -/
def execSegRead (ses stream' seg offset bytes : Nat) : State → Host.Outcome State Fault Refusal := run fun s =>
  hostCmd ses 0x0404 false (decide (stream' < 4096)) 2 (fun s =>
    let ready := streamOn s stream' && decide (streamType s stream' = 3)
    match segOf s seg with
    | none => answer ses 0x0404 stState [] s
    | some g =>
      let len := if bytes = 0 then g.len - offset else bytes
      let x := stream s stream'
      if !ready ∨ g.state ≠ .closed then answer ses 0x0404 stState [] s
      else if g.len ≤ offset ∨ g.len < offset + len then answer ses 0x0404 stBadLength [] s
      else if 16 ≤ x.reads.length then answer ses 0x0404 stBusy [] s
      else answer ses 0x0404 stOK (le 2 x.reads.length) (queueRead stream' { seg := seg, offset := offset, bytes := len } s)) s

/-- Lets go of the hold of the read at the front, and holds the segment of the next one (R259). -/
def readsNext (n : Nat) (s : State) : State :=
  match (stream s n).reads with
  | [] => s
  | q :: qs =>
    let s := mapSeg q.seg (fun g => { g with held := g.held - 1 }) s
    let qs := dropReads s qs
    let s := setStream n { stream s n with reads := qs } s
    match qs with
    | [] => s
    | r :: _ => mapSeg r.seg (fun g => { g with held := g.held + 1 }) s

/-- SEGMENT_READ_END: the last byte of the held segment has left Cistern: its hold ends and the next request begins
(R259, R351). -/
def execSegmentReadEnd (n : Nat) : State → Host.Outcome State Fault Refusal := run fun s =>
  match (stream s n).reads with
  | q :: _ => if q.bytes = 0 then readsNext n s else s
  | [] => s

/-- POOL_RAW_RECORD_END: the last sample of the oldest accepted record of a RAW engine is digitised: `samples` are those
of the record, from PRE before the instant, with the three before and the four after it where INTERP is 1, and `poolBad`
the entries whose read is uncorrectable (R210). Samples of a foreground window are 0. A record that misses samples is
skipped (R208); it passes the flags of what it holds on to its block (R12, R134, R135, R208). -/
def execPoolRawRecordEnd (e : Fin 4) (samples : List Int) (poolBad : List Nat) : State → Host.Outcome State Fault Refusal := run fun s =>
  let e := e.val
  let x := pol s e
  match x.trigs with
  | [] => s
  | t :: ts =>
    let m := cfg s
    let s := setPol e { x with trigs := ts } s
    let n := polCount m e
    let whole := n + (if polInterp m e then 7 else 0)
    if samples.length < whole then poolSkip e s
    else if !(x.running || polCont m e) then s
    else
      let lane := polLane m e
      let lead := polPre m e + (if polInterp m e then 3 else 0)
      let no : Int := (laneNo s 0 : Nat) + t.t - lead
      let samples := samples.zipIdx.map fun (v, i) =>
        let k := (no + (i : Nat)).toNat
        if zeroHits s lane k (k + 1) then 0 else v
      let low := zeroHits s lane no.toNat (no + whole).toNat || eightLate s lane
      let val (i : Nat) : Option Int := some (if polInterp m e then rawValue (interp t.f) samples i else samples.getD i 0)
      let s := poolPoison e poolBad (setPol e { pol s e with seen := (pol s e).seen + 1 } s)
      poolTake e ((List.range n).map val) t.stamp t.tqb (createFlags s ||| (if low then 8 else 0)) s

end Sys2Proof.Machine
end

