-- ==== Sys2Proof/Machine/Session.lean ====
section
/-!
DEFINITION. What a session leaves behind when it ends, and the configuration lease (R41, R382, R385).
-/

namespace Sys2Proof.Machine

/-- Every shadow takes the committed image (R41, R58). -/
def reloadShadows (s : State) : State := { s with regs := { s.regs with shadow := s.regs.committed } }

/-- The lease passes to a holder or to none; every change of holder sets LEASE_MOVED (R385). -/
def leaseTo (by' : Nat) (n : Option Nat) (s : State) : State :=
  if s.slc.lease = n then s else raiseFrom by' 0xC0040 8 { s with slc := { s.slc with lease := n } }

/-- The lease is released or lost: the shadows are reloaded and LEASE_LOST is set (R41). -/
def leaseLost (n : Nat) (s : State) : State := leaseTo n none (raise 0x10 4 (reloadShadows s))

/-- A session closes: R41 where it holds the lease, its Runnel channels stop, what its commands waited for is given up,
and its number and cache are free (R382). `late` marks a close on keepalive expiry (R396). -/
def closeSession (n : Nat) (late : Bool) (s : State) : State :=
  if (ses s n).kind = .free then s
  else
    let s := if s.slc.lease = some n then leaseLost n s else s
    let s := setSes n {} (rnlStopSession n s)
    let s := { s with regs := { s.regs with latch := s.regs.latch.filter fun (k, _) => decide (k / 2 ^ 32 ≠ n) } }
    let s := raiseFrom n 0xC0040 1 { s with lgr := { s.lgr with snapWait := s.lgr.snapWait.filter fun (m, _) => decide (m ≠ n) } }
    if late then raiseFrom n 0xC0040 2 s else s

/-- Packets up to the first with a command left. -/
def throughHead : List Pkt → List Pkt
  | [] => []
  | p :: ps => if p.cmds = [] then p :: throughHead ps else [p]

/-- The session closes once the packet of its present command has been answered; later packets go with it (R382). -/
def closeAfter (n : Nat) (s : State) : State :=
  let x := ses s n
  setSes n { x with closing := true, packets := throughHead x.packets } s

end Sys2Proof.Machine
end

