-- ==== Sys2Proof/Machine/Security.lean ====
section
/-!
DEFINITION. Attestation, the operator roots, the GMAC keys, the noise source and the life cycle (R428 to R442), and ECHO.
-/

namespace Sys2Proof.Machine

/-! ### Attestation (R432, R440) -/

/-- The words of R49 in order, each as its address and its masked value, from the committed image (R440). -/
def configBytes (s : State) : List Byte :=
  sealAddrs.flatMap fun a => le 4 a ++ wordBytes (imageGet s.regs.committed a &&& maskOf a)

/-- The signed part of an attestation report (R440). -/
def reportSigned (s : State) (nonce : List Byte) : List Byte :=
  let root (i : Nat) : List Byte := le 1 (b2n (rootInstalled s i) + 2 * b2n (rootRevoked s i))
  le 2 1 ++ le 1 (lifecycle s) ++ le 1 (b2n (lmsExhausted s) + 2 * b2n (s.lgr.wearPend ≠ []))
    ++ otpBytes s 0 36 ++ padTo 32 (nonce.take 32) ++ stampBytes (now s) ++ [tqb s] ++ zeros 3 ++ le 8 s.lgr.epoch
    ++ (List.range 48).map Config.romDigestByte ++ sha384 (otpBytes s wearBase 8192)
    ++ le 4 (lifeHours s) ++ le 4 (lifeStress s) ++ wordBytes s.sealing.ref ++ wordBytes (hw s 0x1C)
    ++ sha384 (configBytes s) ++ wordBytes (hw s 0x40) ++ (List.range 8).flatMap root
    ++ le 4 (lmsUsed s) ++ le 4 (if s.sec.lmsEpoch.isSome ∧ ¬ s.sec.lmsGen then s.sec.lmsLeft else 0)
    ++ fingerprint s ++ zeros 4

/-- A report is made: it is counted, signed with both keys, or with ECDSA alone where LMS signing is exhausted, and
answers the session's command (R431, R440). -/
def attestReport (n : Nat) (nonce : List Byte) (s : State) : State :=
  let body := reportSigned s nonce
  let sig := Config.ecdsaSign (sha384 body)
  let made := Nat.min 65535 (fld (hw s 0xE0058) 16 16 + 1)
  let count (s : State) : State := raise 0xE0040 7 (setHw 0xE0058 (wd (16 + 2 ^ 16 * made)) s)
  if lmsExhausted s then answer n 0x0A00 stExhausted (body ++ sig ++ le 4 0) (count s)
  else answer n 0x0A00 stOK (body ++ sig ++ le 4 3284 ++ lmsSign s body) (count (lmsSpend s))

/-- An epoch with leaves left is set up, or none will ever be (R430, R431). -/
def lmsReady (s : State) : Bool := lmsExhausted s || (!s.sec.lmsGen && decide (0 < s.sec.lmsLeft))

/-- ATTEST: one token; the report at once, or when the epoch it starts is set up (R430, R432, R440). -/
def execAttest (ses : Nat) (nonce : List Byte) : State → Host.Outcome State Fault Refusal := run fun s =>
  hostCmd ses 0x0A00 true (decide (nonce.length = 32)) (if lmsExhausted s then 388 else 3672) (fun s =>
    if s.sec.tokens = 0 then answer ses 0x0A00 stBusy [] s
    else
      let s := { s with sec := { s.sec with tokens := s.sec.tokens - 1 } }
      if lmsReady s then attestReport ses nonce s
      else lmsStart (setSes ses { Machine.ses s ses with wait := some (.attest nonce) } s)) s

/-- The attestations that wait are made while an epoch has leaves. -/
def attestsWaiting (s : State) : State :=
  each s.slc.sessions (fun (n, x) s =>
    match x.wait with
    | some (.attest nonce) => if lmsReady s then attestReport n nonce s else s
    | _ => s) s

/-- LMS_EPOCH_READY: the subordinate tree of the new epoch is built and signed (R430); its seed waits for the noise
source (R428) and its counter bit for the hold of R85. ATTEST commands that waited are answered. -/
def execLmsEpochReady : State → Host.Outcome State Fault Refusal := run fun s =>
  if s.sec.lmsGen ∧ s.sec.rngOk ∧ (s.sec.lmsEpoch.isSome ∨ ¬ otpHeld s) then
    let s := if s.sec.lmsEpoch.isSome then s else lmsTake s
    attestsWaiting (raise 0xE0040 2
      { s with sec := { s.sec with lmsGen := false, lmsLeft := 32768 }, cnt := { s.cnt with draws := s.cnt.draws + 1 } })
  else s

/-- ATTEST_TOKEN_REFILL: 60 s have passed: the bucket regains a token, up to 16 (R432). -/
def execAttestTokenRefill : State → Host.Outcome State Fault Refusal := run fun s =>
  if s.cnt.ticks < s.sec.tokenAt then s
  else
    let due := nextDue s s.sec.tokenAt (60 * secTicks)
    rill 175 1 { s with sec := { s.sec with tokens := Nat.min 16 (s.sec.tokens + 1), tokenAt := due } }

/-! ### The noise source (R428) -/

/-- NOISE_TEST_FAIL: RNG_OK clears, and every draw waits. -/
def execNoiseTestFail : State → Host.Outcome State Fault Refusal := run fun s =>
  raise 0xE0040 6 { s with sec := { s.sec with rngOk := false, noiseAt := s.cnt.ticks + 100 * msTicks } }

/-- NOISE_TEST_PASS: the source passes its tests, at boot, where a failed one is retried every 100 ms, or again: RNG_OK is
set and draws proceed (R428, R448). -/
def execNoiseTestPass : State → Host.Outcome State Fault Refusal := run fun s =>
  if s.boot = .booting ∧ s.cnt.ticks < s.sec.noiseAt then s else { s with sec := { s.sec with rngOk := true } }

/-! ### Operator roots (R425, R438, R439) -/

/-- The prime of P-384. -/
abbrev p384 := 2 ^ 384 - 2 ^ 128 - 2 ^ 96 + 2 ^ 32 - 1

/-- The coefficient b of P-384. -/
abbrev p384b := 0xb3312fa7e23ee7e4988e056be3f82d19181d9c6efe8141120314088f5013875ac656398d8a2ed19d2a85c8edd3ec2aef

/-- A big-endian number. -/
def ofBe (l : List Byte) : Nat := ofLe l.reverse

/-- 0x04, X and Y name a point of the curve y² = x³ − 3x + b (R438). -/
def onCurve (key : List Byte) : Bool :=
  let x := ofBe (slice 1 48 key)
  let y := ofBe (slice 49 48 key)
  decide (key.length = 97) && decide (key.headD 0 = 4) && decide (x < p384) && decide (y < p384) &&
    decide (y * y % p384 = (x * x * x + (p384 - 3) * x + p384b) % p384)

/-- An HSS key of the types of R437. -/
def hssKeyOk (key : List Byte) : Bool :=
  let levels := ofBe (slice 0 4 key)
  let lms := ofBe (slice 4 4 key)
  let ots := ofBe (slice 8 4 key)
  decide (key.length = 60) && decide (1 ≤ levels ∧ levels ≤ 8) && decide (5 ≤ lms ∧ lms ≤ 9) && decide (1 ≤ ots ∧ ots ≤ 4)

/-- A WRITE_LOCKED reply is counted, with the address of the object, and sets LOCK_VIOLATION (R38). -/
def lockViolation (a : Nat) (s : State) : State := raise 0x10 5 (setHw 0x34 (wd a) (addCnt 0x30 1 s))

/-- ROOT_INSTALL (R85, R388, R438). -/
def execRootInstall (ses slot : Nat) (ecdsa lms : List Byte) : State → Host.Outcome State Fault Refusal := run fun s =>
  let lenOk := decide (slot < 8 ∧ ecdsa.length = 97 ∧ lms.length = 60)
  let boot := decide ((Machine.ses s ses).kind = .bootstrap)
  let key := ecdsa.drop 1 ++ lms
  let reply (st : Nat) (s : State) : State := answer ses 0x0A01 st [] s
  hostCmd ses 0x0A01 true lenOk 0 (fun s =>
    if !boot ∧ s.slc.lease ≠ some ses then reply stNotOwner s
    else if (boot ∧ lifecycle s ≠ 1) ∨ lifecycle s = 0 ∨ lifecycle s = 3 then reply stState s
    else if otpHeld s then reply stBusy s
    else if !onCurve ecdsa || !hssKeyOk lms then reply stAuth s
    else if rootInstalled s slot then
      if otpBytes s (rootAt slot) 156 = key then reply stOK s
      else reply 3 (lockViolation (0xE0200 + 0x100 * slot) s)
    else reply stOK (raise 0xE0040 0 (otpRequest (rootAt slot) (key ++ zeros 4) s))) s

/-- Whether an installed slot other than `slot` is unrevoked. -/
def otherRoot (s : State) (slot : Nat) : Bool :=
  (List.range 8).any fun i => decide (i ≠ slot) && rootInstalled s i && !rootRevoked s i

/-- ROOT_REVOKE: sessions that the slot opened close: the sender's own after its reply (R388, R439). -/
def execRootRevoke (ses slot : Nat) : State → Host.Outcome State Fault Refusal := run fun s =>
  let reply (st : Nat) (s : State) : State := answer ses 0x0A02 st [] s
  hostCmd ses 0x0A02 false (decide (slot < 8)) 0 (needLease ses 0x0A02 fun s =>
    if !rootInstalled s slot then reply stState s
    else if rootRevoked s slot then reply stOK s
    else if lifecycle s = 2 ∧ ¬ otherRoot s slot then reply stState s
    else
      let mine := ((s.slc.sessions.filter fun (_, x) => decide (x.kind = .active ∧ x.rootSlot = slot)).map (·.1))
      let s := if ses ∈ mine then closeAfter ses s else s
      let s := reply stOK (raise 0xE0040 1 (otpRequest (0x48 + slot) [0xFF] s))
      each (mine.filter (· ≠ ses)) (fun n s => closeSession n false s) s) s

/-! ### GMAC keys (R365) -/

/-- An enabled stream's destination asks for a tag with a key slot. -/
def slotUsed (s : State) (slot : Nat) : Bool :=
  (enabledStreams s.regs.active).any fun n =>
    let d := destCtrl (destOf s n)
    bit d 3 && decide (fld d 4 4 = slot)

/-- GMAC_KEY_SET (R365, R388). -/
def execGmacKeySet (ses slot : Nat) (clear : Bool) (key : List Byte) : State → Host.Outcome State Fault Refusal := run fun s =>
  let lenOk := decide (slot < 16 ∧ key.length = 32)
  hostCmd ses 0x0A03 false lenOk 0 (needLease ses 0x0A03 fun s =>
    if clear && slotUsed s slot then answer ses 0x0A03 stState [] s
    else
      let keys := if clear then smDel slot s.sec.gmac else smIns slot key s.sec.gmac
      answer ses 0x0A03 stOK [] (raise 0xE0040 8 { s with sec := { s.sec with gmac := keys } })) s

/-! ### The life cycle (R441, R442) -/

/-- CONFIRM of a target (R388). -/
def confirmOf (target : Nat) : Word := if target = 1 then 0x4649454C else 0x4445434F

/-- The head command is the last of its packet. -/
def lastOfPacket (s : State) (n : Nat) : Bool :=
  match headPkt (ses s n).packets with
  | some p => decide (p.cmds.length ≤ 1)
  | none => true

/-- LIFECYCLE_ADVANCE: after its checks every later packet is dropped and a seal of every enabled region is made; the
reply, the programming and the reset follow it (R442). -/
def execLifecycleAdvance (ses target : Nat) (confirm : Word) : State → Host.Outcome State Fault Refusal := run fun s =>
  let reply (st : Nat) (s : State) : State := answer ses 0x0A04 st [] s
  hostCmd ses 0x0A04 false true 0 (needLease ses 0x0A04 fun s =>
    if target = 0 ∨ 2 < target ∨ lifecycle s ≠ target ∨ confirm ≠ confirmOf target then reply stState s
    else if !lastOfPacket s ses then reply stState s
    else if target = 1 ∧ ¬ otherRoot s 8 then reply stState s
    else if otpHeld s then reply stBusy s
    else
      let x := Machine.ses s ses
      sealDue .life (setSes ses { x with wait := some (.lifecycle target) } { s with slc := { s.slc with dropping := true } })) s

/-! ### Diagnostics -/

/-- ECHO: at most 8,192 bytes, which come back (R388). -/
def execEcho (ses : Nat) (data : List Byte) : State → Host.Outcome State Fault Refusal := run fun s =>
  hostCmd ses 0x0F00 true (decide (data.length ≤ 8192)) data.length (fun s => answer ses 0x0F00 stOK data s) s

end Sys2Proof.Machine
end

