-- ==== Sys2Proof/Machine/Commit.lean ====
section
/-!
DEFINITION. Commits (R40 to R48, R50, R55): the candidate image, the checks, the queue, and the strobe with what each
chapter makes it do.
-/

namespace Sys2Proof.Machine

/-! ### Images (R43, R50) -/

/-- Whether a group mask takes in a word. -/
def masksWord (mask : BitVec 16) (a : Nat) : Bool := mask.getLsbD (groupOf a)

/-- An image with the words of the masked groups taken from another. -/
def maskMerge (mask : BitVec 16) (other image : SMap Word) : SMap Word := mergeWhere (masksWord mask) other image

/-- The committed image as it will stand after every commit in the queue (R43). -/
def queueImage (s : State) : SMap Word :=
  s.commits.queue.foldl (fun m q => if q.adopt then q.image else maskMerge q.mask q.image m) s.regs.committed

/-- The candidate image of a mask: the shadows of the masked groups over the image the queue leaves (R43). -/
def candidate (s : State) (mask : BitVec 16) : SMap Word := maskMerge mask s.regs.shadow (queueImage s)

/-- SEAL_QUERY (R50). -/
def execSealQuery (ses : Nat) (mask : BitVec 16) : State → Host.Outcome State Fault Refusal := run fun s =>
  hostCmd ses 0x0106 true true 4 (fun s => answer ses 0x0106 stOK (wordBytes (sealOf (candidate s mask))) s) s

/-! ### COMMIT (R42 to R44) -/

/-- A refused COMMIT. -/
def commitRefuse (n st : Nat) (data : List Byte) (s : State) : State := answer n 0x0105 st data (raise 0x10 2 s)

/-- An accepted COMMIT enters the queue, and its session waits (R43 to R46). -/
def commitAccept (n : Nat) (mask : BitVec 16) (aligned : Bool) (stamp : Option Stamp) (expected : Word) (image : SMap Word)
    (adopt : Bool) (s : State) : State :=
  if 16 ≤ s.commits.queue.length then commitRefuse n stBusy [] s
  else
    let q : QCommit := { id := s.commits.nextId, ses := n, mask := mask, aligned := aligned, stamp := stamp, sealW := expected,
                         image := image, adopt := adopt }
    noteHeld (setSes n { ses s n with wait := some (.commit q.id) }
      { s with commits := { s.commits with queue := s.commits.queue ++ [q], nextId := q.id + 1 } })

/-- Whether a COMMIT with a zero mask adopts the scanned image rather than confirming the reference; none where neither
applies (R42). -/
def zeroMask (s : State) (expected : Word) : Option Bool :=
  if expected = s.sealing.ref then some false
  else if s.sealing.mismatch ∧ expected = hw s 0x1C then some true
  else none

/-- The checks of R43 from step 2 on. -/
def commitCheck (n : Nat) (mask : BitVec 16) (aligned : Bool) (stamp : Option Stamp) (expected : Word) (s : State) : State :=
  let before := queueImage s
  let image := candidate s mask
  let old := imageGet before
  let new := imageGet image
  let adopt := if mask = 0 then zeroMask s expected else if sealOf image = expected then some false else none
  if stateRefuses s mask stamp old new image then commitRefuse n stState [] s
  else match adopt with
    | none => commitRefuse n stSealMismatch [] s
    | some adopt =>
      if capacityRefuses s old new image then commitRefuse n stCapacity [] s
      else match budgetRefuses s mask new image with
        | some b => commitRefuse n stBudget (le 2 b.id ++ le 2 b.index ++ le 8 (demandOf b) ++ le 8 (limitOf b)) s
        | none =>
          let captured := if adopt then s.sealing.last else image.filter fun (a, _) => masksWord mask a
          commitAccept n mask aligned stamp expected captured adopt s

/-- The length of a COMMIT's reply data: with BUDGET 20 bytes, else 16 and 12 for each fibre group. -/
def commitLen (mask : BitVec 16) : Nat := Nat.max 20 (16 + 12 * popcount 4 (mask.toNat / 2))

/-- COMMIT (R42, R43). -/
def execCommit (ses : Nat) (mask : BitVec 16) (aligned : Bool) (stamp : Option Stamp) (expected : Word) :
    State → Host.Outcome State Fault Refusal := run fun s =>
  if !turn s ses 0x0105 then s
  else if 0x400 ≤ mask.toNat ∨ !fits s ses (commitLen mask) then commitRefuse ses stBadLength [] s
  else if (Machine.ses s ses).kind = .bootstrap then commitRefuse ses stAuth [] s
  else if s.slc.lease ≠ some ses then commitRefuse ses stNotOwner [] s
  else commitCheck ses mask aligned stamp expected s

/-! ### The registers at the strobe (R45, R46, R51, R54, R55) -/

/-- The commit changes the placement of addresses, and so discards DRAM (R284). -/
def movesDram (old new : Nat → Word) : Bool :=
  decide (nActiveOf old ≠ nActiveOf new) || decide (chmapOf old ≠ chmapOf new) || decide (fld (old 0x80800) 8 4 ≠ fld (new 0x80800) 8 4)

/-- Whether a commit's image moves DRAM away from what is in force. -/
def qMoves (q : QCommit) (s : State) : Bool :=
  !q.adopt && q.mask.getLsbD 7 && movesDram (imageGet s.regs.active) (imageGet (groupMerge 7 q.image s.regs.active))

/-- The groups of a commit that become active at the strobe itself. -/
def strobeMask (q : QCommit) (moves : Bool) : BitVec 16 :=
  if q.adopt then 0 else q.mask &&& 0x03E1 &&& ~~~(if moves then 0x0080 else 0)

/-- The copies of the groups that become active later: fibre groups, and group 7 while its fill runs. -/
def strobePend (q : QCommit) (moves : Bool) (s : State) : SMap (SMap Word) :=
  let gs := ([1, 2, 3, 4] ++ if moves then [7] else []).filter fun g => q.mask.getLsbD g
  gs.foldl (fun m g => smIns g (q.image.filter fun (a, _) => decide (groupOf a = g)) m) s.regs.pend

/-- One indivisible step: the captured image goes to the active, pending and committed copies, and the reference follows.
A COMMIT that confirms leaves the reference as it stands; one that adopts sets committed image and shadows (R42, R45). -/
def strobeRegs (q : QCommit) (s : State) : State :=
  let moves := qMoves q s
  let r := s.regs
  let regs : Regs := if q.adopt then { r with committed := q.image, shadow := q.image }
    else { r with
      active := maskMerge (strobeMask q moves) q.image r.active,
      pend := strobePend q moves s,
      committed := maskMerge q.mask q.image r.committed,
      overrides := r.overrides.filter fun o => !masksWord q.mask o.addr }
  { s with
    regs := regs,
    sealing := { s.sealing with
      ref := if q.mask = 0 ∧ !q.adopt then s.sealing.ref else q.sealW,
      scan := s.sealing.scan.map fun x => { x with restarted := true } } }

/-- The words whose value in force differs between two states; a word may be listed twice. -/
def changedWords (s t : State) : List Nat :=
  ((s.regs.active.map (·.1)) ++ (t.regs.active.map (·.1)) ++ (s.regs.overrides ++ t.regs.overrides).map (·.addr)).filter
    fun a => cfg s a ≠ cfg t a

/-- Whether some changed word lies in a range. -/
def touched (l : List Nat) (lo n : Nat) : Bool := l.any fun a => decide (lo ≤ a ∧ a < lo + n)

/-- The overrides that lost lanes still ask for where a commit of their group has removed one: they apply again at once
(R55, R139). -/
def fallbackAgain (had : List Override) (s : State) : State :=
  each (List.range 4) (fun p s =>
    if had.any fun o => decide (o.addr = 0x20010 + 4 * p) then
      match fallbackOf (cfg s) p ((lanesOf (cfg s) p).map (laneFailed s (cfg s))) with
      | some o => noteOverride o (overridesApply p (setLch p { lch s p with fallback := [o] } s))
      | none => s
    else s) s

/-- The overrides that wait for a boundary belong to group 0: a commit that names it takes them away (R55). -/
def fallbackDrop (q : QCommit) (s : State) : List Override × State :=
  if q.mask.getLsbD 0 then
    ((List.range 4).flatMap fun p => (lch s p).fallback,
     each (List.range 4) (fun p s => setLch p { lch s p with fallback := [] } s) s)
  else ([], s)

/-! ### What the chapters make of a strobe -/

/-- What ends under the configuration that goes: tap samples already emitted where a watch changes, measurement contexts
that change, miniSEED records of streams that change, and the words that shots on their way keep (R232, R158, R368, R46). -/
def strobeBefore (l : List Nat) (s : State) : State :=
  let s := if touched l 0x1000000 0x100000 then watchesDrain s else s
  let s := each (List.range 4) (fun k s => if touched l (ctxA k 0) 0x10 then ctxRestart k s else s) s
  let s := if touched l 0x10000 4 || touched l 0x20000 0x40 then each (List.range 4) stashShots s else s
  each (s.spt.streams.map (·.1)) (fun n s =>
    if touched l (streamAt n) 12 then
      let s := each ((stream s n).mseed.map (·.1)) (mseedClose false n) s
      setStream n { stream s n with mseed := [] } s
    else s) s

/-- Clocks and converters (R94, R98, R119). -/
def strobeClocks (q : QCommit) (old : Nat → Word) (s : State) : State :=
  let new := cfg s
  let s := if bit (old 0x10000) 8 ≠ bit (new 0x10000) 8 then timeRelock s else s
  let s := if decide (old 0x10000 ≠ new 0x10000) then
      sampleStopRate { s with clk := { s.clk with splRelock := s.clk.splRelock ++ [q.id] } }
    else if decide (old 0x20000 ≠ new 0x20000) then modeCalibrate (indicesRestart s)
    else s
  if decide (fld (old 0x10004) 0 1 ≠ fld (new 0x10004) 0 1) then warmUpdate s else s

/-- The time base (R107, R112). -/
def strobeTime (old : Nat → Word) (s : State) : State :=
  let new := cfg s
  let s := if tbSource old ≠ tbSource new then sourceChanged s else s
  if decide (old 0x10118 ≠ new 0x10118) || (decide (tbSource old = 1) && decide (tbSource new ≠ 1)) then utcFromCfg s else s

/-- A unit that starts or stops to capture (R235). One that goes on keeps its allocation, also over a change of REGION
(R232, R254). -/
def captureChange (old : Nat → Word) (u : UnitId) (s : State) : State :=
  let new := cfg s
  let x := wst s u
  if !captures new u then
    let s := returnAlloc u s
    rearm u (if captures old u && decide (x.hold = .conds 0) then setWst u { wst s u with hold := .none } s else s)
  else if inService s u && decide ((wst s u).alloc = .none) && (wst s u).post.isNone then askAlloc u s
  else s

/-- The watches that some changed word belongs to. -/
def touchedWatches (l : List Nat) : List Nat :=
  ((l.filter fun a => decide (0x1000000 ≤ a)).map fun a => (a - 0x1000000) / 0x40).eraseDups

/-- Lane trigger units and watches that change (R223, R232, R235). -/
def strobeWeir (l : List Nat) (old : Nat → Word) (s : State) : State :=
  let s := each ((List.range 8).filter fun u => touched l (unitAt u) 0x40) (fun u s =>
    captureChange old (.unit u) (if (unitSt s u).armed then restartUnit u s else s)) s
  each (touchedWatches l) (fun w s =>
    if watchOn (cfg s) w then captureChange old (.watch w) (restartWatch (!watchOn old w) w s)
    else if watchOn old w then removeWatch w s
    else s) s

/-- Replay windows after a commit: those that move, change size or belong to an area that does are emptied (R362). -/
def strobeReplay (old : Nat → Word) (s : State) : State :=
  let new := cfg s
  let area := decide (replayBase old ≠ replayBase new ∨ replaySize old ≠ replaySize new)
  let place := (windowSizes new s.regs.active).foldl
    (fun (acc : SMap (Nat × Nat) × Nat) e => (smIns e.1 (acc.2, e.2) acc.1, acc.2 + e.2)) ([], replayBase new)
  let was := s.spt.windows
  let gone := (s.spt.streams.map (·.1)).filter fun n =>
    decide ((stream s n).window ≠ []) && (area || decide (smFind n was ≠ smFind n place.1))
  let s := each gone (fun n s =>
    let x := stream s n
    loss 10 x.window.length (setStream n { x with window := [], winNext := 0 } s)) s
  { s with spt := { s.spt with windows := place.1 } }

/-- A stream that is enabled, changed or disabled (R349, R351, R354, R359, R360). -/
def strobeStream (old : Nat → Word) (n : Nat) (s : State) : State :=
  let x := stream s n
  let typ := fld (old (streamAt n)) 1 3
  let s := if typ = 3 then
      match x.reads with
      | [] => s
      | r :: _ => mapSeg r.seg (fun g => { g with held := g.held - 1 }) s
    else s
  let oldHome := if fld (old (streamAt n)) 4 2 = 1 then 1 else 0
  let x := if oldHome = homePort s n then x else { x with moved := false, queue := x.other ++ x.queue, other := [] }
  let x := { x with reads := [], images := [], nextLane := [], periodAt := 0 }
  setStream n (if streamOn s n then { x with firstRec := true, startPos := s.cnt.smp } else x) s

/-- The streams that some changed word belongs to. -/
def touchedStreams (l : List Nat) : List Nat :=
  ((l.filter fun a => decide (0xB4000 ≤ a ∧ a < 0xC0000)).map fun a => (a - 0xB4000) / 12).eraseDups

/-- Streams change; where PL changes, RAW streams start at the next record boundary and event records close (R349). -/
def strobeStreams (l : List Nat) (old : Nat → Word) (s : State) : State :=
  let s := each (touchedStreams l) (strobeStream old) s
  if plOf old = plOf (cfg s) then s
  else each (enabledStreams s.regs.active) (fun n s =>
    let x := stream s n
    match streamType s n with
    | 0 => setStream n { x with startPos := s.cnt.smp, nextLane := [] } s
    | 4 => setStream n (closeEvents x) s
    | _ => s) s

/-- A port whose MODE changes goes down, and is not down for streams until it has been up again (R339). -/
def portModeChange (p : Nat) (s : State) : State :=
  let was := (port s p).up
  let s := txAbort p s
  let s := setPort p { port s p with up := false, wasUp := false, fault := false, paused := 0, mode := portMode (cfg s) p,
                                      pllAt := s.cnt.ticks } s
  if was then ptpLinkLost p (raise (ethA p 0x80) 1 s) else s

/-- Ports: modes and addresses (R339, R342). -/
def strobePorts (l : List Nat) (old : Nat → Word) (s : State) : State :=
  let s := each [0, 1] (fun p s => if portMode old p = portMode (cfg s) p then s else portModeChange p s) s
  let s := each [0, 1] (fun p s =>
    let s := if touched l (ethA p 0x20) 0xC then
        (if cfgB s (ethA p 0x20) 0 then
          (if bit (old (ethA p 0x20)) 0 then s else setPort p { port s p with ip4 := 0, ip4Valid := false } s)
        else staticAddr p s)
      else s
    if touched l (ethA p 0x30) 0x24 then setPort p { port s p with ip6 := 0, ip6Valid := false } s else s) s
  placeStreams s

/-- DRAM discarded: Cistern, Pool rings and replay windows empty, host channels stop, and the fill begins (R284, R333). -/
def discardDram (id : Nat) (s : State) : State :=
  let s := loss 8 (backed s) (cisRebuild s)
  let s := each (List.range 4) ringDiscard s
  let s := each (s.spt.streams.map (·.1)) (fun n s =>
    let x := stream s n
    loss 10 x.window.length (setStream n { x with window := [], winNext := 0 } s)) s
  rnlStopAll (raise 0x80840 0 { s with dram := { s.dram with filling := some id } })

/-- DRAM: the grade and the electrical setup (R284, R305). -/
def strobeDram (l : List Nat) (q : QCommit) (moves : Bool) (s : State) : State :=
  if !q.mask.getLsbD 7 then s
  else
    let s := if moves then discardDram q.id s else s
    let g := fld (imageGet q.image 0x80800) 0 2
    let setup := (List.range 9).any fun c =>
      if moves then decide (imageGet q.image (memA c 0) ≠ cfg s (memA c 0)) else touched l (memA c 0) 4
    let was := s.dram.grade
    let s := { s with dram := { s.dram with grade := g } }
    if was ≠ g ∨ setup then regrade { s with dram := { s.dram with setup := s.dram.setup ++ [q.id] } } else s

/-- A Pool ring that a commit moves or resizes loses its unread blocks at the strobe (R213). -/
def strobeRings (q : QCommit) (old : Nat → Word) (s : State) : State :=
  let new := imageGet q.image
  each (List.range 4) (fun e s =>
    if q.mask.getLsbD (e + 1) && decide (ringBase old e ≠ ringBase new e ∨ ringSize old e ≠ ringSize new e) then ringDiscard e s
    else s) s

/-- Fibre groups: a port that launches keeps its copy until its boundary, or the common instant; the others apply at the
strobe (R46, R47). -/
def strobeFibres (q : QCommit) (s : State) : State :=
  let named := (List.range 4).filter fun p => q.mask.getLsbD (p + 1)
  let wait := named.filter (launching s)
  let s := if q.aligned ∧ wait ≠ [] then
      { s with commits := { s.commits with align := s.commits.align ++ [{ id := q.id, ports := wait }] } }
    else s
  each (named.filter fun p => !(decide (p ∈ wait))) (fun p s => fibreApply p (now s) s) s

/-- The strobe of the commit at the head of the queue (R45). -/
def strobe (q : QCommit) (s : State) : State :=
  let moves := qMoves q s
  let had := s.regs.overrides.filter fun o => masksWord q.mask o.addr
  let (waiting, s) := fallbackDrop q s
  let old := cfg s
  let l := changedWords s (strobeRegs q s)
  let s := strobeRegs q (strobeBefore l s)
  let s := each ([(0, 84), (1, 80), (2, 81), (3, 82), (4, 83), (5, 84), (9, 108)].filter fun e => q.mask.getLsbD e.1)
    (fun e => rill e.2 1) s
  let s := raise 0x10 0 (addCnt 0x40 1 s)
  let f : InFlight := { id := q.id, ses := q.ses, seq := (hw s 0x40).toNat, mask := q.mask, strobe := now s, applied := [] }
  let s := { s with commits := { s.commits with flight := s.commits.flight ++ [f] } }
  let s := fallbackAgain (had ++ waiting) s
  let s := each (List.range 12) (fun c s => if 4 ≤ c then tiuActivate old c s else s) (strobeTime old (strobeClocks q old s))
  let s := strobeDram l q moves s
  let s := strobeFibres q (strobeRings q old s)
  let s := strobeWeir l old (histPlan s)
  let s := strobeReplay old (strobeStreams l old s)
  let s := strobePorts l old s
  budgetCheck (flightsDone (rnlProtect (powerUpdate s)))

/-- Whether the commit at the head of the queue may strobe: its stamp has come, no hold and no restarted scan delays it,
and no earlier copy of a group of its own is still pending (R44, R45, R51, R82). -/
def strobeDue (q : QCommit) (s : State) : Bool :=
  (match q.stamp with | some t => decide (t ≤ now s) | none => true) && !commitsHeld s
    && (match s.sealing.scan with | some x => !x.restarted | none => true)
    && s.regs.pend.all fun (g, _) => !q.mask.getLsbD g

/-- COMMIT_STROBE: the oldest accepted commit strobes, if it may (R44, R45). -/
def execCommitStrobe : State → Host.Outcome State Fault Refusal := run fun s =>
  match s.commits.queue with
  | [] => s
  | q :: qs =>
    if strobeDue q s then noteHeld (strobe q { s with commits := { s.commits with queue := qs } }) else noteHeld s

end Sys2Proof.Machine
end

