-- ==== Sys2Proof/Machine/Registers.lean ====
section
/-!
DEFINITION. The register engine (R27 to R39, R53): reads with their latches, writes with their checks, STS_CLEAR, and the
bits of the cmd words.
-/

namespace Sys2Proof.Machine

/-! ### Reads (R28, R31, R36) -/

/-- An address that no register command may access (R27, R28). -/
def badWord (a : Nat) : Bool := decide (a % 4 ≠ 0) || (clsOf a).isNone

/-- The key of a latched word. -/
def latchKey (n a : Nat) : Nat := 2 ^ 32 * n + a

/-- The words after `a` that a read of it latches for a session. -/
def latchFrom (n a : Nat) (s : State) : State :=
  let l := (List.range (latchSpan a)).foldl (fun m i => smIns (latchKey n (a + 4 * (i + 1))) (readHw s (a + 4 * (i + 1))) m) s.regs.latch
  { s with regs := { s.regs with latch := l } }

/-- One word as a session reads it: the shadow or the active copy of a cfg word; of any other the latched value, once, or
the word as it stands (R31, R36). -/
def readWord (n : Nat) (active : Bool) (a : Nat) (s : State) : Word × State :=
  if clsOf a = some .cfg then (if active then cfg s a else imageGet s.regs.shadow a, s)
  else match smFind (latchKey n a) s.regs.latch with
    | some w => (w, { s with regs := { s.regs with latch := smDel (latchKey n a) s.regs.latch } })
    | none => (readHw s a, latchFrom n a s)

/-- Words in ascending order. -/
def readWords (n : Nat) (active : Bool) : List Nat → State → List Byte × State
  | [], s => ([], s)
  | a :: l, s =>
    let (w, s) := readWord n active a s
    let (b, s) := readWords n active l s
    (wordBytes w ++ b, s)

/-- A read of some words, whole or not at all (R28). -/
def regReadAll (n op : Nat) (active : Bool) (l : List Nat) (s : State) : State :=
  match l.find? badWord with
  | some a => answer n op stBusError (le 4 a) s
  | none =>
    let (b, s) := readWords n active l s
    answer n op stOK b s

/-- The addresses of a block. -/
def blockAddrs (addr count : Nat) : List Nat := (List.range count).map fun i => addr + 4 * i

/-- REG_READ (R27, R28, R31). -/
def execRegRead (ses addr : Nat) (active : Bool) : State → Host.Outcome State Fault Refusal := run fun s =>
  hostCmd ses 0x0100 true true 4 (regReadAll ses 0x0100 active [addr]) s

/-- REG_READ_BLOCK (R27, R28, R36). -/
def execRegReadBlock (ses addr count : Nat) (active : Bool) : State → Host.Outcome State Fault Refusal := run fun s =>
  hostCmd ses 0x0102 true (decide (1 ≤ count ∧ count ≤ 256)) (4 * count) (regReadAll ses 0x0102 active (blockAddrs addr count)) s

/-! ### The checks of a write (R29) -/

/-- A write that would change a cfg, cmd or once field (R40). -/
def wouldChange (s : State) (e : Nat × Word) : Bool :=
  let v := e.2 &&& maskOf e.1
  match clsOf e.1 with
  | some .cfg => v ≠ imageGet s.regs.shadow e.1
  | some .cmd => v ≠ 0
  | some .once => v ≠ readHw s e.1
  | _ => false

/-- A once field that no longer takes a value: MEM_SPARE once written, or in another state than PROVISIONED (R38, R280). -/
def onceLocked (s : State) (a : Nat) : Bool := readHw s a ≠ 15 || decide (lifecycle s ≠ 1)

/-- A write that R38 or R39 locks out. -/
def wouldLock (s : State) (e : Nat × Word) : Bool :=
  let other := e.2 &&& maskOf e.1 ≠ readHw s e.1
  match clsOf e.1 with
  | some .once => other && onceLocked s e.1
  | some .id => other
  | _ => false

/-- The bits of a cmd word that a write starts. -/
def startsOf (e : Nat × Word) : List (Nat × Nat) :=
  if clsOf e.1 = some .cmd then (bitsOf 32 (e.2 &&& maskOf e.1).toNat).map fun b => (e.1, b) else []

/-- A start whose action the spec accepts only in some states: RESUME_ALL with HALT_N high, NEW_DRAM of a channel that is
not active (R312, R359). -/
def startState (s : State) (c : Nat × Nat) : Bool :=
  (decide (c = (0xB0044, 0)) && !s.pins.haltN)
    || (List.range 9).any fun n => decide (c = (memA n 0x44, 1)) && chanActive s n

/-! ### The actions (R37) -/

/-- START of POL_n_CMD: one block, where none runs (R210). -/
def polStart (e : Nat) (s : State) : State := cmdDone (polA e 0x44) 0 id (if (pol s e).running then s else blockStart e s)

/-- CLOSE of POL_n_CMD (R210). -/
def polClose (e : Nat) (s : State) : State := cmdDone (polA e 0x44) 1 id (blockClose true e s)

/-- FORCE_TRIGGER of WEI_CMD: an armed unit meets one condition on the next sample of its lane (R222). -/
def forceUnit (u : Nat) (s : State) : State :=
  let s := if (unitSt s u).armed then setUnit u { unitSt s u with force := true } s else s
  cmdDone 0x61014 u id (rill 85 1 s)

/-- What a cmd bit starts. -/
def cmdAction (a b : Nat) (s : State) : State :=
  match a / 0x10000, b with
  | 0x0, 0 => scanStart false s
  | 0x0, _ => cmdDone 0x54 1 id (reloadShadows s)
  | 0x2, 0 => qcalCommand s
  | 0x2, _ => fgCalCommand s
  | 0x4, b => phsStart ((a - 0x40000) / 0x1000) b s
  | 0x5, 0 => polStart ((a - 0x50000) / 0x800) s
  | 0x5, _ => polClose ((a - 0x50000) / 0x800) s
  | 0x6, b => if b < 8 then forceUnit b s else cmdDone 0x61014 8 id (clearAlarm s)
  | 0x7, _ => sealNowCommand s
  | 0x8, 0 => retrainCommand ((a - 0x80000) / 0x1000) s
  | 0x8, _ => newDramCommand ((a - 0x80000) / 0x1000) s
  | 0x9, b => rnlStop (24 + b) s
  | 0xB, _ => cmdDone 0xB0044 0 id (resumeAll s)
  | 0xD, _ => snapCommand s
  | _, _ => s

/-- A 1 is written to a cmd bit: its action starts, or waits for the one that runs (R37). -/
def cmdStart (c : Nat × Nat) (s : State) : State :=
  if bit (hw s c.1) c.2 then { s with regs := { s.regs with cmdQueued := s.regs.cmdQueued ++ [c] } }
  else cmdAction c.1 c.2 (setHw c.1 (wd (setBit (hw s c.1).toNat c.2)) s)

/-- One word is written: the shadow of a cfg word, the starts of a cmd word, MEM_SPARE into the OTP, inverted; values for
sts, cnt and id words are discarded (R31, R35 to R39, R280). -/
def writeWord (e : Nat × Word) (s : State) : State :=
  let v := e.2 &&& maskOf e.1
  match clsOf e.1 with
  | some .cfg => { s with regs := { s.regs with shadow := imagePut e.1 v s.regs.shadow } }
  | some .cmd => each (startsOf e) cmdStart s
  | some .once => if v = readHw s e.1 then s else otpRequest 0x28 [BitVec.ofNat 8 (15 - v.toNat % 16)] s
  | _ => s

/-- A write of some words in ascending order: the first check of R29 that fails refuses it whole. -/
def regWriteAll (n op : Nat) (l : List (Nat × Word)) (s : State) : State :=
  match l.find? fun e => badWord e.1 with
  | some e => answer n op stBusError (le 4 e.1) s
  | none =>
    if s.slc.lease ≠ some n ∧ l.any (wouldChange s) then answer n op stNotOwner [] s
    else match l.find? (wouldLock s) with
      | some e => answer n op stWriteLocked [] (lockViolation e.1 s)
      | none =>
        let starts := l.flatMap startsOf
        if starts.any fun c => decide (c ∈ s.regs.cmdQueued) then answer n op stBusy [] s
        else if starts.any (startState s) then answer n op stState [] s
        else answer n op stOK [] (each l writeWord s)

/-- REG_WRITE (R29). -/
def execRegWrite (ses addr : Nat) (value : Word) : State → Host.Outcome State Fault Refusal := run fun s =>
  hostCmd ses 0x0101 false true 4 (regWriteAll ses 0x0101 [(addr, value)]) s

/-- REG_WRITE_BLOCK (R27, R29). -/
def execRegWriteBlock (ses addr : Nat) (values : List Word) : State → Host.Outcome State Fault Refusal := run fun s =>
  hostCmd ses 0x0103 false (decide (1 ≤ values.length ∧ values.length ≤ 256)) 4
    (regWriteAll ses 0x0103 (values.zipIdx.map fun (w, i) => (addr + 4 * i, w))) s

/-! ### STS_CLEAR (R33, R34) -/

/-- The bits of a sts word that a clear leaves set because their cause lasts: AON_UNTRIMMED before the first trim (R103). -/
def stsStays (s : State) (a : Nat) : Word := if a = 0x10040 ∧ !s.clk.trimmed then hw s a &&& 0x400 else 0

/-- STS_CLEAR (R34). -/
def execStsClear (ses addr : Nat) (seq : BitVec 8) (mask : BitVec 24) : State → Host.Outcome State Fault Refusal := run fun s =>
  hostCmd ses 0x0104 false true 4 (fun s =>
    let w := hw s addr
    if badWord addr ∨ clsOf addr ≠ some .sts then answer ses 0x0104 stBusError (le 4 addr) s
    else if fld w 24 8 = seq.toNat ∧ (!bit w 23 ∨ mask.getLsbD 23) then
      let v := (w &&& ~~~(mask.setWidth 32)) ||| stsStays s addr
      let s := setHw addr v s
      answer ses 0x0104 stOK [] { s with regs := { s.regs with laps := smDel addr s.regs.laps } }
    else answer ses 0x0104 stStaleClear (wordBytes w) s) s

/-! ### The rows for single bits and for MEM_SPARE -/

/-- A REG_WRITE that starts one bit or some bits of a cmd word. -/
def bitWrite (n a : Nat) (v : Word) (s : State) : State := hostCmd n 0x0101 false true 4 (regWriteAll n 0x0101 [(a, v)]) s

/-- SEAL_RESCAN of GLB_CMD (R51). -/
def execSealRescan (ses : Nat) : State → Host.Outcome State Fault Refusal := run fun s => bitWrite ses 0x54 1 s

/-- RELOAD_SHADOWS of GLB_CMD (R58). -/
def execReloadShadows (ses : Nat) : State → Host.Outcome State Fault Refusal := run fun s => bitWrite ses 0x54 2 s

/-- A write of MEM_SPARE (R280). -/
def execMemSpareWrite (ses : Nat) (value : Word) : State → Host.Outcome State Fault Refusal := run fun s =>
  bitWrite ses 0x80808 value s

/-- QCAL of CNV_CMD (R127). -/
def execQcal (ses : Nat) : State → Host.Outcome State Fault Refusal := run fun s => bitWrite ses 0x20044 1 s

/-- FG_CAL of CNV_CMD (R135). -/
def execFgCal (ses : Nat) : State → Host.Outcome State Fault Refusal := run fun s => bitWrite ses 0x20044 2 s

/-- ZERO_STRAIN of PHS_n_CMD (R188). -/
def execZeroStrain (ses : Nat) (port : Fin 4) : State → Host.Outcome State Fault Refusal := run fun s =>
  bitWrite ses (0x40084 + 0x1000 * port.val) 1 s

/-- REPRIME of PHS_n_CMD (R188). -/
def execReprime (ses : Nat) (port : Fin 4) : State → Host.Outcome State Fault Refusal := run fun s =>
  bitWrite ses (0x40084 + 0x1000 * port.val) 2 s

/-- START of POL_n_CMD (R210). -/
def execPoolStart (ses : Nat) (engine : Fin 4) : State → Host.Outcome State Fault Refusal := run fun s =>
  bitWrite ses (polA engine 0x44) 1 s

/-- CLOSE of POL_n_CMD (R210). -/
def execPoolClose (ses : Nat) (engine : Fin 4) : State → Host.Outcome State Fault Refusal := run fun s =>
  bitWrite ses (polA engine 0x44) 2 s

/-- FORCE_TRIGGER of WEI_CMD, one bit per unit (R222). -/
def execForceTrigger (ses : Nat) (units : BitVec 8) : State → Host.Outcome State Fault Refusal := run fun s =>
  bitWrite ses 0x61014 (units.setWidth 32) s

/-- ALARM_ACK of WEI_CMD (R240). -/
def execAlarmAck (ses : Nat) : State → Host.Outcome State Fault Refusal := run fun s => bitWrite ses 0x61014 0x100 s

/-- SEAL_NOW of CIS_CMD (R272). -/
def execSealNow (ses : Nat) : State → Host.Outcome State Fault Refusal := run fun s => bitWrite ses 0x70044 1 s

/-- RESUME_ALL of SPT_CMD (R359). -/
def execResumeAllBit (ses : Nat) : State → Host.Outcome State Fault Refusal := run fun s => bitWrite ses 0xB0044 1 s

/-- RETRAIN of MEM_n_CMD (R305). -/
def execRetrain (ses : Nat) (ch : Fin 9) : State → Host.Outcome State Fault Refusal := run fun s =>
  bitWrite ses (memA ch 0x44) 1 s

/-- NEW_DRAM of MEM_n_CMD (R312). -/
def execNewDram (ses : Nat) (ch : Fin 9) : State → Host.Outcome State Fault Refusal := run fun s =>
  bitWrite ses (memA ch 0x44) 2 s

/-- STOP of RNL_CMD, bit i for channel 24 + i (R333). -/
def execRnlCmdStop (ses : Nat) (mask : BitVec 8) : State → Host.Outcome State Fault Refusal := run fun s =>
  bitWrite ses 0x91044 (mask.setWidth 32) s

/-- SNAP of LGR_CMD (R404). -/
def execSnap (ses : Nat) : State → Host.Outcome State Fault Refusal := run fun s => bitWrite ses 0xD0044 1 s

end Sys2Proof.Machine
end

