-- ==== Sys2Proof/Machine/Sluice.lean ====
section
/-!
DEFINITION. Sluice packets (R373 to R395): the checks of a packet, sequence and replies, openings, sessions, the lease, and
the fast path.
-/

namespace Sys2Proof.Machine

/-! ### Layouts (R375, R376, R380) -/

/-- The FLAGS of a packet. -/
abbrev flReply := 0
abbrev flAuth := 1
abbrev flFast := 2
abbrev flBoot := 3

/-- The initialisation vector of a packet (R380). -/
def sluiceIv (n dir : Nat) (fast : Bool) (seq : Nat) : List Byte := le 2 n ++ le 1 (dir + 2 * b2n fast) ++ zeros 1 ++ le 4 seq ++ zeros 4

/-- One reply entry: its head and its data, padded (R376). -/
def replyEntry (e : Entry) : List Byte :=
  le 2 e.opcode ++ le 2 e.tag ++ le 2 e.data.length ++ le 2 e.status ++ padTo (roundUp 4 e.data.length) e.data

/-- The header of a reply. -/
def replyHeader (flags n seq count len status : Nat) : List Byte :=
  le 1 1 ++ le 1 flags ++ le 2 n ++ le 4 seq ++ le 2 count ++ le 2 len ++ le 2 status ++ zeros 10

/-- A reply packet of a session, from the Sluice header on (R375, R376, R380, R391). -/
def replyBytes (x : Session) (n seq : Nat) (fast : Bool) (status : Nat) (entries : List Entry) : List Byte :=
  let body := entries.flatMap replyEntry
  let flags := 1 + (if x.kind = .active then 2 else 8) + 4 * b2n fast
  let head := replyHeader flags n seq entries.length body.length status
  if x.kind = .active then head ++ Config.gcmSeal x.keyDH (sluiceIv n 1 fast seq) head body else head ++ body

/-- A reply packet of session 0. -/
def zeroReply (o : Opening) (op status : Nat) (data : List Byte) : List Byte :=
  let body := replyEntry { opcode := op, tag := o.tag, status := status, data := data }
  replyHeader (1 + 8 * b2n o.boot) 0 o.seq 1 body.length 0 ++ body

/-- A reply joins class A of the port its request came in by, to where it came from (R345, R373). -/
def sendReply (p : Nat) (dst : Peer) (bytes : List Byte) (s : State) : State :=
  let x := port s p
  let f : Frame := { kind := .sluiceReply, dst := dst.addr, bytes := bytes, rawEth := dst.rawEth, srcPort := dst.udpPort,
                     dstPort := dst.srcPort }
  setPort p { x with classA := x.classA ++ [f] } s

/-- The commands that fill a body exactly: `k` of them, each padded to a multiple of 4 bytes (R375, R376). -/
def parseCmds : Nat → List Byte → Option (List QCmd)
  | 0, [] => some []
  | 0, _ :: _ => none
  | k + 1, l =>
    let len := leAt l 4 2
    if l.length < 8 + roundUp 4 len then none
    else (parseCmds k (l.drop (8 + roundUp 4 len))).map fun cs =>
      { opcode := leAt l 0 2, tag := leAt l 2 2, params := slice 8 len l } :: cs

/-- The bytes that a packet's header gives it. -/
def packetLen (b : List Byte) : Nat := 24 + leAt b 0xA 2 + (if nbit (leAt b 1 1) flAuth then 16 else 0)

/-- LENGTH matches the frame; a raw Ethernet frame may carry the padding of a frame of the least size. -/
def lengthOk (src : Peer) (b : List Byte) : Bool :=
  decide (b.length = packetLen b) || (src.rawEth && decide (packetLen b ≤ b.length ∧ b.length ≤ 46))

/-- What the header of R375 must hold before the packet's session is looked at. -/
def headerOk (src : Peer) (b : List Byte) : Bool :=
  decide (24 ≤ b.length) && decide (leAt b 0 1 = 1) && !nbit (leAt b 1 1) flReply && decide (1 ≤ leAt b 8 2 ∧ leAt b 8 2 ≤ 64)
    && lengthOk src b && decide (leAt b 2 2 ≤ 64)

/-- The body of a packet without authentication. -/
def plainBody (b : List Byte) : List Byte := slice 24 (leAt b 0xA 2) b

/-- The body of a packet that passes its tag under K_HD (R380). -/
def openBody (x : Session) (n : Nat) (fast : Bool) (b : List Byte) : Option (List Byte) :=
  Config.gcmOpen x.keyHD (sluiceIv n 0 fast (leAt b 4 4)) (b.take 24) (slice 24 (packetLen b - 24) b)

/-! ### Counts (R395, R396) -/

/-- A packet is dropped under R375, R379 or R389. -/
def malformed (s : State) : State := addHold 0xC0068 1 s

/-- A packet is dropped under R380. -/
def authFail (n : Nat) (s : State) : State := raiseFrom n 0xC0040 3 (addHold 0xC0060 1 s)

/-- A packet is discarded under R381 or R390. -/
def windowDrop (s : State) : State := addHold 0xC0064 1 s

/-- Commands whose reply is sent again (R395). -/
def countDup (k : Nat) (s : State) : State := addCnt64 0xD2418 k (addCnt64 0xD2400 k s)

/-- Commands of a packet answered with DUPLICATE (R395). -/
def countOld (k : Nat) (s : State) : State := addCnt64 0xD2410 k (addCnt64 0xD2400 k s)

/-! ### Ordinary packets (R381) -/

/-- A packet that passes R380 restarts the keepalive timer (R382). -/
def keepAliveMark (n p : Nat) (s : State) : State :=
  setSes n { ses s n with kaStart := s.cnt.ticks, lastPort := p, seenAuth := true } s

/-- The next packet of a session is accepted (R381). -/
def acceptPkt (n p : Nat) (src : Peer) (seq : Nat) (cmds : List QCmd) (s : State) : State :=
  let x := ses s n
  let packets := if x.closing then x.packets
    else x.packets ++ [{ seq := seq, port := p, src := src, cmds := cmds, done := [] }]
  skipDead n (setSes n { x with h := seq, packets := packets } s)

/-- A packet whose reply still waits comes again: the reply will go there too. -/
def noteDup (n p : Nat) (src : Peer) (seq : Nat) (s : State) : State :=
  let x := ses s n
  let up (k : Pkt) : Pkt := if k.seq = seq then { k with dups := k.dups ++ [(p, src)] } else k
  setSes n { x with packets := x.packets.map up } s

/-- A packet of a session by its SEQ (R381). -/
def bySeq (n p : Nat) (src : Peer) (seq : Nat) (cmds : List QCmd) (s : State) : State :=
  let x := ses s n
  if seq = x.h + 1 ∧ x.packets.length < 4 then acceptPkt n p src seq cmds s
  else if x.h < seq then windowDrop s
  else if seq = 0 ∨ seq + 3 < x.h then
    countOld cmds.length (sendReply p src (replyBytes x n seq false 12 []) s)
  else match x.cache.find? (·.1 = seq) with
    | some (_, bytes) => countDup (leAt bytes 8 2) (sendReply p src bytes s)
    | none => noteDup n p src seq s

/-- The plain body of a packet whose session has accepted its tag: its commands, then its SEQ. -/
def ordinary (n p : Nat) (src : Peer) (b body : List Byte) (s : State) : State :=
  let s := keepAliveMark n p s
  match parseCmds (leAt b 8 2) body with
  | none => malformed s
  | some cmds => bySeq n p src (leAt b 4 4) cmds s

/-! ### The fast path (R389 to R391) -/

/-- The one command of a fast packet, where it is of the three and the body holds nothing else (R389). -/
def fastCmd (b body : List Byte) : Option QCmd :=
  match parseCmds (leAt b 8 2) body with
  | some [c] => if c.opcode = 0x500 ∨ c.opcode = 0x501 ∨ c.opcode = 0x202 then some c else none
  | _ => none

/-- What a fast command does, with its reply status: a length or stream number that R387 refuses executes nothing. -/
def fastDo (c : QCmd) (s : State) : Nat × State :=
  match c.opcode with
  | 0x500 => if c.params = [] then (0, haltStreams s) else (stBadLength, s)
  | 0x501 =>
    if c.params.length = 4 ∧ leAt c.params 0 2 < 4096 then (0, haltOne (leAt c.params 0 2) s) else (stBadLength, s)
  | _ => if c.params = [] then (0, disarmAll s) else (stBadLength, s)

/-- A fast packet that has passed its tag check, by its SEQ (R390, R391). -/
def fastBySeq (n p : Nat) (src : Peer) (seq : Nat) (c : QCmd) (s : State) : State :=
  let x := ses s n
  if x.f < seq then
    let (st, s) := fastDo c s
    let e : Entry := { opcode := c.opcode, tag := c.tag, status := st, data := if st = 0 then stampTqb s else [] }
    let bytes := replyBytes x n seq true 0 [e]
    let s := setSes n { ses s n with f := seq, fastCache := bytes } s
    let s := if st = 0 then raiseFrom n 0xC0040 5 (addCnt 0xC006C 1 s) else s
    countCmd st (sendReply p src bytes s)
  else if seq = x.f ∧ x.fastCache ≠ [] then countDup 1 (sendReply p src x.fastCache s)
  else windowDrop s

/-- A packet with FAST set (R389). -/
def fastPacket (p : Nat) (src : Peer) (b : List Byte) (s : State) : State :=
  let n := leAt b 2 2
  let x := ses s n
  if nbit (leAt b 1 1) flAuth && decide (x.kind = .active) && decide (leAt b 8 2 = 1) then
    match openBody x n true b with
    | none => authFail n s
    | some body =>
      let s := keepAliveMark n p s
      match fastCmd b body with
      | none => malformed s
      | some c => fastBySeq n p src (leAt b 4 4) c s
  else malformed s

/-! ### Session 0 (R379, R384) -/

/-- The port's link-local transport, or raw Ethernet, that a bootstrap session needs (R384). -/
def bootTransport (src : Peer) : Bool := src.rawEth || (src.linkLocal && src.toMine)

/-- The session that a repeated SESSION_OPEN opened, while it has had no packet of its own (R379). -/
def sameOpen (s : State) (params : List Byte) : Option (Nat × Session) :=
  s.slc.sessions.find? fun (_, x) =>
    decide (x.kind = .active) && !x.seenAuth && decide (x.hostNonce = openNonce params) && decide (x.openReply ≠ [])

/-- An opening is answered: AUTH also raises AUTH_FAIL (R395, R396). -/
def openAnswer (o : Opening) (status : Nat) (data : List Byte) (s : State) : State :=
  let s := countCmd status (sendReply o.port o.src (zeroReply o 1 status data) s)
  raiseIf (decide (status = stAuth)) 0xC0040 3 s

/-- SESSION_OPEN arrives in a packet of session 0: a repeat gets the reply it had; otherwise it is processed, unless two
openings already are (R379). -/
def openArrives (o : Opening) (s : State) : State :=
  let mine : Option (Nat × Session) := if o.boot then none else sameOpen s o.params
  match mine with
  | some (_, x) => countDup 1 (sendReply o.port o.src (zeroReply o 1 stOK x.openReply) s)
  | none =>
    let known := s.slc.openings.any fun q => decide ((q.boot, openNonce q.params) = (o.boot, openNonce o.params))
    if 2 ≤ openingCount s ∧ ¬ known then openAnswer o stBusy [] s
    else { s with slc := { s.slc with openings := s.slc.openings ++ [o] } }

/-- A packet with SESSION 0 (R379). -/
def zeroPacket (p : Nat) (src : Peer) (b : List Byte) (s : State) : State :=
  let flags := leAt b 1 1
  match parseCmds (leAt b 8 2) (plainBody b) with
  | some [c] =>
    let o : Opening := { port := p, src := src, seq := leAt b 4 4, tag := c.tag, boot := nbit flags flBoot, params := c.params }
    if nbit flags flAuth then malformed s
    else if c.opcode = 5 then { s with slc := { s.slc with idReqs := s.slc.idReqs ++ [o] } }
    else if c.opcode = 1 then openArrives o s
    else malformed s
  | _ => malformed s

/-! ### A packet arrives (R373, R375, R379, R380, R441, R442) -/

/-- The UDP port of Sluice (R373). -/
def sluicePort (s : State) : Nat := if cfgF s 0xC0000 0 16 = 0 then 29460 else cfgF s 0xC0000 0 16

/-- The packet comes in a form that R373 accepts. -/
def formOk (s : State) (src : Peer) (b : List Byte) : Bool :=
  src.toMine && (if src.rawEth then decide (leAt b 2 2 = 0 ∨ (ses s (leAt b 2 2)).kind = .bootstrap)
    else decide (src.udpPort = sluicePort s))

/-- The packet is a SESSION-0 IDENTITY_GET. -/
def asksIdentity (b : List Byte) : Bool :=
  decide (leAt b 2 2 = 0) && (match parseCmds (leAt b 8 2) (plainBody b) with
    | some [c] => decide (c.opcode = 5)
    | _ => false)

/-- A packet of a session. -/
def sessionPacket (p : Nat) (src : Peer) (b : List Byte) (s : State) : State :=
  let n := leAt b 2 2
  let x := ses s n
  let flags := leAt b 1 1
  match x.kind with
  | .free => authFail n s
  | .active =>
    if nbit flags flAuth then
      match openBody x n false b with
      | none => authFail n s
      | some body => ordinary n p src b body s
    else authFail n s
  | .bootstrap =>
    if nbit flags flBoot && !nbit flags flAuth && bootTransport src then ordinary n p src b (plainBody b) s else s

/-- A packet by its header. -/
def packetIn (p : Nat) (src : Peer) (b : List Byte) (s : State) : State :=
  if !(decide (s.boot = .up) && (port s p).up && formOk s src b) then s
  else if !headerOk src b then malformed s
  else if lifecycle s = 3 ∧ ¬ asksIdentity b then s
  else if nbit (leAt b 1 1) flFast then fastPacket p src b s
  else if s.slc.dropping then s
  else if leAt b 2 2 = 0 then zeroPacket p src b s
  else sessionPacket p src b s

/-- SLUICE_PACKET: a packet arrives; its commands wait in session order (R375, R378 to R381). -/
def execSluicePacket (p : Fin 2) (src : Peer) (bytes : List Byte) : State → Host.Outcome State Fault Refusal :=
  run fun s => packetIn p.val src bytes s

/-- FAST_PATH_PACKET: a packet of the fast path is carried out ahead of every ordinary one (R389 to R391). -/
def execFastPathPacket (p : Fin 2) (src : Peer) (bytes : List Byte) : State → Host.Outcome State Fault Refusal :=
  run fun s => packetIn p.val src bytes s

/-! ### Replies (R378, R381, R382) -/

/-- The oldest packet's commands have all completed: its reply is sent and cached, again to every repeat that waited. -/
def replyOut (n : Nat) (x : Session) (k : Pkt) (rest : List Pkt) (s : State) : State :=
  let bytes := replyBytes x n k.seq false 0 k.done
  let all := x.cache ++ [(k.seq, bytes)]
  let s := setSes n { x with packets := rest, cache := all.drop (all.length - 4) } s
  each k.dups (fun (p, dst) s => countDup k.done.length (sendReply p dst bytes s)) (sendReply k.port k.src bytes s)

/-- SLUICE_REPLY: the reply of the oldest packet whose commands have completed; a session that executed SESSION_CLOSE
closes after it. -/
def execSluiceReply (ses : Nat) : State → Host.Outcome State Fault Refusal := run fun s =>
  let x := Machine.ses s ses
  match x.packets with
  | [] =>
    let s := if x.kind = .free then s else setSes ses { x with loose := [] } s
    if x.closing then closeSession ses false s else s
  | k :: rest =>
    if k.cmds ≠ [] then s
    else
      let s := replyOut ses x k rest s
      if x.closing ∧ rest = [] then closeSession ses false s else s

/-! ### Openings (R379, R384, R435 to R437) -/

/-- The identifier of a root key (R433). -/
def keyId (ecdsa lms : List Byte) : List Byte := (sha384 (ecdsa ++ lms)).take 16

/-- The installed, unrevoked root slot with a key identifier. -/
def rootOf (s : State) (issuer : List Byte) : Option Nat :=
  (List.range 8).find? fun i =>
    rootInstalled s i && !rootRevoked s i && decide (keyId (otpBytes s (rootAt i) 96) (otpBytes s (rootAt i + 96) 60) = issuer)

/-- Both signatures of a message, under an ECDSA and an HSS key of the types of R437. -/
def bothVerify (ecdsa lms msg sigE sigL : List Byte) : Bool :=
  hssKeyOk lms && Config.ecdsaVerify ecdsa (sha384 msg) sigE && Config.lmsVerify lms msg sigL

/-- The context that a proof signs (R436). -/
def openContext (s : State) (params : List Byte) : List Byte :=
  ("LOSUFER-OPEN".toList.map fun c => BitVec.ofNat 8 c.toNat) ++ slice 4 97 params ++ openNonce params ++ otpBytes s 0 36

/-- The root slot that admits a SESSION_OPEN; none where R437 refuses it. -/
def certRoot (s : State) (params : List Byte) : Option Nat :=
  let c := params.drop 136
  let len1 := leAt c 0x138 4
  let proof := c.drop (0x13C + len1)
  let len2 := leAt proof 96 4
  let subjE := slice 0x18 96 c
  let subjL := slice 0x78 60 c
  let scope := slice 0xC8 8 c
  let finger := fingerprint s
  if leAt c 0 2 = 1 ∧ leAt c 2 1 = 2 ∧ leAt c 4 4 = 32 ∧ c.length = 0x13C + len1 + 100 + len2 then
    match rootOf s (slice 8 16 c) with
    | none => none
    | some i =>
      let ok := bothVerify (otpBytes s (rootAt i) 96) (otpBytes s (rootAt i + 96) 60) (c.take 0xD8) (slice 0xD8 96 c)
        (slice 0x13C len1 c)
      if ok && (decide (scope = zeros 8) || decide (scope = finger))
          && bothVerify subjE subjL (openContext s params) (proof.take 96) (slice 100 len2 proof) then some i
      else none
  else none

/-- The lowest session number that is free (R379). -/
def freeSession (s : State) : Option Nat := ((List.range 64).map (· + 1)).find? fun n => decide ((ses s n).kind = .free)

/-- The keepalive time in effect, in seconds (R396). -/
def keepaliveS (s : State) : Nat := Nat.max 1 (cfgF s 0xC0000 16 8)

/-- Device-time seconds now, [31:0]. -/
def secondsNow (s : State) : Nat := now s / second % 2 ^ 32

/-- A session opens under R379 and R380. -/
def openSession (o : Opening) (n slot : Nat) (s : State) : State :=
  let k := s.cnt.draws
  let s := { s with cnt := { s.cnt with draws := k + 1 } }
  let (nonce, s) := draw 32 s
  let keys := padTo 64 (Config.sessionKeys (slice 4 97 o.params) k (openNonce o.params ++ nonce) n)
  let body := le 2 n ++ le 2 (keepaliveS s) ++ (padTo 97 (Config.ephemeralKey k)).take 97 ++ zeros 3 ++ nonce
  let reply := body ++ (padTo 96 (Config.ecdsaSign (sha384 (o.params ++ body)))).take 96
  let x : Session := { kind := .active, rootSlot := slot, kaStart := s.cnt.ticks, lastPort := o.port, opened := secondsNow s,
                       keyHD := keys.take 32, keyDH := slice 32 32 keys, hostNonce := openNonce o.params, openReply := reply }
  openAnswer o stOK reply (raiseFrom n 0xC0040 0 (setSes n x s))

/-- What SESSION_OPEN answers (R379, R428, R441): the refusals, then the opening. -/
def openDecide (o : Opening) (s : State) : State :=
  if o.params.length ≠ 136 + leAt o.params 0 2 then openAnswer o stBadLength [] s
  else match sameOpen s o.params with
    | some (_, x) => countDup 1 (sendReply o.port o.src (zeroReply o 1 stOK x.openReply) s)
    | none =>
      if lifecycle s = 0 ∨ lifecycle s = 3 then openAnswer o stState [] s
      else match certRoot s o.params with
        | none => openAnswer o stAuth [] s
        | some slot =>
          match freeSession s with
          | none => openAnswer o stCapacity [] s
          | some n => if s.sec.rngOk then openSession o n slot s else openAnswer o stBusy [] s

/-- The oldest opening of a kind is taken up. -/
def takeOpening (boot : Bool) (f : Opening → State → State) (s : State) : State :=
  match s.slc.openings.find? (·.boot = boot) with
  | none => s
  | some o => f o { s with slc := { s.slc with openings := s.slc.openings.erase o } }

/-- SESSION_OPEN: the oldest opening with a certificate is answered. -/
def execSessionOpen : State → Host.Outcome State Fault Refusal := run fun s => takeOpening false openDecide s

/-- What a bootstrap opening answers (R384). -/
def bootDecide (o : Opening) (s : State) : State :=
  if o.params ≠ [] then openAnswer o stBadLength [] s
  else if 1 < lifecycle s ∨ ¬ cfgB s 0xC0000 24 then openAnswer o stState [] s
  else if s.slc.sessions.any (fun (_, x) => decide (x.kind = .bootstrap)) then openAnswer o stBusy [] s
  else if !bootTransport o.src then openAnswer o stAuth [] s
  else match freeSession s with
    | none => openAnswer o stCapacity [] s
    | some n =>
      let x : Session := { kind := .bootstrap, kaStart := s.cnt.ticks, lastPort := o.port, opened := secondsNow s }
      openAnswer o stOK (le 2 n ++ le 2 (keepaliveS s)) (raiseFrom n 0xC0040 0 (setSes n x s))

/-- BOOTSTRAP_OPEN: the oldest opening without a certificate is answered. -/
def execBootstrapOpen : State → Host.Outcome State Fault Refusal := run fun s => takeOpening true bootDecide s

/-- The identity certificate (R434, R435). -/
def identityCert (s : State) : List Byte :=
  let maker (off n : Nat) : List Byte := otpBytes s (0x180 + off) n
  le 2 1 ++ le 1 1 ++ zeros 1 ++ le 4 88 ++ maker 0x754 16 ++ devEcdsa s
    ++ devLms s ++ zeros 4 ++ le 4 0x4C534160 ++ otpBytes s 0 36
    ++ (List.range 48).map Config.romDigestByte ++ maker 0 96 ++ maker 0x60 4 ++ maker 0x64 1776

/-- The answer to a request of session 0: BAD_LENGTH with parameters, or where the reply exceeds L_R (R377, R435). -/
def identityZero (o : Opening) (s : State) : State :=
  let ok := decide (o.params = [] ∧ 24 + 8 + 2148 ≤ maxFrame (cfg s) o.port - 70)
  let st := if ok then stOK else stBadLength
  countCmd st (sendReply o.port o.src (zeroReply o 5 st (if ok then identityCert s else [])) s)

/-- IDENTITY_GET (R379, R435): the oldest request of session 0, or a command of a session. -/
def execIdentityGet (ses : Nat) : State → Host.Outcome State Fault Refusal := run fun s =>
  if ses = 0 then
    match s.slc.idReqs with
    | [] => s
    | o :: rest => identityZero o { s with slc := { s.slc with idReqs := rest } }
  else hostCmd ses 0x0005 true true 2148 (fun s => answer ses 0x0005 stOK (identityCert s) s) s

/-! ### Session commands (R382, R388) -/

/-- SESSION_CLOSE: the session closes when its reply has been sent (R382). -/
def execSessionClose (ses : Nat) : State → Host.Outcome State Fault Refusal := run fun s =>
  hostCmd ses 0x0002 true true 0 (fun s => answer ses 0x0002 stOK [] (closeAfter ses s)) s

/-- KEEPALIVE: device time; the timer restarts (R382, R388). -/
def execKeepalive (ses : Nat) : State → Host.Outcome State Fault Refusal := run fun s =>
  hostCmd ses 0x0003 true true 16 (fun s =>
    answer ses 0x0003 stOK (stampTqb s) (setSes ses { Machine.ses s ses with kaStart := s.cnt.ticks } s)) s

/-- The reply data of SESSION_INFO (R388). -/
def sessionInfo (s : State) (n : Nat) : List Byte :=
  let x := ses s n
  le 2 n ++ le 1 (sesCode x.kind) ++ le 1 (b2n (decide (s.slc.lease = some n))) ++ le 4 x.h ++ le 4 x.f
    ++ le 4 (keepaliveLeft s n / 500000)

/-- SESSION_INFO (R388). -/
def execSessionInfo (ses : Nat) : State → Host.Outcome State Fault Refusal := run fun s =>
  hostCmd ses 0x0004 true true 16 (fun s => answer ses 0x0004 stOK (sessionInfo s ses) s) s

/-- KEEPALIVE_EXPIRY: KEEPALIVE_S have passed and the session closes (R382). One whose life-cycle advance runs stays until
the reset. -/
def execKeepaliveExpiry (ses : Nat) : State → Host.Outcome State Fault Refusal := run fun s =>
  match (Machine.ses s ses).wait with
  | some (.lifecycle _) => s
  | _ => if keepaliveLeft s ses = 0 then closeSession ses true s else s

/-! ### The lease (R385) -/

/-- LEASE_TAKE. -/
def execLeaseTake (ses : Nat) : State → Host.Outcome State Fault Refusal := run fun s =>
  hostCmd ses 0x0010 false true 0 (fun s =>
    match s.slc.lease with
    | none => answer ses 0x0010 stOK [] (leaseTo ses (some ses) s)
    | some n => answer ses 0x0010 (if n = ses then stOK else stBusy) [] s) s

/-- LEASE_HANDOVER: the shadows are kept. -/
def execLeaseHandover (ses target : Nat) : State → Host.Outcome State Fault Refusal := run fun s =>
  hostCmd ses 0x0011 false true 0 (needLease ses 0x0011 fun s =>
    if (Machine.ses s target).kind = .active then answer ses 0x0011 stOK [] (leaseTo ses (some target) s)
    else answer ses 0x0011 stState [] s) s

/-- LEASE_RELEASE (R41). -/
def execLeaseRelease (ses : Nat) : State → Host.Outcome State Fault Refusal := run fun s =>
  hostCmd ses 0x0012 false true 0 (needLease ses 0x0012 fun s => answer ses 0x0012 stOK [] (leaseLost ses s)) s

end Sys2Proof.Machine
end

