-- ==== Sys2Proof/Machine/Rx.lean ====
section
/-!
DEFINITION. Received frames (R340 to R344, R374): what the MAC drops, which ingress buffer takes a frame, and the handlers.
-/

namespace Sys2Proof.Machine

/-- A frame to the Sluice UDP port, or one with the Sluice EtherType (R373, R374). -/
def isSluice (s : State) (f : RxFrame) : Bool :=
  decide (f.kind = .sluice ∨ f.kind = .sluiceFast) && (f.peer.rawEth || decide (f.peer.udpPort = sluicePort s))

/-- The frame passes R340 and R341: its address, FCS, length, tags, fragmentation, checksum and VLAN. -/
def rxPasses (s : State) (p : Nat) (f : RxFrame) : Bool :=
  let vlan := cfgB s (ethA p 0) 4
  f.toMe && !f.badFcs && decide (f.len ≤ maxFrame (cfg s) p) && decide (f.tags ≤ 1) && !f.fragment && !f.badSum &&
    (if vlan then decide (f.tags = 1 ∧ f.vid = cfgF s (ethA p 0) 8 12) else decide (f.tags = 0 ∨ f.vid = 0))

/-- A frame is dropped and counted (R340, R341, R344). -/
def rxDrop (p : Nat) (s : State) : State := addCnt64 (ethA p 0xB0) 1 s

/-- A next hop that is awaited, or known, is at a MAC address; the cache holds 1,024 entries (R343). -/
def learn (p ip mac : Nat) (s : State) : State :=
  let x := port s p
  let known := x.cache.any fun e => decide (e.1 = ip)
  if known ∨ ip ∈ x.want then
    let rest := x.cache.filter fun e => decide (e.1 ≠ ip)
    let rest := if 1024 ≤ rest.length then rest.drop 1 else rest
    setPort p { x with cache := rest ++ [(ip, mac)], want := x.want.filter (· ≠ ip) } s
  else s

/-- A big-endian field of a frame. -/
def beAt (l : List Byte) (off n : Nat) : Nat := ofLe (slice off n l).reverse

/-- A class-A frame of the port's own. -/
def sendOwn (p : Nat) (kind : FrameKind) (dst : Nat) (bytes : List Byte) (s : State) : State :=
  let x := port s p
  setPort p { x with classA := x.classA ++ [{ kind := kind, dst := dst, bytes := bytes }] } s

/-- An IPv6 address of the port: the link-local one where it is in use, or the global one (R342). -/
def ownIp6 (s : State) (p a : Nat) : Bool :=
  let x := port s p
  (x.linkLocalOk && decide (a = ownLinkLocal s p)) || (x.ip6Valid && decide (a = x.ip6))

/-- An ARP frame: the sender is learnt, and a request for the port's own address is answered (R342, R343). -/
def rxArp (p : Nat) (f : RxFrame) (s : State) : State :=
  let s := learn p f.nextHop f.mac s
  let x := port s p
  if beAt f.bytes 6 2 = 1 ∧ x.ip4Valid ∧ beAt f.bytes 24 4 = x.ip4 then sendOwn p .arp f.nextHop [] s else s

/-- A neighbour solicitation for an own address is answered; an advertisement is learnt (R342, R343). -/
def rxNdp (p : Nat) (f : RxFrame) (s : State) : State :=
  let s := learn p f.nextHop f.mac s
  if beAt f.bytes 0 1 = 135 ∧ ownIp6 s p (beAt f.bytes 8 16) then sendOwn p .ndp f.nextHop [] s else s

/-- An echo request to an own address is answered, at most 100 times in a second (R342). -/
def rxEcho (p : Nat) (f : RxFrame) (s : State) : State :=
  let x := port s p
  let x := if x.echoStart + 500000000 ≤ s.cnt.ticks then { x with echoes := 0, echoStart := s.cnt.ticks } else x
  if f.peer.toMine ∧ x.echoes < 100 then sendOwn p .icmp f.peer.addr f.bytes (setPort p { x with echoes := x.echoes + 1 } s)
  else setPort p x s

/-- A frame reaches its handler. PTP messages and DHCP leases have commands of their own, which carry what they say; a
frame for which the device has no handler is dropped (R340, R373). -/
def rxHandle (p : Nat) (f : RxFrame) (s : State) : State :=
  if isSluice s f then packetIn p f.peer f.bytes s
  else match f.kind with
    | .arp => rxArp p f s
    | .ndp => rxNdp p f s
    | .icmpEcho => rxEcho p f s
    | .ptp => rill (158 + 12 * p) 1 s
    | .dhcp => s
    | .pfc => s
    | .sluice => rxDrop p s
    | .sluiceFast => rxDrop p s
    | .other => rxDrop p s

/-- Bytes of the reserved queue and of the bulk ingress buffer, and the level above which XOFF is sent (R344, R374). -/
abbrev resvBytes := 65536
abbrev bulkBytes := 262144
abbrev xoffBytes := 196608

/-- A frame for the reserved queue (R374). -/
def rxReserved (p : Nat) (f : RxFrame) (s : State) : State :=
  let x := port s p
  let mine := isSluice s f
  if resvBytes < x.resv + f.len then
    if mine then raiseFrom p 0xC0040 4 (addHold (0xC0054 + 8 * p) 1 s) else rxDrop p s
  else
    let s := setPort p { x with resv := x.resv + f.len } s
    let s := if mine then addCnt (0xC0050 + 8 * p) 1 s else s
    rxHandle p f (rill (157 + 12 * p) 1 (addCnt64 (ethA p 0xA8) 1 s))

/-- A frame for the bulk ingress buffer (R344). -/
def rxBulk (p : Nat) (f : RxFrame) (s : State) : State :=
  let x := port s p
  if bulkBytes < x.bulk + f.len then raise (ethA p 0x80) 6 (rxDrop p s)
  else
    let level := x.bulk + f.len
    let s := setPort p { x with bulk := level } s
    let s := if xoffBytes < level ∧ ¬ x.xoff ∧ cfgF s (ethA p 0x14) 8 7 ≠ 0 then pfcSend p true s else s
    rxHandle p f (rill (156 + 12 * p) 1 (addCnt64 (ethA p 0xA8) 1 s))

/-- A PFC frame pauses the priorities of PFC_RX that it names; priority 7 is never among them (R344, R374). -/
def rxPause (p : Nat) (f : RxFrame) (s : State) : State :=
  let x := port s p
  let mask := cfgF s (ethA p 0x14) 0 7
  let set := (f.pause.filter fun k => decide (k < 7) && mask.testBit k).foldl setBit 0
  setPort p { x with paused := x.paused ||| BitVec.ofNat 8 set } (addCnt64 (ethA p 0xA8) 1 s)

/-- ETH_FRAME_RX: a frame ends on a port whose link is up (R340, R341, R344, R373, R374). -/
def execEthFrameRx (port' : Fin 2) (f : RxFrame) : State → Host.Outcome State Fault Refusal := run fun s =>
  let p := port'.val
  if !(decide (s.boot = .up) && (port s p).up) then s
  else if !rxPasses s p f then rxDrop p s
  else if f.kind = .pfc then rxPause p f s
  else if isSluice s f ∨ (f.tags = 1 ∧ f.pcp = 7) then rxReserved p f s
  else rxBulk p f s

end Sys2Proof.Machine
end

