-- ==== Sys2Proof/Machine/Boot.lean ====
section
/-!
DEFINITION. Reset, boot and READY (R72, R77, R87, R304, R311, R412, R442 to R449), and the programming of the OTP (R424).
-/

namespace Sys2Proof.Machine

/-! ### Reset (R443, R444) -/

/-- The machine in reset: everything the wipe reaches is at its reset value. The OTP, the AON flip-flops, the levels of
the input pins and the model's own counts stay. -/
def wiped (s : State) : State :=
  { State.reset with
    pending := s.pending,
    cnt := { free := s.cnt.free, draws := s.cnt.draws },
    pins := { resetN := s.pins.resetN, haltN := s.pins.haltN },
    sec := { otp := s.sec.otp },
    lgr := { wearPend := s.lgr.wearPend, lifeMin := s.lgr.lifeMin, stressRun := s.lgr.stressRun, minuteMax := s.lgr.minuteMax },
    pwr := { log := s.pwr.log, logNext := s.pwr.logNext, windowNo := s.pwr.windowNo, cause := s.pwr.cause,
             causeRails := s.pwr.causeRails, over100 := s.pwr.over100 } }

/-- A window that is open at a reset has RESET in its log entry, and no end stamp (R77). -/
def logCut (s : State) : State :=
  match s.pwr.window with
  | none => s
  | some _ => setLog (lastLog s) { logEntry s (lastLog s) with flags := (logEntry s (lastLog s)).flags ||| 8 } s

/-- The device enters reset with a cause (R77, R88). -/
def resetWith (cause : Nat) (rails : BitVec 9) (s : State) : State :=
  let s := logCut s
  wiped { s with pwr := { s.pwr with cause := cause, causeRails := rails } }

/-- A power-on reset clears the AON records (R77, R444). -/
def powerOn (s : State) : State :=
  wiped { s with pwr := {}, lgr := {} }

/-- RESET_N_ASSERT: a device already in reset stays there (R72). -/
def execResetNAssert : State → Host.Outcome State Fault Refusal := runBoot fun s =>
  let s := { s with pins := { s.pins with resetN := false } }
  if s.boot = .held then s else resetWith 2 0 s

/-- RESET_MONITOR_TRIP: rails below their reset threshold; VDD_IO among them makes it a power-on reset (R77). -/
def execResetMonitorTrip (rails : BitVec 9) : State → Host.Outcome State Fault Refusal := runBoot fun s =>
  if rails.getLsbD 7 then powerOn s
  else if rails = 0 ∨ s.boot = .held then s
  else resetWith 1 rails s

/-- Some sensor has read 120 °C or more for 1 ms (R87). -/
def tooHot (s : State) : Bool := s.pwr.hotSince.any fun (_, t) => decide (t + msTicks ≤ s.cnt.ticks)

/-- THERMAL_RESET: the cold reset of a sensor that has read 120 °C or more for 1 ms (R87). -/
def execThermalReset : State → Host.Outcome State Fault Refusal := runBoot fun s =>
  if s.boot = .held ∨ !tooHot s then s else resetWith 3 0 s

/-! ### The wear map at boot (R311, R312, R412) -/

/-- The entries that boot applies: those of the OTP whose CHECK holds (R412). One that still waits to be programmed leaves
its resource as the map records it, for its tests to find again (R129, R412). -/
def bootEntries (s : State) : List Nat := wearGoodEntries s

/-- Used entries of the wear map whose CHECK fails. -/
def badEntries (s : State) : Nat := (((List.range (wearUsed s)).map (wearEntry s)).filter fun w => !wearGood w).length

/-- A slice that the wear map retires: the slices left serve the positions in ascending order, without a spare; a second
one makes the converter FAILED and raises its event. Its retirement has cause 6 (R131, R132, R142). -/
def bootSlice (c slice : Nat) (s : State) : State :=
  let x := conv s c
  let retired := x.retired ||| BitVec.ofNat 9 (2 ^ slice)
  let left := (List.range 9).filter fun i => !retired.getLsbD i
  let failed := decide (2 ≤ popcount 9 retired.toNat)
  let s := setHw (cvA c 0x24) (wd (6 + 16 * slice)) s
  let s := setConv c { x with retired := retired, pos := left.take 8, spare := none, failed := failed } s
  if failed && !x.failed then cnvRaise c slice 1 s else s

/-- A delay line that the wear map retires: a channel on it boots on a spare, or is FAILED (R153, R154). -/
def bootLine (line : Nat) (s : State) : State :=
  let s := { s with tiu := { s.tiu with retired := s.tiu.retired ||| BitVec.ofNat 14 (2 ^ line) } }
  match (List.range 12).find? fun c => decide (lineOf s c = line) with
  | none => s
  | some c =>
    match spareFree s with
    | none => setTiuCh c { tiuCh s c with failed := true } s
    | some k =>
      setTiuCh c { tiuCh s c with line := some (12 + k) } { s with tiu := { s.tiu with spareOf := smIns k c s.tiu.spareOf } }

/-- A Basin row that the wear map retires returns to its spare, or its port has one row less (R192, R411). -/
def bootRow (row : Nat) (s : State) : State :=
  let p := row / 16384
  match nextSpare s with
  | some k => takeSpare row k s
  | none =>
    let top := 16384 * p + usableRows s p - 1
    let s := if row < top then { s with basin := { s.basin with rowMap := smIns row (physRow s top) s.basin.rowMap } }
      else { s with basin := { s.basin with zeroed := s.basin.zeroed ++ [row] } }
    { s with basin := { s.basin with lost := smPut 0 p (rowsLost s p + 1) s.basin.lost } }

/-- An evaluation lane that the wear map retires takes a spare, or the engine is one lane smaller (R231). -/
def bootLane (p : Nat) (s : State) : State :=
  let (lost, used) := (smGet (0, 0) p s.weir.lanes : Nat × Nat)
  let v : Nat × Nat := if used < 2 then (lost, used + 1) else (Nat.min 16 (lost + 1), used)
  { s with weir := { s.weir with lanes := smPut (0, 0) p v s.weir.lanes } }

/-- A core PLL that the wear map retires (R98). -/
def bootCore (b : Bool) (s : State) : State :=
  let s := setPll (if b then 3 else 2) .retired s
  if b then s else { s with clk := { s.clk with coreB := true } }

/-- An entry of the wear map is applied. What it says of DRAM is applied when training ends. -/
def bootApply (w : Nat) (s : State) : State :=
  let i := wearIndex w
  match wearKind w with
  | 1 => bootSlice (i / 16 % 16) (i % 16) s
  | 2 => bootLine (i % 16) s
  | 7 =>
    if 65536 ≤ i % 2 ^ 17 ∧ decide (physRow s (i / 2 ^ 17 % 65536) ≠ i % 2 ^ 17) then
      { s with basin := { s.basin with badSpares := s.basin.badSpares ++ [i % 2 ^ 17 - 65536] } }
    else bootRow (i / 2 ^ 17 % 65536) s
  | 8 => bootCore (decide (i % 2 = 1)) s
  | 9 => bootLane (i % 4) s
  | _ => s

/-- The DRAM generation of a channel: the last that the wear map records (R312). -/
def wearGenOf (s : State) (c : Nat) : Nat :=
  ((bootEntries s).filter fun w => decide (wearKind w = 6 ∧ wearIndex w % 16 = c)).foldl (fun g w => Nat.max g (wearGen w)) 0

/-- A channel that the wear map retires: in its present DRAM generation, or for its PHY (R312). -/
def wearRetires (s : State) (c : Nat) : Bool :=
  (bootEntries s).any fun w =>
    decide (wearKind w = 3 ∧ wearIndex w % 16 = c) && (decide (wearCause w = 3) || decide (wearGen w = wearGenOf s c))

/-- The rows of a channel that the wear map records as repaired, of its present generation (R311). -/
def wearRows (s : State) (kind c : Nat) : List Nat :=
  ((bootEntries s).filter fun w => decide (wearKind w = kind ∧ wearIndex w % 16 = c ∧ wearGen w = wearGenOf s c)).map wearIndex

/-- Repairs of a channel at boot: one row that carries only an sPPR record is repaired for good, the others again softly
(R311). -/
def bootRepairs (c : Nat) (s : State) : State :=
  let rows := (wearRows s 4 c).eraseDups
  let soft := rows.filter fun n => decide (n ∉ wearRows s 5 c)
  let used := rows.foldl (fun v n => setBit v (n / 32 % 4 + 4 * (n / 16 % 2))) 0
  let s := setDch c { dch s c with pprUsed := used, hppr := soft.drop 1 } s
  match soft with
  | [] => s
  | n :: _ =>
    let cause := (((bootEntries s).find? fun w => decide (wearKind w = 4 ∧ wearIndex w = n)).map wearCause).getD 1
    wearAdd 5 cause (wearGenOf s c) n s

/-! ### The release of reset (R72, R427, R441 to R444) -/

/-- Bytes of the OTP that are to read all ones are programmed where some bit does not. -/
def otpFill (a n : Nat) (s : State) : State :=
  if (otpBytes s a n).all (· = 0xFF) then s else otpRequest a (List.replicate n 0xFF) s

/-- A life-cycle step that a reset interrupted is completed: a kill first, else a byte of LC with some bits set (R442). -/
def lifeResume (s : State) : State :=
  if killed s then otpFill 0x42 1 (otpFill 0x100 80 (otpFill 0x44 4 s))
  else each [0x40, 0x41, 0x42] (fun a s =>
    let n := popcount 8 (otpByte s a).toNat
    if 1 ≤ n ∧ n ≤ 4 then otpRequest a [0xFF] s else s) s

/-- RESET_RELEASE: after a thermal reset it waits for every sensor to read below 100 °C (R87). The on-die memories are
wiped, the ROM is measured, the OTP is read and its retirements apply; the PLLs wait for their references to be counted
(R72, R102, R103, R412, R427, R443). -/
def execResetRelease : State → Host.Outcome State Fault Refusal := runBoot fun s =>
  if s.boot ≠ .held ∨ (s.pwr.cause = 3 ∧ s.pwr.over100 ≠ 0) then s
  else
    let s := { s with boot := .booting, pins := { s.pins with resetN := true }, sec := { s.sec with romDone := true } }
    let s := raise 0x10040 10 (setHw 0xE0068 1 s)
    let s := each (List.range (badEntries s)) (fun _ s => wearCountBad s) s
    let s := each (bootEntries s) bootApply (lifeResume s)
    raiseIf (decide (lmsUsed s < 32768 ∧ 32768 - lmsUsed s < cfgF s 0xE0030 0 12)) 0xE0040 3 s

/-! ### Training (R278, R280, R302, R304) -/

/-- What training found of a channel. -/
def foundAt (found : List TrainResult) (c : Nat) : TrainResult :=
  found.getD c { ranks := 0, x8 := false, gb16 := false, rdimm := false, passed := false }

/-- The channels that training reaches: populated and not retired. -/
def present (s : State) (found : List TrainResult) : List Nat :=
  (List.range 9).filter fun c => decide (0 < (foundAt found c).ranks) && !wearRetires s c

/-- Two channels have the same population. -/
def samePop (a b : TrainResult) : Bool :=
  decide (a.ranks = b.ranks) && (a.x8 == b.x8) && (a.gb16 == b.gb16) && (a.rdimm == b.rdimm)

/-- The channels whose population is that of the lowest one; the others are excluded (R278). -/
def uniform (s : State) (found : List TrainResult) : List Nat :=
  match present s found with
  | [] => []
  | c :: l => (c :: l).filter fun k => samePop (foundAt found c) (foundAt found k)

/-- The spare that MEM_SPARE or the population names, where it is there to serve (R280). -/
def bootSpare (s : State) (found : List TrainResult) : Option Nat :=
  let v := 15 - (otpByte s 0x28).toNat % 16
  let all := (List.range 9).all fun c => decide (0 < (foundAt found c).ranks)
  let named := if v = 15 then (if all then some 8 else none) else some v
  named.filter fun c => decide (c ∈ uniform s found)

/-- What a training pass decides (R304): none to train again a grade lower, else the channels that fail and the spare. -/
def trainDecide (s : State) (found : List TrainResult) : Option (List Nat × Option Nat) :=
  let spare := bootSpare s found
  let bad := (uniform s found).filter fun c => !(foundAt found c).passed
  match bad with
  | [] => some ([], spare)
  | [c] =>
    if spare.isSome then some ([c], none)
    else if 0 < s.dram.grade then none else some ([c], none)
  | l => if 0 < s.dram.grade then none else some (l, spare.filter fun c => decide (c ∉ l))

/-- The word of CHMAP that lists some channels. -/
def chmapWord (l : List Nat) : Word := wd (l.zipIdx.foldl (fun v (c, i) => v + c * 16 ^ i) 0)

/-- A discovered reset value: shadow, active and committed image take it (R304, R449). -/
def discovered (a : Nat) (w : Word) (s : State) : State :=
  { s with regs := { s.regs with shadow := imagePut a w s.regs.shadow, active := imagePut a w s.regs.active,
                                 committed := imagePut a w s.regs.committed } }

/-- STATE of a channel after training (R318). -/
def bootCode (s : State) (found : List TrainResult) (bad active : List Nat) (c : Nat) : Nat :=
  if wearRetires s c then 6
  else if (foundAt found c).ranks = 0 then 0
  else if c ∈ bad ∨ c ∉ uniform s found then 3
  else if c ∈ active then 1 else 2

/-- Training has ended with some channels failed and a spare (R278, R280, R304, R310, R311). -/
def trained (found : List TrainResult) (bad : List Nat) (spare : Option Nat) (s : State) : State :=
  let good := (uniform s found).filter fun c => decide (c ∉ bad) && decide (some c ≠ spare)
  let active := good.take 8
  let chans := each (List.range 9) (fun c t =>
    let r := foundAt found c
    let code := bootCode s found bad active c
    let x : DChan := { dch t c with code := code, gen := wearGenOf s c }
    if code = 6 ∨ r.ranks = 0 then setDch c x t
    else setDch c { x with ranks := r.ranks, x8 := r.x8, gb16 := r.gb16, rdimm := r.rdimm } t) s
  let s := { chans with boot := .trained, dram := { chans.dram with
    nActive := active.length, chmap := active, spare := spare.getD 15, grain := 12 } }
  let s := each good bootRepairs (match spare with | some c => bootRepairs c s | none => s)
  let s := each bad (fun c s => raise (memA c 0x40) 0 s) s
  let s := raiseIf (decide (bad ≠ []) || decide (uniform s found ≠ present s found)) 0x80840 1 s
  let s := raiseIf (decide (s.dram.grade < 3)) 0x80840 2 s
  discovered 0x80804 (chmapWord active) (discovered 0x80800 (wd (s.dram.grade + 16 * active.length + 256 * 12)) s)

/-- TRAINING_COMPLETE: a pass over every populated channel has ended (R304). -/
def execTrainingComplete (found : List TrainResult) : State → Host.Outcome State Fault Refusal := runBoot fun s =>
  if s.boot = .booting ∧ [4, 5, 6].all (fun p => decide (pll s p = .inUse)) then
    match trainDecide s found with
    | none => { s with dram := { s.dram with grade := s.dram.grade - 1 } }
    | some (bad, spare) => trained found bad spare s
  else s

/-! ### The DRAM fill (R284, R321, R443) -/

/-- Every trained channel holds zeros and no poison (R308, R443). -/
def fillChannels (s : State) : State :=
  each (List.range 9) (fun c s =>
    let x := dch s c
    if x.code = 0 ∨ x.code = 3 ∨ x.code = 6 then s else setDch c { x with cells := [], poisoned := [], sweep := 0 } s) s

/-- Bytes of the channels that a fill covers. -/
def fillBytes (s : State) : Nat :=
  ((List.range 9).map fun c =>
    let x := dch s c
    if x.code = 0 ∨ x.code = 3 ∨ x.code = 6 then 0 else chanBytes x).sum

/-- The fill after a commit that discards DRAM has ended: group 7 is active, and the new placement is in effect (R46,
R284). -/
def refillEnd (s : State) : State :=
  let image := (smFind 7 s.regs.pend).getD []
  let s := { s with regs := { s.regs with active := groupMerge 7 image s.regs.active, pend := smDel 7 s.regs.pend } }
  let m := cfg s
  let chmap := chmapOf m
  let s := { s with dram := { s.dram with nActive := nActiveOf m, chmap := chmap, grain := clampN 8 16 (fld (m 0x80800) 8 4),
                                          filling := none } }
  let s := each (List.range 9) (fun c s =>
    let x := dch s c
    if x.code = 1 ∨ x.code = 2 then setDch c { x with code := serviceCode s c } s else s) s
  budgetCheck (flightsDone (rnlProtect s))

/-- DRAM_FILL_DONE: the zero-fill of every trained channel has ended (R284, R443). -/
def execDramFillDone (ms : Nat) : State → Host.Outcome State Fault Refusal := runBoot fun s =>
  if s.boot = .trained then
    let s := rnlCount 17 (fillBytes s) (fillChannels s)
    setHw 0xE0068 (wd (3 + 2 ^ 16 * Nat.min 65535 ms)) { s with boot := .filled }
  else if s.boot = .up ∧ s.dram.filling.isSome then
    refillEnd (rnlCount 17 (fillBytes s) (fillChannels (histEmpty s)))
  else s

/-! ### READY (R447 to R449) -/

/-- The ledger epoch: a draw of 64 bits, repeated where it is zero (R402). -/
def epochDraw (s : State) : State :=
  let (l, s) := draw 8 s
  let v := ofLe l
  let (l', s) := if v = 0 then draw 8 s else (l, s)
  let e := if v = 0 then 1 + ofLe l' % (2 ^ 64 - 1) else v
  setCnt64 0xD0000 e { s with lgr := { s.lgr with epoch := e } }

/-- The device is ready to raise READY: the wipe has ended, no condition of R448 holds, a core PLL drives CORE, and no
life-cycle step of R442 is still to be programmed. -/
def readyOk (s : State) : Bool :=
  decide (s.boot = .filled) && !readyBlocked s && decide (s.clk.coreSrc = .pll) && decide (s.sec.otpQueue = [])

/-- READY: the ports start in their reset modes, the ledgers start their epoch, and the reference seal is that of the
configuration in force (R49, R402, R449). -/
def execReady : State → Host.Outcome State Fault Refusal := runBoot fun s =>
  if readyOk s then
    let s := epochDraw { s with boot := .up, pins := { s.pins with ready := true },
                                sealing := { s.sealing with ref := sealOf s.regs.committed } }
    let s := each [0, 1] (fun p s => setPort p { port s p with mode := portMode (cfg s) p, pllAt := s.cnt.ticks } s) s
    powerUpdate s
  else s

/-! ### Output levels (R69) -/

/-- The level of Mn_RESET_n: low until training has released it (R69, R302; DEDUCED: log 216). -/
def memResetN (s : State) : Bool := decide (s.boot = .trained ∨ s.boot = .filled ∨ s.boot = .up)

/-- The level of Mn_CKE of a rank: low until training has raised it, in power-down and in self-refresh (R69, R302;
PRESUMED: log 216). -/
def memCke (s : State) (c r : Nat) : Bool :=
  memResetN s && decide (r < (dch s c).ranks) && !(dch s c).selfRef && decide ((rankSt (dch s c) r).pd = 0)

/-- TDO is driven only while it shifts, which no command of the table does (R69). -/
def tdoDriven (_ : State) : Bool := false

/-- The lanes that a mode of a port uses (R337). -/
def modeLanes (mode : Nat) : Nat :=
  match mode with
  | 1 => 8
  | 2 | 3 => 4
  | 4 | 5 => 2
  | 6 => 1
  | _ => 0

/-- A transmitter of a port is in electrical idle: until READY, and afterwards where its lane is not used (R69). -/
def ethIdle (s : State) (p lane : Nat) : Bool := !s.pins.ready || decide (modeLanes (port s p).mode ≤ lane)

/-! ### The OTP (R424) -/

/-- The bits that programming an object sets: address and bit number. -/
def objectBits (s : State) (o : List (Nat × Byte)) : List (Nat × Nat) :=
  o.flatMap fun (a, b) =>
    ((List.range 8).filter fun i => b.getLsbD i && !(smGet (otpDelivered a) a s.sec.otp).getLsbD i).map fun i => (a, i)

/-- Takes away `n` bits of a list; which ones, no rule says. -/
def loseBits : Nat → List (Nat × Nat) → State → List (Nat × Nat) × State
  | 0, l, s => (l, s)
  | n + 1, l, s =>
    if l = [] then (l, s)
    else
      let (f, s) := freeNext s
      loseBits n (l.eraseIdx (f % l.length)) s

/-- OTP_PROGRAM: the oldest object is programmed and read back; bits that read 0 are counted. Nothing is programmed while
the hold of R85 lasts. After the last object of a life-cycle advance the device resets (R424, R442). -/
def execOtpProgram (failedBits : Nat) : State → Host.Outcome State Fault Refusal := runBoot fun s =>
  if s.boot = .held ∨ otpHeld s then s
  else match s.sec.otpQueue with
    | [] => s
    | o :: rest =>
      let bits := objectBits s o
      let (kept, s) := loseBits failedBits bits s
      let lost := bits.length - kept.length
      let s := each kept (fun (a, i) s => otpSet a (BitVec.ofNat 8 (2 ^ i)) s) { s with sec := { s.sec with otpQueue := rest } }
      let s := if lost = 0 then s else raise 0xE0040 5 (addHold 0xE0064 lost s)
      if rest = [] ∧ s.slc.dropping then resetWith 4 0 s else s

end Sys2Proof.Machine
end

