-- ==== Sys2Proof/Machine/Capture.lean ====
section
/-!
DEFINITION. What leaves the lanes and the channel stage for capture: the channel update with the histories it writes
(R179, R248), and the copy that fills a segment and closes it (R250, R256, R262 to R271).
-/

namespace Sys2Proof.Machine

/-! ### The channel update and its histories -/

/-- The lane samples of a shot by role, from record index −35 on, as the phase engine takes them: 0 before the sample clock
started, and 0 from the failing edge of a lost lane on (R139, R173). -/
def lanesTaken (t : Shot) (lanes : List (List Int)) : List (List Int) :=
  lanes.zipIdx.map fun (l, r) => l.zipIdx.map fun (v, i) =>
    let gone := match smFind r t.lost with | some n => decide (n + 35 ≤ i) | none => false
    if decide (i < t.early) || gone then 0 else v

/-- The header kept in PHS_n_LAST_HDR (R195). -/
def lastHeader (s : State) (p : Nat) : List Byte := (List.range 40).flatMap fun i => wordBytes (hw s (0x40100 + 0x1000 * p + 4 * i))

/-- The 48-byte tap record of a segment (R262). -/
def tapRecord (t : TapSample) : List Byte :=
  le 8 t.index ++ stampBytes t.attr.stamp ++ [t.attr.tqb] ++ zeros 3 ++ le 4 t.attr.flags ++ zeros 4 ++ le 8 t.attr.first ++ le 8 t.attr.last

/-- A tap sample enters the histories of the streams that capture it: at T0 by shot index, elsewhere by INDEX with its
record (R248). -/
def tapHistory (p shot : Nat) (t : TapSample) (s : State) : State :=
  if t.tap = 0 then
    each (List.range 5) (fun k s =>
      histPut (prodKey p 0 k) shot shot (shot + 1) (t.values.flatMap fun v => le 4 (twos 32 (v.getD k 0))) s) s
  else
    let key := prodKey p t.tap 0
    if !histOn s key then s
    else
      let mark : TapMark := { index := t.index, last := t.attr.last, flags := t.attr.flags % 16 }
      let cap := match smFind key s.cis.hist with | some h => h.cap | none => 0
      let s := { s with cis := { s.cis with taps := smIns (8 * p + t.tap) ((mark :: smGet [] (8 * p + t.tap) s.cis.taps).take cap) s.cis.taps } }
      histPut key t.index t.index (t.index + 1) (tapRecord t ++ t.values.flatMap fun v => v.flatMap fun x => le 4 (twos 32 x)) s

/-- What a shot and the tap samples it gave leave in the histories (R248). -/
def shotHistory (p : Nat) (t : Shot) (taps : List TapSample) (s : State) : State :=
  let s := each taps (tapHistory p t.index) s
  if histOn s (headKey p) then
    let head := lastHeader s p
    let mark : ShotMark := { index := t.index, start := t.laneAt, cut := t.cut, flags := leAt head 0x2C 4 % 16 }
    let s := { s with cis := { s.cis with shots := smIns p ((mark :: smGet [] p s.cis.shots).take (histShots (cfg s))) s.cis.shots } }
    histPut (headKey p) t.index t.index (t.index + 1) head s
  else s

/-- CHANNEL_UPDATE: the channel stage takes the oldest shot of the port whose monitor window has closed, with the lane
samples of its group by role from record index −35 on, whether any was overrange, and the errors met in Basin and in the
entries of the port's Pool engine (R179, R192, R210). -/
def execChannelUpdate (port : Fin 4) (lanes : List (List Int)) (ovr : Bool) (errs : List BasinErr) (poolBad : List Nat) :
    State → Host.Outcome State Fault Refusal := run fun s =>
  let x := lch s port
  match x.shots with
  | [] => s
  | t :: ts =>
    if t.window.isSome then s
    else underWords port t.words (fun s =>
      let s := if polSource (cfg s) port = 3 then s else poolPoison port poolBad s
      let waiting := (csc s port).queue.length
      let s := processShot port t (lanesTaken t lanes) ovr errs s
      let s := shotHistory port t ((csc s port).queue.drop waiting) s
      if nbit t.acts 4 then blockClose true port s else s) (setLch port { x with shots := ts } s)

/-! ### What the copy finds (R250, R263, R269, R471) -/

/-- A lane sample as the copy finds it: with the poison of its history word, gone from the history, or never digitised. -/
inductive Found where
  | sample (v : BitVec 14) (bad : Bool)
  | hole
  | missing
  deriving DecidableEq, Repr

/-- What the copy has written: each byte with its poison, the bytes written as zero under R250 and under R263, and bits 0
to 3 of the flags of what it holds. -/
structure Copy where
  data    : List (Byte × Bool) := []
  hole    : Nat := 0
  missing : Nat := 0
  flags   : Nat := 0
  deriving DecidableEq, Repr

/-- One copy after another. -/
def Copy.join (a b : Copy) : Copy :=
  { data := a.data ++ b.data, hole := a.hole + b.hole, missing := a.missing + b.missing, flags := a.flags ||| b.flags }

/-- A copy padded with zeros to a multiple of 64 bytes. -/
def Copy.padded (a : Copy) : Copy :=
  { a with data := a.data ++ List.replicate (roundUp 64 a.data.length - a.data.length) (0, false) }

/-- Zeros in place of history that is gone. -/
def Copy.gone (n : Nat) : Copy := { data := List.replicate n (0, false), hole := n }

/-- Zeros in place of what never was. -/
def Copy.never (n : Nat) : Copy := { data := List.replicate n (0, false), missing := n }

/-- The sixteen samples of a block of a lane: from its ring, or from the lane where the block is not yet complete. -/
def blockFound (lane b : Nat) (s : State) : List Found × State :=
  match smFind lane s.cis.hist with
  | none => (List.replicate 16 .hole, s)
  | some h =>
    let r := laneRun s lane
    let open' := decide ((r.start + r.xs.length) / 16 = b)
    let late (k : Nat) : Found := match laneSlice s lane k 1 with
      | [some v] => if open' then .sample v false else .hole
      | _ => .hole
    let ks := (List.range 16).map (16 * b + ·)
    if ks.any (histHas h 16) then
      let ((l, bad), s) := histGet h b 0 28 s
      ((ks.zip (unpack14 l)).map fun (k, v) => if histHas h 16 k then .sample v bad else late k, s)
    else (ks.map late, s)

/-- The samples of a lane from a lane number on, block by block. -/
def blocksFound (lane : Nat) : Nat → Nat → State → List Found × State
  | 0, _, s => ([], s)
  | n + 1, b, s =>
    let (x, s) := blockFound lane b s
    let (xs, s) := blocksFound lane n (b + 1) s
    (x ++ xs, s)

/-- `n` samples of a lane from lane number `a` on, as a segment may hold them: for lanes none from before the sample clock
started for its fire, and none from its cut on (R250, R263). -/
def samplesFound (g : Seg) (lane : Nat) (a : Int) (n : Nat) (s : State) : List Found × State :=
  let lead := Nat.min n (-a).toNat
  let k := a.toNat
  let (l, s) := blocksFound lane ((k + (n - lead) + 15) / 16 - k / 16) (k / 16) s
  let l := List.replicate lead .hole ++ (slice (k % 16) (n - lead) l)
  (l.zipIdx.map fun (f, i) =>
    let no := a + (i : Nat)
    if !g.watch && decide (no < 16 * g.origin) then .hole
    else match g.cut with
      | some c => if (c : Int) ≤ no then .missing else f
      | none => f, s)

/-- Samples in packed-14 blocks, each with the poison of what it holds (R141, R269). -/
def foundBytes : Nat → List Found → List (Byte × Bool)
  | 0, _ => []
  | k + 1, l =>
    let x := l.take 16
    let bad := x.any fun f => match f with | .sample _ b => b | _ => false
    (pack14 1 (x.map fun f => match f with | .sample v _ => v | _ => 0)).map (fun v => (v, bad)) ++ foundBytes k (l.drop 16)

/-- The bytes that the runs of one kind of zero samples count: ⌈1.75 × n⌉ for each run (R471). `run` is the length of the
run so far. -/
def zeroRuns (kind : Found) : Nat → List Found → Nat
  | run, [] => ceilDiv (7 * run) 4
  | run, f :: fs => if f = kind then zeroRuns kind (run + 1) fs else ceilDiv (7 * run) 4 + zeroRuns kind 0 fs

/-- Samples as a copy. -/
def Copy.ofFound (l : List Found) : Copy :=
  { data := foundBytes (ceilDiv l.length 16) l, hole := zeroRuns .hole 0 l, missing := zeroRuns .missing 0 l }

/-- An entry of a history from an offset as a copy; zeros where it is gone. -/
def entryCopy (key entry off n : Nat) (s : State) : Copy × State :=
  match smFind key s.cis.hist with
  | none => (Copy.gone n, s)
  | some h =>
    if histHas h 1 entry then
      let ((l, bad), s) := histGet h entry off n s
      ({ data := l.map fun v => (v, bad) }, s)
    else (Copy.gone n, s)

/-- Copies made one after another. -/
def copyAll {α : Type} (f : α → State → Copy × State) : List α → State → Copy × State
  | [], s => ({}, s)
  | x :: xs, s =>
    let (a, s) := f x s
    let (b, s) := copyAll f xs s
    (a.join b, s)

/-! ### The data of a segment (R262) -/

/-- The section of one lane of a KIND 0 segment. -/
def laneSection (g : Seg) (lane : Nat) (s : State) : Copy × State :=
  let first : Int := 16 * (g.origin : Nat) + sgn 64 g.tFirst
  let n := g.pre + g.post
  let (l, s) := samplesFound g lane first n s
  let lead := (first % 16).toNat
  let tail := (16 - (lead + n) % 16) % 16
  let c := Copy.ofFound l
  let pad (k : Nat) : List Found := List.replicate k (.sample 0 false)
  let bytes := foundBytes (ceilDiv (lead + n) 16) (pad lead ++ l ++ pad tail)
  ({ c with data := bytes }.padded, s)

/-- The lanes of a KIND 1 segment in role order. -/
def roleLanes (s : State) (g : Seg) : List Nat :=
  let l := lanesOf (cfg s) g.fibre
  if groupMask (cfg s) g.fibre = g.lanes then l else bitsOf 16 g.lanes

/-- The bytes of a value at a segment's tap: 8 for a pair. -/
def valueBytes (s : State) (g : Seg) : Nat := if pairTap (cfg s) g.fibre g.tap then 8 else 4

/-- The record samples of one lane in a shot unit; those that a clock stop left undigitised are zero and uncounted (DESIGN
CHOICE: log 208). -/
def shotLane (g : Seg) (k : ShotMark) (lane : Nat) (s : State) : Copy × State :=
  let here := match k.cut with | some c => Nat.min g.spanLen (c - g.spanFirst) | none => g.spanLen
  let (l, s) := samplesFound g lane ((k.start + g.spanFirst : Nat) : Int) here s
  (Copy.ofFound (l ++ List.replicate (g.spanLen - here) (.sample 0 false)), s)

/-- The bytes of a shot unit of a segment. -/
def unitBytes (g : Seg) : Nat :=
  shotUnitBytes { watch := true, tap := g.tap, raw := nbit g.flags 8, prod := nbit g.flags 9, lanes := g.lanes, prodMask := g.prodMask,
                  first := 0, pre := 0, post := 0, countCh := g.countCh, spanLen := g.spanLen }

/-- The shot unit of a shot index: header, record samples, product values; zeros where the shot was never launched (R262,
R263). -/
def shotUnit (g : Seg) (i : Nat) (s : State) : Copy × State :=
  if (lch s g.fibre).nextIndex ≤ i then (Copy.never (unitBytes g), s)
  else
    let mark := (smGet [] g.fibre s.cis.shots).find? fun k => decide (k.index = i)
    let (head, s) := entryCopy (headKey g.fibre) i 0 160 s
    let (raw, s) := if nbit g.flags 8 then
        copyAll (fun lane s => match mark with
          | some k => shotLane g k lane s
          | none => (Copy.ofFound (List.replicate g.spanLen .hole), s)) (roleLanes s g) s
      else (({} : Copy), s)
    let (vals, s) := if g.tap = 0 ∧ nbit g.flags 9 then
        copyAll (fun code s => entryCopy (prodKey g.fibre 0 code) i (4 * g.firstCh) (4 * g.countCh) s) (bitsOf 5 g.prodMask) s
      else (({} : Copy), s)
    let c := ((head.join raw).join vals).padded
    ({ c with flags := match mark with | some k => k.flags | none => 0 }, s)

/-- The tap unit of a tap sample: its record and the values of the zone (R262). -/
def tapUnit (g : Seg) (k : TapMark) (s : State) : Copy × State :=
  let v := valueBytes s g
  let key := prodKey g.fibre g.tap 0
  let (head, s) := entryCopy key k.index 0 48 s
  let (vals, s) := entryCopy key k.index (48 + v * g.firstCh) (v * g.countCh) s
  ({ (head.join vals).padded with flags := k.flags }, s)

/-- The data of a segment: the sections of its lanes, or its shot units and its tap units. -/
def segData (g : Seg) (s : State) : Copy × State :=
  if !g.watch then copyAll (laneSection g) (bitsOf 16 g.lanes) s
  else
    let first := sgn 64 g.tFirst
    let shots := (List.range (g.pre + g.post)).filterMap fun i => let k := first + (i : Nat); if k < 0 then none else some k.toNat
    let (a, s) := if g.tap = 0 ∨ nbit g.flags 8 then copyAll (shotUnit g) shots s else (({} : Copy), s)
    let inside (k : TapMark) : Bool := decide (first ≤ k.last ∧ (k.last : Int) < first + (g.pre + g.post : Nat))
    let taps := (((smGet [] (8 * g.fibre + g.tap) s.cis.taps).filter inside).reverse).take g.nTap
    let (b, s) := if g.tap ≠ 0 ∧ nbit g.flags 9 then copyAll (tapUnit g) taps s else (({} : Copy), s)
    let left := if g.tap ≠ 0 ∧ nbit g.flags 9 then g.nTap - taps.length else 0
    ((a.join b).join (Copy.never (left * roundUp 64 (48 + g.countCh * valueBytes s g))), s)

/-! ### The close (R256, R263, R264, R266, R268, R269) -/

/-- Whether a raw lane has brought every sample up to a lane number: every converter's notices have come, or the lane
carries no samples, or its indices have restarted since (R256 step 1). -/
def laneBrought (s : State) (g : Seg) (no : Int) (lane : Nat) : Bool :=
  decide (g.origin ≠ s.cnv.origin) || !laneLight s lane ||
    (convsOf (cfg s) lane).all fun c => decide (no ≤ laneNo s (((conv s c).done - s.cnv.base / 32000) * 8 * lps (cfg s)))

/-- Whether every sample that a segment will hold has been brought. -/
def segBrought (s : State) (g : Seg) : Bool :=
  if !g.watch then
    let stop := 16 * (g.origin : Nat) + sgn 64 g.tFirst + (g.pre + g.post : Nat)
    let stop := match g.cut with | some c => min stop (c : Int) | none => stop
    (bitsOf 16 g.lanes).all (laneBrought s g stop)
  else if nbit g.flags 8 then
    let past := sgn 64 g.tFirst + (g.pre + g.post : Nat)
    match (smGet [] g.fibre s.cis.shots).find? fun k => decide ((k.index : Int) < past) with
    | none => true
    | some k =>
      let stop := g.spanFirst + g.spanLen
      (bitsOf 16 g.lanes).all (laneBrought s g ((k.start + Nat.min stop (k.cut.getD stop) : Nat) : Int))
  else true

/-- Bits 0 to 3 of the flags that a KIND 0 segment takes from its samples: SEAL, and DEGRADED for zeros of a foreground
window or a DIRECT lane on eight slices (R12, R134, R135). -/
def laneFlags (s : State) (g : Seg) : Nat :=
  let first : Int := 16 * (g.origin : Nat) + sgn 64 g.tFirst
  let bad (lane : Nat) : Bool := zeroHits s lane first.toNat (first + (g.pre + g.post : Nat)).toNat || eightLate s lane
  if g.watch then 0 else (createFlags s &&& 4) ||| (if (bitsOf 16 g.lanes).any bad then 8 else 0)

/-- Writes the bytes of a segment burst by burst; a burst that holds a poisoned word is stored poisoned (R269). -/
def segWrite : Nat → Nat → List (Byte × Bool) → State → State
  | 0, _, _, s => s
  | n + 1, a, l, s =>
    let x := l.take 64
    segWrite n (a + 64) (l.drop 64) (dramWrite a (x.map (·.1)) (x.any (·.2)) s)

/-- SEGMENT_CLOSE: the windows of the segment have ended and its last history byte is written; the copy reads it all now
(DESIGN CHOICE: log 129), the digest and head block are written, the descriptor is CLOSED and the chain advances (R256,
R263, R264, R266, R269, R471). -/
def execSegmentClose (seg : Nat) : State → Host.Outcome State Fault Refusal := run fun s =>
  match segOf s seg with
  | none => s
  | some g =>
    if decide (g.state = .closed) || windowOpenOn s seg || !segBrought s g || !dramUp s g.base g.len || !dramUp s (slotAt s g.slot) 64 then s
    else
      let r := g.region
      let (c, s) := segData g s
      let room := g.len - 256
      let body := ((unitTable g).map (fun b => (b, false)) ++ c.data).take room
      let body := body ++ List.replicate (room - body.length) (0, false)
      let fl := g.flags ||| c.flags ||| laneFlags s g ||| (if body.any (·.2) then 0x10 else 0) ||| (if 0 < c.hole then 0x40 else 0)
        ||| (if 0 < c.missing then 0x20 else 0)
      let g := { g with flags := fl, missing := g.missing + c.missing, hole := c.hole }
      let digest := sha384 (body.map (·.1) ++ headBlock g [])
      let g := { g with state := .closed, digest := digest, prevId := (region s r).lastSeg, pinned := g.pinned || pinOnClose (cfg s) r,
                        order := (region s r).links + 1 }
      let s := rnlCount 0 c.data.length (segWrite (room / 64) (g.base + 256) body s)
      let s := dramWrite g.base (headBlock g digest) false s
      let s := mapSeg seg (fun _ => g) (writeDesc g s)
      let s := chainAdvance g digest s
      let s := if 0 < c.hole then loss 12 c.hole (raise 0x70040 1 (addCnt64 0x70058 c.hole s)) else s
      let s := raiseIf (nbit fl 5) (cisR r 0xC) 2 s
      let s := if nbit fl 4 then loss 4 1 (raise (cisR r 0xC) 6 s) else s
      autoQueue r seg g.len (checkShort r (raise (cisR r 0xC) 0 s))

end Sys2Proof.Machine
end

