-- ==== Sys2Proof/Machine/Dispatch.lean ====
section
/-!
DEFINITION. What each command does: one arm per constructor of `Instr`, each one call of the command's meaning.
-/

namespace Sys2Proof.Machine

/-- The effect of a command on everything but the queue. -/
def exec (i : Instr) (s : State) : Host.Outcome State Fault Refusal :=
  match i with
  | .sluicePacket port src bytes => Sys2Proof.Machine.execSluicePacket port src bytes s
  | .fastPathPacket port src bytes => Sys2Proof.Machine.execFastPathPacket port src bytes s
  | .sluiceReply ses => Sys2Proof.Machine.execSluiceReply ses s
  | .sessionOpen => Sys2Proof.Machine.execSessionOpen s
  | .bootstrapOpen => Sys2Proof.Machine.execBootstrapOpen s
  | .sessionClose ses => Sys2Proof.Machine.execSessionClose ses s
  | .keepalive ses => Sys2Proof.Machine.execKeepalive ses s
  | .sessionInfo ses => Sys2Proof.Machine.execSessionInfo ses s
  | .identityGet ses => Sys2Proof.Machine.execIdentityGet ses s
  | .keepaliveExpiry ses => Sys2Proof.Machine.execKeepaliveExpiry ses s
  | .leaseTake ses => Sys2Proof.Machine.execLeaseTake ses s
  | .leaseHandover ses target => Sys2Proof.Machine.execLeaseHandover ses target s
  | .leaseRelease ses => Sys2Proof.Machine.execLeaseRelease ses s
  | .regRead ses addr active => Sys2Proof.Machine.execRegRead ses addr active s
  | .regReadBlock ses addr count active => Sys2Proof.Machine.execRegReadBlock ses addr count active s
  | .regWrite ses addr value => Sys2Proof.Machine.execRegWrite ses addr value s
  | .regWriteBlock ses addr values => Sys2Proof.Machine.execRegWriteBlock ses addr values s
  | .stsClear ses addr seq mask => Sys2Proof.Machine.execStsClear ses addr seq mask s
  | .commit ses mask aligned stamp expected => Sys2Proof.Machine.execCommit ses mask aligned stamp expected s
  | .sealQuery ses mask => Sys2Proof.Machine.execSealQuery ses mask s
  | .commitStrobe => Sys2Proof.Machine.execCommitStrobe s
  | .fibreGroupApply port => Sys2Proof.Machine.execFibreGroupApply port s
  | .alignedCommonInstant => Sys2Proof.Machine.execAlignedCommonInstant s
  | .commitHoldEnd => Sys2Proof.Machine.execCommitHoldEnd s
  | .sealScanStart => Sys2Proof.Machine.execSealScanStart s
  | .sealScanComplete => Sys2Proof.Machine.execSealScanComplete s
  | .sealRescan ses => Sys2Proof.Machine.execSealRescan ses s
  | .reloadShadows ses => Sys2Proof.Machine.execReloadShadows ses s
  | .memSpareWrite ses value => Sys2Proof.Machine.execMemSpareWrite ses value s
  | .resetNAssert => Sys2Proof.Machine.execResetNAssert s
  | .resetRelease => Sys2Proof.Machine.execResetRelease s
  | .trainingComplete found => Sys2Proof.Machine.execTrainingComplete found s
  | .dramFillDone ms => Sys2Proof.Machine.execDramFillDone ms s
  | .ready => Sys2Proof.Machine.execReady s
  | .resetMonitorTrip rails => Sys2Proof.Machine.execResetMonitorTrip rails s
  | .windowOpen rail samples => Sys2Proof.Machine.execWindowOpen rail samples s
  | .railJoinsWindow rail samples => Sys2Proof.Machine.execRailJoinsWindow rail samples s
  | .windowClose rails longest => Sys2Proof.Machine.execWindowClose rails longest s
  | .windowQcalDone => Sys2Proof.Machine.execWindowQcalDone s
  | .thermalReading sensor value => Sys2Proof.Machine.execThermalReading sensor value s
  | .thermalReset => Sys2Proof.Machine.execThermalReset s
  | .refCountCheck ref count => Sys2Proof.Machine.execRefCountCheck ref count s
  | .refclkCCrosscheck count => Sys2Proof.Machine.execRefclkCCrosscheck count s
  | .aonTrim hz => Sys2Proof.Machine.execAonTrim hz s
  | .pllLockDetect pll => Sys2Proof.Machine.execPllLockDetect pll s
  | .settleTimerExpiry pll => Sys2Proof.Machine.execSettleTimerExpiry pll s
  | .samplePllUnlock => Sys2Proof.Machine.execSamplePllUnlock s
  | .refclkSLoss => Sys2Proof.Machine.execRefclkSLoss s
  | .sampleClockResume => Sys2Proof.Machine.execSampleClockResume s
  | .timePllUnlock => Sys2Proof.Machine.execTimePllUnlock s
  | .tiuClockReturn => Sys2Proof.Machine.execTiuClockReturn s
  | .backupSteer => Sys2Proof.Machine.execBackupSteer s
  | .corePllUnlock standby => Sys2Proof.Machine.execCorePllUnlock standby s
  | .coreRelockTimeout => Sys2Proof.Machine.execCoreRelockTimeout s
  | .corePllRetry lockedA lockedB => Sys2Proof.Machine.execCorePllRetry lockedA lockedB s
  | .refclkCLoss => Sys2Proof.Machine.execRefclkCLoss s
  | .refclkCReturn => Sys2Proof.Machine.execRefclkCReturn s
  | .memPllUnlock pll => Sys2Proof.Machine.execMemPllUnlock pll s
  | .memPllRelock pll => Sys2Proof.Machine.execMemPllRelock pll s
  | .serdesPllUnlock port => Sys2Proof.Machine.execSerdesPllUnlock port s
  | .ppsInEdge c k => Sys2Proof.Machine.execPpsInEdge c k s
  | .holdoverEntry => Sys2Proof.Machine.execHoldoverEntry s
  | .freerunEntry => Sys2Proof.Machine.execFreerunEntry s
  | .ppsOutPulse => Sys2Proof.Machine.execPpsOutPulse s
  | .ppsOutWidthEnd => Sys2Proof.Machine.execPpsOutWidthEnd s
  | .leapApply => Sys2Proof.Machine.execLeapApply s
  | .ptpMessage port msg => Sys2Proof.Machine.execPtpMessage port msg s
  | .ptpSyncTx => Sys2Proof.Machine.execPtpSyncTx s
  | .timeSet ses stamp atPps => Sys2Proof.Machine.execTimeSet ses stamp atPps s
  | .timeSetTimeout => Sys2Proof.Machine.execTimeSetTimeout s
  | .timeGet ses => Sys2Proof.Machine.execTimeGet ses s
  | .rotationPeriodEnd conv m => Sys2Proof.Machine.execRotationPeriodEnd conv m s
  | .qcal ses => Sys2Proof.Machine.execQcal ses s
  | .qcalStepEnd conv m => Sys2Proof.Machine.execQcalStepEnd conv m s
  | .iscBlockEnd conv stats start spare => Sys2Proof.Machine.execIscBlockEnd conv stats start spare s
  | .fgWindowStart conv => Sys2Proof.Machine.execFgWindowStart conv s
  | .fgWindowEnd conv ms => Sys2Proof.Machine.execFgWindowEnd conv ms s
  | .fgCal ses => Sys2Proof.Machine.execFgCal ses s
  | .launch port => Sys2Proof.Machine.execLaunch port s
  | .slotCodeUpdate port => Sys2Proof.Machine.execSlotCodeUpdate port s
  | .firstLaunch port => Sys2Proof.Machine.execFirstLaunch port s
  | .monitorWindowClose port => Sys2Proof.Machine.execMonitorWindowClose port s
  | .tiuEdgeStamp ch c k rising => Sys2Proof.Machine.execTiuEdgeStamp ch c k rising s
  | .measurementTimeout ctx => Sys2Proof.Machine.execMeasurementTimeout ctx s
  | .tiuRearm ch n1 n2 => Sys2Proof.Machine.execTiuRearm ch n1 n2 s
  | .tiuPeriodicCal ch n1 n2 => Sys2Proof.Machine.execTiuPeriodicCal ch n1 n2 s
  | .spareLineCal line n1 n2 => Sys2Proof.Machine.execSpareLineCal line n1 n2 s
  | .channelUpdate port lanes ovr errs poolBad => Sys2Proof.Machine.execChannelUpdate port lanes ovr errs poolBad s
  | .zeroStrain ses port => Sys2Proof.Machine.execZeroStrain ses port s
  | .reprime ses port => Sys2Proof.Machine.execReprime ses port s
  | .basinScrub row found => Sys2Proof.Machine.execBasinScrub row found s
  | .basinRowRetire row => Sys2Proof.Machine.execBasinRowRetire row s
  | .poolStart ses engine => Sys2Proof.Machine.execPoolStart ses engine s
  | .poolClose ses engine => Sys2Proof.Machine.execPoolClose ses engine s
  | .laneTriggerCondition index xs => Sys2Proof.Machine.execLaneTriggerCondition index xs s
  | .forceTrigger ses units => Sys2Proof.Machine.execForceTrigger ses units s
  | .watchCondition port => Sys2Proof.Machine.execWatchCondition port s
  | .holdoffExpiry u => Sys2Proof.Machine.execHoldoffExpiry u s
  | .postWindowEnd u => Sys2Proof.Machine.execPostWindowEnd u s
  | .allocationAnswer u => Sys2Proof.Machine.execAllocationAnswer u s
  | .trigOutPulseEnd pin => Sys2Proof.Machine.execTrigOutPulseEnd pin s
  | .alarmAck ses => Sys2Proof.Machine.execAlarmAck ses s
  | .alarmPulseEnd => Sys2Proof.Machine.execAlarmPulseEnd s
  | .evalLaneCheck port lane laneOk spareOk => Sys2Proof.Machine.execEvalLaneCheck port lane laneOk spareOk s
  | .segmentClose seg => Sys2Proof.Machine.execSegmentClose seg s
  | .pinSuspensionEnd u => Sys2Proof.Machine.execPinSuspensionEnd u s
  | .segmentReadEnd stream => Sys2Proof.Machine.execSegmentReadEnd stream s
  | .sealTimer => Sys2Proof.Machine.execSealTimer s
  | .sealDeferredStart => Sys2Proof.Machine.execSealDeferredStart s
  | .sealNow ses => Sys2Proof.Machine.execSealNow ses s
  | .arm ses targets atTime => Sys2Proof.Machine.execArm ses targets atTime s
  | .disarm ses targets => Sys2Proof.Machine.execDisarm ses targets s
  | .disarmAll ses => Sys2Proof.Machine.execDisarmAll ses s
  | .acqState ses => Sys2Proof.Machine.execAcqState ses s
  | .watchStatus ses first count => Sys2Proof.Machine.execWatchStatus ses first count s
  | .segQuery ses seg => Sys2Proof.Machine.execSegQuery ses seg s
  | .segPin ses seg => Sys2Proof.Machine.execSegPin ses seg s
  | .segUnpin ses seg => Sys2Proof.Machine.execSegUnpin ses seg s
  | .segRelease ses seg => Sys2Proof.Machine.execSegRelease ses seg s
  | .segRead ses stream seg offset bytes => Sys2Proof.Machine.execSegRead ses stream seg offset bytes s
  | .sealCmd ses now index => Sys2Proof.Machine.execSealCmd ses now index s
  | .haltStreams ses => Sys2Proof.Machine.execHaltStreams ses s
  | .haltStream ses stream => Sys2Proof.Machine.execHaltStream ses stream s
  | .streamResume ses stream => Sys2Proof.Machine.execStreamResume ses stream s
  | .resumeAll ses => Sys2Proof.Machine.execResumeAll ses s
  | .resumeAllBit ses => Sys2Proof.Machine.execResumeAllBit ses s
  | .haltNFall => Sys2Proof.Machine.execHaltNFall s
  | .haltNRise => Sys2Proof.Machine.execHaltNRise s
  | .replay ses stream first count => Sys2Proof.Machine.execReplay ses stream first count s
  | .streamStatus ses first count => Sys2Proof.Machine.execStreamStatus ses first count s
  | .recordCreate stream => Sys2Proof.Machine.execRecordCreate stream s
  | .eventLingerExpiry stream => Sys2Proof.Machine.execEventLingerExpiry stream s
  | .ledgerStreamPeriod stream => Sys2Proof.Machine.execLedgerStreamPeriod stream s
  | .frameTxStart port => Sys2Proof.Machine.execFrameTxStart port s
  | .frameTxEnd port => Sys2Proof.Machine.execFrameTxEnd port s
  | .ethFrameRx port frame => Sys2Proof.Machine.execEthFrameRx port frame s
  | .xonSend port => Sys2Proof.Machine.execXonSend port s
  | .linkUp port => Sys2Proof.Machine.execLinkUp port s
  | .linkFault port => Sys2Proof.Machine.execLinkFault port s
  | .faultClear port => Sys2Proof.Machine.execFaultClear port s
  | .linkHoldExpiry port => Sys2Proof.Machine.execLinkHoldExpiry port s
  | .streamReturn stream => Sys2Proof.Machine.execStreamReturn stream s
  | .dhcpLeaseExpiry port => Sys2Proof.Machine.execDhcpLeaseExpiry port s
  | .dadComplete port addr gw ok => Sys2Proof.Machine.execDadComplete port addr gw ok s
  | .nextHopRetry port => Sys2Proof.Machine.execNextHopRetry port s
  | .channelRequest ch req => Sys2Proof.Machine.execChannelRequest ch req s
  | .writeComplete ch => Sys2Proof.Machine.execWriteComplete ch s
  | .trefwTableClear ch => Sys2Proof.Machine.execTrefwTableClear ch s
  | .refreshDue ch rank => Sys2Proof.Machine.execRefreshDue ch rank s
  | .postponedRefresh ch rank => Sys2Proof.Machine.execPostponedRefresh ch rank s
  | .mprTempRead ch rank status => Sys2Proof.Machine.execMprTempRead ch rank status s
  | .zqcs ch => Sys2Proof.Machine.execZqcs ch s
  | .pageIdleClose ch bank => Sys2Proof.Machine.execPageIdleClose ch bank s
  | .powerDownEntry ch rank => Sys2Proof.Machine.execPowerDownEntry ch rank s
  | .selfRefreshEntry ch => Sys2Proof.Machine.execSelfRefreshEntry ch s
  | .scrubWake ch => Sys2Proof.Machine.execScrubWake ch s
  | .patrolScrubRead ch err => Sys2Proof.Machine.execPatrolScrubRead ch err s
  | .alert ch => Sys2Proof.Machine.execAlert ch s
  | .retrain ses ch => Sys2Proof.Machine.execRetrain ses ch s
  | .retrainComplete ch passed => Sys2Proof.Machine.execRetrainComplete ch passed s
  | .newDram ses ch => Sys2Proof.Machine.execNewDram ses ch s
  | .migrate ses source => Sys2Proof.Machine.execMigrate ses source s
  | .migrationCutover => Sys2Proof.Machine.execMigrationCutover s
  | .runnelDescFetch ch => Sys2Proof.Machine.execRunnelDescFetch ch s
  | .runnelBurst => Sys2Proof.Machine.execRunnelBurst s
  | .runnelDescComplete ch => Sys2Proof.Machine.execRunnelDescComplete ch s
  | .fifoTimeout ch => Sys2Proof.Machine.execFifoTimeout ch s
  | .rnlStart ses ch desc => Sys2Proof.Machine.execRnlStart ses ch desc s
  | .rnlStop ses mask => Sys2Proof.Machine.execRnlStop ses mask s
  | .rnlCmdStop ses mask => Sys2Proof.Machine.execRnlCmdStop ses mask s
  | .runnelStopEffect ch => Sys2Proof.Machine.execRunnelStopEffect ch s
  | .mboxWrite ses ch offset data => Sys2Proof.Machine.execMboxWrite ses ch offset data s
  | .mboxRead ses ch offset bytes => Sys2Proof.Machine.execMboxRead ses ch offset bytes s
  | .reservoirRead ses => Sys2Proof.Machine.execReservoirRead ses s
  | .ledgerSnapshot ses => Sys2Proof.Machine.execLedgerSnapshot ses s
  | .snap ses => Sys2Proof.Machine.execSnap ses s
  | .snapshotComplete => Sys2Proof.Machine.execSnapshotComplete s
  | .ledgerRead ses snap offset bytes => Sys2Proof.Machine.execLedgerRead ses snap offset bytes s
  | .eventFoldTimer addr src => Sys2Proof.Machine.execEventFoldTimer addr src s
  | .wearMapWrite verified => Sys2Proof.Machine.execWearMapWrite verified s
  | .lifeHourBit => Sys2Proof.Machine.execLifeHourBit s
  | .stressMinute => Sys2Proof.Machine.execStressMinute s
  | .attest ses nonce => Sys2Proof.Machine.execAttest ses nonce s
  | .attestTokenRefill => Sys2Proof.Machine.execAttestTokenRefill s
  | .lmsEpochReady => Sys2Proof.Machine.execLmsEpochReady s
  | .noiseTestFail => Sys2Proof.Machine.execNoiseTestFail s
  | .otpProgram failedBits => Sys2Proof.Machine.execOtpProgram failedBits s
  | .rootInstall ses slot ecdsa lms => Sys2Proof.Machine.execRootInstall ses slot ecdsa lms s
  | .rootRevoke ses slot => Sys2Proof.Machine.execRootRevoke ses slot s
  | .gmacKeySet ses slot clear key => Sys2Proof.Machine.execGmacKeySet ses slot clear key s
  | .lifecycleAdvance ses target confirm => Sys2Proof.Machine.execLifecycleAdvance ses target confirm s
  | .echo ses data => Sys2Proof.Machine.execEcho ses data s
  | .inputLedgerNotice conv codes => Sys2Proof.Machine.execInputLedgerNotice conv codes s
  | .launchPulseEnd port => Sys2Proof.Machine.execLaunchPulseEnd port s
  | .armAtTime => Sys2Proof.Machine.execArmAtTime s
  | .poolRawRecordEnd engine samples poolBad => Sys2Proof.Machine.execPoolRawRecordEnd engine samples poolBad s
  | .noiseTestPass => Sys2Proof.Machine.execNoiseTestPass s
  | .alertNHigh ch => Sys2Proof.Machine.execAlertNHigh ch s
  | .pfcPauseExpiry port prio => Sys2Proof.Machine.execPfcPauseExpiry port prio s
  | .dhcpRenewal port addr pre gw => Sys2Proof.Machine.execDhcpRenewal port addr pre gw s
  | .delayReqTx => Sys2Proof.Machine.execDelayReqTx s
  | .announceTx => Sys2Proof.Machine.execAnnounceTx s
  | .sealSpacingEnd => Sys2Proof.Machine.execSealSpacingEnd s

end Sys2Proof.Machine
end

