-- ==== Sys2Proof/Machine/Step.lean ====
section
/-!
DEFINITION. One step: the command at the front of the queue, or one TIU clock period where no command waits.
-/

namespace Sys2Proof.Machine

/-- The machine with the front of the queue taken off, and that command. -/
def takeFront (s : State) : Option (Instr × State) :=
  match s.pending with
  | [] => none
  | c :: cs => some (c, { s with pending := cs })

/-- One step. -/
def step (s : State) : Host.Outcome State Fault Refusal :=
  match takeFront s with
  | none => .next (tick s)
  | some (c, t) => exec c t

/-- The state with the command that a word of the opcode table spells put at the front of the queue. The table gives
no row any bits, so no word spells a command and the state stays as it is. -/
def State.withFetchWord (s : State) (nbits w : Nat) : State :=
  match decodeTableWord nbits w with
  | none => s
  | some c => { s with pending := c :: s.pending }

end Sys2Proof.Machine
end

