-- ==== Sys2Proof/WellFormed.lean ====
section
/-!
DEFINITION. Which commands are well formed: their operands fit the fields and the ranges that the rules give them.
The ranges that a command itself answers with BAD_LENGTH are not narrowed here.
-/

namespace Sys2Proof

/-- A session number of R375, other than the unauthenticated session 0. -/
def sesOk (n : Nat) : Bool := decide (1 ≤ n ∧ n ≤ 64)

/-- A 16-bit field. -/
def u16 (n : Nat) : Bool := decide (n < 2 ^ 16)

/-- A 32-bit field. -/
def u32 (n : Nat) : Bool := decide (n < 2 ^ 32)

/-- A 64-bit field. -/
def u64 (n : Nat) : Bool := decide (n < 2 ^ 64)

/-- A stream that exists (R348). -/
def streamOk (n : Nat) : Bool := decide (n < 4096)

/-- A stamp fits 48 bits of seconds (R104). -/
def stampOk (t : Stamp) : Bool := decide (t < 2 ^ 48 * 1000000000 * 65536)

/-- A stamp, where one is given. -/
def stampOpt : Option Stamp → Bool
  | none => true
  | some t => stampOk t

/-- A lane trigger unit or a watch that exists (R2). -/
def unitIdOk : UnitId → Bool
  | .unit u => decide (u < 8)
  | .watch w => decide (w < 16384)

/-- The operands of a command lie within the fields and ranges that carry them. -/
def Instr.wf : Instr → Bool
  | .sluicePacket _ _ _ => true
  | .fastPathPacket _ _ _ => true
  | .sluiceReply ses => sesOk ses
  | .sessionOpen => true
  | .bootstrapOpen => true
  | .sessionClose ses => sesOk ses
  | .keepalive ses => sesOk ses
  | .sessionInfo ses => sesOk ses
  | .identityGet ses => decide (ses ≤ 64)
  | .keepaliveExpiry ses => sesOk ses
  | .leaseTake ses => sesOk ses
  | .leaseHandover ses target => sesOk ses && u16 target
  | .leaseRelease ses => sesOk ses
  | .regRead ses addr _ => sesOk ses && u32 addr
  | .regReadBlock ses addr count _ => sesOk ses && u32 addr && u16 count
  | .regWrite ses addr _ => sesOk ses && u32 addr
  | .regWriteBlock ses addr values => sesOk ses && u32 addr && u16 values.length
  | .stsClear ses addr _ _ => sesOk ses && u32 addr
  | .commit ses _ _ stamp _ => sesOk ses && stampOpt stamp
  | .sealQuery ses _ => sesOk ses
  | .commitStrobe => true
  | .fibreGroupApply _ => true
  | .alignedCommonInstant => true
  | .commitHoldEnd => true
  | .sealScanStart => true
  | .sealScanComplete => true
  | .sealRescan ses => sesOk ses
  | .reloadShadows ses => sesOk ses
  | .memSpareWrite ses _ => sesOk ses
  | .resetNAssert => true
  | .resetRelease => true
  | .trainingComplete found => decide (found.length ≤ 9)
  | .dramFillDone _ => true
  | .ready => true
  | .resetMonitorTrip _ => true
  | .windowOpen _ _ => true
  | .railJoinsWindow _ _ => true
  | .windowClose rails _ => decide (rails.length ≤ 9)
  | .windowQcalDone => true
  | .thermalReading _ _ => true
  | .thermalReset => true
  | .refCountCheck _ _ => true
  | .refclkCCrosscheck _ => true
  | .aonTrim _ => true
  | .pllLockDetect _ => true
  | .settleTimerExpiry _ => true
  | .samplePllUnlock => true
  | .refclkSLoss => true
  | .sampleClockResume => true
  | .timePllUnlock => true
  | .tiuClockReturn => true
  | .backupSteer => true
  | .corePllUnlock _ => true
  | .coreRelockTimeout => true
  | .corePllRetry _ _ => true
  | .refclkCLoss => true
  | .refclkCReturn => true
  | .memPllUnlock _ => true
  | .memPllRelock _ => true
  | .serdesPllUnlock _ => true
  | .ppsInEdge c k => decide (c < 2 ^ 48) && decide (k < 768)
  | .holdoverEntry => true
  | .freerunEntry => true
  | .ppsOutPulse => true
  | .ppsOutWidthEnd => true
  | .leapApply => true
  | .ptpMessage _ _ => true
  | .ptpSyncTx => true
  | .timeSet ses stamp _ => sesOk ses && stampOk stamp
  | .timeSetTimeout => true
  | .timeGet ses => sesOk ses
  | .rotationPeriodEnd _ _ => true
  | .qcal ses => sesOk ses
  | .qcalStepEnd _ _ => true
  | .iscBlockEnd _ stats _ _ => decide (stats.length ≤ 8)
  | .fgWindowStart _ => true
  | .fgWindowEnd _ ms => decide (ms.length ≤ 9)
  | .fgCal ses => sesOk ses
  | .launch _ => true
  | .slotCodeUpdate _ => true
  | .firstLaunch _ => true
  | .monitorWindowClose _ => true
  | .tiuEdgeStamp _ c k _ => decide (c < 2 ^ 48) && decide (k < 768)
  | .measurementTimeout _ => true
  | .tiuRearm _ _ _ => true
  | .tiuPeriodicCal _ _ _ => true
  | .spareLineCal _ _ _ => true
  | .channelUpdate _ lanes _ _ poolBad => decide (lanes.length ≤ 4) && poolBad.all fun e => decide (e < 65536)
  | .zeroStrain ses _ => sesOk ses
  | .reprime ses _ => sesOk ses
  | .basinScrub row _ => decide (row < 65536 + 4096)
  | .basinRowRetire row => decide (row < 65536)
  | .poolStart ses _ => sesOk ses
  | .poolClose ses _ => sesOk ses
  | .laneTriggerCondition _ xs => xs.all fun e => decide (e.1 < 16 ∧ -8192 ≤ e.2 ∧ e.2 ≤ 8191)
  | .forceTrigger ses _ => sesOk ses
  | .watchCondition _ => true
  | .holdoffExpiry u => unitIdOk u
  | .postWindowEnd u => unitIdOk u
  | .allocationAnswer u => unitIdOk u
  | .trigOutPulseEnd _ => true
  | .alarmAck ses => sesOk ses
  | .alarmPulseEnd => true
  | .evalLaneCheck _ lane _ _ => decide (lane < 18)
  | .segmentClose seg => decide (1 ≤ seg)
  | .pinSuspensionEnd u => unitIdOk u
  | .segmentReadEnd stream => streamOk stream
  | .sealTimer => true
  | .sealDeferredStart => true
  | .sealNow ses => sesOk ses
  | .arm ses _ atTime => sesOk ses && stampOpt atTime
  | .disarm ses _ => sesOk ses
  | .disarmAll ses => sesOk ses
  | .acqState ses => sesOk ses
  | .watchStatus ses first count => sesOk ses && u16 first && u16 count
  | .segQuery ses seg => sesOk ses && u64 seg
  | .segPin ses seg => sesOk ses && u64 seg
  | .segUnpin ses seg => sesOk ses && u64 seg
  | .segRelease ses seg => sesOk ses && u64 seg
  | .segRead ses stream seg offset bytes => sesOk ses && u16 stream && u64 seg && u64 offset && u64 bytes
  | .sealCmd ses _ index => sesOk ses && u16 index
  | .haltStreams ses => sesOk ses
  | .haltStream ses stream => sesOk ses && u16 stream
  | .streamResume ses stream => sesOk ses && u16 stream
  | .resumeAll ses => sesOk ses
  | .resumeAllBit ses => sesOk ses
  | .haltNFall => true
  | .haltNRise => true
  | .replay ses stream first count => sesOk ses && u16 stream && u64 first && u32 count
  | .streamStatus ses first count => sesOk ses && u16 first && u16 count
  | .recordCreate stream => streamOk stream
  | .eventLingerExpiry stream => streamOk stream
  | .ledgerStreamPeriod stream => streamOk stream
  | .frameTxStart _ => true
  | .frameTxEnd _ => true
  | .ethFrameRx _ frame => decide (frame.tags ≤ 2 ∧ frame.pcp < 8 ∧ frame.vid < 4096)
  | .xonSend _ => true
  | .linkUp _ => true
  | .linkFault _ => true
  | .faultClear _ => true
  | .linkHoldExpiry _ => true
  | .streamReturn stream => streamOk stream
  | .dhcpLeaseExpiry _ => true
  | .dadComplete _ _ _ _ => true
  | .nextHopRetry _ => true
  | .channelRequest _ req => decide (req.addr % 64 = 0)
  | .writeComplete _ => true
  | .trefwTableClear _ => true
  | .refreshDue _ _ => true
  | .postponedRefresh _ _ => true
  | .mprTempRead _ _ _ => true
  | .zqcs _ => true
  | .pageIdleClose _ bank => decide (bank < 32)
  | .powerDownEntry _ _ => true
  | .selfRefreshEntry _ => true
  | .scrubWake _ => true
  | .patrolScrubRead _ err => decide (err.length ≤ 72)
  | .alert _ => true
  | .retrain ses _ => sesOk ses
  | .retrainComplete _ _ => true
  | .newDram ses _ => sesOk ses
  | .migrate ses source => sesOk ses && decide (source < 256)
  | .migrationCutover => true
  | .runnelDescFetch _ => true
  | .runnelBurst => true
  | .runnelDescComplete _ => true
  | .fifoTimeout _ => true
  | .rnlStart ses ch desc => sesOk ses && decide (ch < 256) && u64 desc
  | .rnlStop ses _ => sesOk ses
  | .rnlCmdStop ses _ => sesOk ses
  | .runnelStopEffect _ => true
  | .mboxWrite ses ch offset data => sesOk ses && decide (ch < 256) && u16 offset && u16 (data.length + 4)
  | .mboxRead ses ch offset bytes => sesOk ses && decide (ch < 256) && u16 offset && u16 bytes
  | .reservoirRead ses => sesOk ses
  | .ledgerSnapshot ses => sesOk ses
  | .snap ses => sesOk ses
  | .snapshotComplete => true
  | .ledgerRead ses snapNo offset bytes => sesOk ses && u64 snapNo && u32 offset && u16 bytes
  | .eventFoldTimer _ _ => true
  | .wearMapWrite _ => true
  | .lifeHourBit => true
  | .stressMinute => true
  | .attest ses nonce => sesOk ses && decide (nonce.length = 32)
  | .attestTokenRefill => true
  | .lmsEpochReady => true
  | .noiseTestFail => true
  | .otpProgram _ => true
  | .rootInstall ses slot ecdsa lms => sesOk ses && decide (slot < 256) && decide (ecdsa.length = 97) && decide (lms.length = 60)
  | .rootRevoke ses slot => sesOk ses && decide (slot < 256)
  | .gmacKeySet ses slot _ key => sesOk ses && decide (slot < 256) && decide (key.length = 32)
  | .lifecycleAdvance ses target _ => sesOk ses && decide (target < 256)
  | .echo ses data => sesOk ses && decide (data.length ≤ 8192)
  | .inputLedgerNotice _ codes =>
    decide (codes.length ≤ 64) && codes.all fun r =>
      decide (r.length = 8) && r.all fun c => decide (-32768 ≤ c ∧ c ≤ 32767)
  | .launchPulseEnd _ => true
  | .armAtTime => true
  | .poolRawRecordEnd _ _ poolBad => poolBad.all fun e => decide (e < 65536)
  | .noiseTestPass => true
  | .alertNHigh _ => true
  | .pfcPauseExpiry _ _ => true
  | .dhcpRenewal _ _ pre _ => decide (pre ≤ 32)
  | .delayReqTx => true
  | .announceTx => true
  | .sealSpacingEnd => true

end Sys2Proof
end

