-- ==== Sys2Proof/Safety.lean ====
section
/-!
DEFINITION. What counts as a sound state of the block (canonical memories, a device in reset at its reset values), and the
terms in which claims speak of commands: whose turn it is, what was answered, which event was raised.
-/

namespace Sys2Proof.Machine

/-- Every byte memory of the block is in its canonical form: keys strictly rising, no entry equal to what an unlisted
address reads as. -/
def Memory.wf (s : State) : Bool :=
  s.dram.chans.all (fun (_, x) => smWf 0 x.cells) && smWf 0 s.rnl.mbox

/-- While the device is held in reset every register holds its reset value, no session is open, no commit waits, no
stream has anything queued and the outputs of R72 are low. -/
abbrev ResetClean (s : State) : Prop :=
  s.boot = .held →
    s.regs = {} ∧ s.commits = {} ∧ s.slc = {} ∧ s.spt = {} ∧ s.pins.ready = false ∧ s.pins.launch = 0 ∧ s.dram = {}

/-- The command of an opcode may be carried out for a session now: the device is out of reset, it is the session's turn, a
reply with `len` bytes of data fits (R377, R387), and a bootstrap session may use it (`boot`, R388). -/
abbrev HostTurn (s : State) (n op len : Nat) (boot : Bool) : Prop :=
  s.boot ≠ .held ∧ turn s n op = true ∧ fits s n len = true ∧ ((ses s n).kind = .bootstrap → boot = true)

/-- The session's head command got its reply entry: in its packet, after which entries of R387 may follow for commands that
no row carries out; or loose where no packet carried the command (R376, R378). Nothing of the session waits any more. -/
def Replied (n op st : Nat) (data : List Byte) (s t : State) : Prop :=
  let e : Entry := { opcode := op, tag := 0, status := st, data := data }
  (ses t n).wait = none ∧
  match headPkt (ses s n).packets with
  | none => (ses t n).loose = (ses s n).loose ++ [e]
  | some _ => (ses t n).packets = (skipPkts (answerPkts e (ses s n).packets)).1

/-- Nothing of the command ledger of R395 and nothing outside it: a register the ledger of Sluice does not hold. -/
abbrev offLedger (a : Nat) : Prop := ¬ (0xD2400 ≤ a ∧ a < 0xD2420)

/-- A command changed its own session and the command ledger (R395), and nothing else. -/
def OnlyReplies (n : Nat) (s t : State) : Prop :=
  t = { s with slc := { s.slc with sessions := t.slc.sessions }, regs := { s.regs with hw := t.regs.hw } } ∧
  (∀ m, m ≠ n → ses t m = ses s m) ∧ (∀ a, offLedger a → hw t a = hw s a)

/-- Event `e` of the sts register at `a` has been raised once: its bit is set and SEQ has moved on by one (R33). -/
def Raised (a e : Nat) (s t : State) : Prop :=
  bit (hw t a) e = true ∧ fld (hw t a) 24 8 = (fld (hw s a) 24 8 + 1) % 256

/-- What an event changes beside its own sts register: lap counts, folds and the streams that take its entry (R33, R419).
The rest of the state of `t` is that of `u`. -/
def EventOnly (u t : State) : Prop :=
  t = { u with regs := { u.regs with hw := t.regs.hw, laps := t.regs.laps }, folds := t.folds,
               spt := { u.spt with streams := t.spt.streams } }

/-- Every waiting command is well formed. -/
abbrev QueueWf (s : State) : Prop := ∀ c ∈ s.pending, Instr.wf c = true

end Sys2Proof.Machine
end

