-- ==== Sys2Proof/Certificates/Slice0/Obligations.lean ====
section
/-!
DEFINITION. The statements about the block, for the provers.
-/

open Sys2Proof Sys2Proof.Machine

/-- A step carries out the command at the front of the queue (R381). With commands waiting, a step is the effect of the front command on the state with the rest of the queue; with none waiting it is one TIU clock period (a choice of the model, log entry 2), or nothing while the device is held in reset. -/
def Obligations.StepRunsFront : Prop :=
  (∀ (s : State) (c : Instr) (cs : List Instr), s.pending = c :: cs → step s = exec c { s with pending := cs }) ∧
  (∀ s : State, s.pending = [] → step s = .next (tick s)) ∧
  (∀ s : State, s.pending = [] → s.boot = .held → step s = .next s)

/-- Every command of the table answers a next state and leaves the queue as it finds it (R72, R447). For every command and every state there is a next state; no command stops the block, and none takes a waiting command away or adds one. -/
def Obligations.EveryCommandAnswers : Prop :=
  ∀ (c : Instr) (s : State), ∃ t, exec c s = .next t ∧ t.pending = s.pending

/-- While the device is held in reset no command but a reset or its release does anything (R72, R87, R447). In reset every command other than RESET_RELEASE, RESET_N_ASSERT, RESET_MONITOR_TRIP and THERMAL_READING answers the state unchanged; RESET_N_ASSERT then only lowers the pin, and a THERMAL_READING reaches only the sequencer that holds a device in a thermal reset until every sensor is below 100 C (R87). -/
def Obligations.HeldDeviceIgnores : Prop :=
  (∀ (c : Instr) (s : State), s.boot = .held → c ≠ .resetRelease → c ≠ .resetNAssert →
    (∀ rails, c ≠ .resetMonitorTrip rails) → (∀ k v, c ≠ .thermalReading k v) → exec c s = .next s) ∧
  (∀ (s : State) (k : Fin 8) (v : BitVec 16), s.boot = .held → ∃ t, exec (.thermalReading k v) s = .next t ∧
    t = { s with pwr := { s.pwr with over100 := t.pwr.over100, hotSince := t.pwr.hotSince } }) ∧
  (∀ s : State, s.boot = .held → exec .resetNAssert s = .next { s with pins := { s.pins with resetN := false } })

/-- Only the commands of reset and boot move the boot stage (R447, R449). Any command other than those of reset, release, training, the DRAM fill, READY and the programming of an OTP object leaves the boot stage as it is; so nothing else takes the device out of reset or back into it. -/
def Obligations.BootStageMoves : Prop :=
  ∀ (c : Instr) (s t : State), exec c s = .next t → t.boot ≠ s.boot →
    (c = .resetNAssert ∨ c = .resetRelease ∨ (∃ f, c = .trainingComplete f) ∨ (∃ ms, c = .dramFillDone ms) ∨ c = .ready ∨
      (∃ r, c = .resetMonitorTrip r) ∨ c = .thermalReset ∨ ∃ n, c = .otpProgram n)

/-- The machine at power-on (R68, R72, R106, R385, R399, R443). After power-on the device is held in reset: every register reads its reset value, nothing is armed, no session is open and no lease is held, device time is UNSET at zero, the DRAM holds nothing, the pins READY, LAUNCH, PPS_OUT and TRIG_OUT are low, and no command waits. (The value that a register without a stated reset value has is the choice of the model, log entry 1, and no clause rests on one.) -/
def Obligations.ResetState : Prop :=
  State.reset.boot = .held ∧ State.reset.pending = [] ∧
  (∀ a, cfg State.reset a = resetOf a ∧ hw State.reset a = resetOf a ∧ imageGet State.reset.regs.shadow a = resetOf a) ∧
  (∀ p, (lch State.reset p).armed = false) ∧ (∀ u, (unitSt State.reset u).armed = false) ∧
  (∀ n, (ses State.reset n).kind = .free) ∧ State.reset.slc.lease = none ∧
  State.reset.tb.state = .unset ∧ now State.reset = 0 ∧ (∀ c, (dch State.reset c).cells = []) ∧
  State.reset.pins.ready = false ∧ State.reset.pins.launch = 0 ∧ State.reset.pins.ppsOut = false ∧
  State.reset.pins.trigOut = 0

/-- Reset meets both invariants (R443). The machine at power-on has its memories in canonical form and is clean as a device in reset. -/
def Obligations.SoundAtReset : Prop :=
  Memory.wf State.reset = true ∧ ResetClean State.reset

/-- A device in reset stays wiped, whatever is commanded (R72, R443, R447). From every state in which a device held in reset has its registers, commits, sessions, streams, outputs and DRAM at their reset values, every step leads to such a state: no way into reset skips the wipe, and nothing in reset undoes it. -/
def Obligations.ResetCleanKept : Prop :=
  ∀ s t : State, ResetClean s → step s = .next t → ResetClean t

/-- Every step keeps the byte memories in canonical form (R281, R328, R443). From every state whose DRAM channels and mailboxes list their bytes at strictly rising addresses with no zero byte, every step leads to such a state, so that equal contents are equal data. -/
def Obligations.CanonicalMemoryKept : Prop :=
  ∀ s t : State, Memory.wf s = true → step s = .next t → Memory.wf t = true

/-- A reset wipes the device and spares the OTP and the AON records (R77, R87, R443, R444). RESET_N_ASSERT, THERMAL_RESET (once a sensor has read 120 C or more for 1 ms, and not before) and RESET_MONITOR_TRIP take a running device to the power-on state with their own reset cause, except that the waiting commands, the OTP, the pending wear-map writes, the life-meter accrual, the window log and the level of HALT_N stay; a trip of VDD_IO (rail 7) clears the AON records too. An open window has RESET set in its log entry. -/
def Obligations.ResetsWipe : Prop :=
  (∀ s : State, s.boot ≠ .held → ∃ t, exec .resetNAssert s = .next t ∧ t.boot = .held ∧ t.regs = {} ∧ t.slc = {} ∧ t.dram = {} ∧
    t.pwr.cause = 2 ∧ t.sec.otp = s.sec.otp ∧ t.lgr.wearPend = s.lgr.wearPend ∧ t.lgr.lifeMin = s.lgr.lifeMin ∧
    t.pwr.windowNo = s.pwr.windowNo ∧ t.pins.resetN = false ∧ t.pins.haltN = s.pins.haltN ∧ t.pending = s.pending) ∧
  (∀ s : State, s.boot ≠ .held → tooHot s = false → exec .thermalReset s = .next s) ∧
  (∀ s : State, s.boot ≠ .held → tooHot s = true → ∃ t, exec .thermalReset s = .next t ∧ t.boot = .held ∧ t.regs = {} ∧ t.slc = {} ∧ t.dram = {} ∧
    t.pwr.cause = 3 ∧ t.sec.otp = s.sec.otp ∧ t.lgr.wearPend = s.lgr.wearPend ∧ t.pins.resetN = s.pins.resetN) ∧
  (∀ (s : State) (rails : BitVec 9), s.boot ≠ .held → rails ≠ 0 → rails.getLsbD 7 = false →
    ∃ t, exec (.resetMonitorTrip rails) s = .next t ∧ t.boot = .held ∧ t.regs = {} ∧ t.slc = {} ∧ t.dram = {} ∧
      t.pwr.cause = 1 ∧ t.pwr.causeRails = rails ∧ t.sec.otp = s.sec.otp ∧ t.lgr.wearPend = s.lgr.wearPend) ∧
  (∀ (s : State) (rails : BitVec 9), rails.getLsbD 7 = true →
    ∃ t, exec (.resetMonitorTrip rails) s = .next t ∧ t.boot = .held ∧ t.regs = {} ∧ t.pwr = {} ∧ t.lgr = {} ∧ t.sec.otp = s.sec.otp) ∧
  (∀ (s : State) (w : BitVec 9), s.boot ≠ .held → s.pwr.window = some w → ∃ t, exec .resetNAssert s = .next t ∧
    (logEntry t (lastLog s)).flags = (logEntry s (lastLog s)).flags ||| 8 ∧ (logEntry t (lastLog s)).stop = (logEntry s (lastLog s)).stop)

/-- The steps of boot (R87, R284, R304, R402, R424, R427, R443, R449). RESET_RELEASE starts boot, after a thermal reset only once no sensor is at 100 C or more, and completes the measurement of the ROM. TRAINING_COMPLETE with every channel found and passed activates eight channels with channel 8 as the spare, at the grade that training ran at. DRAM_FILL_DONE fills every trained channel with zeros and no poison and counts the milliseconds. READY raises the pin and makes the reference seal that of the committed image. OTP_PROGRAM takes the oldest object off the list and, where no bit fails, programs each of its bits. -/
def Obligations.BootProceeds : Prop :=
  (∀ s : State, s.boot = .held → s.pwr.cause = 3 → s.pwr.over100 ≠ 0 → exec .resetRelease s = .next s) ∧
  (∀ s : State, s.boot = .held → (s.pwr.cause = 3 → s.pwr.over100 = 0) → ∃ t, exec .resetRelease s = .next t ∧ t.boot = .booting ∧ t.pins.resetN = true ∧
    t.sec.romDone = true ∧ Raised 0x10040 10 s t) ∧
  (∀ (s : State) (r : TrainResult), s.boot = .booting → (∀ p ∈ [4, 5, 6], pll s p = .inUse) → 0 < r.ranks → r.passed = true →
    (∀ c < 9, wearRetires s c = false) → (otpByte s 0x28).toNat % 16 = 0 →
    ∃ t, exec (.trainingComplete (List.replicate 9 r)) s = .next t ∧ t.boot = .trained ∧ t.dram.nActive = 8 ∧ t.dram.spare = 8 ∧
      t.dram.chmap = List.range 8 ∧ t.dram.grade = s.dram.grade) ∧
  (∀ (s : State) (ms : Nat), s.boot = .trained → ∃ t, exec (.dramFillDone ms) s = .next t ∧ t.boot = .filled ∧
    hw t 0xE0068 = wd (3 + 2 ^ 16 * Nat.min 65535 ms) ∧
    ∀ c < 9, (dch s c).code ≠ 0 → (dch s c).code ≠ 3 → (dch s c).code ≠ 6 → (dch t c).cells = [] ∧ (dch t c).poisoned = []) ∧
  (∀ s : State, readyOk s = true → ∃ t, exec .ready s = .next t ∧ t.boot = .up ∧ t.pins.ready = true ∧
    t.sealing.ref = sealOf s.regs.committed) ∧
  (∀ (s : State) (o : List (Nat × Byte)) (rest : List (List (Nat × Byte))), s.boot ≠ .held → otpHeld s = false →
    s.sec.otpQueue = o :: rest → s.slc.dropping = false →
    ∃ t, exec (.otpProgram 0) s = .next t ∧ t.sec.otpQueue = rest ∧
      ∀ a i, (a, i) ∈ objectBits s o → ((smGet (otpDelivered a) a t.sec.otp).getLsbD i) = true)

/-- The DRAM channels in service (R285, R286, R287, R294, R295, R296, R298, R307, R308, R309, R314, R315). On an idle channel a read is answered at once with what the burst holds, poison told, and an error that the decoder corrects is delivered corrected and counted; a write stores the bytes its mask names and waits for its completion. WRITE_COMPLETE acknowledges the oldest write, once ALERT_WIN has passed without an alert or the replay that covered it has ended, and not before. REFRESH_DUE issues its REF, closing every row of the rank, or lets it wait; POSTPONED_REFRESH issues all that wait. The temperature status, the calibration owed, idle rows, power-down, self-refresh and the counting tables change as their rows say, each when its time has come. A patrol read without an error changes no data and moves the sweep on, counting a pass at its end. ALERT stops a channel, and the fourth failed replay in a row faults it; ALERT_N_HIGH replays. -/
def Obligations.Dram : Prop :=
  (∀ (s : State) (c : Fin 9) (q : DramReq), s.boot ≠ .held → (dch s c).banks = [] → (dch s c).held = [] → mayIssue s c = true →
    (dch s c).replayTill ≤ s.cnt.ticks → q.addr < chanBytes (dch s c) →
    (q.write = false → q.err = [] → ∃ t, exec (.channelRequest c q) s = .next t ∧ t.dram.answers = s.dram.answers ++
      [{ who := q.who, ch := c, burst := q.addr / 64, write := false, poison := burstBad s c (q.addr / 64),
         data := burstBytes s c (q.addr / 64) }] ∧ (dch t c).cells = (dch s c).cells) ∧
    (∀ (i : Nat) (l : List Nat), q.write = false → burstBad s c (q.addr / 64) = false → q.err ≠ [] →
      rsDecode (dch s c).x8 ((padTo 72 (q.err.take 72)).map (·.toNat)) = some (some i, l) → (∀ v ∈ l, v = 0) →
      ∃ t, exec (.channelRequest c q) s = .next t ∧ t.dram.answers = s.dram.answers ++
        [{ who := q.who, ch := c, burst := q.addr / 64, write := false, poison := false, data := burstBytes s c (q.addr / 64) }] ∧
        cnt64 t (memA c 0x60) = (cnt64 s (memA c 0x60) + 1) % 2 ^ 64 ∧ (dch t c).cells = (dch s c).cells) ∧
    (q.write = false → ∃ t a, exec (.channelRequest c q) s = .next t ∧ t.dram.answers = s.dram.answers ++ [a] ∧
      a.who = q.who ∧ a.ch = c.val ∧ a.burst = q.addr / 64 ∧ a.write = false) ∧
    (q.write = true → q.err = [] → (dch s c).code ≠ 5 → s.dram.phase = 0 → ∃ t, exec (.channelRequest c q) s = .next t ∧
      (dch t c).cells = putCells (64 * (q.addr / 64)) q.data q.mask (dch s c).cells ∧ t.dram.answers = s.dram.answers ∧
      ∃ e, (dch t c).retry = (dch s c).retry ++ [.column (bankOf (dch s c) (q.addr / 64)) e s.cnt.ticks] ∧ e.write = true ∧
        e.who = q.who ∧ e.burst = q.addr / 64)) ∧
  (∀ (s : State) (c : Fin 9) (q : DramReq), chanBytes (dch s c) ≤ q.addr → exec (.channelRequest c q) s = .next s) ∧
  (∀ (s : State) (c : Fin 9) (b tk : Nat) (q : DQ) (rest : List DCmd), s.boot ≠ .held → (dch s c).alerted = false →
    (dch s c).code ≠ 4 → (dch s c).retry = .column b q tk :: rest → q.write = true →
    (tk + alertWin s c ≤ s.cnt.ticks → (dch s c).replayTill ≤ s.cnt.ticks →
      (s.dram.source = c.val → s.dram.phase = 2 ∨ s.dram.phase = 3 →
        (dch s s.dram.target).alerted = false ∧ (dch s s.dram.target).replayTill ≤ s.cnt.ticks) →
      ∃ t, exec (.writeComplete c) s = .next t ∧
        (dch t c).retry = rest ∧ (dch t c).cells = (dch s c).cells ∧ t.dram.answers = s.dram.answers ++
          [{ who := q.who, ch := c, burst := q.burst, write := true, poison := false, data := [] }]) ∧
    (s.cnt.ticks < tk + alertWin s c ∨ s.cnt.ticks < (dch s c).replayTill → exec (.writeComplete c) s = .next s)) ∧
  (∀ (s : State) (c : Fin 9), s.boot ≠ .held → (dch s c).trefwAt ≤ s.cnt.ticks → ∃ t, exec (.trefwTableClear c) s = .next t ∧
    (dch t c).cells = (dch s c).cells ∧ ∀ b, (bankSt (dch t c) b).table = [] ∧ (bankSt (dch t c) b).queue = (bankSt (dch s c) b).queue ∧
      (bankSt (dch t c) b).row = (bankSt (dch s c) b).row) ∧
  (∀ (s : State) (c : Fin 9) (r : Fin 2), s.boot ≠ .held → r.val < (dch s c).ranks → (dch s c).selfRef = false →
    (rankSt (dch s c) r).refAt ≤ s.cnt.ticks →
    (refreshReady s c = true → rankQueue (dch s c) r = [] → ∃ t, exec (.refreshDue c r) s = .next t ∧
      (rankSt (dch t c) r).due = Nat.min 9 ((rankSt (dch s c) r).due + 1) - 1 ∧
      (dch t c).retry = (dch s c).retry ++ [.refresh r s.cnt.ticks] ∧ (∀ b, b / 16 = r → (bankSt (dch t c) b).row = none)) ∧
    (refreshReady s c = false → ∃ t, exec (.refreshDue c r) s = .next t ∧
      (rankSt (dch t c) r).due = Nat.min 9 ((rankSt (dch s c) r).due + 1) ∧ (dch t c).retry = (dch s c).retry)) ∧
  (∀ (s : State) (c : Fin 9) (r : Fin 2), s.boot ≠ .held →
    (rankQueue (dch s c) r = [] → refreshReady s c = true → (dch s c).retry.length + (rankSt (dch s c) r).due ≤ 64 →
      ∃ t, exec (.postponedRefresh c r) s = .next t ∧ (rankSt (dch t c) r).due = 0 ∧
        (dch t c).retry = (dch s c).retry ++ List.replicate (rankSt (dch s c) r).due (.refresh r s.cnt.ticks)) ∧
    (rankQueue (dch s c) r ≠ [] → exec (.postponedRefresh c r) s = .next s)) ∧
  (∀ (s : State) (c : Fin 9) (r : Fin 2) (st : BitVec 2), s.boot ≠ .held → r.val < (dch s c).ranks →
    ((rankSt (dch s c) r).mprAt ≤ s.cnt.ticks → ∃ t, exec (.mprTempRead c r st) s = .next t ∧
      (rankSt (dch t c) r).temp = st.toNat ∧ t.regs = s.regs) ∧
    (rankQueue (dch s c) r = [] →
      (rankSt (dch s c) r).cmdAt + ctrlTicks s (Nat.max 8 (cfgF s (memA c 4) 16 8)) ≤ s.cnt.ticks → ∃ t, exec (.powerDownEntry c r) s = .next t ∧ (rankSt (dch t c) r).pd =
      if (dch s c).banks.any (fun (b, y) => decide (b / 16 = r.val) && y.row.isSome) then 1 else 2)) ∧
  (∀ (s : State) (c : Fin 9) (b : Nat), s.boot ≠ .held →
    ((bankSt (dch s c) b).colAt + ctrlTicks s (Nat.max 16 (cfgF s (memA c 4) 0 10)) ≤ s.cnt.ticks →
      ∃ t, exec (.pageIdleClose c b) s = .next t ∧ (bankSt (dch t c) b) = { bankSt (dch s c) b with row := none }) ∧
    ((dch s c).selfRef = false → (dch s c).zqcsAt ≤ s.cnt.ticks → ∃ t, exec (.zqcs c) s = .next t ∧
      dch t c = { dch s c with zqcs := false, zqcsAt := nextDue s (dch s c).zqcsAt (128 * msTicks) }) ∧
    ((dch s c).selfRef = true → pll s (4 + c.val / 3) = .inUse → (dch s c).wakeAt ≤ s.cnt.ticks → ∃ t, exec (.scrubWake c) s = .next t ∧
      dch t c = { dch s c with selfRef := false, zqcs := false }) ∧
    ((dch s c).selfRef = false → exec (.scrubWake c) s = .next s) ∧
    ((dch s c).code = 1 ∨ (dch s c).code = 2 → cfgF s (memA c 8) 0 16 ≠ 0 → queued (dch s c) = [] → (dch s c).held = [] →
      (dch s c).usedAt + 500 * cfgF s (memA c 8) 0 16 ≤ s.cnt.ticks → ∃ t, exec (.selfRefreshEntry c) s = .next t ∧ (dch t c).selfRef = true ∧ (dch t c).zqcs = true ∧
        (dch t c).cells = (dch s c).cells ∧ (bankSt (dch t c) b).row = none)) ∧
  (∀ (s : State) (c : Fin 9),
    let next := if chanBytes (dch s c) ≤ 64 * ((dch s c).sweep + 1) then 0 else (dch s c).sweep + 1
    s.boot ≠ .held → ((dch s c).code = 1 ∨ (dch s c).code = 2) → pll s (4 + c.val / 3) = .inUse → (dch s c).alerted = false →
    (dch s c).selfRef = false → 0 < (dch s c).ranks → (dch s c).banks = [] → (dch s c).held = [] →
    (dch s c).scrubAt ≤ s.cnt.ticks → burstBad s c (dch s c).sweep = false →
    ∃ t, exec (.patrolScrubRead c []) s = .next t ∧ (dch t c).sweep = next ∧ hw t (memA c 0x9C) = wd next ∧
      (∀ a, smGet 0 a (dch t c).cells = smGet 0 a (dch s c).cells) ∧ (dch t c).poisoned = (dch s c).poisoned ∧
      hw t (memA c 0x98) = hw s (memA c 0x98) + (if next = 0 then 1 else 0)) ∧
  (∀ (s : State) (c : Fin 9), s.boot ≠ .held → ((dch s c).code = 1 ∨ (dch s c).code = 2) → (dch s c).alerted = false →
    ((dch s c).replayTill ≤ s.cnt.ticks → ∃ t, exec (.alert c) s = .next t ∧
      dch t c = { dch s c with alerted := true, fails := 0 }) ∧
    (s.cnt.ticks < (dch s c).replayTill → (dch s c).fails ≠ 3 → ∃ t, exec (.alert c) s = .next t ∧
      dch t c = { dch s c with alerted := true, fails := (dch s c).fails + 1 } ∧
      hw t (memA c 0x80) = wd (Nat.min (2 ^ 32 - 1) ((hw s (memA c 0x80)).toNat + 1))) ∧
    (s.cnt.ticks < (dch s c).replayTill → (dch s c).fails = 3 → s.dram.phase = 0 → ∃ t, exec (.alert c) s = .next t ∧
      (dch t c).code = 4 ∧ (dch t c).alerted = false ∧ Raised (memA c 0x40) 8 s t)) ∧
  (∀ (s : State) (c : Fin 9), s.boot ≠ .held →
    ((dch s c).alerted = true → ∃ t, exec (.alertNHigh c) s = .next t ∧ (dch t c).alerted = false ∧
      (dch t c).replayTill = s.cnt.ticks + alertWin s c ∧ (dch t c).retry.length = (dch s c).retry.length ∧
      (dch t c).cells = (dch s c).cells ∧ cnt64 t (memA c 0x78) = (cnt64 s (memA c 0x78) + 1) % 2 ^ 64 ∧
      Raised (memA c 0x40) 7 s t) ∧
    ((dch s c).alerted = false → exec (.alertNHigh c) s = .next s))

/-- RETRAIN_COMPLETE, MIGRATE and MIGRATION_CUTOVER (R305, R316, R317, R388, R399). A retraining that passed puts the channel back into service; one that failed, and does not follow a relock of its PLL, makes it dead. MIGRATE of the lease holder starts the migration of an active channel onto an available spare, which retrains, and returns STATE otherwise. At the cut-over the active index moves to the spare, and the source is retired. -/
def Obligations.Retraining : Prop :=
  (∀ (s : State) (c : Fin 9), s.boot ≠ .held → (dch s c).code = 7 → s.regs.cmdQueued = [] → s.dram.phase = 0 →
    (∃ t, exec (.retrainComplete c true) s = .next t ∧ (dch t c).code = serviceCode s c ∧ (dch t c).relock = false ∧
      (dch t c).cells = (dch s c).cells ∧ Raised (memA c 0x40) 1 s t) ∧
    ((dch s c).relock = false → ∃ t, exec (.retrainComplete c false) s = .next t ∧ (dch t c).code = 5 ∧
      bit (hw t (memA c 0x40)) 9 = true)) ∧
  (∀ (s : State) (c : Fin 9) (b : Bool), (dch s c).code ≠ 7 → (dch s c).code ≠ 4 →
    exec (.retrainComplete c b) s = .next s) ∧
  (∀ (s : State) (n c : Nat), HostTurn s n 0x0801 0 false → s.slc.lease = some n →
    (spareReady s = true → c ∈ s.dram.chmap.take s.dram.nActive → (dch s c).code = 1 → ∃ t, exec (.migrate n c) s = .next t ∧
      t.dram.phase = 1 ∧ t.dram.source = c ∧ t.dram.target = s.dram.spare ∧ t.dram.ptr = 0 ∧
      (dch t s.dram.spare).code = 7 ∧ (dch t s.dram.spare).selfRef = false ∧ t.dram.chmap = s.dram.chmap ∧
      Replied n 0x0801 stOK [] s t) ∧
    (spareReady s = false ∨ c ∉ s.dram.chmap.take s.dram.nActive → ∃ t, exec (.migrate n c) s = .next t ∧
      Replied n 0x0801 stState [] s t ∧ OnlyReplies n s t)) ∧
  (∀ (s : State) (n c : Nat), HostTurn s n 0x0801 0 false → s.slc.lease ≠ some n → ∃ t, exec (.migrate n c) s = .next t ∧
    Replied n 0x0801 stNotOwner [] s t ∧ OnlyReplies n s t) ∧
  (∀ s : State,
    let c := s.dram.source
    let d := s.dram.target
    s.boot ≠ .held → s.dram.phase = 3 → c ≠ d → (∀ k, k = c ∨ k = d → (dch s k).alerted = false ∧
      (dch s k).replayTill ≤ s.cnt.ticks ∧ ((dch s k).code = 1 ∨ (dch s k).code = 2) ∧ (dch s k).retry = []) →
    ∃ t, exec .migrationCutover s = .next t ∧ t.dram.phase = 0 ∧ t.dram.chmap = s.dram.chmap.map (fun k => if k = c then d else k) ∧
      t.dram.spare = 15 ∧ (dch t d).code = 1 ∧ (dch t c).code = 6 ∧ (dch t d).cells = (dch s d).cells ∧ Raised 0x80840 3 s t) ∧
  (∀ s : State, s.dram.phase ≠ 3 → exec .migrationCutover s = .next s)

/-- OVERLAP of a descriptor (R326). A descriptor that passes ALIGN and ADDR_ERROR is completed with OVERLAP exactly when both sides are incrementing and some byte lies in [SRC, SRC + LEN) and in [DST, DST + LEN); a fixed side is exempt. -/
def Obligations.Overlap : Prop :=
  ∀ (s : State) (c : Nat) (d : Desc), descCheck s c d = 2 ↔
    alignFails d = false ∧
    sideOk s false (decide (24 ≤ c)) d.src d.len (srcWidth d.ctrl) (srcFixed d.ctrl) = true ∧
    sideOk s true (decide (24 ≤ c)) d.dst d.len (dstWidth d.ctrl) (dstFixed d.ctrl) = true ∧
    srcFixed d.ctrl = false ∧ dstFixed d.ctrl = false ∧
    ∃ a, d.src ≤ a ∧ a < d.src + d.len ∧ d.dst ≤ a ∧ a < d.dst + d.len

/-- Descriptors, bursts and stops of Runnel (R320, R321, R323, R324, R329, R332, R333). A channel in FETCH takes its next descriptor: it moves where every check passes, and otherwise completes the descriptor with the first failure and halts. RUNNEL_BURST moves one burst of the channel that arbitration grants, and counts it. A descriptor whose bytes have all moved completes with OK, or with POISONED where a byte was; its chain ends with NEXT 0 and goes on to NEXT otherwise. A source FIFO without a byte for RNL_FIFO_WAIT ends its chain with status 8. A stop that waits takes effect at the burst boundary, with ABORTED. -/
def Obligations.RunnelChannels : Prop :=
  (∀ (s : State) (c : Fin 32), s.boot ≠ .held → (rch s c).state = .fetch → (rch s c).stop = false →
    (2 ^ 39 ≤ (rch s c).cur ∨ dramUp s (rch s c).cur 32 = true) →
    let r := descFetch c (rch s c).cur s
    (r.2.1 = 0 → ∃ t, exec (.runnelDescFetch c) s = .next t ∧ (rch t c).state = .moving ∧ (rch t c).src = r.1.src ∧
      (rch t c).dst = r.1.dst ∧ (rch t c).len = r.1.len ∧ (rch t c).ctrl = r.1.ctrl ∧ (rch t c).next = r.1.next ∧
      (rch t c).moved = 0) ∧
    (r.2.1 ≠ 0 → ∃ t, exec (.runnelDescFetch c) s = .next t ∧ (rch t c).state = .halted ∧ (rch t c).status = r.2.1 ∧
      bit (hw t (rnlA c 0)) 3 = true)) ∧
  (∀ (s : State) (c : Fin 32), (rch s c).state ≠ .fetch ∨ (rch s c).stop = true → exec (.runnelDescFetch c) s = .next s) ∧
  (∀ s : State, rnlGrant s = none → exec .runnelBurst s = .next s) ∧
  (∀ (s : State) (c : Nat) (b : Bool), s.boot ≠ .held → rnlGrant s = some (c, b) → ∃ t, exec .runnelBurst s = .next t ∧
    smGet 31 (rnlPrio s c) t.rnl.last = c ∧ cnt64 t 0x9104C = (cnt64 s 0x9104C + 1) % 2 ^ 64 ∧
    (24 ≤ c → (rch t c).moved = (rch s c).moved + burstLen s (rch s c) ∧ (rch t c).starved = 0) ∧
    (c = 16 → t.dram.ptr = s.dram.ptr + 64 * Nat.min 4 ((chanBytes (dch s s.dram.target) - s.dram.ptr) / 64))) ∧
  (∀ (s : State) (c : Fin 32), s.boot ≠ .held → (rch s c).state = .moving → (rch s c).len ≤ (rch s c).moved →
    ∃ t, exec (.runnelDescComplete c) s = .next t ∧ (rch t c).status = (if (rch s c).poisoned then 5 else 1) ∧
      ((rch s c).next = 0 → (rch t c).state = .idle ∧ bit (hw t (rnlA c 0)) 1 = true) ∧
      ((rch s c).next ≠ 0 → (rch t c).state = .fetch ∧ (rch t c).cur = (rch s c).next) ∧
      (bit (rch s c).ctrl 9 = false → hw t (rnlA c 0x14) = hw s (rnlA c 0x14) + 1)) ∧
  (∀ (s : State) (c : Fin 32), s.boot ≠ .held → waitsFifo s c = true → fifoWaited s c = true → ∃ t, exec (.fifoTimeout c) s = .next t ∧
    (rch t c).status = 8 ∧ (rch t c).state = .halted ∧ Raised 0x91040 0 s t) ∧
  (∀ (s : State) (c : Fin 32), waitsFifo s c = false ∨ fifoWaited s c = false → exec (.fifoTimeout c) s = .next s) ∧
  (∀ (s : State) (c : Fin 32), s.boot ≠ .held → (rch s c).stop = true → (rch s c).state = .moving ∨ (rch s c).state = .fetch →
    ∃ t, exec (.runnelStopEffect c) s = .next t ∧ (rch t c).state = .idle ∧ (rch t c).status = 6 ∧ (rch t c).stop = false ∧
      bit (hw t (rnlA c 0)) 2 = true) ∧
  (∀ (s : State) (c : Fin 32), (rch s c).stop = false → exec (.runnelStopEffect c) s = .next s)

/-- RNL_START, RNL_STOP, MBOX_WRITE and MBOX_READ (R324, R328, R330, R333, R388). RNL_START of the lease holder fetches and checks the first descriptor of an idle host channel: it starts the channel, or returns OVERLAP or STATE with the status, leaving it IDLE; BUSY where the channel runs. RNL_STOP marks a running channel and ends an idle or halted one at once. MBOX_WRITE stores its bytes in the mailbox, changes no other byte and clears the poison of every word it writes whole; MBOX_READ returns bytes and poison. -/
def Obligations.RunnelCommands : Prop :=
  (∀ (s : State) (n c desc : Nat), HostTurn s n 0x0600 4 false → s.slc.lease = some n → 24 ≤ c → c < 32 →
    ((rch s c).state = .moving ∨ (rch s c).state = .fetch → ∃ t, exec (.rnlStart n c desc) s = .next t ∧
      Replied n 0x0600 stBusy [] s t ∧ OnlyReplies n s t) ∧
    ((rch s c).state = .idle ∨ (rch s c).state = .halted →
      (backed s ≤ desc % 2 ^ 40 ∨ dramUp s (desc % 2 ^ 40) 32 = true) →
      let r := descFetch c (desc % 2 ^ 40) s
      (r.2.1 = 0 → ∃ t, exec (.rnlStart n c desc) s = .next t ∧ Replied n 0x0600 stOK [] s t ∧ (rch t c).state = .moving ∧
        (rch t c).src = r.1.src ∧ (rch t c).dst = r.1.dst ∧ (rch t c).len = r.1.len ∧ (rch t c).moved = 0 ∧ (rch t c).ses = n) ∧
      (r.2.1 = 2 → ∃ t, exec (.rnlStart n c desc) s = .next t ∧ Replied n 0x0600 stOverlap [] s t ∧ (rch t c).state = .idle) ∧
      (r.2.1 ≠ 0 → r.2.1 ≠ 2 → ∃ t, exec (.rnlStart n c desc) s = .next t ∧ Replied n 0x0600 stState (le 4 r.2.1) s t ∧
        (rch t c).state = .idle))) ∧
  (∀ (s : State) (n c desc : Nat), HostTurn s n 0x0600 4 false → s.slc.lease ≠ some n → 24 ≤ c → c < 32 →
    ∃ t, exec (.rnlStart n c desc) s = .next t ∧ Replied n 0x0600 stNotOwner [] s t ∧ OnlyReplies n s t) ∧
  (∀ (s : State) (n : Nat) (mask : BitVec 8), HostTurn s n 0x0601 0 false → s.slc.lease = some n →
    ∃ t, exec (.rnlStop n mask) s = .next t ∧ Replied n 0x0601 stOK [] s t ∧
      ∀ i : Fin 8, mask.getLsbD i = true →
        ((rch s (24 + i)).state = .moving ∨ (rch s (24 + i)).state = .fetch →
          rch t (24 + i) = { rch s (24 + i) with stop := true }) ∧
        ((rch s (24 + i)).state = .idle ∨ (rch s (24 + i)).state = .halted → (rch t (24 + i)).state = .idle)) ∧
  (∀ (s : State) (n c off : Nat) (data : List Byte), HostTurn s n 0x0602 0 false → s.slc.lease = some n → 24 ≤ c → c < 32 →
    off % 8 = 0 → off + data.length ≤ 65536 →
    let base := 0x10000 * (c - 24) + off
    ∃ t, exec (.mboxWrite n c off data) s = .next t ∧ Replied n 0x0602 stOK [] s t ∧
      (∀ i < data.length, smGet 0 (base + i) t.rnl.mbox = data.getD i 0) ∧
      (∀ a, a < base ∨ base + data.length ≤ a → smGet 0 a t.rnl.mbox = smGet 0 a s.rnl.mbox) ∧
      (∀ w, base ≤ 8 * w → 8 * w + 8 ≤ base + data.length → w ∉ t.rnl.mboxBad) ∧ t.rnl.chans = s.rnl.chans) ∧
  (∀ (s : State) (n c off bytes : Nat),
    let base := 0x10000 * (c - 24) + off
    HostTurn s n 0x0603 (128 + bytes) false → 24 ≤ c → c < 32 → off % 8 = 0 → 8 ≤ bytes → bytes ≤ 8192 → off + bytes ≤ 65536 →
    ∃ t, exec (.mboxRead n c off bytes) s = .next t ∧
      Replied n 0x0603 stOK (mboxMarks s base bytes ++ (List.range bytes).map (fun i => smGet 0 (base + i) s.rnl.mbox)) s t ∧
      OnlyReplies n s t) ∧
  (∀ (s : State) (n c off bytes : Nat), HostTurn s n 0x0603 (128 + bytes) false → 65536 < off + bytes →
    ∃ t, exec (.mboxRead n c off bytes) s = .next t ∧ Replied n 0x0603 stBadLength [] s t ∧ OnlyReplies n s t)

/-- Snapshots, the inventory, the wear map, the life meter and folded events (R388, R404, R405, R406, R412, R414, R415, R419, R420). RESERVOIR_READ returns the inventory. LEDGER_SNAPSHOT freezes an image into a free buffer and waits, BUSY without one; SNAPSHOT_COMPLETE shows its number, raises SNAPSHOT and answers the command that waits. LEDGER_READ returns bytes of an image that is held, STATE for another. When the millisecond of a register instance is over, the fold timer ends it or sends what was folded in. WEAR_MAP_WRITE programs the oldest entry that waits, once. The life meter takes an hour bit for 1,024 h and a stress bit for 983,040 units, neither while the hold of R85 lasts, which counts a bit that waits once. -/
def Obligations.Ledgers : Prop :=
  (∀ (s : State) (n : Nat), HostTurn s n 0x0800 96 true → ∃ t, exec (.reservoirRead n) s = .next t ∧
    Replied n 0x0800 stOK (reservoirBytes s) s t ∧ OnlyReplies n s t) ∧
  (∀ (s : State) (n : Nat), HostTurn s n 0x0900 28 true →
    (snapRoom s = false → ∃ t, exec (.ledgerSnapshot n) s = .next t ∧ Replied n 0x0900 stBusy [] s t ∧ OnlyReplies n s t) ∧
    (snapRoom s = true → ∃ t, exec (.ledgerSnapshot n) s = .next t ∧ (ses t n).wait = some .snapshot ∧
      t.lgr.snapNo = s.lgr.snapNo + 1 ∧ t.lgr.snaps.head? = some (snapFreeze s) ∧
      t.lgr.snapWait = s.lgr.snapWait ++ [(n, s.lgr.snapNo + 1)] ∧ t.regs = s.regs)) ∧
  (∀ (s : State) (x : Snap), s.boot ≠ .held → s.lgr.snaps.reverse.find? (fun x => !x.complete) = some x →
    ∃ t, exec .snapshotComplete s = .next t ∧ cnt64 t 0xD0048 = x.no % 2 ^ 64 ∧ Raised 0xD0040 0 s t ∧
      (∀ n, s.lgr.snapWait = [(n, x.no)] → (ses s n).wait = some .snapshot → Replied n 0x0900 stOK (snapReply x) s t) ∧
      (s.lgr.snapCmd = none → bit (hw s 0xD0044) 0 = false →
        t.lgr.snaps = s.lgr.snaps.map (fun y => if y.no = x.no then { y with complete := true } else y))) ∧
  (∀ (s : State) (n no off bytes : Nat), HostTurn s n 0x0901 bytes true → 1 ≤ bytes → bytes ≤ 8192 → off + bytes ≤ imageLen →
    (∀ x, snapHeld s no = some x → ∃ t, exec (.ledgerRead n no off bytes) s = .next t ∧
      Replied n 0x0901 stOK (imageBytes x off bytes) s t ∧ OnlyReplies n s t) ∧
    (snapHeld s no = none → ∃ t, exec (.ledgerRead n no off bytes) s = .next t ∧ Replied n 0x0901 stState [] s t ∧
      OnlyReplies n s t)) ∧
  (∀ (s : State) (a src : Nat) (f : Fold), s.boot ≠ .held → smFind (foldKey a src) s.folds = some f →
    (s.cnt.ticks < f.due → exec (.eventFoldTimer a src) s = .next s) ∧
    (f.due ≤ s.cnt.ticks → f.count = 0 → ∃ t, exec (.eventFoldTimer a src) s = .next t ∧
      t = { s with folds := smDel (foldKey a src) s.folds }) ∧
    (f.due ≤ s.cnt.ticks → f.count ≠ 0 → ∃ t, exec (.eventFoldTimer a src) s = .next t ∧
      smFind (foldKey a src) t.folds =
        some { code := 0, stamp := 0, tqb := 0, count := 0, due := s.cnt.ticks + msTicks } ∧ t.regs = s.regs)) ∧
  (∀ (s : State) (w : Nat) (ws : List Nat), s.boot ≠ .held → s.lgr.wearPend = w :: ws →
    (otpHeld s = true → ∀ v, exec (.wearMapWrite v) s = .next s) ∧
    (otpHeld s = false → wearUsed s < 1024 → (∃ t, exec (.wearMapWrite true) s = .next t ∧ t.lgr.wearPend = ws ∧
        (∀ i < 8, otpByte t (0x2000 + 8 * wearUsed s + i) ||| (le 8 w).getD i 0 = otpByte t (0x2000 + 8 * wearUsed s + i)) ∧
        Raised 0xD0040 4 s t) ∧
      (∃ t, exec (.wearMapWrite false) s = .next t ∧ t.lgr.wearPend = w :: ws ∧ Raised 0xD0040 6 s t))) ∧
  (∀ s : State, s.boot ≠ .held →
    (s.lgr.lifeMin < 61440 → exec .lifeHourBit s = .next s) ∧
    (61440 ≤ s.lgr.lifeMin → otpHeld s = true → s.pwr.lifeNoted.getLsbD 0 = true → exec .lifeHourBit s = .next s) ∧
    (61440 ≤ s.lgr.lifeMin → otpHeld s = true → s.pwr.lifeNoted.getLsbD 0 = false → ∃ t, exec .lifeHourBit s = .next t ∧
      t.lgr = s.lgr ∧ t.sec = s.sec ∧ Raised 0xF0040 4 s t) ∧
    (61440 ≤ s.lgr.lifeMin → otpHeld s = false → lifeHours s < 2048 → ∃ t, exec .lifeHourBit s = .next t ∧
      t.lgr = { s.lgr with lifeMin := s.lgr.lifeMin - 61440 } ∧ Raised 0xD0040 8 s t)) ∧
  (∀ s : State,
    let run' := s.lgr.stressRun + stressWeight s.lgr.minuteMax
    let next := nextDue s s.lgr.minuteAt (60 * secTicks)
    s.boot ≠ .held →
    (s.cnt.ticks < s.lgr.minuteAt → exec .stressMinute s = .next s) ∧
    (s.lgr.minuteAt ≤ s.cnt.ticks → run' < 983040 → ∃ t, exec .stressMinute s = .next t ∧ t.sec = s.sec ∧
      t.lgr = { s.lgr with lifeMin := s.lgr.lifeMin + 1, stressRun := run', minuteMax := -32768, minuteAt := next }) ∧
    (s.lgr.minuteAt ≤ s.cnt.ticks → 983040 ≤ run' → otpHeld s = false → lifeStress s < 2048 →
      ∃ t, exec .stressMinute s = .next t ∧
      t.lgr = { s.lgr with lifeMin := s.lgr.lifeMin + 1, stressRun := run' - 983040, minuteMax := -32768, minuteAt := next } ∧
      Raised 0xD0040 8 s t))

/-- Attestation, the noise source, the operator roots, the GMAC keys and the life cycle (R365, R425, R428, R430, R432, R438, R439, R440, R441, R442). ATTEST spends a token and a leaf and returns a signed report, BUSY without a token; without a leaf it waits. The bucket regains a token every 60 s. LMS_EPOCH_READY gives 32,768 leaves, once the noise source is good. NOISE_TEST_FAIL and PASS clear and set RNG_OK; at boot a failed test is retried after 100 ms, and not before. ROOT_INSTALL writes the keys of an empty slot that lie on the curve and have the types of R437, and is locked by another key; ROOT_REVOKE revokes an installed slot and closes the sessions it opened. GMAC_KEY_SET sets or clears a key, not one in use. LIFECYCLE_ADVANCE, rightly confirmed, makes a seal first and drops every later packet. -/
def Obligations.Security : Prop :=
  (∀ (s : State) (n : Nat) (nonce : List Byte),
    let body := reportSigned s nonce
    HostTurn s n 0x0A00 (if lmsExhausted s then 388 else 3672) true → nonce.length = 32 →
    (s.sec.tokens = 0 → ∃ t, exec (.attest n nonce) s = .next t ∧ Replied n 0x0A00 stBusy [] s t ∧ OnlyReplies n s t) ∧
    (0 < s.sec.tokens → s.sec.lmsGen = false → 0 < s.sec.lmsLeft → ∃ t, exec (.attest n nonce) s = .next t ∧
      t.sec.tokens = s.sec.tokens - 1 ∧ t.sec.lmsLeft = s.sec.lmsLeft - 1 ∧ bit (hw t 0xE0040) 7 = true ∧
      Replied n 0x0A00 stOK (body ++ Config.ecdsaSign (sha384 body) ++ le 4 3284 ++ lmsSign s body) s t) ∧
    (0 < s.sec.tokens → s.sec.lmsGen = true → ∃ t, exec (.attest n nonce) s = .next t ∧ t.sec.tokens = s.sec.tokens - 1 ∧
      (ses t n).wait = some (.attest nonce) ∧ t.regs = s.regs)) ∧
  (∀ s : State, s.boot ≠ .held → s.sec.tokenAt ≤ s.cnt.ticks → ∃ t, exec .attestTokenRefill s = .next t ∧
    t.sec = { s.sec with tokens := Nat.min 16 (s.sec.tokens + 1), tokenAt := nextDue s s.sec.tokenAt (60 * secTicks) }) ∧
  (∀ s : State, s.cnt.ticks < s.sec.tokenAt → exec .attestTokenRefill s = .next s) ∧
  (∀ s : State, s.boot ≠ .held → s.sec.lmsGen = true → s.sec.rngOk = true → s.sec.lmsEpoch.isSome = true →
    (∀ e ∈ s.slc.sessions, ∀ nonce, e.2.wait ≠ some (.attest nonce)) → ∃ t, exec .lmsEpochReady s = .next t ∧
      t.sec = { s.sec with lmsGen := false, lmsLeft := 32768 } ∧ Raised 0xE0040 2 s t) ∧
  (∀ s : State, s.sec.rngOk = false → exec .lmsEpochReady s = .next s) ∧
  (∀ s : State, s.boot ≠ .held →
    (∃ t, exec .noiseTestFail s = .next t ∧
      t.sec = { s.sec with rngOk := false, noiseAt := s.cnt.ticks + 100 * msTicks } ∧ Raised 0xE0040 6 s t) ∧
    (s.boot ≠ .booting ∨ s.sec.noiseAt ≤ s.cnt.ticks →
      exec .noiseTestPass s = .next { s with sec := { s.sec with rngOk := true } }) ∧
    (s.boot = .booting → s.cnt.ticks < s.sec.noiseAt → exec .noiseTestPass s = .next s)) ∧
  (∀ (s : State) (n slot : Nat) (e l : List Byte), HostTurn s n 0x0A01 0 true → (ses s n).kind = .active → slot < 8 →
    e.length = 97 → l.length = 60 →
    (s.slc.lease ≠ some n → ∃ t, exec (.rootInstall n slot e l) s = .next t ∧ Replied n 0x0A01 stNotOwner [] s t ∧
      OnlyReplies n s t) ∧
    (s.slc.lease = some n → lifecycle s = 1 ∨ lifecycle s = 2 → otpHeld s = false →
      (onCurve e = false ∨ hssKeyOk l = false → ∃ t, exec (.rootInstall n slot e l) s = .next t ∧
        Replied n 0x0A01 stAuth [] s t ∧ OnlyReplies n s t) ∧
      (onCurve e = true → hssKeyOk l = true → rootInstalled s slot = false → ∃ t, exec (.rootInstall n slot e l) s = .next t ∧
        Replied n 0x0A01 stOK [] s t ∧ otpBytes t (rootAt slot) 156 = e.drop 1 ++ l ∧ Raised 0xE0040 0 s t) ∧
      (onCurve e = true → hssKeyOk l = true → rootInstalled s slot = true → otpBytes s (rootAt slot) 156 ≠ e.drop 1 ++ l →
        ∃ t, exec (.rootInstall n slot e l) s = .next t ∧ Replied n 0x0A01 stWriteLocked [] s t ∧ Raised 0x10 5 s t ∧
          t.sec = s.sec))) ∧
  (∀ (s : State) (n slot : Nat), HostTurn s n 0x0A02 0 false → s.slc.lease = some n → slot < 8 → rootInstalled s slot = true →
    rootRevoked s slot = false → (lifecycle s = 2 → otherRoot s slot = true) → ∃ t, exec (.rootRevoke n slot) s = .next t ∧
      rootRevoked t slot = true ∧ (∀ m, m ≠ n → (ses s m).kind = .active → (ses s m).rootSlot = slot → (ses t m).kind = .free) ∧
      ((∀ x ∈ s.slc.sessions, ¬ (x.2.kind = .active ∧ x.2.rootSlot = slot)) → Replied n 0x0A02 stOK [] s t)) ∧
  (∀ (s : State) (n slot : Nat) (key : List Byte), HostTurn s n 0x0A03 0 false → s.slc.lease = some n → slot < 16 →
    key.length = 32 →
    (∃ t, exec (.gmacKeySet n slot false key) s = .next t ∧ smFind slot t.sec.gmac = some key ∧ Replied n 0x0A03 stOK [] s t ∧
      Raised 0xE0040 8 s t ∧ (∀ k, k ≠ slot → smFind k t.sec.gmac = smFind k s.sec.gmac)) ∧
    (slotUsed s slot = true → ∃ t, exec (.gmacKeySet n slot true key) s = .next t ∧ Replied n 0x0A03 stState [] s t ∧
      OnlyReplies n s t) ∧
    (slotUsed s slot = false → ∃ t, exec (.gmacKeySet n slot true key) s = .next t ∧ smFind slot t.sec.gmac = none ∧
      Replied n 0x0A03 stOK [] s t)) ∧
  (∀ (s : State) (n target : Nat) (w : Word), HostTurn s n 0x0A04 0 false → s.slc.lease = some n →
    (w ≠ confirmOf target → ∃ t, exec (.lifecycleAdvance n target w) s = .next t ∧ Replied n 0x0A04 stState [] s t ∧
      OnlyReplies n s t) ∧
    (target = 1 ∨ target = 2 → lifecycle s = target → w = confirmOf target → lastOfPacket s n = true →
      (target = 1 → otherRoot s 8 = true) → otpHeld s = false → s.sec.lmsGen = true →
      ∃ t, exec (.lifecycleAdvance n target w) s = .next t ∧ (ses t n).wait = some (.lifecycle target) ∧
        t.slc.dropping = true ∧ t.cis.sealWait = s.cis.sealWait ++ [.life]))

/-- What alone can change the committed configuration, the lease and the keys (R31, R41, R44, R45, R53, R385, R392, R428, R432, R443). Whatever command runs in whatever state: the committed image, the commit queue, the reference seal, the lease, the GMAC keys, the health of the noise source, the attestation tokens, the level of HALT_N, the reset cause, the epoch and the latched high words are as they were, unless the command is one of the few that the rules let change them, which the statement names. -/
def Obligations.ConfigurationOwners : Prop :=
  ∀ (c : Instr) (s t : State), exec c s = .next t →
    (match c with
      | .commitStrobe | .resetNAssert | .trainingComplete _ | .resetMonitorTrip _ | .thermalReset | .otpProgram _ => True
      | _ => t.regs.committed = s.regs.committed) ∧
    (match c with
      | .commit _ _ _ _ _ | .commitStrobe | .resetNAssert | .resetMonitorTrip _ | .thermalReset | .otpProgram _ => True
      | _ => t.commits.queue = s.commits.queue) ∧
    (match c with
      | .commitStrobe | .resetNAssert | .ready | .resetMonitorTrip _ | .thermalReset | .otpProgram _ => True
      | _ => t.sealing.ref = s.sealing.ref) ∧
    (match c with
      | .sluiceReply _ | .keepaliveExpiry _ | .leaseTake _ | .leaseHandover _ _ | .leaseRelease _ | .resetNAssert
      | .resetMonitorTrip _ | .thermalReset | .otpProgram _ | .rootRevoke _ _ => True
      | _ => t.slc.lease = s.slc.lease) ∧
    (match c with
      | .resetNAssert | .resetMonitorTrip _ | .thermalReset | .otpProgram _ | .gmacKeySet _ _ _ _ => True
      | _ => t.sec.gmac = s.sec.gmac) ∧
    (match c with
      | .resetNAssert | .resetMonitorTrip _ | .thermalReset | .noiseTestFail | .otpProgram _ | .noiseTestPass => True
      | _ => t.sec.rngOk = s.sec.rngOk) ∧
    (match c with
      | .resetNAssert | .resetMonitorTrip _ | .thermalReset | .attest _ _ | .attestTokenRefill | .otpProgram _ => True
      | _ => t.sec.tokens = s.sec.tokens) ∧
    (match c with
      | .resetNAssert | .resetMonitorTrip _ | .thermalReset | .haltNFall | .haltNRise | .otpProgram _ => True
      | _ => t.pins.haltN = s.pins.haltN) ∧
    (match c with
      | .resetNAssert | .resetMonitorTrip _ | .thermalReset | .otpProgram _ => True
      | _ => t.pwr.cause = s.pwr.cause ∧ t.pwr.causeRails = s.pwr.causeRails) ∧
    (match c with
      | .resetNAssert | .ready | .resetMonitorTrip _ | .thermalReset | .otpProgram _ => True
      | _ => t.lgr.epoch = s.lgr.epoch) ∧
    (match c with
      | .sluiceReply _ | .keepaliveExpiry _ | .regRead _ _ _ | .regReadBlock _ _ _ _ | .resetNAssert
      | .resetMonitorTrip _ | .thermalReset | .otpProgram _ | .rootRevoke _ _ => True
      | _ => t.regs.latch = s.regs.latch)

/-- What alone can change device time, the TIU, the supplies, waiting arms, mailboxes and maps (R87, R106, R146, R178, R231, R255, R282, R328, R346). Whatever command runs in whatever state: device time, the TIU, the record of the supplies, PTP, the arms that wait, the bytes of the mailboxes, the next segment identifier, the map of Basin rows, the evaluation lanes and the channel map are as they were, unless the command is one of those the statement names. -/
def Obligations.BlockOwners : Prop :=
  ∀ (c : Instr) (s t : State), exec c s = .next t →
    (match c with
      | .commitStrobe | .resetNAssert | .resetMonitorTrip _ | .thermalReset | .refCountCheck _ _ | .refclkSLoss
      | .timePllUnlock | .tiuClockReturn | .backupSteer | .ppsInEdge _ _ | .holdoverEntry | .freerunEntry | .leapApply
      | .ptpMessage _ _ | .timeSet _ _ _ | .tiuEdgeStamp _ _ _ _ | .otpProgram _ => True
      | _ => t.tb = s.tb) ∧
    (match c with
      | .commitStrobe | .resetNAssert | .resetRelease | .resetMonitorTrip _ | .thermalReset | .refCountCheck _ _
      | .refclkSLoss | .timePllUnlock | .ppsInEdge _ _ | .tiuEdgeStamp _ _ _ _ | .measurementTimeout _ | .tiuRearm _ _ _
      | .tiuPeriodicCal _ _ _ | .spareLineCal _ _ _ | .runnelBurst | .otpProgram _ => True
      | .launch _ | .firstLaunch _ | .alignedCommonInstant | .fibreGroupApply _ | .disarm _ _ | .disarmAll _ | .haltNFall
      | .sluicePacket _ _ _ | .fastPathPacket _ _ _ | .ethFrameRx _ _ | .rotationPeriodEnd _ _ | .qcalStepEnd _ _
      | .iscBlockEnd _ _ _ _ | .fgWindowEnd _ _ | .samplePllUnlock | .sampleClockResume | .corePllUnlock _ | .refclkCLoss
      | .refclkCCrosscheck _ => t.tiu = { s.tiu with chs := t.tiu.chs }
      | _ => t.tiu = s.tiu) ∧
    (match c with
      | .commitHoldEnd | .resetNAssert | .resetMonitorTrip _ | .windowOpen _ _ | .railJoinsWindow _ _ | .windowClose _ _
      | .windowQcalDone | .thermalReading _ _ | .thermalReset | .otpProgram _ | .lifeHourBit | .stressMinute => True
      | _ => t.pwr = s.pwr) ∧
    (match c with
      | .commitStrobe | .resetNAssert | .resetMonitorTrip _ | .thermalReset | .serdesPllUnlock _ | .holdoverEntry
      | .ptpMessage _ _ | .linkHoldExpiry _ | .faultClear _ | .ptpSyncTx | .delayReqTx | .announceTx | .otpProgram _ => True
      | _ => t.ptp = s.ptp) ∧
    (match c with
      | .sluicePacket _ _ _ | .fastPathPacket _ _ _ | .resetNAssert | .resetMonitorTrip _ | .thermalReset | .arm _ _ _
      | .disarm _ _ | .disarmAll _ | .haltNFall | .ethFrameRx _ _ | .otpProgram _ | .armAtTime => True
      | _ => t.arms = s.arms) ∧
    (match c with
      | .commitStrobe | .resetNAssert | .dramFillDone _ | .resetMonitorTrip _ | .thermalReset | .runnelDescFetch _
      | .runnelBurst | .runnelDescComplete _ | .fifoTimeout _ | .runnelStopEffect _ | .mboxWrite _ _ _ _ | .otpProgram _ => True
      | _ => t.rnl.mbox = s.rnl.mbox) ∧
    (match c with
      | .commitStrobe | .resetNAssert | .resetMonitorTrip _ | .thermalReset | .laneTriggerCondition _ _ | .watchCondition _
      | .otpProgram _ => True
      | _ => t.cis.nextSeg = s.cis.nextSeg) ∧
    (match c with
      | .resetNAssert | .resetRelease | .resetMonitorTrip _ | .thermalReset | .basinRowRetire _ | .otpProgram _ => True
      | _ => t.basin.rowMap = s.basin.rowMap) ∧
    (match c with
      | .resetNAssert | .resetRelease | .resetMonitorTrip _ | .thermalReset | .evalLaneCheck _ _ _ _ | .otpProgram _ => True
      | _ => t.weir.lanes = s.weir.lanes) ∧
    (match c with
      | .resetNAssert | .trainingComplete _ | .dramFillDone _ | .resetMonitorTrip _ | .thermalReset
      | .retrainComplete _ _ | .migrationCutover | .otpProgram _ => True
      | _ => t.dram.chmap = s.dram.chmap ∧ t.dram.nActive = s.dram.nActive)

/-- SLUICE_PACKET: a packet of a session (R375, R379, R380, R381, R382). A well-formed packet of an open session that arrives in sequence, with fewer than four packets waiting, becomes the session's newest packet; H takes its SEQ and the keepalive timer restarts. In an ACTIVE session this is so where the tag check passes; where it fails, AUTH_FAIL is raised and counted and no session changes. Nothing but the session and the command ledger changes for an accepted packet. -/
def Obligations.OrdinaryPacket : Prop :=
  (∀ (s : State) (p : Fin 2) (src : Peer) (b : List Byte) (cmds : List QCmd),
    let n := leAt b 2 2
    let x := ses s n
    s.boot = .up → (port s p).up = true → formOk s src b = true → headerOk src b = true → lifecycle s ≠ 3 →
    nbit (leAt b 1 1) flFast = false → s.slc.dropping = false → n ≠ 0 → x.kind = .bootstrap →
    nbit (leAt b 1 1) flBoot = true → nbit (leAt b 1 1) flAuth = false → bootTransport src = true →
    parseCmds (leAt b 8 2) (plainBody b) = some cmds → leAt b 4 4 = x.h + 1 → x.packets.length < 4 → x.closing = false →
    ∃ t, exec (.sluicePacket p src b) s = .next t ∧ (ses t n).h = leAt b 4 4 ∧ (ses t n).kaStart = s.cnt.ticks ∧
      (ses t n).packets = (skipPkts (x.packets ++ [{ seq := leAt b 4 4, port := p, src := src, cmds := cmds, done := [] }])).1 ∧
      OnlyReplies n s t) ∧
  (∀ (s : State) (p : Fin 2) (src : Peer) (b : List Byte),
    let n := leAt b 2 2
    let x := ses s n
    s.boot = .up → (port s p).up = true → formOk s src b = true → headerOk src b = true → lifecycle s ≠ 3 →
    nbit (leAt b 1 1) flFast = false → s.slc.dropping = false → n ≠ 0 → x.kind = .active → nbit (leAt b 1 1) flAuth = true →
    leAt b 4 4 = x.h + 1 → x.packets.length < 4 → x.closing = false →
    ∃ t, exec (.sluicePacket p src b) s = .next t ∧
      match openBody x n false b with
      | none => Raised 0xC0040 3 s t ∧ hw t 0xC0060 = wd (Nat.min (2 ^ 32 - 1) ((hw s 0xC0060).toNat + 1)) ∧ t.slc = s.slc
      | some body => (ses t n).kaStart = s.cnt.ticks ∧ match parseCmds (leAt b 8 2) body with
        | none => (ses t n).h = x.h ∧ (ses t n).packets = x.packets ∧
          hw t 0xC0068 = wd (Nat.min (2 ^ 32 - 1) ((hw s 0xC0068).toNat + 1))
        | some cmds => (ses t n).h = leAt b 4 4 ∧ (ses t n).packets =
          (skipPkts (x.packets ++ [{ seq := leAt b 4 4, port := p, src := src, cmds := cmds, done := [] }])).1)

/-- FAST_PATH_PACKET: a fast command is carried out ahead of the queue (R389, R390, R391). A FAST packet of an ACTIVE session with AUTH and one command is carried out if its tag passes, its command is one of the three and its SEQ is above F: F takes the SEQ, SLC_FAST_EXEC counts, FAST_HALT is raised, and HALT_STREAMS halts every stream that is not exempt, HALT_STREAM the one it names. With a failing tag it is counted as an authentication failure; with any other command as malformed. -/
def Obligations.FastPacket : Prop :=
  ∀ (s : State) (p : Fin 2) (src : Peer) (b : List Byte),
    let n := leAt b 2 2
    let x := ses s n
    s.boot = .up → (port s p).up = true → formOk s src b = true → headerOk src b = true → lifecycle s ≠ 3 →
    nbit (leAt b 1 1) flFast = true → nbit (leAt b 1 1) flAuth = true → x.kind = .active → leAt b 8 2 = 1 → x.f < leAt b 4 4 →
    ∃ t, exec (.fastPathPacket p src b) s = .next t ∧
      match openBody x n true b with
      | none => Raised 0xC0040 3 s t ∧ t.slc = s.slc
      | some body => match fastCmd b body with
        | none => hw t 0xC0068 = wd (Nat.min (2 ^ 32 - 1) ((hw s 0xC0068).toNat + 1)) ∧ (ses t n).f = x.f
        | some c =>
          (ses t n).f = leAt b 4 4 ∧
          (c.opcode = 0x500 → c.params = [] → t.spt.haltAll = true ∧ Raised 0xC0040 5 s t ∧ hw t 0xC006C = hw s 0xC006C + 1) ∧
          (c.opcode = 0x501 → c.params.length = 4 → leAt c.params 0 2 < 4096 →
            streamHalted t (leAt c.params 0 2) = true ∧ Raised 0xC0040 5 s t)

/-- SLUICE_REPLY: the reply of the oldest packet is sent and cached (R375, R378, R381, R382). When the commands of a session's oldest packet have all completed, its reply packet joins class A of the port the packet came by and the cache of the last four replies, and the packet leaves. A session that executed SESSION_CLOSE and has no packet left becomes FREE. -/
def Obligations.ReplySent : Prop :=
  (∀ (s : State) (n : Nat) (k : Pkt) (rest : List Pkt),
    let x := ses s n
    s.boot ≠ .held → x.packets = k :: rest → k.cmds = [] → k.dups = [] → (x.closing = false ∨ rest ≠ []) →
    ∃ t, exec (.sluiceReply n) s = .next t ∧ (ses t n).packets = rest ∧
      (ses t n).cache = (x.cache ++ [(k.seq, replyBytes x n k.seq false 0 k.done)]).drop (x.cache.length + 1 - 4) ∧
      (port t k.port).classA = (port s k.port).classA ++
        [{ kind := .sluiceReply, dst := k.src.addr, bytes := replyBytes x n k.seq false 0 k.done, rawEth := k.src.rawEth,
           srcPort := k.src.udpPort, dstPort := k.src.srcPort }] ∧
      (∀ m, m ≠ n → ses t m = ses s m) ∧ t = { s with slc := { s.slc with sessions := t.slc.sessions }, ports := t.ports }) ∧
  (∀ (s : State) (n : Nat) (k : Pkt), let x := ses s n
    s.boot ≠ .held → x.kind ≠ .free → x.packets = [k] → k.cmds = [] → x.closing = true →
    ∃ t, exec (.sluiceReply n) s = .next t ∧ (ses t n).kind = .free ∧ (s.slc.lease = some n → t.slc.lease = none) ∧
      (s.slc.lease ≠ some n → t.slc.lease = s.slc.lease))

/-- SESSION_OPEN and BOOTSTRAP_OPEN (R379, R384, R396). A bootstrap opening that every check of R384 passes opens the lowest free session number as a BOOTSTRAP session and raises OPENED. A SESSION_OPEN of the right length that is no repeat, in PROVISIONED or FIELD, with a free session and the noise source good, opens the lowest free number as an ACTIVE session where the certificate and both proofs verify, and raises AUTH_FAIL and opens nothing where they do not. The request leaves the list either way. -/
def Obligations.Openings : Prop :=
  (∀ (s : State) (o : Opening) (n : Nat), s.boot ≠ .held → s.slc.openings.find? (·.boot = true) = some o → o.params = [] →
    lifecycle s ≤ 1 → cfgB s 0xC0000 24 = true → s.slc.sessions.any (fun (_, x) => decide (x.kind = .bootstrap)) = false →
    bootTransport o.src = true → freeSession s = some n →
    ∃ t, exec .bootstrapOpen s = .next t ∧ (ses t n).kind = .bootstrap ∧ (ses t n).h = 0 ∧ Raised 0xC0040 0 s t ∧
      t.slc.openings = s.slc.openings.erase o ∧ ∀ m, m ≠ n → ses t m = ses s m) ∧
  (∀ (s : State) (o : Opening) (n : Nat), s.boot ≠ .held → s.slc.openings.find? (·.boot = false) = some o →
    o.params.length = 136 + leAt o.params 0 2 → sameOpen s o.params = none → (lifecycle s = 1 ∨ lifecycle s = 2) →
    freeSession s = some n → s.sec.rngOk = true →
    ∃ t, exec .sessionOpen s = .next t ∧ t.slc.openings = s.slc.openings.erase o ∧ (∀ m, m ≠ n → ses t m = ses s m) ∧
      match certRoot s o.params with
      | none => ses t n = ses s n ∧ Raised 0xC0040 3 s t
      | some slot => (ses t n).kind = .active ∧ (ses t n).rootSlot = slot ∧ (ses t n).h = 0 ∧ Raised 0xC0040 0 s t)

/-- SESSION_CLOSE, KEEPALIVE, SESSION_INFO, IDENTITY_GET and ECHO (R382, R388, R377, R379, R435). Each answers OK at its turn: SESSION_CLOSE keeps no later packet and closes after its reply, KEEPALIVE restarts the timer and returns device time, SESSION_INFO, IDENTITY_GET and ECHO return their data; nothing but the session and the command ledger changes. The oldest request of session 0 leaves the list, and the identity certificate joins class A of its port; no session changes. -/
def Obligations.SessionCommands : Prop :=
  ((∀ (s : State) (n : Nat), HostTurn s n 0x0002 0 true → ∃ t, exec (.sessionClose n) s = .next t ∧ (ses t n).closing = true ∧
    (ses t n).wait = none ∧ OnlyReplies n s t) ∧
  (∀ (s : State) (n : Nat), HostTurn s n 0x0003 16 true → ∃ t, exec (.keepalive n) s = .next t ∧
    (ses t n).kaStart = s.cnt.ticks ∧ Replied n 0x0003 stOK (stampTqb s) s t ∧ OnlyReplies n s t) ∧
  (∀ (s : State) (n : Nat), HostTurn s n 0x0004 16 true → ∃ t, exec (.sessionInfo n) s = .next t ∧
    Replied n 0x0004 stOK (sessionInfo s n) s t ∧ OnlyReplies n s t) ∧
  (∀ (s : State) (n : Nat), n ≠ 0 → HostTurn s n 0x0005 2148 true → ∃ t, exec (.identityGet n) s = .next t ∧
    Replied n 0x0005 stOK (identityCert s) s t ∧ OnlyReplies n s t) ∧
  (∀ (s : State) (n : Nat) (data : List Byte), HostTurn s n 0x0F00 data.length true → data.length ≤ 8192 →
    ∃ t, exec (.echo n data) s = .next t ∧ Replied n 0x0F00 stOK data s t ∧ OnlyReplies n s t)) ∧
  (∀ (s : State) (o : Opening) (rest : List Opening), s.boot ≠ .held → s.slc.idReqs = o :: rest → o.params = [] →
    24 + 8 + 2148 ≤ maxFrame (cfg s) o.port - 70 →
    ∃ t, exec (.identityGet 0) s = .next t ∧ t.slc = { s.slc with idReqs := rest } ∧
      (port t o.port).classA = (port s o.port).classA ++
        [{ kind := .sluiceReply, dst := o.src.addr, bytes := zeroReply o 5 stOK (identityCert s), rawEth := o.src.rawEth,
           srcPort := o.src.udpPort, dstPort := o.src.srcPort }])

/-- LEASE_TAKE, LEASE_HANDOVER, LEASE_RELEASE and KEEPALIVE_EXPIRY (R41, R385, R382, R396). A free lease passes to the taker with LEASE_MOVED; a taker that holds it gets OK, one while another holds it BUSY, and nothing moves. A holder hands it to an ACTIVE session and keeps the shadows; releasing frees it and reloads the shadows. A session without the lease gets NOT_OWNER. Once the keepalive time of a session has run
out and no life-cycle advance of it runs, the session becomes FREE, CLOSED and TIMED_OUT are set, the lease it held is free and the shadows then hold the committed image; no other session changes. -/
def Obligations.Lease : Prop :=
  ((∀ (s : State) (n : Nat), HostTurn s n 0x0010 0 false → s.slc.lease = none → ∃ t, exec (.leaseTake n) s = .next t ∧
    t.slc.lease = some n ∧ Raised 0xC0040 8 s t ∧ Replied n 0x0010 stOK [] s t ∧ t.regs.shadow = s.regs.shadow) ∧
  (∀ (s : State) (n m : Nat), HostTurn s n 0x0010 0 false → s.slc.lease = some m → ∃ t, exec (.leaseTake n) s = .next t ∧
    Replied n 0x0010 (if m = n then stOK else stBusy) [] s t ∧ OnlyReplies n s t) ∧
  (∀ (s : State) (n m : Nat), HostTurn s n 0x0011 0 false → s.slc.lease = some n → m ≠ n → (ses s m).kind = .active →
    ∃ t, exec (.leaseHandover n m) s = .next t ∧ t.slc.lease = some m ∧ Raised 0xC0040 8 s t ∧
      Replied n 0x0011 stOK [] s t ∧ t.regs.shadow = s.regs.shadow) ∧
  (∀ (s : State) (n : Nat), HostTurn s n 0x0012 0 false → s.slc.lease = some n → ∃ t, exec (.leaseRelease n) s = .next t ∧
    t.slc.lease = none ∧ t.regs.shadow = s.regs.committed ∧ Raised 0xC0040 8 s t ∧ Raised 0x10 4 s t ∧
    Replied n 0x0012 stOK [] s t) ∧
  (∀ (s : State) (n m : Nat), HostTurn s n 0x0011 0 false → s.slc.lease ≠ some n → ∃ t, exec (.leaseHandover n m) s = .next t ∧
    Replied n 0x0011 stNotOwner [] s t ∧ OnlyReplies n s t) ∧
  (∀ (s : State) (n : Nat), HostTurn s n 0x0012 0 false → s.slc.lease ≠ some n → ∃ t, exec (.leaseRelease n) s = .next t ∧
    Replied n 0x0012 stNotOwner [] s t ∧ OnlyReplies n s t)) ∧
  (∀ (s : State) (n : Nat), s.boot ≠ .held → (ses s n).kind ≠ .free → (∀ g, (ses s n).wait ≠ some (.lifecycle g)) →
    (keepaliveLeft s n ≠ 0 → exec (.keepaliveExpiry n) s = .next s) ∧
    (keepaliveLeft s n = 0 → ∃ t, exec (.keepaliveExpiry n) s = .next t ∧ (ses t n).kind = .free ∧ (∀ m, m ≠ n → ses t m = ses s m) ∧
      bit (hw t 0xC0040) 1 = true ∧ bit (hw t 0xC0040) 2 = true ∧
      (s.slc.lease = some n → t.slc.lease = none ∧ t.regs.shadow = s.regs.committed) ∧
      (s.slc.lease ≠ some n → t.slc.lease = s.slc.lease ∧ t.regs.shadow = s.regs.shadow) ∧
      t.regs.active = s.regs.active ∧ t.dram = s.dram ∧ t.ports = s.ports))

/-- REG_READ and REG_READ_BLOCK (R27, R28, R31, R36). A read of a word of cfg class returns the shadow, or with ACTIVE the active copy, and changes nothing but the session and the command ledger; a read of any other word with nothing latched returns the word as it stands. A read that touches a reserved or misaligned word returns BUS_ERROR with the first such address and no data. -/
def Obligations.RegisterReads : Prop :=
  (∀ (s : State) (n a : Nat) (active : Bool), HostTurn s n 0x0100 4 true → a % 4 = 0 → clsOf a = some .cfg →
    ∃ t, exec (.regRead n a active) s = .next t ∧
      Replied n 0x0100 stOK (wordBytes (if active then cfg s a else imageGet s.regs.shadow a)) s t ∧ OnlyReplies n s t) ∧
  (∀ (s : State) (n a : Nat) (active : Bool) (k : Cls), HostTurn s n 0x0100 4 true → a % 4 = 0 → clsOf a = some k → k ≠ .cfg →
    smFind (latchKey n a) s.regs.latch = none →
    ∃ t, exec (.regRead n a active) s = .next t ∧ Replied n 0x0100 stOK (wordBytes (readHw s a)) s t ∧
      t.regs.shadow = s.regs.shadow ∧ t.regs.active = s.regs.active) ∧
  (∀ (s : State) (n a : Nat) (active : Bool), HostTurn s n 0x0100 4 true → (a % 4 ≠ 0 ∨ clsOf a = none) →
    ∃ t, exec (.regRead n a active) s = .next t ∧ Replied n 0x0100 stBusError (le 4 a) s t ∧ OnlyReplies n s t) ∧
  (∀ (s : State) (n a k : Nat) (active : Bool), HostTurn s n 0x0102 (4 * k) true → 1 ≤ k → k ≤ 256 → a % 4 = 0 →
    (∀ i < k, clsOf (a + 4 * i) = some .cfg) → ∃ t, exec (.regReadBlock n a k active) s = .next t ∧
      Replied n 0x0102 stOK ((List.range k).flatMap fun i =>
        wordBytes (if active then cfg s (a + 4 * i) else imageGet s.regs.shadow (a + 4 * i))) s t ∧ OnlyReplies n s t)

/-- REG_WRITE and REG_WRITE_BLOCK (R29, R31, R35, R38, R39, R40). A write of a cfg word by the lease holder changes the shadow, masked to the implemented bits, and neither the active copy nor any other word. From another session a write that would change it is refused with NOT_OWNER and changes nothing. A value written to a sts or cnt word is discarded. A block of two cfg words writes both, in ascending order. -/
def Obligations.RegisterWrites : Prop :=
  (∀ (s : State) (n a : Nat) (v : Word), HostTurn s n 0x0101 4 false → s.slc.lease = some n → a % 4 = 0 → clsOf a = some .cfg →
    ∃ t, exec (.regWrite n a v) s = .next t ∧ Replied n 0x0101 stOK [] s t ∧ imageGet t.regs.shadow a = v &&& maskOf a ∧
      (∀ b, b ≠ a → imageGet t.regs.shadow b = imageGet s.regs.shadow b) ∧ t.regs.active = s.regs.active ∧
      t.regs.committed = s.regs.committed ∧ (∀ b, offLedger b → hw t b = hw s b)) ∧
  (∀ (s : State) (n a : Nat) (v : Word), HostTurn s n 0x0101 4 false → s.slc.lease ≠ some n → a % 4 = 0 → clsOf a = some .cfg →
    v &&& maskOf a ≠ imageGet s.regs.shadow a →
    ∃ t, exec (.regWrite n a v) s = .next t ∧ Replied n 0x0101 stNotOwner [] s t ∧ OnlyReplies n s t) ∧
  (∀ (s : State) (n a : Nat) (v : Word) (k : Cls), HostTurn s n 0x0101 4 false → a % 4 = 0 → clsOf a = some k →
    (k = .sts ∨ k = .cnt) → ∃ t, exec (.regWrite n a v) s = .next t ∧ Replied n 0x0101 stOK [] s t ∧ OnlyReplies n s t) ∧
  (∀ (s : State) (n a : Nat) (v w : Word), HostTurn s n 0x0103 4 false → s.slc.lease = some n → a % 4 = 0 →
    clsOf a = some .cfg → clsOf (a + 4) = some .cfg →
    ∃ t, exec (.regWriteBlock n a [v, w]) s = .next t ∧ Replied n 0x0103 stOK [] s t ∧
      imageGet t.regs.shadow a = v &&& maskOf a ∧ imageGet t.regs.shadow (a + 4) = w &&& maskOf (a + 4) ∧
      t.regs.active = s.regs.active)

/-- STS_CLEAR (R33, R34). With SEQ as it stands, and LAPPED clear or among the bits to clear, the bits of the mask clear (but for AON_UNTRIMMED while the oscillator is untrimmed), SEQ stays, and the count of laps starts again. With another SEQ nothing clears and STALE_CLEAR returns the register. Only that register changes. -/
def Obligations.StatusClears : Prop :=
  (∀ (s : State) (n a : Nat) (q : BitVec 8) (m : BitVec 24), HostTurn s n 0x0104 4 false → a % 4 = 0 → clsOf a = some .sts →
    fld (hw s a) 24 8 = q.toNat → (bit (hw s a) 23 = false ∨ m.getLsbD 23 = true) → offLedger a →
    ∃ t, exec (.stsClear n a q m) s = .next t ∧ Replied n 0x0104 stOK [] s t ∧
      hw t a = (hw s a &&& ~~~(m.setWidth 32)) ||| stsStays s a ∧ (∀ b, offLedger b → b ≠ a → hw t b = hw s b) ∧
      smGet 0 a t.regs.laps = 0 ∧ t.regs.active = s.regs.active ∧ t.slc.lease = s.slc.lease) ∧
  (∀ (s : State) (n a : Nat) (q : BitVec 8) (m : BitVec 24), HostTurn s n 0x0104 4 false → a % 4 = 0 → clsOf a = some .sts →
    fld (hw s a) 24 8 ≠ q.toNat → ∃ t, exec (.stsClear n a q m) s = .next t ∧
      Replied n 0x0104 stStaleClear (wordBytes (hw s a)) s t ∧ OnlyReplies n s t)

/-- RELOAD_SHADOWS (R58). The lease holder's RELOAD_SHADOWS makes every shadow the committed image and leaves the lease and the commit queue untouched; from a session without the lease it is refused with NOT_OWNER and changes no shadow. -/
def Obligations.ReloadShadows : Prop :=
  (∀ (s : State) (n : Nat), HostTurn s n 0x0101 4 false → s.slc.lease = some n → bit (hw s 0x54) 1 = false →
    (0x54, 1) ∉ s.regs.cmdQueued →
    ∃ t, exec (.reloadShadows n) s = .next t ∧ t.regs.shadow = s.regs.committed ∧ t.slc.lease = s.slc.lease ∧
      t.commits = s.commits ∧ t.regs.active = s.regs.active ∧ t.regs.committed = s.regs.committed ∧
      Replied n 0x0101 stOK [] s t) ∧
  (∀ (s : State) (n : Nat), HostTurn s n 0x0101 4 false → s.slc.lease ≠ some n →
    ∃ t, exec (.reloadShadows n) s = .next t ∧ Replied n 0x0101 stNotOwner [] s t ∧ OnlyReplies n s t)

/-- SEAL_RESCAN and the seal scans (R37, R51, R52, R50). SEAL_RESCAN of the lease holder starts an unscheduled scan, sets RESCAN and stays set until the scan completes. A scheduled scan starts at READY or later where its time has come and none runs, and waits for an unscheduled one. At its end GLB_SEAL_LAST holds the seal of the scanned image and SCANS counts; another result than the reference sets MISMATCH and counts, the reference itself ends the condition. At its turn SEAL_QUERY returns the seal of the image that a commit with its mask would capture now, from any session that is open, and changes nothing but the session and the command ledger: not the reference, not a register. -/
def Obligations.Seal : Prop :=
  ((∀ (s : State) (n : Nat), HostTurn s n 0x0101 4 false → s.slc.lease = some n → s.boot = .up → bit (hw s 0x54) 0 = false →
    (0x54, 0) ∉ s.regs.cmdQueued → ∃ t, exec (.sealRescan n) s = .next t ∧
      t.sealing.scan = some { scheduled := false, restarted := false } ∧ bit (hw t 0x54) 0 = true ∧ Raised 0x2C 2 s t ∧
      t.sealing.ref = s.sealing.ref ∧ Replied n 0x0101 stOK [] s t) ∧
  (∀ s : State, s.boot = .up → timerDue s tmScan 0 = true →
    (s.sealing.scan = none → exec .sealScanStart s = .next { s with
      sealing := { s.sealing with scan := some { scheduled := true, restarted := false } },
      timers := (timerGrid tmScan 0 msTicks s).timers }) ∧
    (s.sealing.scan = some { scheduled := false, restarted := false } → exec .sealScanStart s = .next { s with
      sealing := { s.sealing with waiting := true }, timers := (timerGrid tmScan 0 msTicks s).timers })) ∧
  (∀ s : State, s.boot ≠ .up ∨ timerDue s tmScan 0 = false → exec .sealScanStart s = .next s) ∧
  (∀ (s : State) (x : Scan), s.boot ≠ .held → s.sealing.scan = some x → ∃ t, exec .sealScanComplete s = .next t ∧
    t.sealing.last = scanImage s ∧ hw t 0x1C = sealOf (scanImage s) ∧ cnt64 t 0x20 = (cnt64 s 0x20 + 1) % 2 ^ 64 ∧
    t.sealing.ref = s.sealing.ref ∧
    (sealOf (scanImage s) ≠ s.sealing.ref → t.sealing.mismatch = true ∧ hw t 0x28 = hw s 0x28 + 1 ∧ bit (hw t 0x2C) 0 = true) ∧
    (sealOf (scanImage s) = s.sealing.ref → t.sealing.mismatch = false ∧ hw t 0x28 = hw s 0x28))) ∧
  (∀ (s : State) (n : Nat) (mask : BitVec 16), HostTurn s n 0x0106 4 true →
    ∃ t, exec (.sealQuery n mask) s = .next t ∧ Replied n 0x0106 stOK (wordBytes (sealOf (candidate s mask))) s t ∧
      OnlyReplies n s t ∧ t.sealing = s.sealing)

/-- COMMIT is checked and enters the queue (R42, R43, R44). A COMMIT of the lease holder with a mask, whose seal is the one expected and which no check refuses, joins the queue with the captured words of its groups, and its session waits. With another seal it is refused with SEAL_MISMATCH and REFUSED is set. Neither changes any copy of the configuration. Without the lease it is refused with NOT_OWNER. -/
def Obligations.CommitAccepted : Prop :=
  (∀ (s : State) (n : Nat) (mask : BitVec 16) (al : Bool) (st : Option Stamp),
    let image := candidate s mask
    HostTurn s n 0x0105 (commitLen mask) false → mask.toNat < 0x400 → s.slc.lease = some n → mask ≠ 0 →
    stateRefuses s mask st (imageGet (queueImage s)) (imageGet image) image = false →
    capacityRefuses s (imageGet (queueImage s)) (imageGet image) image = false → budgetRefuses s mask (imageGet image) image = none →
    s.commits.queue.length < 16 →
    ∃ t, exec (.commit n mask al st (sealOf image)) s = .next t ∧
      t.commits.queue = s.commits.queue ++
        [{ id := s.commits.nextId, ses := n, mask := mask, aligned := al, stamp := st, sealW := sealOf image,
           image := image.filter (fun (a, _) => masksWord mask a), adopt := false }] ∧
      (ses t n).wait = some (.commit s.commits.nextId) ∧ t.regs.active = s.regs.active ∧ t.regs.shadow = s.regs.shadow ∧
      t.regs.committed = s.regs.committed ∧ t.sealing = s.sealing) ∧
  (∀ (s : State) (n : Nat) (mask : BitVec 16) (al : Bool) (st : Option Stamp) (w : Word),
    let image := candidate s mask
    HostTurn s n 0x0105 (commitLen mask) false → mask.toNat < 0x400 → s.slc.lease = some n → mask ≠ 0 →
    stateRefuses s mask st (imageGet (queueImage s)) (imageGet image) image = false → sealOf image ≠ w →
    ∃ t, exec (.commit n mask al st w) s = .next t ∧ Replied n 0x0105 stSealMismatch [] s t ∧ Raised 0x10 2 s t ∧
      t.commits = s.commits ∧ t.regs.active = s.regs.active ∧ t.regs.committed = s.regs.committed) ∧
  (∀ (s : State) (n : Nat) (mask : BitVec 16) (al : Bool) (st : Option Stamp) (w : Word),
    HostTurn s n 0x0105 (commitLen mask) false → mask.toNat < 0x400 → s.slc.lease ≠ some n →
    ∃ t, exec (.commit n mask al st w) s = .next t ∧ Replied n 0x0105 stNotOwner [] s t ∧ t.commits = s.commits)

/-- COMMIT_STROBE (R44, R45, R46, R47). The oldest accepted commit that may strobe leaves the queue in one step: its captured words enter the committed image, the reference becomes its seal, COMMIT_SEQ counts and STROBED is set; where it names no fibre group, moves no DRAM and no copy is pending, the words of its groups are active from then on and no other word changes. A commit whose stamp is still to come stays. The pending copy of a port that makes no launch becomes active at once and is pending no more. When every port of an ALIGNED commit has reached its boundary and the common instant has come, each of its ports makes one launch of slot 0 at the latest of the boundaries, rounded up to a slice-clock edge, and the set is done. -/
def Obligations.CommitStrobes : Prop :=
  ((∀ (s : State) (q : QCommit) (qs : List QCommit), s.boot ≠ .held → s.commits.queue = q :: qs → strobeDue q s = true →
    q.adopt = false → q.mask ≠ 0 → ∃ t, exec .commitStrobe s = .next t ∧ t.commits.queue = qs ∧
      t.regs.committed = maskMerge q.mask q.image s.regs.committed ∧ t.sealing.ref = q.sealW ∧ hw t 0x40 = hw s 0x40 + 1 ∧
      bit (hw t 0x10) 0 = true ∧ t.regs.shadow = s.regs.shadow ∧ t.slc.lease = s.slc.lease) ∧
  (∀ (s : State) (q : QCommit) (qs : List QCommit), s.boot ≠ .held → s.commits.queue = q :: qs → strobeDue q s = true →
    q.adopt = false → q.mask ≠ 0 → q.mask &&& 0x9E = 0 → s.regs.pend = [] → ∃ t, exec .commitStrobe s = .next t ∧
      t.regs.active = maskMerge (q.mask &&& 0x03E1) q.image s.regs.active) ∧
  (∀ (s : State) (q : QCommit) (qs : List QCommit) (u : Stamp), s.boot ≠ .held → s.commits.queue = q :: qs →
    q.stamp = some u → now s < u → exec .commitStrobe s = .next s)) ∧
  ((∀ (s : State) (p : Fin 4) (w : SMap Word), s.boot ≠ .held → launching s p = false → (lch s p).fallback = [] →
    smFind (p + 1) s.regs.pend = some w → ∃ t, exec (.fibreGroupApply p) s = .next t ∧
      t.regs.active = groupMerge (p + 1) w s.regs.active ∧ t.regs.pend = smDel (p + 1) s.regs.pend ∧
      t.regs.committed = s.regs.committed ∧ t.regs.shadow = s.regs.shadow) ∧
  (∀ s : State, s.boot ≠ .held → s.commits.align.find? (fun a => alignFull a && tickCome s (roundUp 8 a.latest)) = none →
    exec .alignedCommonInstant s = .next s) ∧
  (∀ (s : State) (a : AlignSet), s.boot ≠ .held →
    s.commits.align.find? (fun a => alignFull a && tickCome s (roundUp 8 a.latest)) = some a → a.ports.Nodup →
    s.clk.stopped = false → (∀ p ∈ a.ports, (lch s p).armed = true ∧ (lch s p).fallback = []) →
    ∃ t, exec .alignedCommonInstant s = .next t ∧ t.commits.align = s.commits.align.filter (fun b => decide (b.id ≠ a.id)) ∧
      ∀ p ∈ a.ports, (lch t p).nextIndex = (lch s p).nextIndex + 1 ∧ smFind 0 (lch t p).lastTick = some (roundUp 8 a.latest)))

/-- QCAL and FG_CAL (R37, R127, R135, R188). QCAL of the lease holder starts the quick calibration of every powered converter: one on nine slices that is in service is at its first step, and the bit stays set. FG_CAL opens a window on every converter of a DIRECT lane that is on eight slices. On a port that launches, the bit waits for the shot boundary; on one that makes no launch, REPRIME primes every slot and ZERO_STRAIN marks the next shot, at once. -/
def Obligations.ConverterAndPhaseBits : Prop :=
  ((∀ (s : State) (n c : Nat), HostTurn s n 0x0101 4 false → s.slc.lease = some n → bit (hw s 0x20044) 0 = false → (0x20044, 0) ∉ s.regs.cmdQueued →
    c < 16 → (conv s c).on = true → (conv s c).failed = false → onEight (conv s c) = false →
    ∃ t, exec (.qcal n) s = .next t ∧ (conv t c).qcal = some 0 ∧ t.cnv.qcalOpen = true ∧ bit (hw t 0x20044) 0 = true ∧
      Replied n 0x0101 stOK [] s t) ∧
  (∀ (s : State) (n c : Nat), HostTurn s n 0x0101 4 false → s.slc.lease = some n → bit (hw s 0x20044) 1 = false → (0x20044, 1) ∉ s.regs.cmdQueued →
    c ∈ (directLanes (cfg s)).flatMap (convsOf (cfg s)) → onEight (conv s c) = true →
    ∃ t, exec (.fgCal n) s = .next t ∧ (conv t c).inWindow = true ∧ (conv t c).fgWant = true ∧ bit (hw t 0x20044) 1 = true ∧
      Replied n 0x0101 stOK [] s t)) ∧
  ((∀ (s : State) (n : Nat) (p : Fin 4), HostTurn s n 0x0101 4 false → s.slc.lease = some n → bit (hw s (0x40084 + 0x1000 * p.val)) 0 = false →
    (0x40084 + 0x1000 * p.val, 0) ∉ s.regs.cmdQueued → launching s p = true →
    ∃ t, exec (.zeroStrain n p) s = .next t ∧ (lch t p).cmds = (lch s p).cmds ++ [0] ∧
      bit (hw t (0x40084 + 0x1000 * p.val)) 0 = true ∧ Replied n 0x0101 stOK [] s t) ∧
  (∀ (s : State) (n : Nat) (p : Fin 4), HostTurn s n 0x0101 4 false → s.slc.lease = some n → bit (hw s (0x40084 + 0x1000 * p.val)) 0 = false →
    (0x40084 + 0x1000 * p.val, 0) ∉ s.regs.cmdQueued → launching s p = false → (lch s p).cmds = [] →
    ∃ t, exec (.zeroStrain n p) s = .next t ∧ (lch t p).zeroed = true ∧ (lch t p).cmds = [] ∧ Replied n 0x0101 stOK [] s t) ∧
  (∀ (s : State) (n : Nat) (p : Fin 4), HostTurn s n 0x0101 4 false → s.slc.lease = some n → bit (hw s (0x40084 + 0x1000 * p.val)) 1 = false →
    (0x40084 + 0x1000 * p.val, 1) ∉ s.regs.cmdQueued → launching s p = true →
    ∃ t, exec (.reprime n p) s = .next t ∧ (lch t p).cmds = (lch s p).cmds ++ [1] ∧
      bit (hw t (0x40084 + 0x1000 * p.val)) 1 = true ∧ Replied n 0x0101 stOK [] s t) ∧
  (∀ (s : State) (n : Nat) (p : Fin 4), HostTurn s n 0x0101 4 false → s.slc.lease = some n → bit (hw s (0x40084 + 0x1000 * p.val)) 1 = false →
    (0x40084 + 0x1000 * p.val, 1) ∉ s.regs.cmdQueued → launching s p = false → (lch s p).cmds = [] →
    ∃ t, exec (.reprime n p) s = .next t ∧ (lch t p).prime = 15 ∧ (lch t p).cmds = [] ∧ Replied n 0x0101 stOK [] s t))

/-- FORCE_TRIGGER and ALARM_ACK (R37, R222, R240, R210). FORCE_TRIGGER makes an armed unit that it names meet a condition on the next sample of its lane; ALARM_ACK clears the Weir alarm and sets ALARM_CLEAR where it was set. START sets an engine going that does not run; CLOSE ends the block of an engine that has used an input event, which POL_n_BLOCKS counts. Both bits read 0 again when done. -/
def Obligations.WeirAndPoolBits : Prop :=
  ((∀ (s : State) (n : Nat) (units : BitVec 8) (u : Fin 8), HostTurn s n 0x0101 4 false → s.slc.lease = some n → (∀ v < 8, bit (hw s 0x61014) v = false) →
    (∀ v, (0x61014, v) ∉ s.regs.cmdQueued) → units.getLsbD u = true → (unitSt s u).armed = true →
    ∃ t, exec (.forceTrigger n units) s = .next t ∧ (unitSt t u).force = true ∧ (unitSt t u).armed = true ∧
      Replied n 0x0101 stOK [] s t) ∧
  (∀ (s : State) (n : Nat), HostTurn s n 0x0101 4 false → s.slc.lease = some n → bit (hw s 0x61014) 8 = false → (0x61014, 8) ∉ s.regs.cmdQueued → s.weir.alarm = true →
    ∃ t, exec (.alarmAck n) s = .next t ∧ t.weir.alarm = false ∧ Raised 0x61040 1 s t ∧ t.weir.units = s.weir.units ∧
      Replied n 0x0101 stOK [] s t)) ∧
  ((∀ (s : State) (n : Nat) (e : Fin 4), HostTurn s n 0x0101 4 false → s.slc.lease = some n → bit (hw s (polA e 0x44)) 0 = false → (polA e 0x44, 0) ∉ s.regs.cmdQueued →
    (pol s e).running = false → ∃ t, exec (.poolStart n e) s = .next t ∧ (pol t e).running = true ∧
      bit (hw t (polA e 0x44)) 0 = false ∧ Replied n 0x0101 stOK [] s t) ∧
  (∀ (s : State) (n : Nat) (e : Fin 4), HostTurn s n 0x0101 4 false → s.slc.lease = some n → bit (hw s (polA e 0x44)) 1 = false → (polA e 0x44, 1) ∉ s.regs.cmdQueued →
    (pol s e).events ≠ 0 → ∃ t, exec (.poolClose n e) s = .next t ∧ (pol t e).blockNo = (pol s e).blockNo + 1 ∧
      (pol t e).events = 0 ∧ cnt64 t (polA e 0x50) = (cnt64 s (polA e 0x50) + 1) % 2 ^ 64 ∧ Replied n 0x0101 stOK [] s t))

/-- MEM_SPARE, RETRAIN, NEW_DRAM and STOP of RNL_CMD (R37, R280, R305, R312, R333). A first write of MEM_SPARE in PROVISIONED puts the inverted value on the list of OTP objects. RETRAIN takes a channel in service out for its retraining. NEW_DRAM of a channel that is not active advances its DRAM generation and forgets its repairs. STOP marks a moving host channel, which stops at its next burst boundary. -/
def Obligations.MemoryBits : Prop :=
  (∀ (s : State) (n : Nat) (v : Word), HostTurn s n 0x0101 4 false → s.slc.lease = some n → lifecycle s = 1 → readHw s 0x80808 = 15 → v &&& maskOf 0x80808 ≠ 15 →
    ∃ t, exec (.memSpareWrite n v) s = .next t ∧
      t.sec.otpQueue = s.sec.otpQueue ++ [[(0x28, BitVec.ofNat 8 (15 - (v &&& maskOf 0x80808).toNat % 16))]] ∧
      Replied n 0x0101 stOK [] s t) ∧
  (∀ (s : State) (n : Nat) (c : Fin 9), HostTurn s n 0x0101 4 false → s.slc.lease = some n → bit (hw s (memA c 0x44)) 0 = false → (memA c 0x44, 0) ∉ s.regs.cmdQueued →
    ((dch s c).code = 1 ∨ (dch s c).code = 2) → ∃ t, exec (.retrain n c) s = .next t ∧ (dch t c).code = 7 ∧
      (∀ d, d ≠ c.val → dch t d = dch s d) ∧ Replied n 0x0101 stOK [] s t) ∧
  (∀ (s : State) (n : Nat) (c : Fin 9), HostTurn s n 0x0101 4 false → s.slc.lease = some n → bit (hw s (memA c 0x44)) 1 = false → (memA c 0x44, 1) ∉ s.regs.cmdQueued →
    chanActive s c = false → (dch s c).gen < 7 → ∃ t, exec (.newDram n c) s = .next t ∧ (dch t c).gen = (dch s c).gen + 1 ∧
      (dch t c).pprUsed = 0 ∧ (dch t c).hppr = [] ∧ (dch t c).cells = (dch s c).cells ∧ Replied n 0x0101 stOK [] s t) ∧
  (∀ (s : State) (n : Nat) (b : Fin 8), HostTurn s n 0x0101 4 false → s.slc.lease = some n → bit (hw s 0x91044) b = false → (0x91044, b.val) ∉ s.regs.cmdQueued →
    (rch s (24 + b)).state = .moving → ∃ t, exec (.rnlCmdStop n (BitVec.ofNat 8 (2 ^ b.val))) s = .next t ∧
      (rch t (24 + b)).stop = true ∧ (rch t (24 + b)).state = .moving ∧ Replied n 0x0101 stOK [] s t)

/-- RESUME_ALL, SEAL_NOW and SNAP (R37, R272, R359, R404, R405). RESUME_ALL with HALT_N high resumes every stream. SEAL_NOW within 1 s of the previous seal waits for that second to pass, and makes a seal at once after it where a leaf of an LMS epoch is at hand or none is ever to come. SNAP takes a snapshot where a buffer is free, and its bit stays set until the snapshot completes. -/
def Obligations.StreamAndLedgerBits : Prop :=
  (∀ (s : State) (n : Nat), HostTurn s n 0x0101 4 false → s.slc.lease = some n → bit (hw s 0xB0044) 0 = false → (0xB0044, 0) ∉ s.regs.cmdQueued → s.pins.haltN = true →
    ∃ t, exec (.resumeAllBit n) s = .next t ∧ (∀ k, streamHalted t k = false) ∧ bit (hw t 0xB0044) 0 = false ∧
      Replied n 0x0101 stOK [] s t) ∧
  (∀ (s : State) (n : Nat), HostTurn s n 0x0101 4 false → s.slc.lease = some n → bit (hw s 0x70044) 0 = false → (0x70044, 0) ∉ s.regs.cmdQueued → sealSpaced s = false →
    ∃ t, exec (.sealNow n) s = .next t ∧ t.cis = { s.cis with nowWait := true } ∧ bit (hw t 0x70044) 0 = true ∧
      Replied n 0x0101 stOK [] s t) ∧
  (∀ (s : State) (n : Nat), HostTurn s n 0x0101 4 false → s.slc.lease = some n → bit (hw s 0x70044) 0 = false → (0x70044, 0) ∉ s.regs.cmdQueued → sealSpaced s = true →
    (lmsExhausted s = true ∨ (0 < s.sec.lmsLeft ∧ s.cis.sealWait = [] ∧ s.sec.lmsGen = false)) →
    ∃ t, exec (.sealNow n) s = .next t ∧ t.cis.sealNo = s.cis.sealNo + 1 ∧ t.cis.sealAt = some s.cnt.ticks ∧ Replied n 0x0101 stOK [] s t) ∧
  (∀ (s : State) (n : Nat), HostTurn s n 0x0101 4 false → s.slc.lease = some n → bit (hw s 0xD0044) 0 = false → (0xD0044, 0) ∉ s.regs.cmdQueued → snapRoom s = true →
    ∃ t, exec (.snap n) s = .next t ∧ t.lgr.snapNo = s.lgr.snapNo + 1 ∧ t.lgr.snapCmd = some (s.lgr.snapNo + 1) ∧
      (t.lgr.snaps.head?.map (·.no)) = some (s.lgr.snapNo + 1) ∧ bit (hw t 0xD0044) 0 = true ∧ Replied n 0x0101 stOK [] s t)

/-- WINDOW_OPEN, RAIL_JOINS_WINDOW, WINDOW_CLOSE and WINDOW_QCAL_DONE (R76, R78, R79, R80, R82, R83, R89, R88). The first rail to meet its warning condition opens a window; samples that do not meet it open none. Its log entry has the dated-back start stamp, the rail and its coarse-minimum code, the count of windows advances, coverage begins and commits are held. A further rail that meets its condition joins the mask of the window and of its entry. The window closes once every rail in the mask has cleared, and not before: the entry then takes the end stamp and the hold runs 10 ms more. When the quick calibration after it is done, the entries that wait take its stamp and the coverage ends. When the hold after a brown-out window ends, commits are no longer held and HOLD_END is set; the queue stays. -/
def Obligations.SupplyWindows : Prop :=
  ((∀ (s : State) (r : Fin 9) (l : List Int), s.boot ≠ .held → s.pwr.window = none →
    (meetsWarning s r l = true → ∃ t, exec (.windowOpen r l) s = .next t ∧
      t.pwr.window = some (BitVec.ofNat 9 (2 ^ r.val)) ∧ t.pwr.coverage = true ∧ commitsHeld t = true ∧
      t.pwr.windowNo = s.pwr.windowNo + 1 ∧ (logEntry t s.pwr.logNext).start = windowStartStamp s ∧
      (logEntry t s.pwr.logNext).rails = BitVec.ofNat 9 (2 ^ r.val) ∧ (logEntry t s.pwr.logNext).index = s.pwr.windowNo + 1 ∧
      (logEntry t s.pwr.logNext).min = minRaise r (coarseCode s r l) 0 ∧
      cnt64 t 0xF0058 = (cnt64 s 0xF0058 + 1) % 2 ^ 64 ∧ bit (hw t 0xF0040) 0 = true ∧ t.regs.active = s.regs.active) ∧
    (meetsWarning s r l = false → ∃ t, exec (.windowOpen r l) s = .next t ∧
      t = { s with pwr := { s.pwr with below := t.pwr.below } })) ∧
  (∀ (s : State) (r : Fin 9) (l : List Int) (w : BitVec 9), s.boot ≠ .held → s.pwr.window = some w →
    (w.getLsbD r = true ∨ meetsWarning s r l = true → ∃ t, exec (.railJoinsWindow r l) s = .next t ∧
      t.pwr.window = some (w ||| BitVec.ofNat 9 (2 ^ r.val)) ∧
      (logEntry t (lastLog s)).rails = w ||| BitVec.ofNat 9 (2 ^ r.val) ∧
      (logEntry t (lastLog s)).min = minRaise r (coarseCode s r l) (logEntry s (lastLog s)).min ∧ t = { s with pwr := t.pwr }) ∧
    (w.getLsbD r = false → meetsWarning s r l = false → ∃ t, exec (.railJoinsWindow r l) s = .next t ∧
      t = { s with pwr := { s.pwr with below := t.pwr.below } })) ∧
  (∀ (s : State) (w : BitVec 9) (rails : List (List Int)) (longest : Nat), s.boot ≠ .held → s.pwr.window = some w →
    ((∀ r < 9, (w.getLsbD r = true → railClears s r (rails.getD r []) = true) ∧
        (w.getLsbD r = false → meetsWarning s r (rails.getD r []) = false)) → rails.length = 9 →
      ∃ t, exec (.windowClose rails longest) s = .next t ∧ t.pwr.window = none ∧
        t.pwr.holdEnd = some (s.cnt.ticks + 5000000) ∧ (logEntry t (lastLog s)).stop = now s ∧
        (logEntry t (lastLog s)).start = (logEntry s (lastLog s)).start ∧
        bit (hw t 0xF0040) 1 = true ∧ t.regs.active = s.regs.active) ∧
    (∀ r < 9, w.getLsbD r = true → railClears s r (rails.getD r []) = false →
      ∃ t, exec (.windowClose rails longest) s = .next t ∧ t.pwr.window.isSome = true ∧ t = { s with pwr := t.pwr })) ∧
  (∀ s : State, s.boot ≠ .held → s.pwr.qcalFor ≠ [] → s.clk.stopped = false → (∀ c < 16, (conv s c).qcal = none) →
    s.pwr.window = none → ∃ t, exec .windowQcalDone s = .next t ∧ t.pwr.coverage = false ∧ t.pwr.qcalFor = [] ∧
      t.pwr.covEnd = now s ∧ (∀ i ∈ s.pwr.qcalFor, (logEntry t i).qcal = now s) ∧ Raised 0xF0040 2 s t)) ∧
  (∀ (s : State) (u : Nat), s.boot ≠ .held → s.pwr.window = none → s.pwr.holdEnd = some u →
    (u ≤ s.cnt.ticks → ∃ t, exec .commitHoldEnd s = .next t ∧ commitsHeld t = false ∧ Raised 0xF0040 3 s t ∧
      t.commits = { s.commits with held := false } ∧ t.regs.active = s.regs.active) ∧
    (s.cnt.ticks < u → exec .commitHoldEnd s = .next s))

/-- THERMAL_READING (R87, R88). A reading enters the sensor's register; the sensor counts as hot exactly where it is above WARN, and as it rises above WARN the WARN event is set. Only sensor registers, the maximum, their events and the thermal record change. -/
def Obligations.Temperature : Prop :=
  (∀ (s : State) (k : Fin 8) (v : BitVec 16), s.boot ≠ .held → ∃ t, exec (.thermalReading k v) s = .next t ∧
    hw t (0xF0080 + 4 * k.val) = wd v.toNat ∧
    t.pwr.hot.getLsbD k = decide ((256 * (Nat.min 110 (cfgF s 0xF0004 0 8) : Nat) : Int) < tempOf v) ∧
    (∀ j : Fin 8, j ≠ k → t.pwr.hot.getLsbD j = s.pwr.hot.getLsbD j) ∧
    ((256 * (Nat.min 110 (cfgF s 0xF0004 0 8) : Nat) : Int) < tempOf v → s.pwr.hot.getLsbD k = false → bit (hw t 0xF0044) 0 = true) ∧
    t.pwr.window = s.pwr.window ∧ t.pwr.log = s.pwr.log ∧ t.clk = s.clk ∧ t.regs.active = s.regs.active)

/-- REF_COUNT_CHECK, REFCLK_C_CROSSCHECK, REFCLK_C_LOSS, REFCLK_C_RETURN and AON_TRIM (R92, R99, R103). A count of an absent reference within tolerance makes it present and starts its PLLs (in boot those of REFCLK_S wait for REFCLK_C); a failed one is retried after 100 ms, and none is made before; CORE then runs from REFCLK_C in bypass. A count outside it sets REF_BAD, and a reference that was present is lost: without REFCLK_C, CORE runs from AON and the core PLLs have no reference. The cross-check does the same at 1 %. AON_TRIM keeps the measured rate with REFCLK_C present, every 1 s. -/
def Obligations.ReferenceChecks : Prop :=
  (∀ (s : State) (k : Nat), s.boot ≠ .held → s.clk.refC = false → timerDue s tmRefCount 1 = true → countOk 100000 k 5 = true →
    ∃ t, exec (.refCountCheck .refC k) s = .next t ∧ t.clk.refC = true ∧ t.clk.coreSrc = .bypass ∧
      ∀ p ∈ [2, 3, 4, 5, 6], pll s p ≠ .retired → pll t p = .locking) ∧
  (∀ (s : State) (r : Ref) (k : Nat), timerDue s tmRefCount (match r with | .refS => 0 | .refC => 1) = false →
    exec (.refCountCheck r k) s = .next s) ∧
  (∀ (s : State) (k : Nat), s.boot ≠ .held → s.clk.refS = false → timerDue s tmRefCount 0 = true →
    (s.boot = .up ∨ s.clk.refC = true) → countOk (refEdges s .refS) k (if s.clk.trimmed then 1 else 5) = true →
    ∃ t, exec (.refCountCheck .refS k) s = .next t ∧ t.clk.refS = true ∧ (pll s 0 ≠ .retired → pll t 0 = .locking)) ∧
  (∀ (s : State) (k : Nat), s.boot ≠ .held → s.clk.refC = true → timerDue s tmRefCount 1 = true → countOk 100000 k 5 = false →
    ∃ t, exec (.refCountCheck .refC k) s = .next t ∧ t.clk.refC = false ∧ t.clk.coreSrc = .aon ∧ bit (hw t 0x10040) 8 = true ∧
      bit (hw t 0x10040) 7 = true ∧ t.clk.stopped = true) ∧
  (∀ (s : State) (k : Nat), s.boot ≠ .held → s.clk.refS = true → s.clk.refSFine = true → s.clk.refC = false → timerDue s tmCross 0 = true →
    countOk 100000 k 1 = true → ∃ t, exec (.refclkCCrosscheck k) s = .next t ∧ t.clk.refC = true ∧ t.clk.coreSrc = .bypass) ∧
  (∀ (s : State) (k : Nat), s.boot ≠ .held → s.clk.refS = true → s.clk.refSFine = true → s.clk.refC = true → timerDue s tmCross 0 = true →
    countOk 100000 k 1 = false → ∃ t, exec (.refclkCCrosscheck k) s = .next t ∧ t.clk.refC = false ∧ bit (hw t 0x10040) 8 = true) ∧
  (∀ s : State, s.boot ≠ .held → s.clk.refC = true → ∃ t, exec .refclkCLoss s = .next t ∧ t.clk.refC = false ∧
    t.clk.coreSrc = .aon ∧ bit (hw t 0x10040) 7 = true ∧ ∀ p ∈ [2, 3], pll s p ≠ .retired → pll t p = .noref) ∧
  (∀ s : State, s.boot ≠ .held → s.clk.refC = false → ∃ t, exec .refclkCReturn s = .next t ∧ t.clk.refC = true ∧
    t.clk.coreSrc = .bypass ∧ (∀ p ∈ [2, 3, 4, 5, 6], pll s p ≠ .retired → pll t p = .locking) ∧
    t = { s with clk := t.clk, timers := t.timers }) ∧
  (∀ (s : State) (hz : Nat), s.boot ≠ .held → s.clk.refC = true → timerDue s tmTrim 0 = true → ∃ t, exec (.aonTrim hz) s = .next t ∧ t.clk.trimmed = true ∧
    hw t 0x10048 = wd (2 ^ 31 + hz % 2 ^ 25) ∧ (∀ a, a ≠ 0x10048 → hw t a = hw s a) ∧
    t = { s with clk := { s.clk with trimmed := true }, regs := { s.regs with hw := t.regs.hw },
                 timers := (timerGrid tmTrim 0 (1000 * msTicks) s).timers }) ∧
  (∀ (s : State) (hz : Nat), s.clk.refC = false ∨ timerDue s tmTrim 0 = false → exec (.aonTrim hz) s = .next s)

/-- PLL_LOCK_DETECT and SETTLE_TIMER_EXPIRY (R94, R95, R113). Lock detect takes a locking PLL to SETTLING, starts its settling timer and touches nothing else. When that timer ends, and not before, the sample, time and memory PLLs and the core PLL in use drive their outputs, the core PLL in use also CORE; the other core PLL waits as a standby with WARM at 1 and is off with WARM at 0 while CORE runs from its PLL. -/
def Obligations.PllLocking : Prop :=
  (∀ (s : State) (p : Fin 7), s.boot ≠ .held → (pll s p = .locking ∨ pll s p = .hold) →
    ∃ t, exec (.pllLockDetect p) s = .next t ∧ pll t p = .settling ∧ (∀ q, q ≠ p.val → pll t q = pll s q) ∧
      t = { s with clk := { s.clk with pll := t.clk.pll }, timers := (timerSet tmSettle p (settleTicks s) s).timers }) ∧
  (∀ (s : State) (p : Fin 7), timerDue s tmSettle p = false → exec (.settleTimerExpiry p) s = .next s) ∧
  (∀ (s : State) (p : Fin 7), s.boot ≠ .held → pll s p = .settling → timerDue s tmSettle p = true → (p.val < 2 ∨ 4 ≤ p.val) →
    ∃ t, exec (.settleTimerExpiry p) s = .next t ∧ pll t p = .inUse) ∧
  (∀ (s : State) (p : Fin 7), s.boot ≠ .held → pll s p = .settling → timerDue s tmSettle p = true → p.val = coreIndex s →
    ∃ t, exec (.settleTimerExpiry p) s = .next t ∧ pll t p = .inUse ∧ t.clk.coreSrc = .pll ∧ t.clk.switching = false) ∧
  (∀ (s : State) (p : Fin 7), s.boot ≠ .held → pll s p = .settling → timerDue s tmSettle p = true → p.val = coreOther s →
    s.clk.coreSrc = .pll → ∃ t, exec (.settleTimerExpiry p) s = .next t ∧ pll t p = (if warm s then .standbyReady else .off) ∧ t.clk.coreSrc = .pll)

/-- SAMPLE_PLL_UNLOCK, REFCLK_S_LOSS, TIME_PLL_UNLOCK, TIU_CLOCK_RETURN, BACKUP_STEER and CORE_PLL_UNLOCK (R20, R96, R97, R98, R105). An unlock of the sample PLL or of the core PLL in use stops the sample clock, is counted and sets its event, and the PLL locks again; CORE moves to bypass for the latter. Without REFCLK_S both its PLLs have no reference. While the time PLL is out device time continues on the backup; on its return the primary is reloaded from the backup. The backup is steered to the primary every 1 ms as long as that runs. A standby core PLL that unlocks is counted and locks again, with CORE as it was. -/
def Obligations.ClockLosses : Prop :=
  (∀ s : State, s.boot ≠ .held → pll s 0 = .inUse → ∃ t, exec .samplePllUnlock s = .next t ∧ t.clk.stopped = true ∧
    pll t 0 = .locking ∧ hw t 0x10050 = hw s 0x10050 + 1 ∧ bit (hw t 0x10040) 0 = true) ∧
  (∀ s : State, s.boot ≠ .held → s.clk.refS = true → pll s 0 = .inUse → pll s 1 = .inUse →
    ∃ t, exec .refclkSLoss s = .next t ∧ t.clk.refS = false ∧ t.clk.stopped = true ∧ pll t 0 = .noref ∧ pll t 1 = .noref ∧
      t.tb.backup = true ∧ bit (hw t 0x10040) 6 = true) ∧
  (∀ s : State, s.boot ≠ .held → pll s 1 = .inUse → ∃ t, exec .timePllUnlock s = .next t ∧ pll t 1 = .locking ∧
    t.tb.backup = true ∧ hw t 0x10054 = hw s 0x10054 + 1 ∧ bit (hw t 0x10040) 1 = true ∧ ∀ c < 12, (tiuCh t c).ready = false) ∧
  (∀ s : State, s.boot ≠ .held → pll s 1 = .inUse → s.tb.backup = true → ∃ t, exec .tiuClockReturn s = .next t ∧
    t.tb = { s.tb with backup := false, acc := s.tb.backAcc } ∧ now t = now s ∧ Raised 0x10140 9 s t) ∧
  (∀ s : State, s.boot ≠ .held → s.tb.backup = false → timerDue s tmSteer 0 = true →
    exec .backupSteer s = .next { s with tb := { s.tb with backAcc := s.tb.acc, backStep := timePace s },
                                         timers := (timerGrid tmSteer 0 msTicks s).timers }) ∧
  (∀ s : State, s.tb.backup = true ∨ timerDue s tmSteer 0 = false → exec .backupSteer s = .next s) ∧
  (∀ s : State, s.boot ≠ .held → pll s (coreIndex s) = .inUse → s.clk.refC = true → ∃ t, exec (.corePllUnlock false) s = .next t ∧
    t.clk.coreSrc = .bypass ∧ pll t (coreIndex s) = .locking ∧ t.clk.stopped = true ∧ bit (hw t 0x10040) 2 = true) ∧
  (∀ s : State, s.boot ≠ .held → pll s (coreOther s) = .standbyReady → s.clk.refC = true →
    ∃ t, exec (.corePllUnlock true) s = .next t ∧ pll t (coreOther s) = .locking ∧ t.clk.coreSrc = s.clk.coreSrc ∧
      hw t (0x10050 + 4 * coreOther s) = hw s (0x10050 + 4 * coreOther s) + 1 ∧
      t = { s with clk := { s.clk with pll := t.clk.pll }, regs := { s.regs with hw := t.regs.hw } })

/-- CORE_RELOCK_TIMEOUT, CORE_PLL_RETRY, MEM_PLL_UNLOCK, MEM_PLL_RELOCK and SERDES_PLL_UNLOCK (R98, R100, R101). A core PLL that does not relock within RELOCK_MS is retired with C_RETIRED, and the other one is brought in: a standby drives CORE at once, one that is off starts to lock. With no other core PLL left, a retry every 1 s with CORE in bypass leaves the one there is settling where it locked and locking where it did not. A memory PLL in use that unlocks is counted and gated in HOLD, its channels in self-refresh; when it is back it drives its channels. A SerDes PLL that unlocks takes its port down. -/
def Obligations.CorePllExchange : Prop :=
  (∀ s : State, s.boot ≠ .held → s.clk.coreSrc = .bypass → pll s (coreIndex s) = .locking → pll s (coreOther s) = .off →
    timerRan s tmRelock 0 = true → ∃ t, exec .coreRelockTimeout s = .next t ∧ t.clk.coreB = !s.clk.coreB ∧ pll t (coreIndex s) = .retired ∧
      pll t (coreOther s) = .locking ∧ bit (hw t 0x10040) 4 = true) ∧
  (∀ s : State, s.boot ≠ .held → s.clk.coreSrc = .bypass → pll s (coreIndex s) = .locking → pll s (coreOther s) = .standbyReady →
    timerRan s tmRelock 0 = true → ∃ t, exec .coreRelockTimeout s = .next t ∧ t.clk.coreB = !s.clk.coreB ∧ pll t (coreIndex s) = .retired ∧
      pll t (coreOther s) = .inUse ∧ t.clk.coreSrc = .pll ∧ bit (hw t 0x10040) 4 = true ∧ bit (hw t 0x10040) 3 = true) ∧
  (∀ s : State, timerRan s tmRelock 0 = false → exec .coreRelockTimeout s = .next s) ∧
  (∀ (s : State) (a b : Bool), s.boot ≠ .held → s.clk.coreSrc = .bypass → pll s (coreOther s) = .retired →
    pll s (coreIndex s) = .locking → timerDue s tmCoreRetry 0 = true → timerRuns s tmRelock 0 = false →
    ∃ t, exec (.corePllRetry a b) s = .next t ∧
      pll t (coreIndex s) = (if (if s.clk.coreB then b else a) then .settling else .locking) ∧
      (∀ q, q ≠ coreIndex s → pll t q = pll s q) ∧ t = { s with clk := { s.clk with pll := t.clk.pll }, timers := t.timers }) ∧
  (∀ (s : State) (a b : Bool), pll s (coreOther s) ≠ .retired ∨ timerDue s tmCoreRetry 0 = false →
    exec (.corePllRetry a b) s = .next s) ∧
  (∀ (s : State) (i : Fin 3), s.boot ≠ .held → pll s (4 + i) = .inUse →
    ∃ t, exec (.memPllUnlock i) s = .next t ∧ pll t (4 + i) = .hold ∧ hw t (0x10060 + 4 * i) = hw s (0x10060 + 4 * i) + 1 ∧
      bit (hw t 0x10040) 5 = true ∧ ∀ c ∈ [3 * i.val, 3 * i.val + 1, 3 * i.val + 2], (dch s c).code ≠ 0 →
        (dch t c).selfRef = true ∧ (dch t c).zqcs = true ∧ (dch t c).cells = (dch s c).cells) ∧
  (∀ (s : State) (i : Fin 3), s.boot ≠ .held → (pll s (4 + i) = .locking ∨ (pll s (4 + i) = .settling ∧ timerDue s tmSettle (4 + i) = true)) →
    s.clk.refC = true → ∃ t, exec (.memPllRelock i) s = .next t ∧ pll t (4 + i) = .inUse) ∧
  (∀ (s : State) (p : Fin 2), s.boot ≠ .held → (port s p).up = true → ∃ t, exec (.serdesPllUnlock p) s = .next t ∧
    (port t p).up = false ∧ (port t p).tx = none ∧ bit (hw t (ethA p 0x80)) 1 = true)

/-- TIME_SET, TIME_SET_TIMEOUT and TIME_GET (R109, R388). TIME_SET needs the lease and is refused with STATE under SOURCE = PTP. At once, device time reads the stamp from then on: where it was valid this is a step, counted and signalled; where it was UNSET with SOURCE = FREE it becomes FREERUN with the SET event. AT_PPS waits. A wait that times out is answered with TIMEOUT and leaves device time alone. TIME_GET answers time, quality, offset and UTC. -/
def Obligations.TimeCommands : Prop :=
  (∀ (s : State) (n : Nat) (st : Stamp), HostTurn s n 0x0700 12 false → s.slc.lease = some n → tbSource (cfg s) ≠ 1 →
    s.tb.state ≠ .unset → ∃ t, exec (.timeSet n st false) s = .next t ∧ Replied n 0x0700 stOK (stampBytes st) s t ∧
      now t = st ∧ t.tb.state = s.tb.state ∧ t.tb.epoch = (s.tb.epoch + 1) % 16 ∧ hw t 0x10164 = hw s 0x10164 + 1 ∧
      Raised 0x10140 1 s t) ∧
  (∀ (s : State) (n : Nat) (st : Stamp), HostTurn s n 0x0700 12 false → s.slc.lease = some n → tbSource (cfg s) = 0 →
    s.tb.state = .unset → ∃ t, exec (.timeSet n st false) s = .next t ∧ Replied n 0x0700 stOK (stampBytes st) s t ∧
      now t = st ∧ t.tb.state = .freerun ∧ bit (hw t 0x10140) 0 = true ∧ t.lgr.epochSet = true) ∧
  (∀ (s : State) (n : Nat) (st : Stamp), HostTurn s n 0x0700 12 false → s.slc.lease = some n → tbSource (cfg s) ≠ 1 →
    exec (.timeSet n st true) s =
      .next (timerSet tmTimeSet n (10000 * msTicks) (setSes n { ses s n with wait := some (.timeSet st) } s))) ∧
  (∀ (s : State) (n : Nat) (st : Stamp) (pps : Bool), HostTurn s n 0x0700 12 false → (s.slc.lease ≠ some n ∨ tbSource (cfg s) = 1) →
    ∃ t, exec (.timeSet n st pps) s = .next t ∧ OnlyReplies n s t ∧
      Replied n 0x0700 (if s.slc.lease = some n then stState else stNotOwner) [] s t) ∧
  (∀ s : State, s.boot ≠ .held → ∃ t, exec .timeSetTimeout s = .next t ∧ t.tb = s.tb ∧
    ∀ n, (timerDue s tmTimeSet n = false → ses t n = ses s n) ∧
      ∀ st, (ses s n).wait = some (.timeSet st) → timerDue s tmTimeSet n = true → (ses t n).wait = none) ∧
  (∀ (s : State) (n : Nat) (st : Stamp), s.boot ≠ .held → timeWaiters s = [(n, st)] → timerDue s tmTimeSet n = true → ∃ t, exec .timeSetTimeout s = .next t ∧
    Replied n 0x0700 stTimeout [] s t ∧ OnlyReplies n s t) ∧
  (∀ (s : State) (n : Nat), HostTurn s n 0x0701 24 true → ∃ t, exec (.timeGet n) s = .next t ∧
    Replied n 0x0701 stOK (stampTqb s ++ wordBytes (hw s 0x10154) ++ wordBytes (hw s 0x10160)) s t ∧ OnlyReplies n s t)

/-- HOLDOVER_ENTRY, FREERUN_ENTRY, PPS_OUT_PULSE, PPS_OUT_WIDTH_END and LEAP_APPLY (R107, R111, R112). Without measurements for the time of R107 ACQUIRING or LOCKED falls to HOLDOVER with F at its mean over 64 s and SOURCE_LOST, and HOLDOVER to FREERUN after HOLDOVER_S; device time itself does not move. PPS_OUT goes high as device time, advanced by OUT_ADVANCE, crosses a whole second where it is enabled and device time is valid or ALLOW_UNSET is 1, and low after WIDTH_MS. At the UTC midnight of an announced leap second the reported offset changes by it and the announcement clears; device time does not change. -/
def Obligations.TimeStates : Prop :=
  (∀ s : State, s.boot ≠ .held → (s.tb.state = .acquiring ∨ s.tb.state = .locked) →
    timerDue s tmMeas 0 = true → ∃ t, exec .holdoverEntry s = .next t ∧
    t.tb.state = .holdover ∧ t.tb.freq = clampI (-freqLimit) freqLimit (freqMean s) ∧ t.tb.acc = s.tb.acc ∧ now t = now s ∧
    bit (hw t 0x10140) 3 = true ∧ bit (hw t 0x10140) 5 = true ∧
    (tbSource (cfg s) = 1 → 2 ≤ cfgF s 0x10100 2 2 → s.ptp.port = 0 → t.ptp.port = 1) ∧ t.regs.active = s.regs.active) ∧
  (∀ s : State, s.boot ≠ .held → s.tb.state = .holdover → timerDue s tmHoldover 0 = true → ∃ t, exec .freerunEntry s = .next t ∧
    t.tb = { s.tb with state := .freerun, lockCount := 0, source := 0 } ∧ Raised 0x10140 4 s t ∧
    EventOnly { s with tb := { s.tb with state := .freerun, lockCount := 0, source := 0 } } t) ∧
  (∀ s : State, s.boot ≠ .held → cfgB s 0x10110 0 = true → (timeValid s = true ∨ cfgB s 0x10110 1 = true) →
    crossesSecond s = true → exec .ppsOutPulse s =
      .next (timerSet tmPpsWidth 0 (ppsWidth s * msTicks) { s with pins := { s.pins with ppsOut := true } })) ∧
  (∀ s : State, (crossesSecond s = false ∨ cfgB s 0x10110 0 = false ∨ (timeValid s = false ∧ cfgB s 0x10110 1 = false)) → exec .ppsOutPulse s = .next s) ∧
  (∀ s : State, s.boot ≠ .held → timerDue s tmPpsWidth 0 = true →
    exec .ppsOutWidthEnd s = .next (timerStop tmPpsWidth 0 { s with pins := { s.pins with ppsOut := false } })) ∧
  (∀ s : State, timerDue s tmPpsWidth 0 = false → exec .ppsOutWidthEnd s = .next s) ∧
  (∀ s : State, timerDue s tmMeas 0 = false → exec .holdoverEntry s = .next s) ∧
  (∀ s : State, timerDue s tmHoldover 0 = false → exec .freerunEntry s = .next s) ∧
  (∀ s : State, s.boot ≠ .held → s.tb.leapSign ≠ 0 → s.tb.leapDone = false → s.tb.leapAt * second ≤ now s →
    ∃ t, exec .leapApply s = .next t ∧ hw t 0x10160 = wd (twos 16 (sgn 16 (hw s 0x10160).toNat + s.tb.leapSign)) ∧
      t.tb = { s.tb with leapDone := true } ∧ now t = now s ∧ Raised 0x10140 7 s t)

/-- PTP_MESSAGE, PTP_SYNC_TX, DELAY_REQ_TX and ANNOUNCE_TX (R107, R108, R346). A message on the port not selected is dropped and counted. A better Announce makes its sender the parent and reports its UTC offset; a worse one makes the device master, unless SLAVE_ONLY. A measurement from the parent puts the clock in SLAVE: an offset of STEP_LIMIT or more, or the first one, steps device time by it, a smaller one leaves device time where it is. The offset counted is that of the messages less ASYM (a reading of the model, log entry 218). Masters send Sync, with Follow_Up unless ONE_STEP, Delay_Resp to a request, and Announce, each at its interval; slaves send their delay request; with P2P the request of the peer is answered. -/
def Obligations.PtpCommands : Prop :=
  (∀ (s : State) (p : Fin 2) (m : PtpMsg), s.boot ≠ .held → p.val ≠ ptpPort s → ∃ t, exec (.ptpMessage p m) s = .next t ∧
    hw t 0xA2050 = hw s 0xA2050 + 1 ∧ (∀ a, a ≠ 0xA2050 → hw t a = hw s a) ∧ t = { s with regs := { s.regs with hw := t.regs.hw } }) ∧
  (∀ (s : State) (p : Fin 2) (m : PtpMsg), s.boot ≠ .held → p.val = ptpPort s → tbSource (cfg s) = 1 → m.kind = .announce →
    m.better = true → ∃ t, exec (.ptpMessage p m) s = .next t ∧ cnt64 t 0xA2044 = m.parent % 2 ^ 64 ∧ t.ptp.master = false ∧
      (t.ptp.state = 8 ∨ t.ptp.state = 9) ∧ t.tb.acc = s.tb.acc ∧
      hw t 0x10160 = wd (twos 16 m.utc + (if m.leap61 then 2 ^ 16 else 0) + (if m.leap59 then 2 ^ 17 else 0))) ∧
  (∀ (s : State) (p : Fin 2) (m : PtpMsg), s.boot ≠ .held → p.val = ptpPort s → tbSource (cfg s) = 1 → m.kind = .announce →
    m.better = false → exec (.ptpMessage p m) s =
      .next (if cfgB s 0x10100 4 then s else { s with ptp := { s.ptp with state := 6, master := true } })) ∧
  (∀ (s : State) (p : Fin 2) (m : PtpMsg), s.boot ≠ .held → p.val = ptpPort s → tbSource (cfg s) = 1 → m.kind = .delayReq →
    cfgB s 0xA2000 2 = true → ∃ t, exec (.ptpMessage p m) s = .next t ∧ t = { s with ports := t.ports } ∧
      port t p = { port s p with classA := (port s p).classA ++
        ([{ kind := .ptp, dst := 0, bytes := le 1 3 }] ++ if cfgB s 0xA2000 3 then [] else [{ kind := .ptp, dst := 0, bytes := le 1 0xA }]) }) ∧
  (∀ (s : State) (p : Fin 2) (m : PtpMsg), s.boot ≠ .held → p.val = ptpPort s → tbSource (cfg s) = 1 → m.kind = .delayReq →
    cfgB s 0xA2000 2 = false → s.ptp.master = true → ∃ t, exec (.ptpMessage p m) s = .next t ∧ t = { s with ports := t.ports } ∧
      port t p = { port s p with classA := (port s p).classA ++ [{ kind := .ptp, dst := 0, bytes := le 1 9 }] }) ∧
  (∀ (s : State) (p : Fin 2) (m : PtpMsg) (off : Int), let th := off - ptpAsym s p
    s.boot ≠ .held → p.val = ptpPort s → tbSource (cfg s) = 1 →
    (m.kind = .sync ∨ m.kind = .followUp ∨ m.kind = .delayResp) → m.parent % 2 ^ 64 = ptpParent s →
    (s.ptp.state = 8 ∨ s.ptp.state = 9) → m.offset = some off → -(2 ^ 31) ≤ th → th < 2 ^ 31 → 256 * th ≤ (now s : Nat) →
    ∃ t, exec (.ptpMessage p m) s = .next t ∧ t.ptp.state = 9 ∧ t.tb.source = 1 ∧ hw t 0x10154 = wd (twos 32 th) ∧
      hw t 0xA204C = wd m.delay ∧ t.tb.state ≠ .unset ∧
      ((now t : Nat) : Int) = (now s : Nat) - (if s.tb.state = .unset ∨ stepLimit (cfg s) ≤ th.natAbs then 256 * th else 0)) ∧
  (∀ s : State, s.boot ≠ .held → s.ptp.master = true → tbSource (cfg s) = 1 → s.ptp.syncAt ≤ s.cnt.ticks → ∃ t, exec .ptpSyncTx s = .next t ∧
    t = { s with ports := t.ports, ptp := { s.ptp with syncAt := nextDue s s.ptp.syncAt (ptpTicks (cfgF s 0xA2004 0 8)) } } ∧
    port t (ptpPort s) = { port s (ptpPort s) with classA := (port s (ptpPort s)).classA ++
      ([{ kind := .ptp, dst := 0, bytes := le 1 0 }] ++ if cfgB s 0xA2000 3 then [] else [{ kind := .ptp, dst := 0, bytes := le 1 8 }]) }) ∧
  (∀ s : State, s.boot ≠ .held → tbSource (cfg s) = 1 → (s.ptp.state = 8 ∨ s.ptp.state = 9) → s.ptp.reqAt ≤ s.cnt.ticks →
    ∃ t, exec .delayReqTx s = .next t ∧
    t = { s with ports := t.ports, ptp := { s.ptp with reqAt := s.cnt.ticks + ptpTicks (cfgF s 0xA2004 16 8) } } ∧
    port t (ptpPort s) = { port s (ptpPort s) with classA := (port s (ptpPort s)).classA ++
      [{ kind := .ptp, dst := 0, bytes := le 1 (if cfgB s 0xA2000 2 then 2 else 1) }] }) ∧
  (∀ s : State, s.boot ≠ .held → s.ptp.master = true → tbSource (cfg s) = 1 → s.ptp.annAt ≤ s.cnt.ticks → ∃ t, exec .announceTx s = .next t ∧
    t = { s with ports := t.ports, ptp := { s.ptp with annAt := nextDue s s.ptp.annAt (ptpTicks (cfgF s 0xA2004 8 8)) } } ∧
    port t (ptpPort s) = { port s (ptpPort s) with classA := (port s (ptpPort s)).classA ++ [{ kind := .ptp, dst := 0, bytes := le 1 0xB }] })

/-- TIU_EDGE_STAMP, PPS_IN_EDGE and MEASUREMENT_TIMEOUT (R110, R149, R150, R152, R157, R158, R161). An edge that the channel takes outside its dead time is counted, starts a dead time and enters the FIFO where the channel asks for it, with its stamp; one inside the dead time is counted as missed. The edge of a TIN channel reaches the armed trigger units that take it. A monitor stamp outside every window is stray; the first one inside an open window is the launch stamp. An accepted PPS edge is remembered with its tick, another raises PPS_REJECTED and changes no time. A measurement without its stop ends as TIMEOUT once WIN clocks have passed. -/
def Obligations.TiuCommands : Prop :=
  (∀ (s : State) (ch : Fin 12) (c k : Nat) (rising : Bool), s.boot ≠ .held → pll s 1 = .inUse → (tiuCh s ch).failed = false →
    k < 768 → takesEdge (tiuSlope (cfg s) ch) rising = true → inDead (tiuCh s ch) c = false →
    ∃ t, exec (.tiuEdgeStamp ch c k rising) s = .next t ∧ hw t (tiuA ch 0x1C) = hw s (tiuA ch 0x1C) + 1 ∧
      (tiuCh t ch).ready = !deadCal s ch ∧ (tiuCh t ch).inCal = deadCal s ch ∧
      (tiuCh t ch).dead = (c + (if deadCal s ch then 12 else 3)) % 2 ^ 48 ∧ (∀ q, q ≠ ch.val → tiuCh t q = tiuCh s q) ∧
      (cfgB s (tiuA ch 0) 17 = true → s.tiu.fifo.length < 4096 → ∃ more, t.tiu.fifo = s.tiu.fifo ++
        [{ stamp := (edgeOf s ch c k rising).stamp, tqb := tqb s, typ := 0, source := ch, flags := (edgeOf s ch c k rising).flags,
           value := 0, count := (tiuCh s ch).missed, lost := s.tiu.lost }] ++ more)) ∧
  (∀ (s : State) (ch : Fin 12) (c k : Nat) (rising : Bool), s.boot ≠ .held → pll s 1 = .inUse → (tiuCh s ch).failed = false →
    k < 768 → takesEdge (tiuSlope (cfg s) ch) rising = true → inDead (tiuCh s ch) c = true →
    ∃ t, exec (.tiuEdgeStamp ch c k rising) s = .next t ∧
      hw t (tiuA ch 0x14) = wd (Nat.min (2 ^ 32 - 1) ((hw s (tiuA ch 0x14)).toNat + 1)) ∧
      hw t (tiuA ch 0x1C) = hw s (tiuA ch 0x1C) ∧ t.tb = s.tb ∧ t.lch = s.lch) ∧
  (∀ (s : State) (p : Fin 4) (c k : Nat) (rising : Bool), s.boot ≠ .held → pll s 1 = .inUse → (tiuCh s p).failed = false →
    k < 768 → takesEdge (tiuSlope (cfg s) p) rising = true → inDead (tiuCh s p) c = false →
    ((lch s p).shots.any (inWindow (edgeOf s p c k rising).stamp) = false →
      ∃ t, exec (.tiuEdgeStamp (p.castLE (by decide)) c k rising) s = .next t ∧ t.lch = s.lch ∧
        hw t (lchA p 0x58) = wd (Nat.min (2 ^ 32 - 1) ((hw s (lchA p 0x58)).toNat + 1)) ∧ bit (hw t (lchA p 0x40)) 4 = true) ∧
    (∀ x : Shot, (lch s p).shots = [x] → x.launch = none → inWindow (edgeOf s p c k rising).stamp x = true →
      ∃ t y, exec (.tiuEdgeStamp (p.castLE (by decide)) c k rising) s = .next t ∧ (lch t p).shots = [y] ∧
        y.launch = some (edgeOf s p c k rising).stamp ∧ y.index = x.index ∧ hw t (lchA p 0x58) = hw s (lchA p 0x58))) ∧
  (∀ (s : State) (ch : Fin 12) (c k : Nat) (rising : Bool), s.boot ≠ .held → pll s 1 = .inUse → (tiuCh s ch).failed = false →
    k < 768 → takesEdge (tiuSlope (cfg s) ch) rising = true → inDead (tiuCh s ch) c = false → 5 ≤ ch.val →
    ∃ t, exec (.tiuEdgeStamp ch c k rising) s = .next t ∧ t.tb = s.tb ∧ t.lch = s.lch ∧
      ∀ u < 8, unitSt t u = if (unitSt s u).armed = true ∧ unitSource (cfg s) u = 1 ∧ unitTin (cfg s) u + 5 = ch.val
        then { unitSt s u with tins := (unitSt s u).tins ++
          [rhe (posOfTime s (edgeOf s ch c k rising).stamp (256 * lps (cfg s)) - (s.cnv.base * (256 * lps (cfg s)) : Nat)) 4000] }
        else unitSt s u) ∧
  (∀ (s : State) (c k : Nat), s.boot ≠ .held → pll s 1 = .inUse → (tiuCh s 4).failed = false → tiuSlope (cfg s) 4 ≠ 0 →
    k < 768 → inDead (tiuCh s 4) c = false →
    ∃ t, exec (.ppsInEdge c k) s = .next t ∧ hw t (tiuA 4 0x1C) = hw s (tiuA 4 0x1C) + 1 ∧
      (ppsAccepted (tickOf s c) s.tb.lastPps = true → t.tb.lastPps = some (tickOf s c)) ∧
      (ppsAccepted (tickOf s c) s.tb.lastPps = true → timeWaiters s = [] → tbSource (cfg s) ≠ 2 →
        t.tb = { s.tb with lastPps := some (tickOf s c) }) ∧
      (ppsAccepted (tickOf s c) s.tb.lastPps = false → t.tb = s.tb ∧ bit (hw t 0x10140) 6 = true)) ∧
  (∀ (s : State) (m : Fin 4) (a : Edge), s.boot ≠ .held → (ctxCfg (cfg s) m).mode ≠ 3 → (ctxCfg (cfg s) m).nStat = 1 →
    (tiuCtx s m).start = some a → ((ctxCfg (cfg s) m).win : Int) ≤ coarseDiff s.cnt.coarse.toNat a.c → s.tiu.fifo.length < 4096 →
    ∃ t e, exec (.measurementTimeout m) s = .next t ∧ (tiuCtx t m).start = none ∧ (∀ q, q ≠ m.val → tiuCtx t q = tiuCtx s q) ∧
      t.tiu.fifo = s.tiu.fifo ++ [e] ∧ e.typ = 1 ∧ e.stamp = a.stamp ∧ e.flags = a.flags ||| 2 ∧ e.value = 0 ∧
      Raised 0x31600 6 s t)

/-- TIU_REARM, TIU_PERIODIC_CAL and SPARE_LINE_CAL (R151, R152, R153). A calibration that passes gives the channel its tap size and line offset and makes it ready; one that fails is counted and holds the coefficients. The third failure in a row retires the line, and the lowest free spare takes over with LINE_SWAP. An idle spare that passes has its failures cleared, and its third failure in a row retires it. -/
def Obligations.TiuCalibration : Prop :=
  (∀ (s : State) (ch : Fin 12) (n1 n2 : Nat), s.boot ≠ .held → calibratable s ch = true → (tiuCh s ch).ready = false →
    beforeDead (tiuCh s ch) s.cnt.coarse.toNat = false → calPasses n1 n2 = true → ∃ t, exec (.tiuRearm ch n1 n2) s = .next t ∧
      tiuCh t ch = { tiuCh s ch with tap := (calCoefs n1 n2).1, off := (calCoefs n1 n2).2, fails := 0, held := false, ready := true, inCal := false } ∧
      (∀ q, q ≠ ch.val → tiuCh t q = tiuCh s q) ∧ hw t (tiuA ch 0x18) = wd (n1 % 1024 + 65536 * (n2 % 1024)) ∧
      t = { s with tiu := { s.tiu with chs := t.tiu.chs }, regs := { s.regs with hw := t.regs.hw } }) ∧
  (∀ (s : State) (ch : Fin 12) (n1 n2 : Nat), s.boot ≠ .held → calibratable s ch = true → calEach (cfg s) ch = false →
    (tiuCh s ch).inCal = true → beforeDead (tiuCh s ch) s.cnt.coarse.toNat = false → calPasses n1 n2 = true → ∃ t, exec (.tiuPeriodicCal ch n1 n2) s = .next t ∧
      tiuCh t ch = { tiuCh s ch with tap := (calCoefs n1 n2).1, off := (calCoefs n1 n2).2, fails := 0, held := false, ready := true, inCal := false } ∧
      t = { s with tiu := { s.tiu with chs := t.tiu.chs }, regs := { s.regs with hw := t.regs.hw } }) ∧
  (∀ (s : State) (ch : Fin 12) (n1 n2 : Nat), s.boot ≠ .held → calibratable s ch = true → (tiuCh s ch).ready = false →
    beforeDead (tiuCh s ch) s.cnt.coarse.toNat = false → calPasses n1 n2 = false → (tiuCh s ch).fails < 2 → ∃ t, exec (.tiuRearm ch n1 n2) s = .next t ∧
      tiuCh t ch = { tiuCh s ch with fails := (tiuCh s ch).fails + 1, held := true, ready := decide ((tiuCh s ch).tap ≠ 0), inCal := false } ∧
      Raised 0x31600 0 s t) ∧
  (∀ (s : State) (ch : Fin 12) (n1 n2 k : Nat), s.boot ≠ .held → calibratable s ch = true → (tiuCh s ch).ready = false →
    beforeDead (tiuCh s ch) s.cnt.coarse.toNat = false → calPasses n1 n2 = false → 2 ≤ (tiuCh s ch).fails →
    spareFree { s with tiu := { s.tiu with retired := s.tiu.retired ||| BitVec.ofNat 14 (2 ^ lineOf s ch),
                                           spareOf := s.tiu.spareOf.filter fun e => decide (e.2 ≠ ch.val) } } = some k →
    ∃ t, exec (.tiuRearm ch n1 n2) s = .next t ∧ (tiuCh t ch).line = some (12 + k) ∧ (tiuCh t ch).ready = false ∧ (tiuCh t ch).inCal = true ∧
      hw t (tiuA ch 0x18) = wd (smGet 0 k s.tiu.spareCal) ∧
      smGet 99 k t.tiu.spareOf = ch.val ∧ t.tiu.retired = s.tiu.retired ||| BitVec.ofNat 14 (2 ^ lineOf s ch) ∧
      bit (hw t 0x31600) 1 = true) ∧
  (∀ (s : State) (l : Fin 2) (n1 n2 : Nat), s.boot ≠ .held → pll s 1 = .inUse → smFind l.val s.tiu.spareOf = none →
    s.tiu.retired.getLsbD (12 + l.val) = false → timerDue s tmSpareCal l = true →
    (calPasses n1 n2 = true → ∃ t, exec (.spareLineCal l n1 n2) s = .next t ∧ smGet 0 l.val t.tiu.spareFails = 0 ∧
      smGet 0 l.val t.tiu.spareCal = n1 % 1024 + 65536 * (n2 % 1024) ∧
      t = timerGrid tmSpareCal l (1000 * msTicks) { s with tiu := { s.tiu with spareFails := t.tiu.spareFails, spareCal := t.tiu.spareCal } }) ∧
    (calPasses n1 n2 = false → ∃ t, exec (.spareLineCal l n1 n2) s = .next t ∧
      smGet 0 l.val t.tiu.spareFails = smGet 0 l.val s.tiu.spareFails + 1 ∧ bit (hw t 0x31600) 0 = true ∧
      t.tiu.retired.getLsbD (12 + l.val) = decide (2 ≤ smGet 0 l.val s.tiu.spareFails)))

/-- ROTATION_PERIOD_END and QCAL_STEP_END (R120, R123, R125, R127, R129). At the end of a rotation period a spare that passes takes its coefficients and the next position in turn, and the slice that stood there becomes the spare; the substitution is counted. One that fails is retired, and the converter has no spare. A step of a quick calibration substitutes in the same way; after the ninth the calibration of the converter is complete, and with the last converter QCAL_DONE is set. -/
def Obligations.Rotation : Prop :=
  (∀ (s : State) (c : Fin 16) (m : SliceMeas) (sp : Nat), s.boot ≠ .held → (conv s c).spare = some sp → (conv s c).on = true →
    (conv s c).qcal = none → s.clk.stopped = false → (conv s c).rotStart + rotLen (cfg s) ≤ s.cnt.smp → sliceCheck m = 0 →
    (conv s c).faulty = [] → ∃ t, exec (.rotationPeriodEnd c m) s = .next t ∧ (conv t c).rotStart = (conv s c).rotStart + rotLen (cfg s) ∧
      (conv t c).pos = (conv s c).pos.set (conv s c).q sp ∧
      (conv t c).spare = some ((conv s c).pos.getD (conv s c).q 0) ∧ (conv t c).q = ((conv s c).q + 1) % 8 ∧
      (conv t c).retired = (conv s c).retired ∧ cnt64 t (cvA c 8) = (cnt64 s (cvA c 8) + 1) % 2 ^ 64 ∧
      hw t (cvA c (0x40 + 8 * sp)) = wd (satU 16 (rhe (2 ^ 47) (2 ^ 32 + m.gainErr).toNat)).toNat ∧
      (∀ k, k ≠ c.val → conv t k = conv s k) ∧ t.regs.active = s.regs.active ∧ t.lgr = s.lgr) ∧
  (∀ (s : State) (c : Fin 16) (m : SliceMeas) (sp : Nat), s.boot ≠ .held → (conv s c).spare = some sp → (conv s c).on = true →
    (conv s c).qcal = none → s.clk.stopped = false → (conv s c).rotStart + rotLen (cfg s) ≤ s.cnt.smp → sliceCheck m ≠ 0 → (conv s c).faulty = [] → (conv s c).retired = 0 →
    ∃ t, exec (.rotationPeriodEnd c m) s = .next t ∧ (conv t c).pos = (conv s c).pos ∧ (conv t c).spare = none ∧
      (conv t c).retired = BitVec.ofNat 9 (2 ^ sp) ∧ (conv t c).failed = (conv s c).failed ∧
      hw t (cvA c 0x24) = wd (sliceCheck m + 16 * sp) ∧ bit (hw t 0x20040) 0 = true) ∧
  (∀ (s : State) (c : Fin 16) (m : SliceMeas) (sp k : Nat), s.boot ≠ .held → (conv s c).spare = some sp →
    (conv s c).qcal = some k → k + 1 < 9 → (conv s c).qcalWin = false → (conv s c).failed = false → (conv s c).retired = 0 →
    s.clk.stopped = false → (conv s c).stepStart + stepLen (cfg s) ≤ s.cnt.smp → sliceCheck m = 0 → (conv s c).faulty = [] →
    ∃ t, exec (.qcalStepEnd c m) s = .next t ∧ (conv t c).qcal = some (k + 1) ∧ (conv t c).stepStart = s.cnt.smp ∧
      (conv t c).pos = (conv s c).pos.set (conv s c).q sp ∧ (∀ j, j ≠ c.val → conv t j = conv s j)) ∧
  (∀ (s : State) (c : Fin 16) (m : SliceMeas) (sp : Nat), s.boot ≠ .held → (conv s c).spare = some sp →
    (conv s c).qcal = some 8 → (conv s c).qcalWin = false → (conv s c).failed = false → (conv s c).retired = 0 →
    s.clk.stopped = false → (conv s c).stepStart + stepLen (cfg s) ≤ s.cnt.smp → sliceCheck m = 0 → (conv s c).faulty = [] →
    s.regs.cmdQueued = [] → s.cnv.qcalOpen = true →
    (∀ j < 16, j ≠ c.val → (conv s j).qcal = none) →
    ∃ t, exec (.qcalStepEnd c m) s = .next t ∧ (conv t c).qcal = none ∧ (conv t c).spareOk = true ∧ (conv t c).dark = false ∧ (conv t c).rotStart = s.cnt.smp ∧
      t.cnv.qcalOpen = false ∧ t.cnv.modeCal = false ∧ bit (hw t 0x20040) 5 = true)

/-- ISC_BLOCK_END, FG_WINDOW_START, FG_WINDOW_END and INPUT_LEDGER_NOTICE (R130, R133, R134, R138, R403). A block in which no position fails changes nothing. A slice that fails while the spare has passed, in a quick calibration or in the present rotation period, is replaced by the spare at once and retired, with SLICE_FAULT; one that fails before that waits for the spare. A foreground window opens, FG_LEN slice clocks long, once in each place that R133 gives the port, and ends with its count once they have passed, retiring no slice that passed. A notice brings 1 to 64 slice clocks that have elapsed: each enters the ledger of the input as elapsed, and as delivered, or as discarded in a window or where the lane is not in use or carries no samples. -/
def Obligations.ConverterChecks : Prop :=
  (∀ (s : State) (c : Fin 16) (l : List PosStat) (st : Stamp) (m : Option SliceMeas), s.boot ≠ .held → iscFailed l = [] → (conv s c).qcal = none →
    exec (.iscBlockEnd c l st m) s = .next s) ∧
  (∀ (s : State) (c : Fin 16) (l : List PosStat) (st : Stamp) (m : Option SliceMeas) (q sp : Nat), s.boot ≠ .held → cfgB s 0x20008 31 = true →
    (conv s c).on = true → (conv s c).inWindow = false → s.clk.stopped = false → l.length = 8 → iscFailed l = [q] →
    (conv s c).spare = some sp → ((conv s c).spareOk = true ∨ ∃ v, m = some v ∧ sliceCheck v = 0 ∧
      (conv s c).rotStart + rotLen (cfg s) / 2 ≤ s.cnt.smp) → (conv s c).qcal = none → (conv s c).retired = 0 →
    (conv s c).faulty = [] → ∃ t, exec (.iscBlockEnd c l st m) s = .next t ∧
      (conv t c).pos = (conv s c).pos.set ((conv s c).pos.findIdx (· = (conv s c).pos.getD q 0)) sp ∧
      (conv t c).spare = none ∧ (conv t c).retired = BitVec.ofNat 9 (2 ^ (conv s c).pos.getD q 0) ∧
      (conv t c).failed = (conv s c).failed ∧ bit (hw t 0x20040) 4 = true ∧ bit (hw t 0x20040) 0 = true) ∧
  (∀ (s : State) (c : Fin 16) (l : List PosStat) (st : Stamp) (m : Option SliceMeas) (q sp : Nat), s.boot ≠ .held →
    cfgB s 0x20008 31 = true → (conv s c).on = true → (conv s c).inWindow = false → s.clk.stopped = false → l.length = 8 →
    iscFailed l = [q] → (conv s c).spare = some sp → (conv s c).spareOk = false → sparePassed s c m = none →
    (conv s c).qcal = none → (conv s c).pos.getD q 0 ∉ (conv s c).faulty → ∃ t, exec (.iscBlockEnd c l st m) s = .next t ∧
      conv t c = { conv s c with faulty := (conv s c).faulty ++ [(conv s c).pos.getD q 0] } ∧ bit (hw t 0x20040) 4 = true) ∧
  (∀ (s : State) (c : Fin 16) (p a : Nat), s.boot ≠ .held → onEight (conv s c) = true → (conv s c).inWindow = false →
    s.clk.stopped = false → portOfLane (cfg s) (laneOfConv (cfg s) c) = some p → fgPlace s p = some a → (conv s c).fgFrom ≠ a →
    ∃ t, exec (.fgWindowStart c) s = .next t ∧
      conv t c = { conv s c with inWindow := true, fgFrom := a, wins := (conv s c).wins ++
        [(ceilDiv s.cnt.smp 32000, ceilDiv s.cnt.smp 32000 + fgLen (cfg s))] } ∧ (∀ j, j ≠ c.val → conv t j = conv s j) ∧
      t = { s with cnv := { s.cnv with convs := t.cnv.convs } }) ∧
  (∀ (s : State) (c : Fin 16) (ms : List SliceMeas), s.boot ≠ .held → (conv s c).inWindow = true → (conv s c).qcalWin = false →
    windowOver s (conv s c) = true → s.regs.cmdQueued = [] → (∀ m ∈ ms, sliceCheck m = 0) → ∃ t, exec (.fgWindowEnd c ms) s = .next t ∧
      conv t c = { conv s c with inWindow := false, fgWant := false, fgDone := s.cnt.ticks } ∧
      (∀ j, j ≠ c.val → conv t j = conv s j) ∧ hw t (cvA c 0x20) = hw s (cvA c 0x20) + 1 ∧
      t = { s with cnv := { s.cnv with convs := t.cnv.convs }, regs := { s.regs with hw := t.regs.hw } }) ∧
  (∀ (s : State) (c : Fin 16) (codes : List (List Int)), s.boot ≠ .held → (conv s c).on = true → 0 < codes.length →
    codes.length ≤ 64 → (conv s c).done + codes.length ≤ s.cnt.smp / 32000 →
    ∃ t, exec (.inputLedgerNotice c codes) s = .next t ∧ (conv t c).done = (conv s c).done + codes.length ∧
      (let out := ((List.range codes.length).filter fun i =>
         laneRuns s (laneOfConv (cfg s) c) ((conv s c).done + i) && !clockInWindow (conv s c) ((conv s c).done + i)).length
       cnt64 t (inputLedger c 0) = (cnt64 s (inputLedger c 0) + codes.length) % 2 ^ 64 ∧
       cnt64 t (inputLedger c 1) = (cnt64 s (inputLedger c 1) + out) % 2 ^ 64 ∧
       cnt64 t (inputLedger c 2) = (cnt64 s (inputLedger c 2) + (codes.length - out)) % 2 ^ 64) ∧
      t.lch = s.lch ∧ t.lgr = s.lgr ∧ t.regs.active = s.regs.active ∧ (∀ k, k ≠ c.val → (conv t k).pos = (conv s k).pos))

/-- LAUNCH, FIRST_LAUNCH, SLOT_CODE_UPDATE, LAUNCH_PULSE_END and SAMPLE_CLOCK_RESUME (R143, R146, R147, R148, R161, R162, R163, R417). A launch of a slot after slot 0 is made at its tick of the grid: it takes the next index, raises LAUNCHn, and the grid moves to the next slot or the next cycle. In a foreground gap or while an ALIGNED commit waits it is withheld and counted. FIRST_LAUNCH begins the grid with slot 0 at the next slice-clock edge, and so does the resumption of the sample clock for an armed port. Before its tick nothing happens. SLOTn shows the code of the slot that launches next from SLOT_LEAD ticks before it, and LAUNCHn falls W ticks after its launch. As a shot's monitor window closes at its end, the launch enters the ledger once: with a stamp it counts as confirmed and its offset is the stamp less the ideal instant and the monitor delay; without one it is a MISS, with the MISS event and flag. -/
def Obligations.Launches : Prop :=
  ((∀ (s : State) (p : Fin 4) (g : Nat), s.boot ≠ .held → (lch s p).grid = some g → 0 < (lch s p).next → launching s p = true →
    (lch s p).alignHold = false → (lch s p).fgSkip = 0 → tickCome s (g + (lch s p).next * spacingOf (cfg s) p) = true →
    ∃ t x, exec (.launch p) s = .next t ∧ (lch t p).nextIndex = (lch s p).nextIndex + 1 ∧ (lch t p).lastSlot = (lch s p).next ∧
      (lch t p).shots = (lch s p).shots ++ [x] ∧ x.index = (lch s p).nextIndex ∧ x.slot = (lch s p).next ∧
      x.tick = g + (lch s p).next * spacingOf (cfg s) p ∧ x.tIdeal = timeOfPos s (4000 * x.tick : Nat) 1 ∧
      cnt64 t (lchA p 0x48) = (lch s p).nextIndex % 2 ^ 64 ∧ t.pins.launch.getLsbD p = !invertOf (cfg s) p ∧
      (lch t p).next = (if (lch s p).next + 1 < slotsOf (cfg s) p then (lch s p).next + 1 else 0) ∧
      (lch t p).grid = some (if (lch s p).next + 1 < slotsOf (cfg s) p then g else g + periodOf (cfg s) p) ∧
      (∀ q, q ≠ p.val → lch t q = lch s q) ∧ t.regs.active = s.regs.active) ∧
  (∀ (s : State) (p : Fin 4) (g : Nat), s.boot ≠ .held → (lch s p).grid = some g → 0 < (lch s p).next → launching s p = true →
    ((lch s p).alignHold = true ∨ 0 < (lch s p).fgSkip) → tickCome s (g + (lch s p).next * spacingOf (cfg s) p) = true →
    ∃ t, exec (.launch p) s = .next t ∧ (lch t p).nextIndex = (lch s p).nextIndex ∧ (lch t p).shots = (lch s p).shots ∧
      cnt64 t (lchA p 0x50) = (cnt64 s (lchA p 0x50) + 1) % 2 ^ 64 ∧ Raised (lchA p 0x40) 1 s t ∧ t.pins = s.pins) ∧
  (∀ (s : State) (p : Fin 4) (g : Nat), (lch s p).grid = some g → tickCome s (g + (lch s p).next * spacingOf (cfg s) p) = false →
    exec (.launch p) s = .next s) ∧
  (∀ (s : State) (p : Fin 4), s.boot ≠ .held → s.clk.resume = false → leadEdge s p 0 ≤ sliceEdge s → launching s p = true →
    (lch s p).grid = none → (lch s p).fallback = [] → calDone s p = true → s.commits.align = [] →
    ∃ t x, exec (.firstLaunch p) s = .next t ∧ (lch t p).grid.isSome = true ∧ (lch t p).nextIndex = (lch s p).nextIndex + 1 ∧
      (lch t p).shots.getLast? = some x ∧ x.slot = 0 ∧ x.tick = sliceEdge s ∧ x.index = (lch s p).nextIndex ∧
      bit (hw t (lchA p 0x40)) 0 = true) ∧
  (∀ (s : State) (p : Fin 4), s.boot ≠ .held → (lch s p).armed = true →
    ((lch s p).grid = none ∨ (lch s p).alignHold = true ∨ ∃ g, (lch s p).grid = some g ∧
      tickCome s (g + (lch s p).next * spacingOf (cfg s) p - slotLead (cfg s) p) = true) →
    ∃ t, exec (.slotCodeUpdate p) s = .next t ∧ smGet 0 p.val t.pins.slot = slotCodeOf (cfg s) p (nextSlot s p) ∧
      t = { s with pins := { s.pins with slot := t.pins.slot }, lch := t.lch }) ∧
  (∀ (s : State) (p : Fin 4), s.boot ≠ .held →
    (s.clk.stopped = true ∨ tickCome s (lastLaunch (lch s p) + widthOf (cfg s) p) = true) → ∃ t, exec (.launchPulseEnd p) s = .next t ∧
    t.pins.launch.getLsbD p = invertOf (cfg s) p ∧ (∀ q : Fin 4, q ≠ p → t.pins.launch.getLsbD q = s.pins.launch.getLsbD q) ∧
    t = { s with pins := { s.pins with launch := t.pins.launch } }) ∧
  (∀ (s : State) (p : Fin 4), s.boot ≠ .held → s.clk.resume = true → s.clk.stopped = false → (∀ c < 16, (conv s c).qcal = none) →
    (∀ q, (lch s q).fallback = []) → (∀ q, q ≠ p.val → (lch s q).armed = false) → s.commits.align = [] → (lch s p).armed = true →
    (lch s p).grid = none → calDone s p = true → ∃ t, exec .sampleClockResume s = .next t ∧ t.clk = { s.clk with resume := false } ∧
      (lch t p).grid.isSome = true ∧ (lch t p).nextIndex = (lch s p).nextIndex + 1 ∧ bit (hw t (lchA p 0x40)) 0 = true)) ∧
  ((∀ (s : State) (p : Fin 4) (x : Shot) (l : List Shot), s.boot ≠ .held → (lch s p).shots = x :: l → (∃ w, x.window = some w ∧ w.2 ≤ now s) →
    x.words = none → x.launch = none → ∃ t y, exec (.monitorWindowClose p) s = .next t ∧ (lch t p).shots = y :: l ∧
      y.window = none ∧ y.flags = x.flags ||| fMISS ∧ y.index = x.index ∧
      cnt64 t (lgrFp p 0) = (cnt64 s (lgrFp p 0) + 1) % 2 ^ 64 ∧ cnt64 t (lgrFp p 8) = cnt64 s (lgrFp p 8) ∧
      cnt64 t (lgrFp p 0x10) = (cnt64 s (lgrFp p 0x10) + 1) % 2 ^ 64 ∧ bit (hw t (lchA p 0x40)) 2 = true) ∧
  (∀ (s : State) (p : Fin 4) (x : Shot) (l : List Shot) (st : Stamp), s.boot ≠ .held → (lch s p).shots = x :: l →
    (∃ w, x.window = some w ∧ w.2 ≤ now s) → x.words = none → x.launch = some st → ∃ t y, exec (.monitorWindowClose p) s = .next t ∧
      (lch t p).shots = y :: l ∧ y.window = none ∧ y.delta = (st : Int) - x.tIdeal - (monDelay (cfg s) p * 256 : Nat) ∧
      cnt64 t (lgrFp p 0) = (cnt64 s (lgrFp p 0) + 1) % 2 ^ 64 ∧ cnt64 t (lgrFp p 0x10) = cnt64 s (lgrFp p 0x10) ∧
      cnt64 t (lgrFp p 8) = (cnt64 s (lgrFp p 8) + 1) % 2 ^ 64))

/-- CHANNEL_UPDATE, Basin and RAW Pool records (R179, R187, R192, R193, R208, R209). CHANNEL_UPDATE takes the oldest shot of the port whose monitor window has closed: the header kept in LAST_HDR begins with its index, every channel of a shot that no clock stop cut is updated and counted, and no configuration word changes; with no such shot nothing happens. The scrub of a row that no channel updates counts a corrected error, or an uncorrectable one whose four channels lose all they hold. A row whose read-back failed takes the lowest spare row left, or its port loses a row; a spare row that fails is never assigned. A record of a RAW engine adds each of its samples to its entry, 0 for one of a foreground window, ends the block at the N-th, and is skipped where samples are missing; an entry whose read is uncorrectable counts from scratch. -/
def Obligations.ChannelStage : Prop :=
  (∀ (s : State) (p : Fin 4) (lanes : List (List Int)) (ovr : Bool) (errs : List BasinErr) (bad : List Nat) (x : Shot) (ts : List Shot),
    s.boot ≠ .held → (lch s p).shots = x :: ts → x.window = none → x.words = none → x.cut = none →
    ∃ t, exec (.channelUpdate p lanes ovr errs bad) s = .next t ∧ (lch t p).shots = ts ∧
      hw t (0x40100 + 0x1000 * p.val) = wd x.index ∧ hw t (0x40104 + 0x1000 * p.val) = wd (x.index / 2 ^ 32) ∧
      cnt64 t (0x40090 + 0x1000 * p.val) =
        (cnt64 s (0x40090 + 0x1000 * p.val) + Nat.min 65536 (channelsOf (cfg s) p)) % 2 ^ 64 ∧
      t.regs.active = s.regs.active ∧ t.regs.committed = s.regs.committed) ∧
  (∀ (s : State) (p : Fin 4) (lanes : List (List Int)) (ovr : Bool) (errs : List BasinErr) (bad : List Nat),
    (∀ x ∈ (lch s p).shots.head?, x.window.isSome = true) → exec (.channelUpdate p lanes ovr errs bad) s = .next s) ∧
  (∀ (s : State) (row : Nat), s.boot ≠ .held →
    (65536 ≤ row ∨ committedChannels s (row / 16384) ≤ 4 * (row % 16384) ∨ (lch s (row / 16384)).armed = false) →
    (∃ t, exec (.basinScrub row .corrected) s = .next t ∧ cnt64 t 0x43820 = (cnt64 s 0x43820 + 1) % 2 ^ 64 ∧
      Raised 0x43800 0 s t ∧ t.basin = s.basin) ∧
    (∃ t, exec (.basinScrub row (.uncorrectable true)) s = .next t ∧
      hw t 0x43828 = wd (Nat.min (2 ^ 32 - 1) ((hw s 0x43828).toNat + 1)) ∧ Raised 0x43800 1 s t ∧
      (row < 65536 → ∀ k < 65536, k / 4 = row % 16384 → chanOf t (row / 16384) k = {}))) ∧
  (∀ (s : State) (k : Nat), s.boot ≠ .held → s.basin.used ≤ k → k < 4096 → k ∉ s.basin.badSpares →
    ∃ t, exec (.basinScrub (65536 + k) (.uncorrectable false)) s = .next t ∧ t.basin = { s.basin with badSpares := s.basin.badSpares ++ [k] } ∧
      nextSpare t ≠ some k ∧ bit (hw t 0x43800) 1 = true) ∧
  (∀ (s : State) (row : Nat), s.boot ≠ .held → smGet 0 row s.basin.repair ≠ 0 →
    (∀ k, nextSpare s = some k → ∃ t, exec (.basinRowRetire row) s = .next t ∧ t.basin.used = k + 1 ∧ physRow t row = 65536 + k ∧
      smGet 0 row t.basin.repair = 0 ∧ bit (hw t 0x43800) 2 = true ∧ t.basin.chans = s.basin.chans) ∧
    (nextSpare s = none → ∃ t, exec (.basinRowRetire row) s = .next t ∧
      rowsLost t (row / 16384) = rowsLost s (row / 16384) + 1 ∧ smGet 0 row t.basin.repair = 0 ∧ bit (hw t 0x43800) 3 = true)) ∧
  (∀ (s : State) (e : Fin 4) (samples : List Int) (bad : List Nat) (x : PTrig) (ts : List PTrig), s.boot ≠ .held →
    (pol s e).trigs = x :: ts → samples.length < polCount (cfg s) e + (if polInterp (cfg s) e then 7 else 0) →
    ∃ t, exec (.poolRawRecordEnd e samples bad) s = .next t ∧ (pol t e).trigs = ts ∧ (pol t e).entries = (pol s e).entries ∧
      hw t (polA e 0x60) = wd (Nat.min (2 ^ 32 - 1) ((hw s (polA e 0x60)).toNat + 1)) ∧ Raised (polA e 0x40) 3 s t) ∧
  (∀ (s : State) (e : Fin 4) (samples : List Int) (bad : List Nat) (x : PTrig) (ts : List PTrig),
    let no (i : Nat) : Nat := ((laneNo s 0 : Nat) + x.t - (polPre (cfg s) e : Nat) + (i : Nat)).toNat
    s.boot ≠ .held → (pol s e).trigs = x :: ts → polInterp (cfg s) e = false → polCount (cfg s) e ≤ samples.length → (pol s e).running = true →
    ∃ t, exec (.poolRawRecordEnd e samples bad) s = .next t ∧ (pol t e).trigs = ts ∧
      ((pol s e).events + 1 < polN (cfg s) e → (pol t e).events = (pol s e).events + 1 ∧ (pol t e).seen = (pol s e).seen + 1 ∧
        ∀ i < polCount (cfg s) e, smGet {} i (pol t e).entries =
          entryTake (if zeroHits s (polLane (cfg s) e) (no i) (no i + 1) then 0 else samples.getD i 0)
            (if i ∈ bad ∧ polSource (cfg s) e ≠ 0 then {} else smGet {} i (pol s e).entries)) ∧
      (polN (cfg s) e ≤ (pol s e).events + 1 → (pol t e).blockNo = (pol s e).blockNo + 1 ∧ (pol t e).events = 0 ∧
        cnt64 t (polA e 0x50) = (cnt64 s (polA e 0x50) + 1) % 2 ^ 64))

/-- Lane trigger units: conditions, holdoff, dead time and allocations (R217, R220, R222, R224, R233, R234, R235, R236, R239, R240, R252). With the sample clock stopped a lane sample does nothing. An armed unit on LANE alone takes its sample into its detector; a condition that it meets outside its holdoff and dead time, on a unit that captures nothing, counts as met and as started, leaves its instant in the registers, sets FIRED, and fires its pin and the alarm. HOLDOFF_EXPIRY ends the holdoff whose time has passed and re-arms the unit, unless it captures and its post-trigger window is still open. POST_WINDOW_END, once the window has ended, opens the dead time of a capturing unit, which asks for its next allocation. ALLOCATION_ANSWER places the extent where R252 says and moves the write pointer behind it, or refuses. -/
def Obligations.WeirUnits : Prop :=
  (∀ (s : State) (i : Nat) (xs : List (Nat × Int)), s.boot ≠ .held → s.clk.stopped = true →
    exec (.laneTriggerCondition i xs) s = .next s) ∧
  (∀ (s : State) (i : Nat) (xs : List (Nat × Int)) (u : Fin 8) (l : Nat) (v : Int) (d : Cond),
    s.boot ≠ .held → s.clk.stopped = false → (∀ w : Fin 8, (unitSt s w).armed = decide (w = u)) → (unitSt s u).force = false →
    unitSource (cfg s) u = 0 → xs.find? (fun e => decide (e.1 = ownLane (cfg s) u)) = some (l, v) →
    (condStep (unitCond (cfg s) u) i v (unitSt s u).cond = (d, none) →
      exec (.laneTriggerCondition i xs) s = .next (setUnit u { unitSt s u with cond := d } s)) ∧
    (∀ a : Int, condStep (unitCond (cfg s) u) i v (unitSt s u).cond = (d, some a) → captures (cfg s) (.unit u) = false →
      (unitSt s u).hold = .none → (unitSt s u).deadOpen = none → ∃ t, exec (.laneTriggerCondition i xs) s = .next t ∧
        (unitSt t u).cond = d ∧ cnt64 t (0xD0800 + 0x40 * u.val) = (cnt64 s (0xD0800 + 0x40 * u.val) + 1) % 2 ^ 64 ∧
        cnt64 t (0xD0808 + 0x40 * u.val) = (cnt64 s (0xD0808 + 0x40 * u.val) + 1) % 2 ^ 64 ∧
        cnt64 t (unitAt u + 0x48) = twos 64 (a / 256) ∧ hw t (unitAt u + 0x50) = wd (a % 256).toNat ∧
        bit (hw t (unitAt u + 0x40)) 0 = true ∧
        (∀ k, wantsTrig (cfg s) (.unit u) = some k → t.pins.trigOut.getLsbD k = true) ∧
        (wantsAlarm (cfg s) (.unit u) = true → t.weir.alarm = true) ∧ t.cis = s.cis)) ∧
  (∀ (s : State) (u : UnitId) (q : Nat), s.boot ≠ .held → (wst s u).hold = .until q →
    (clockPast s u q = false → exec (.holdoffExpiry u) s = .next s) ∧
    (clockPast s u q = true → ∃ t, exec (.holdoffExpiry u) s = .next t ∧
      (captures (cfg s) u = true ∧ (wst s u).post.isSome = true → (wst t u).hold = .conds 0 ∧ (wst t u).deadOpen = (wst s u).deadOpen) ∧
      (captures (cfg s) u = false ∨ (wst s u).post = none → (wst t u).hold = .none ∧
        (captures (cfg s) u = false ∨ (wst s u).alloc = .accepted → (wst t u).deadOpen = none)))) ∧
  (∀ (s : State) (u : UnitId) (id : Nat), s.boot ≠ .held → (wst s u).post = some id → windowDone s u = true → inService s u = true →
    captures (cfg s) u = true → ((wst s u).alloc = .none ∨ (wst s u).alloc = .asked) → ∃ t, exec (.postWindowEnd u) s = .next t ∧ (wst t u).post = none ∧ (wst t u).alloc = .asked ∧
      (wst t u).deadOpen.isSome = true ∧ t.cis = { s.cis with segs := t.cis.segs }) ∧
  (∀ (s : State) (u : UnitId), windowDone s u = false → exec (.postWindowEnd u) s = .next s) ∧
  (∀ (s : State) (u : UnitId) (a : Nat),
    let r := regionOf (cfg s) u
    let n := ownSize (cfg s) u
    s.boot ≠ .held → (wst s u).alloc = .asked → regionOn (cfg s) r = true → dramUp s (dirBase (cfg s)) 64 = true →
    slotsFree s ≠ 0 → placeAt s r n = some a → dramUp s a n = true →
    (∀ g ∈ segsIn s r, takeable s g = true → meets a n g.base g.len = true → dramUp s (slotAt s g.slot) 64 = true) → ∃ t, exec (.allocationAnswer u) s = .next t ∧
      (wst t u).alloc = .accepted ∧ (region t r).allocs = (region s r).allocs ++ [{ unit := u, base := a, len := n }] ∧
      (region t r).write = (a + n - regionBase (cfg s) r) % regionSize (cfg s) r) ∧
  (∀ (s : State) (u : UnitId),
    let r := regionOf (cfg s) u
    s.boot ≠ .held → (wst s u).alloc = .asked → regionOn (cfg s) r = true → dramUp s (dirBase (cfg s)) 64 = true →
    (slotsFree s = 0 ∨ placeAt s r (ownSize (cfg s) u) = none) → ∃ t, exec (.allocationAnswer u) s = .next t ∧
      (wst t u).alloc = .refused ∧ t.cis = s.cis ∧ (slotsFree s = 0 → Raised 0x70040 2 s t) ∧
      (stopFull (cfg s) r = true → Raised (cisR r 0xC) 4 s t))

/-- Watches, pins and the evaluation lanes (R226, R228, R229, R231, R233, R237, R239, R240, R243). WATCH_CONDITION takes the oldest tap sample that waits. The one watch at its tap, of one channel and with COMBINE ANY, whose channel completes then outside its holdoff and dead time counts the condition as met and started and fires. WATCH_STATUS returns the status records of the watches it names, and BAD_LENGTH outside 1 to 128 watches of the table. A pulse whose width has passed ends, and PULSE_MS after the last fire the alarm of pulse mode clears. An evaluation lane that disagrees is replaced by a spare, and with no spare left the port loses it; a spare that disagrees is used up. -/
def Obligations.WeirPort : Prop :=
  (∀ (s : State) (p : Fin 4), (csc s p).queue = [] → exec (.watchCondition p) s = .next s) ∧
  (∀ (s : State) (p : Fin 4) (x : TapSample) (ts : List TapSample), s.boot ≠ .held → (csc s p).queue = x :: ts →
    ∃ t, exec (.watchCondition p) s = .next t ∧ (csc t p).queue = ts ∧ (smGet [] (tapKey p x.tap) t.weir.tapLog).head? = some (x.index, x.attr.stamp) ∧
      t.regs.active = s.regs.active) ∧
  (∀ (s : State) (p : Fin 4) (x : TapSample) (ts : List TapSample) (w : Nat) (d : Cond) (a : Int), s.boot ≠ .held →
    (csc s p).queue = x :: ts → fOver (weirDemand (cfg s) (enabledWatches s.regs.active) p) (weirLimit s p, 1) = false →
    (enabledWatches s.regs.active).filter (fun w => decide (watchFibre (cfg s) w = p) && decide (watchTap (cfg s) w = x.tap)) = [w] →
    (watchSt s w).since ≤ x.index → (watchSt s w).sinceShot ≤ x.attr.last → watchCombine (cfg s) w = 0 → watchCount (cfg s) w = 1 → watchFirst (cfg s) w ∉ x.gaps →
    nbit x.attr.flags 9 = false → nbit x.attr.flags 20 = false →
    condStep (watchCond (cfg s) w) x.index (watchValue (cfg s) w x (x.values.getD (watchFirst (cfg s) w) []))
      (smGet {} (watchFirst (cfg s) w) (watchSt s w).chans) = (d, some a) →
    captures (cfg s) (.watch w) = false → (watchSt s w).hold = .none → (watchSt s w).deadOpen = none →
    ∃ t, exec (.watchCondition p) s = .next t ∧ (watchSt t w).stat.met = (watchSt s w).stat.met + 1 ∧
      (watchSt t w).stat.started = (watchSt s w).stat.started + 1 ∧ (watchSt t w).lastT = twos 64 x.index ∧
      (watchSt t w).lastF = (a % 256).toNat ∧ (wantsAlarm (cfg s) (.watch w) = true → t.weir.alarm = true) ∧
      (∀ k, wantsTrig (cfg s) (.watch w) = some k → t.pins.trigOut.getLsbD k = true)) ∧
  (∀ (s : State) (n first count : Nat), HostTurn s n 0x0300 (64 * count) true →
    ((1 ≤ count ∧ count ≤ 128 ∧ first + count ≤ 16384) → ∃ t, exec (.watchStatus n first count) s = .next t ∧
      Replied n 0x0300 stOK ((List.range count).flatMap fun i => statusBytes (watchStatus s (first + i))) s t ∧
      OnlyReplies n s t) ∧
    (¬ (1 ≤ count ∧ count ≤ 128 ∧ first + count ≤ 16384) → ∃ t, exec (.watchStatus n first count) s = .next t ∧
      Replied n 0x0300 stBadLength [] s t ∧ OnlyReplies n s t)) ∧
  (∀ (s : State) (k : Fin 4), s.boot ≠ .held → timerDue s tmTrig k = true → ∃ t, exec (.trigOutPulseEnd k) s = .next t ∧
    (∀ j : Fin 4, t.pins.trigOut.getLsbD j = (s.pins.trigOut.getLsbD j && decide (j ≠ k))) ∧
    t = timerStop tmTrig k { s with pins := { s.pins with trigOut := t.pins.trigOut } }) ∧
  (∀ (s : State) (k : Fin 4), timerDue s tmTrig k = false → exec (.trigOutPulseEnd k) s = .next s) ∧
  (∀ s : State, s.boot ≠ .held →
    (cfgB s 0x61010 0 = false ∨ timerDue s tmAlarm 0 = false → exec .alarmPulseEnd s = .next s) ∧
    (cfgB s 0x61010 0 = true → timerDue s tmAlarm 0 = true → s.weir.alarm = true → ∃ t, exec .alarmPulseEnd s = .next t ∧ t.weir.alarm = false ∧
      Raised 0x61040 1 s t)) ∧
  (∀ (s : State) (p : Fin 4) (lane lost used : Nat) (ok : Bool), s.boot ≠ .held → lane < 18 →
    smGet (0, 0) p s.weir.lanes = (lost, used) →
    (used < 2 → ∃ t, exec (.evalLaneCheck p lane false ok) s = .next t ∧ smGet (0, 0) p t.weir.lanes = (lost, used + 1) ∧
      Raised 0x61040 2 s t) ∧
    (2 ≤ used → lost < 16 → ∃ t, exec (.evalLaneCheck p lane false ok) s = .next t ∧
      smGet (0, 0) p t.weir.lanes = (lost + 1, used) ∧ bit (hw t 0x61040) 3 = true) ∧
    (used < 2 → ∃ t, exec (.evalLaneCheck p lane true false) s = .next t ∧ smGet (0, 0) p t.weir.lanes = (lost, used + 1)) ∧
    exec (.evalLaneCheck p lane true true) s = .next s)

/-- Segments that close, reads that end, and seals that are made (R247, R256, R259, R264, R266, R268, R272, R273, R430). SEGMENT_CLOSE turns an OPEN segment whose windows are over and whose samples have been brought into a CLOSED one: what the copy finds in the histories is its body, HOLE, MISSING, POISONED and the flags of what it holds follow from it, its digest covers body and head block, its PREV is the last segment of its region, and the chain of the region moves over its descriptor and digest. PIN_SUSPENSION_END takes a unit out of suspension once the usable size of its region holds A_u again. SEGMENT_READ_END ends the hold of a segment whose last byte has left. SEAL_TIMER, when its interval has passed, seals the regions that advanced, spends a leaf and lets none advance twice; it makes no seal where none advanced, and waits while an epoch is being set up; a seal that waited is made when the epoch is ready, a requested one no sooner than a second after the previous one and an interval one only where some region has advanced, and a SEAL_NOW that waited when the second has passed. -/
def Obligations.SegmentEvents : Prop :=
  (∀ (s : State) (id : Nat) (g : Seg),
    let c := (segData g s).1
    let body := ((unitTable g).map (fun b => (b, false)) ++ c.data).take (g.len - 256)
    s.boot ≠ .held → segOf s id = some g →
    g.state = .opened → windowOpenOn s id = false → segBrought s g = true → dramUp s g.base g.len = true →
    dramUp s (slotAt s g.slot) 64 = true →
    ∃ t, exec (.segmentClose id) s = .next t ∧ ∃ g', segOf t id = some g' ∧ g'.state = .closed ∧
      g'.prevId = (region s g.region).lastSeg ∧ g'.base = g.base ∧ g'.len = g.len ∧ g'.hole = c.hole ∧
      g'.missing = g.missing + c.missing ∧
      g'.flags = g.flags ||| c.flags ||| laneFlags s g ||| (if body.any (·.2) then 0x10 else 0) |||
        (if 0 < c.hole then 0x40 else 0) ||| (if 0 < c.missing then 0x20 else 0) ∧
      g'.pinned = (g.pinned || pinOnClose (cfg s) g.region) ∧
      g'.digest = sha384 (padTo (g.len - 256) (body.map (·.1)) ++ headBlock g' []) ∧
      (region t g.region).links = ((region s g.region).links + 1) % 2 ^ 64 ∧ (region t g.region).lastSeg = id ∧
      (region t g.region).advanced = true ∧
      (region t g.region).chain = some (sha384 (chainOf s g.region ++ descriptor g' 0 ++ g'.digest)) ∧
      bit (hw t (cisR g.region 0xC)) 0 = true) ∧
  (∀ (s : State) (id : Nat) (g : Seg), segOf s id = some g → (windowOpenOn s id = true ∨ segBrought s g = false) →
    exec (.segmentClose id) s = .next s) ∧
  (∀ (s : State) (u : UnitId), s.boot ≠ .held → (wst s u).suspended = true →
    ownSize (cfg s) u ≤ usableSize s (regionOf (cfg s) u) → ∃ t, exec (.pinSuspensionEnd u) s = .next t ∧
      wst t u = { wst s u with suspended := false } ∧ Raised (cisR (regionOf (cfg s) u) 0xC) 5 s t ∧ t.cis = s.cis) ∧
  (∀ (s : State) (n : Nat) (q : SegRead), s.boot ≠ .held → (stream s n).reads = [q] →
    (q.bytes = 0 → ∃ t, exec (.segmentReadEnd n) s = .next t ∧ (stream t n).reads = [] ∧
      ∀ g, segOf s q.seg = some g → segOf t q.seg = some { g with held := g.held - 1 }) ∧
    (q.bytes ≠ 0 → exec (.segmentReadEnd n) s = .next s)) ∧
  (∀ s : State, timerDue s tmSeal 0 = false → exec .sealTimer s = .next s) ∧
  (∀ s : State, s.boot ≠ .held → timerDue s tmSeal 0 = true → sealRegions s false = [] → exec .sealTimer s = .next (sealTimed s)) ∧
  (∀ s : State, s.boot ≠ .held → timerDue s tmSeal 0 = true → sealRegions s false ≠ [] → 0 < s.sec.lmsLeft → s.cis.sealWait = [] → s.sec.lmsGen = false →
    ∃ t, exec .sealTimer s = .next t ∧ t.cis.sealNo = s.cis.sealNo + 1 ∧ cnt64 t 0x70050 = (s.cis.sealNo + 1) % 2 ^ 64 ∧
      sealRegions t false = [] ∧ (∃ r, t.cis.seals = (r :: s.cis.seals).take 16 ∧ r.take 8 = le 8 (s.cis.sealNo + 1)) ∧
      t.cis.sealAt = some s.cnt.ticks ∧ t.sec.lmsLeft = s.sec.lmsLeft - 1 ∧ Raised 0x70040 0 s t ∧ t.cis.segs = s.cis.segs) ∧
  (∀ s : State, s.boot ≠ .held → timerDue s tmSeal 0 = true → sealRegions s false ≠ [] → s.sec.lmsGen = true → ∃ t, exec .sealTimer s = .next t ∧
    t.cis = { s.cis with sealWait := s.cis.sealWait ++ [.interval] } ∧ Raised 0x70040 3 s t) ∧
  (∀ (s : State) (k : SealKind) (ks : List SealKind), s.boot ≠ .held → s.cis.sealWait = k :: ks →
    (s.sec.lmsGen = true → exec .sealDeferredStart s = .next s) ∧
    (s.sec.lmsGen = false → 0 < s.sec.lmsLeft → (k = .interval → sealRegions s false ≠ []) →
      (k = .host ∨ k = .cmd → sealSpaced s = true) → ∃ t, exec .sealDeferredStart s = .next t ∧ t.cis.sealWait = ks ∧
      t.cis.sealNo = s.cis.sealNo + 1 ∧ Raised 0x70040 0 s t) ∧
    (s.sec.lmsGen = false → 0 < s.sec.lmsLeft → k = .interval → sealRegions s false = [] →
      exec .sealDeferredStart s = .next { s with cis := { s.cis with sealWait := ks } }) ∧
    (k = .host ∨ k = .cmd → sealSpaced s = false → exec .sealDeferredStart s = .next s)) ∧
  (∀ s : State, s.boot ≠ .held →
    (s.cis.nowWait = false ∨ sealSpaced s = false → exec .sealSpacingEnd s = .next s) ∧
    (s.cis.nowWait = true → sealSpaced s = true → 0 < s.sec.lmsLeft → s.cis.sealWait = [] → s.sec.lmsGen = false → ∃ t,
      exec .sealSpacingEnd s = .next t ∧ t.cis.sealNo = s.cis.sealNo + 1 ∧ t.cis.sealAt = some s.cnt.ticks ∧ Raised 0x70040 0 s t))

/-- SEG_QUERY, SEG_PIN, SEG_UNPIN, SEG_RELEASE, SEG_READ and SEAL (R258, R259, R272, R276, R351, R388). SEG_QUERY returns slot and descriptor of a live segment and STATE for another identifier. SEG_PIN and SEG_UNPIN of the lease holder set and clear its pin. SEG_RELEASE frees a CLOSED segment that is neither pinned nor held, and counts it released; it returns STATE for one that is OPEN or pinned and BUSY for one being read. SEG_READ queues a range of a CLOSED segment on an enabled SEGMENT stream, holding the segment where it is first in the queue. SEAL makes a seal and returns its number, BUSY within a second of the previous one; or it returns one of the last sixteen records. -/
def Obligations.CisternCommands : Prop :=
  (∀ (s : State) (n id : Nat), HostTurn s n 0x0400 72 true →
    (∀ g, segOf s id = some g → ∃ t, exec (.segQuery n id) s = .next t ∧
      Replied n 0x0400 stOK (le 4 g.slot ++ le 4 0 ++ descriptor g (stateByte g)) s t ∧ OnlyReplies n s t) ∧
    (segOf s id = none → ∃ t, exec (.segQuery n id) s = .next t ∧ Replied n 0x0400 stState [] s t ∧ OnlyReplies n s t)) ∧
  (∀ (s : State) (n id : Nat) (g : Seg), HostTurn s n 0x0401 0 false → s.slc.lease = some n → segOf s id = some g →
    ∃ t, exec (.segPin n id) s = .next t ∧ segOf t id = some { g with pinned := true } ∧ Replied n 0x0401 stOK [] s t) ∧
  (∀ (s : State) (n id : Nat), HostTurn s n 0x0401 0 false → s.slc.lease ≠ some n → ∃ t, exec (.segPin n id) s = .next t ∧
    Replied n 0x0401 stNotOwner [] s t ∧ OnlyReplies n s t) ∧
  (∀ (s : State) (n id : Nat) (g : Seg), HostTurn s n 0x0402 0 false → s.slc.lease = some n → segOf s id = some g →
    ∃ t, exec (.segUnpin n id) s = .next t ∧ segOf t id = some { g with pinned := false } ∧ Replied n 0x0402 stOK [] s t) ∧
  (∀ (s : State) (n id : Nat) (g : Seg), HostTurn s n 0x0403 0 false → s.slc.lease = some n → segOf s id = some g →
    (g.state = .closed → g.pinned = false → g.held = 0 → g.region < 64 → (∀ c ∈ s.dram.chmap, c < 16) →
      ∃ t, exec (.segRelease n id) s = .next t ∧ segOf t id = none ∧ (∀ j, j ≠ id → segOf t j = segOf s j) ∧
        cnt64 t (lgrR g.region 0x10) = (cnt64 s (lgrR g.region 0x10) + 1) % 2 ^ 64 ∧ t.cis.regions = s.cis.regions ∧
        Replied n 0x0403 stOK [] s t) ∧
    (g.state = .opened ∨ g.pinned = true → ∃ t, exec (.segRelease n id) s = .next t ∧ Replied n 0x0403 stState [] s t ∧
      OnlyReplies n s t) ∧
    (g.state = .closed → g.pinned = false → 0 < g.held → ∃ t, exec (.segRelease n id) s = .next t ∧
      Replied n 0x0403 stBusy [] s t ∧ OnlyReplies n s t)) ∧
  (∀ (s : State) (n st id offset bytes : Nat) (g : Seg),
    let len := if bytes = 0 then g.len - offset else bytes
    HostTurn s n 0x0404 2 false → st < 4096 → streamOn s st = true → streamType s st = 3 → segOf s id = some g → g.state = .closed →
    (offset < g.len → offset + len ≤ g.len → (stream s st).reads.length < 16 →
      ∃ t, exec (.segRead n st id offset bytes) s = .next t ∧
        (stream t st).reads = (stream s st).reads ++ [{ seg := id, offset := offset, bytes := len }] ∧
        ((stream s st).reads = [] → segOf t id = some { g with held := g.held + 1 }) ∧
        Replied n 0x0404 stOK (le 2 (stream s st).reads.length) s t) ∧
    (offset < g.len → offset + len ≤ g.len → 16 ≤ (stream s st).reads.length →
      ∃ t, exec (.segRead n st id offset bytes) s = .next t ∧ Replied n 0x0404 stBusy [] s t ∧ OnlyReplies n s t)) ∧
  (∀ (s : State) (n i : Nat), HostTurn s n 0x0405 8 false → s.slc.lease = some n →
    (sealSpaced s = true → ∃ t, exec (.sealCmd n true i) s = .next t ∧
      Replied n 0x0405 stOK (le 8 (s.cis.sealNo + s.cis.sealWait.length + 1)) s t ∧
      (0 < s.sec.lmsLeft → s.cis.sealWait = [] → s.sec.lmsGen = false → t.cis.sealNo = s.cis.sealNo + 1)) ∧
    (sealSpaced s = false → ∃ t, exec (.sealCmd n true i) s = .next t ∧ Replied n 0x0405 stBusy [] s t ∧ OnlyReplies n s t)) ∧
  (∀ (s : State) (n i : Nat), HostTurn s n 0x0405 (s.cis.seals.getD i []).length true → i < 16 →
    (i < s.cis.seals.length → ∃ t, exec (.sealCmd n false i) s = .next t ∧
      Replied n 0x0405 stOK (s.cis.seals.getD i []) s t ∧ OnlyReplies n s t) ∧
    (s.cis.seals.length ≤ i → ∃ t, exec (.sealCmd n false i) s = .next t ∧ Replied n 0x0405 stState [] s t ∧ OnlyReplies n s t))

/-- ARM, DISARM, DISARM_ALL, ACQ_STATE and the HALT_N pin (R146, R359, R388, R391, R392, R470). ARM of the lease holder arms its targets and returns the stamp of the first launch, or waits for its stamp; it returns STATE or CAPACITY where R388 says so. ARM_AT_TIME arms the targets of every arm whose stamp has come. DISARM disarms its targets and takes them from the arms that wait; DISARM_ALL disarms everything, from any session. ACQ_STATE returns what is armed. HALT_N falling halts every stream that is not exempt and disarms everything; rising undoes neither. -/
def Obligations.Arming : Prop :=
  (∀ (s : State) (n : Nat) (tg : BitVec 16) (st : Option Stamp), HostTurn s n 0x0200 12 false → s.slc.lease = some n →
    (armState s tg st = true → ∃ t, exec (.arm n tg st) s = .next t ∧ Replied n 0x0200 stState [] s t ∧ OnlyReplies n s t) ∧
    (armState s tg st = false → (∃ u < 8, tg.getLsbD (8 + u) = true ∧ badUnit s (cfg s) u = true) →
      ∃ t, exec (.arm n tg st) s = .next t ∧ Replied n 0x0200 stCapacity [] s t ∧ OnlyReplies n s t)) ∧
  (∀ (s : State) (n : Nat) (tg : BitVec 16), HostTurn s n 0x0200 12 false → s.slc.lease = some n →
    (∀ u < 8, tg.getLsbD (8 + u) = true → badUnit s (cfg s) u = false) →
    (armState s tg none = false → ∃ t, exec (.arm n tg none) s = .next t ∧
      Replied n 0x0200 stOK (stampBytes (armStamp s tg (s.cnt.smp / 4000 + 1) (now s))) s t ∧
      (∀ p : Fin 4, tg.getLsbD p = true → (lch t p).armed = true) ∧ (tg.getLsbD 4 = true → t.cnv.direct = true) ∧
      (∀ u : Fin 8, tg.getLsbD (8 + u) = true → (unitSt t u).armed = true) ∧ t.arms = s.arms) ∧
    (∀ st : Stamp, armState s tg (some st) = false → ∃ t, exec (.arm n tg (some st)) s = .next t ∧
      Replied n 0x0200 stOK (stampBytes (armStamp s tg (tickAtStamp s st) st)) s t ∧ t.arms = s.arms ++ [(tg, st)] ∧
      t.lch = s.lch ∧ t.weir = s.weir ∧ t.cnv = s.cnv)) ∧
  (∀ s : State, s.boot ≠ .held → ∃ t, exec .armAtTime s = .next t ∧ t.arms = s.arms.filter (fun a => decide (now s < a.2)) ∧
    ∀ a ∈ s.arms, a.2 ≤ now s → (∀ p : Fin 4, a.1.getLsbD p = true → (lch t p).armed = true) ∧
      (∀ u : Fin 8, a.1.getLsbD (8 + u) = true → (unitSt t u).armed = true) ∧ (a.1.getLsbD 4 = true → t.cnv.direct = true)) ∧
  (∀ (s : State) (n : Nat) (tg : BitVec 16), HostTurn s n 0x0201 12 false → s.slc.lease = some n →
    ∃ t, exec (.disarm n tg) s = .next t ∧ Replied n 0x0201 stOK (stampBytes (now s)) s t ∧
      (∀ p : Fin 4, tg.getLsbD p = true → (lch t p).armed = false) ∧ (tg.getLsbD 4 = true → t.cnv.direct = false) ∧
      (∀ u : Fin 8, tg.getLsbD (8 + u) = true → (unitSt t u).armed = false) ∧ (∀ a ∈ t.arms, a.1 &&& tg = 0)) ∧
  (∀ (s : State) (n : Nat), HostTurn s n 0x0202 16 false → ∃ t, exec (.disarmAll n) s = .next t ∧
    Replied n 0x0202 stOK (stampTqb s) s t ∧ (∀ p : Fin 4, (lch t p).armed = false) ∧ t.cnv.direct = false ∧
    (∀ u : Fin 8, (unitSt t u).armed = false) ∧ (∀ a ∈ t.arms, a.1 &&& 0xFF1F = 0)) ∧
  (∀ (s : State) (n : Nat), HostTurn s n 0x0203 4 true → ∃ t, exec (.acqState n) s = .next t ∧
    Replied n 0x0203 stOK (le 4 (acqState s)) s t ∧ OnlyReplies n s t) ∧
  (∀ s : State, s.boot ≠ .held → s.pins.haltN = true → ∃ t, exec .haltNFall s = .next t ∧ t.pins.haltN = false ∧
    (∀ n < 4096, cfgB s (streamAt n) 7 = false → streamHalted t n = true) ∧ (∀ p : Fin 4, (lch t p).armed = false) ∧
    t.cnv.direct = false ∧ (∀ u : Fin 8, (unitSt t u).armed = false) ∧ Raised 0xC0040 6 s t) ∧
  (∀ s : State, s.pins.haltN = false → exec .haltNFall s = .next s) ∧
  (∀ s : State, s.boot ≠ .held → s.pins.haltN = false → ∃ t, exec .haltNRise s = .next t ∧
    t.pins = { s.pins with haltN := true } ∧ t.spt.haltAll = s.spt.haltAll ∧ t.spt.haltEx = s.spt.haltEx ∧ t.lch = s.lch ∧
    t.weir = s.weir ∧ Raised 0xC0040 7 s t)

/-- Halting, resuming, replaying and looking at streams (R359, R364, R372, R388). HALT_STREAMS halts every stream that is not exempt and leaves an exempt one as it was; HALT_STREAM halts one, whatever it is; both from any session. STREAM_RESUME and RESUME_ALL need the lease, end the halt, and return STATE while HALT_N is low. REPLAY of numbers that were sent joins the list of the stream, clipped to what was sent, and returns the oldest number held; it returns STATE for later numbers and BUSY with 64 in progress. STREAM_STATUS returns the records of the streams it names. -/
def Obligations.StreamCommands : Prop :=
  (∀ (s : State) (n : Nat), HostTurn s n 0x0500 16 false → ∃ t, exec (.haltStreams n) s = .next t ∧
    Replied n 0x0500 stOK (stampTqb s) s t ∧ (∀ m < 4096, cfgB s (streamAt m) 7 = false → streamHalted t m = true) ∧
    (∀ m ∈ exemptStreams s, streamHalted t m = streamHalted s m) ∧ Raised 0xB0040 0 s t) ∧
  (∀ (s : State) (n m : Nat), HostTurn s n 0x0501 16 false → m < 4096 → ∃ t, exec (.haltStream n m) s = .next t ∧
    Replied n 0x0501 stOK (stampTqb s) s t ∧ streamHalted t m = true ∧ (∀ k, k ≠ m → streamHalted t k = streamHalted s k) ∧
    Raised 0xB0040 0 s t) ∧
  (∀ (s : State) (n m : Nat), HostTurn s n 0x0502 0 false → m < 4096 → s.slc.lease = some n →
    (s.pins.haltN = true → ∃ t, exec (.streamResume n m) s = .next t ∧ Replied n 0x0502 stOK [] s t ∧ streamHalted t m = false ∧
      (∀ k, k ≠ m → streamHalted t k = streamHalted s k) ∧ (streamHalted s m = true → Raised 0xB0040 1 s t)) ∧
    (s.pins.haltN = false → ∃ t, exec (.streamResume n m) s = .next t ∧ Replied n 0x0502 stState [] s t ∧ OnlyReplies n s t)) ∧
  (∀ (s : State) (n m : Nat), HostTurn s n 0x0502 0 false → m < 4096 → s.slc.lease ≠ some n →
    ∃ t, exec (.streamResume n m) s = .next t ∧ Replied n 0x0502 stNotOwner [] s t ∧ OnlyReplies n s t) ∧
  (∀ (s : State) (n : Nat), HostTurn s n 0x0503 0 false → s.slc.lease = some n →
    (s.pins.haltN = true → ∃ t, exec (.resumeAll n) s = .next t ∧ Replied n 0x0503 stOK [] s t ∧
      (∀ k, streamHalted t k = false) ∧ (0 < haltedCount s → Raised 0xB0040 1 s t)) ∧
    (s.pins.haltN = false → ∃ t, exec (.resumeAll n) s = .next t ∧ Replied n 0x0503 stState [] s t ∧ OnlyReplies n s t)) ∧
  (∀ (s : State) (n m first count : Nat),
    let sent := (stream s m).data + (stream s m).gaps
    HostTurn s n 0x0504 24 false → m < 4096 → 1 ≤ count → count ≤ 65536 →
    (sent ≤ first → ∃ t, exec (.replay n m first count) s = .next t ∧ Replied n 0x0504 stState [] s t ∧ OnlyReplies n s t) ∧
    (first < sent → 64 ≤ replaysNow s → ∃ t, exec (.replay n m first count) s = .next t ∧ Replied n 0x0504 stBusy [] s t ∧
      OnlyReplies n s t) ∧
    (∀ (w : WinRec) (ws : List WinRec), first < sent → replaysNow s < 64 → (stream s m).window = w :: ws →
      ∃ t, exec (.replay n m first count) s = .next t ∧
        Replied n 0x0504 stOK (le 8 first ++ le 4 (Nat.min count (sent - first)) ++ le 4 0 ++ le 8 w.seq) s t ∧
        (stream t m).retx = (stream s m).retx ++ [(first, Nat.min count (sent - first))] ∧
        (stream t m).window = w :: ws ∧ (stream t m).queue = (stream s m).queue)) ∧
  (∀ (s : State) (n first count : Nat), HostTurn s n 0x0505 (64 * count) true → 1 ≤ count → count ≤ 128 → first + count ≤ 4096 →
    ∃ t, exec (.streamStatus n first count) s = .next t ∧
      Replied n 0x0505 stOK ((List.range count).flatMap fun i => streamRecord s (first + i)) s t ∧ OnlyReplies n s t)

/-- RECORD_CREATE, EVENT_LINGER_EXPIRY and LEDGER_STREAM_PERIOD (R349, R355, R356, R357, R359, R363, R405). A complete content becomes a record: it takes the next number and joins the queue of its stream, or its number becomes GAP, as it does where the backlog would pass its limit; FIRST is spent either way. A halted stream only counts it and queues nothing. A disabled stream with nothing complete creates nothing. When EVENT_LINGER has passed, the entries being collected become a record. The period of a LEDGER stream takes a snapshot for it, or skips one, counted and marked, where both buffers are busy. -/
def Obligations.RecordCreation : Prop :=
  (∀ (s : State) (n : Nat) (r : Rec) (rs : List Rec), s.boot ≠ .held → (stream s n).ready = r :: rs → streamHalted s n = true →
    ∃ t, exec (.recordCreate n) s = .next t ∧
      stream t n = { stream s n with ready := rs, notCreated := (stream s n).notCreated + 1, skipped := true } ∧
      (∀ m, m ≠ n → stream t m = stream s m) ∧ t.dram = s.dram) ∧
  (∀ (s : State) (n : Nat) (r : Rec) (rs : List Rec),
    let need := 64 + r.payload.length + r.poison.length + (if bit (destCtrl (destOf s n)) 3 then 16 else 0)
    s.boot ≠ .held → (stream s n).ready = r :: rs → streamHalted s n = false → ∃ t, exec (.recordCreate n) s = .next t ∧
      (stream t n).issued = (stream s n).issued + 1 ∧ (stream t n).firstRec = false ∧ (streamType s n ≠ 4 → (stream t n).ready = rs) ∧
      ((∃ r', (stream t n).queue = (stream s n).queue ++ [.data r'] ∧ r'.seq = (stream s n).issued ∧ r'.typ = r.typ ∧
          r'.payload = r.payload ∧ ((stream s n).firstRec = true → nbit r'.flags 11 = true)) ∨
        (∃ g, (stream t n).queue = addGap g (stream s n).queue ∧ g.first = (stream s n).issued ∧ g.count = 1 ∧
          bit (hw t 0xB0040) 4 = true)) ∧
      (backlogLimit s n < backlog (stream s n) + need → ∃ g, (stream t n).queue = addGap g (stream s n).queue ∧
        g.first = (stream s n).issued ∧ g.count = 1 ∧ g.reason ≠ 2)) ∧
  (∀ (s : State) (n : Nat), (stream s n).ready = [] → streamOn s n = false → exec (.recordCreate n) s = .next s) ∧
  (∀ (s : State) (n : Nat), s.boot ≠ .held → (stream s n).lingering = true → (stream s n).lingerAt ≤ s.cnt.ticks → (stream s n).events ≠ [] → streamHalted s n = false →
    ∃ t, exec (.eventLingerExpiry n) s = .next t ∧ (stream t n).issued = (stream s n).issued + (stream s n).ready.length + 1) ∧
  (∀ (s : State) (n : Nat), (stream s n).lingering = false ∨ s.cnt.ticks < (stream s n).lingerAt → exec (.eventLingerExpiry n) s = .next s) ∧
  (∀ (s : State) (n : Nat),
    let due := nextDue s (stream s n).periodAt (100 * msTicks * Nat.max 1 (cfgF s (streamAt n + 4) 0 16))
    s.boot ≠ .held → streamOn s n = true → streamType s n = 5 → (stream s n).periodAt ≤ s.cnt.ticks →
    (snapRoom s = true → ∃ t, exec (.ledgerStreamPeriod n) s = .next t ∧ t.lgr.snapNo = s.lgr.snapNo + 1 ∧
      t.lgr.snaps.head? = some (snapFreeze s) ∧
      stream t n = { stream s n with periodAt := due, images := (stream s n).images ++ [(s.lgr.snapNo + 1, 0)] } ∧ t.regs = s.regs) ∧
    (snapRoom s = false → ∃ t, exec (.ledgerStreamPeriod n) s = .next t ∧ t.lgr = s.lgr ∧
      (stream t n).images = (stream s n).images ∧ (stream t n).periodAt = due ∧
      hw t 0xD0050 = wd (Nat.min (2 ^ 32 - 1) ((hw s 0xD0050).toNat + 1)) ∧ Raised 0xD0040 1 s t))

/-- Frames that leave and frames that arrive (R338, R340, R341, R344, R345, R355, R374). A port that is up, without a fault and with no frame in transmission starts the oldest frame of class A with PCP 7 in its tag, else the one deficit round robin picks in class B, else the one it picks in class C. When the last bit has left, the port is free, the frame counts, and a data record has been delivered and leaves the front of its queue. On a port that is down nothing arrives; a frame that fails the checks of the MAC is dropped and counted; a PFC frame pauses the priorities of PFC_RX that it names; a Sluice frame that finds the reserved queue full is dropped, counted and marked; another frame is taken by the bulk buffer, which sends XOFF above its level, or is dropped where it has no room. Retransmissions keep to REPLAY_GBPS. XON follows once the buffer has drained below 128 KiB. -/
def Obligations.Frames : Prop :=
  (∀ (s : State) (p : Fin 2), s.boot ≠ .held → (port s p).up = true → (port s p).fault = false → (port s p).tx = none →
    (∀ f fs, (port s p).classA = f :: fs → ∃ t, exec (.frameTxStart p) s = .next t ∧
      port t p = { port s p with classA := fs, tx := some (.frame f), wire := f.bytes, head := ownHead s p f } ∧ t.spt = s.spt) ∧
    ((port s p).classA = [] → ∀ n deficit x d, drrPick s p (port s p).drrB (readyStreams s p true) = some (n, deficit, x, d) →
      ∃ t, exec (.frameTxStart p) s = .next t ∧
        port t p = { port s p with
          tx := some x, wire := txBytes s p x, head := headOf s p n d, drrB := n, retxAt := retxAfter s p n d x }) ∧
    ((port s p).classA = [] → drrPick s p (port s p).drrB (readyStreams s p true) = none →
      (∀ n deficit x d, drrPick s p (port s p).drrC (readyStreams s p false) = some (n, deficit, x, d) →
        ∃ t, exec (.frameTxStart p) s = .next t ∧
          port t p = { port s p with
            tx := some x, wire := txBytes s p x, head := headOf s p n d, drrC := n, retxAt := retxAfter s p n d x }) ∧
      (drrPick s p (port s p).drrC (readyStreams s p false) = none → exec (.frameTxStart p) s = .next s))) ∧
  (∀ (s : State) (p : Fin 2), (port s p).up = false ∨ (port s p).fault = true ∨ (port s p).tx.isSome = true →
    exec (.frameTxStart p) s = .next s) ∧
  (∀ (s : State) (p : Fin 2) (x : Tx), s.boot ≠ .held → (port s p).tx = some x → ∃ t, exec (.frameTxEnd p) s = .next t ∧
    port t p = { port s p with tx := none, wire := [], head := {} } ∧
    cnt64 t (ethA p 0xA0) = (cnt64 s (ethA p 0xA0) + 1) % 2 ^ 64 ∧
    (∀ n r, x = .item n (.data r) → carryPort s n = p → (stream t n).data = (stream s n).data + 1 ∧
      (stream t n).queue = (stream s n).queue.drop 1 ∧ (∀ m, m ≠ n → stream t m = stream s m))) ∧
  (∀ (s : State) (p : Fin 2) (f : RxFrame), s.boot ≠ .up ∨ (port s p).up = false → exec (.ethFrameRx p f) s = .next s) ∧
  (∀ (s : State) (p : Fin 2) (f : RxFrame), s.boot = .up → (port s p).up = true →
    (rxPasses s p f = false → ∃ t, exec (.ethFrameRx p f) s = .next t ∧
      cnt64 t (ethA p 0xB0) = (cnt64 s (ethA p 0xB0) + 1) % 2 ^ 64 ∧ t = { s with regs := { s.regs with hw := t.regs.hw } }) ∧
    (rxPasses s p f = true → f.kind = .pfc → ∃ t, exec (.ethFrameRx p f) s = .next t ∧
      cnt64 t (ethA p 0xA8) = (cnt64 s (ethA p 0xA8) + 1) % 2 ^ 64 ∧
      ∀ k : Fin 8, (port t p).paused.getLsbD k = ((port s p).paused.getLsbD k ||
        (decide (k.val ∈ f.pause) && decide (k.val < 7) && (cfgF s (ethA p 0x14) 0 7).testBit k))) ∧
    (rxPasses s p f = true → isSluice s f = true → 65536 < (port s p).resv + f.len → ∃ t, exec (.ethFrameRx p f) s = .next t ∧
      hw t (0xC0054 + 8 * p.val) = wd (Nat.min (2 ^ 32 - 1) ((hw s (0xC0054 + 8 * p.val)).toNat + 1)) ∧ Raised 0xC0040 4 s t ∧
      t.ports = s.ports) ∧
    (rxPasses s p f = true → isSluice s f = false → f.kind ≠ .pfc → ¬ (f.tags = 1 ∧ f.pcp = 7) →
      (262144 < (port s p).bulk + f.len → ∃ t, exec (.ethFrameRx p f) s = .next t ∧
        cnt64 t (ethA p 0xB0) = (cnt64 s (ethA p 0xB0) + 1) % 2 ^ 64 ∧ Raised (ethA p 0x80) 6 s t ∧ t.ports = s.ports) ∧
      ((port s p).bulk + f.len ≤ 262144 → ∃ t, exec (.ethFrameRx p f) s = .next t ∧ (port t p).bulk = (port s p).bulk + f.len ∧
        cnt64 t (ethA p 0xA8) = (cnt64 s (ethA p 0xA8) + 1) % 2 ^ 64 ∧
        (196608 < (port s p).bulk + f.len → cfgF s (ethA p 0x14) 8 7 ≠ 0 → (port t p).xoff = true)))) ∧
  (∀ (s : State) (p : Fin 2), s.boot ≠ .held →
    ((port s p).xoff = true → (port s p).bulk < 131072 → ∃ t, exec (.xonSend p) s = .next t ∧ (port t p).xoff = false ∧
      (port t p).bulk = (port s p).bulk ∧ (port t p).classA.length = (port s p).classA.length + 1) ∧
    ((port s p).xoff = false ∨ 131072 ≤ (port s p).bulk → exec (.xonSend p) s = .next s)) ∧
  (∀ (s : State) (p : Fin 2) (k : Fin 8), s.boot ≠ .held → ∃ t, exec (.pfcPauseExpiry p k) s = .next t ∧
    (∀ j : Fin 8, (port t p).paused.getLsbD j = ((port s p).paused.getLsbD j && decide (j ≠ k))))

/-- Links, moved streams and addresses (R338, R339, R342, R343, R360, R361). LINK_UP of an enabled port takes it up, 10 ms after its SerDes PLL started at the earliest. LINK_FAULT ends the frame in transmission, which a class-A frame survives at the front of its queue; FAULT_CLEAR resumes within LINK_HOLD; LINK_HOLD_EXPIRY after it takes the port down, and its streams move to the other port where that is up. STREAM_RETURN, once the home port has been up for RETURN_S, puts the queue of a moved stream behind it and starts an empty one on the home port. DHCP_LEASE_EXPIRY and DHCP_RENEWAL take and give the IPv4 address, DAD_COMPLETE the port's own link-local address, its global one, or a failure, and NEXT_HOP_RETRY asks again every second for every next hop that is awaited. -/
def Obligations.Links : Prop :=
  (∀ (s : State) (p : Fin 2), s.boot = .up → portMode (cfg s) p ≠ 0 → (port s p).up = false →
    (port s p).pllAt + 10 * msTicks ≤ s.cnt.ticks → ∃ t, exec (.linkUp p) s = .next t ∧
    (port t p).up = true ∧ (port t p).wasUp = true ∧ (port t p).fault = false ∧ (port t p).upSince = s.cnt.ticks ∧
    bit (hw t (ethA p 0x80)) 0 = true) ∧
  (∀ (s : State) (p : Fin 2), (port s p).up = true ∨ s.cnt.ticks < (port s p).pllAt + 10 * msTicks → exec (.linkUp p) s = .next s) ∧
  (∀ (s : State) (p : Fin 2), s.boot ≠ .held → (port s p).up = true → (port s p).fault = false → ∃ t,
    exec (.linkFault p) s = .next t ∧ (port t p).fault = true ∧ (port t p).faultAt = s.cnt.ticks ∧ (port t p).up = true ∧ (port t p).tx = none ∧
    (∀ f, (port s p).tx = some (.frame f) → (port t p).classA = f :: (port s p).classA) ∧ t.regs = s.regs) ∧
  (∀ (s : State) (p : Fin 2), s.boot ≠ .held → (port s p).up = true → (port s p).fault = true →
    ((port s p).faultAt + linkHold s p < s.cnt.ticks → ∃ t, exec (.faultClear p) s = .next t ∧ (port t p).up = false) ∧
    (s.cnt.ticks ≤ (port s p).faultAt + linkHold s p → ∃ t, exec (.faultClear p) s = .next t ∧
      port t p = { port s p with fault := false } ∧ Raised (ethA p 0x80) 2 s t) ∧
    (s.cnt.ticks < (port s p).faultAt + linkHold s p → exec (.linkHoldExpiry p) s = .next s) ∧
    ((port s p).faultAt + linkHold s p ≤ s.cnt.ticks → ∃ t, exec (.linkHoldExpiry p) s = .next t ∧ (port t p).up = false ∧ (port t p).fault = false ∧ (port t p).paused = 0 ∧
      (port t p).tx = none ∧ Raised (ethA p 0x80) 1 s t ∧
      ((port s p).wasUp = true → (port s (1 - p.val)).up = true → ∀ n ∈ enabledStreams s.regs.active, homePort s n = p →
        noFailover s n = false → (stream t n).moved = true))) ∧
  (∀ (s : State) (n : Nat), s.boot ≠ .held → (stream s n).moved = true → (port s (homePort s n)).up = true →
    (port s (homePort s n)).upSince + secTicks * cfgF s (ethA (homePort s n) 0x10) 16 16 ≤ s.cnt.ticks → ∃ t,
    exec (.streamReturn n) s = .next t ∧ (stream t n).moved = false ∧ (stream t n).other = (stream s n).queue ∧
    (stream t n).queue = [] ∧ (stream t n).retx = (stream s n).retx ∧ Raised 0xB0040 3 s t) ∧
  (∀ (s : State) (p : Fin 2), s.boot ≠ .held → cfgB s (ethA p 0x20) 0 = true → (port s p).ip4Valid = true → ∃ t,
    exec (.dhcpLeaseExpiry p) s = .next t ∧ port t p = { port s p with ip4Valid := false, ip4 := 0 } ∧ Raised (ethA p 0x80) 5 s t) ∧
  (∀ (s : State) (p : Fin 2) (addr pre gw : Nat), s.boot ≠ .held → cfgB s (ethA p 0x20) 0 = true → (port s p).up = true →
    ∃ t, exec (.dhcpRenewal p addr pre gw) s = .next t ∧
      port t p = { port s p with ip4 := addr, ip4Valid := true, pre4 := Nat.min 32 pre, gw4 := gw } ∧
      ((port s p).ip4Valid = false → Raised (ethA p 0x80) 3 s t)) ∧
  (∀ (s : State) (p : Fin 2) (addr gw : Nat), s.boot ≠ .held → (port s p).up = true → linkLocal6 addr = true →
    (addr ≠ ownLinkLocal s p → ∀ ok, exec (.dadComplete p addr gw ok) s = .next s) ∧
    (addr = ownLinkLocal s p → ∃ t, exec (.dadComplete p addr gw true) s = .next t ∧ port t p = { port s p with linkLocalOk := true } ∧ t.regs = s.regs) ∧
    (addr = ownLinkLocal s p → ∃ t, exec (.dadComplete p addr gw false) s = .next t ∧ t.ports = s.ports ∧ Raised (ethA p 0x80) 4 s t)) ∧
  (∀ (s : State) (p : Fin 2) (addr gw : Nat), s.boot ≠ .held → (port s p).up = true → linkLocal6 addr = false →
    cfgB s (ethA p 0x30) 0 = true → ∃ t, exec (.dadComplete p addr gw true) s = .next t ∧
      port t p = { port s p with ip6 := addr, ip6Valid := true, pre6 := 64, gw6 := gw } ∧
      ((port s p).ip6Valid = false → Raised (ethA p 0x80) 3 s t)) ∧
  (∀ (s : State) (p : Fin 2), (port s p).up = false ∨ s.cnt.ticks < (port s p).retryAt → exec (.nextHopRetry p) s = .next s) ∧
  (∀ (s : State) (p : Fin 2), s.boot ≠ .held → (port s p).up = true → (port s p).retryAt ≤ s.cnt.ticks →
    ∃ t, exec (.nextHopRetry p) s = .next t ∧ (port t p).retryAt = nextDue s (port s p).retryAt secTicks ∧
    (port t p).classA.length = (port s p).classA.length + (port s p).want.length ∧ (port t p).want = (port s p).want ∧
    t.regs = s.regs)
end

