-- ==== Sys2Proof/Laws/Maps.lean ====
section
/-!
SUPPORT. The laws of sparse maps: what a read gives after a write, and that every operation keeps the canonical form.
-/

namespace Sys2Proof.Machine

variable {α : Type}

@[simp] theorem smGet_nil (d : α) (k : Nat) : smGet d k [] = d := rfl

@[simp] theorem smFind_nil (k : Nat) : smFind k ([] : SMap α) = none := rfl

/-- A read after a listing at the same key. -/
@[simp] theorem smGet_smIns_same (d v : α) (k : Nat) (m : SMap α) : smGet d k (smIns k v m) = v := by
  induction m with
  | nil => simp [smIns, smGet]
  | cons e m ih =>
    obtain ⟨j, w⟩ := e
    simp only [smIns]
    split
    · simp [smGet]
    · split
      · simp [smGet]
      · simp [smGet, ih, Ne.symm ‹_›]

/-- A listing leaves every other key alone. -/
@[simp] theorem smGet_smIns_ne (d v : α) {k j : Nat} (h : j ≠ k) (m : SMap α) : smGet d j (smIns k v m) = smGet d j m := by
  induction m with
  | nil => simp [smIns, smGet, h.symm]
  | cons e m ih =>
    obtain ⟨i, w⟩ := e
    simp only [smIns]
    split
    · simp [smGet, h.symm]
    · split
      · subst_vars; simp [smGet, h.symm]
      · simp [smGet, ih]

/-- A key taken out reads as unlisted. -/
@[simp] theorem smGet_smDel_same (d : α) (k : Nat) (m : SMap α) : smGet d k (smDel k m) = d := by
  induction m with
  | nil => rfl
  | cons e m ih =>
    obtain ⟨j, w⟩ := e
    simp only [smDel]
    split
    · exact ih
    · simp [smGet, ih, Ne.symm ‹_›]

/-- Taking a key out leaves every other key alone. -/
@[simp] theorem smGet_smDel_ne (d : α) {k j : Nat} (h : j ≠ k) (m : SMap α) : smGet d j (smDel k m) = smGet d j m := by
  induction m with
  | nil => rfl
  | cons e m ih =>
    obtain ⟨i, w⟩ := e
    simp only [smDel]
    split
    · subst_vars; simp [smGet, ih, h.symm]
    · simp [smGet, ih]

/-- A read after a write of the same key gives the value written. -/
@[simp] theorem smGet_smPut_same [DecidableEq α] (d v : α) (k : Nat) (m : SMap α) : smGet d k (smPut d k v m) = v := by
  unfold smPut
  split <;> simp_all

/-- A write leaves every other key alone. -/
@[simp] theorem smGet_smPut_ne [DecidableEq α] (d v : α) {k j : Nat} (h : j ≠ k) (m : SMap α) :
    smGet d j (smPut d k v m) = smGet d j m := by
  unfold smPut
  split <;> simp [h]

/-- A found key after a listing. -/
@[simp] theorem smFind_smIns_same (v : α) (k : Nat) (m : SMap α) : smFind k (smIns k v m) = some v := by
  induction m with
  | nil => simp [smIns, smFind]
  | cons e m ih =>
    obtain ⟨j, w⟩ := e
    simp only [smIns]
    split
    · simp [smFind]
    · split
      · simp [smFind]
      · simp [smFind, ih, Ne.symm ‹_›]

@[simp] theorem smFind_smIns_ne (v : α) {k j : Nat} (h : j ≠ k) (m : SMap α) : smFind j (smIns k v m) = smFind j m := by
  induction m with
  | nil => simp [smIns, smFind, h.symm]
  | cons e m ih =>
    obtain ⟨i, w⟩ := e
    simp only [smIns]
    split
    · simp [smFind, h.symm]
    · split
      · subst_vars; simp [smFind, h.symm]
      · simp [smFind, ih]

/-! ### The canonical form -/

theorem smWfFrom_mono [DecidableEq α] {d : α} {lo lo' : Nat} {m : SMap α} (hle : lo ≤ lo') (h : smWfFrom d lo' m = true) :
    smWfFrom d lo m = true := by
  cases m with
  | nil => rfl
  | cons e m =>
    obtain ⟨j, v⟩ := e
    simp only [smWfFrom, Bool.and_eq_true, decide_eq_true_eq] at h ⊢
    exact ⟨⟨by omega, h.1.2⟩, h.2⟩

theorem smWfFrom_smIns [DecidableEq α] {d v : α} {lo k : Nat} {m : SMap α} (hv : v ≠ d) (hk : lo ≤ k)
    (h : smWfFrom d lo m = true) : smWfFrom d lo (smIns k v m) = true := by
  induction m generalizing lo with
  | nil => simp [smIns, smWfFrom, hk, hv]
  | cons e m ih =>
    obtain ⟨j, w⟩ := e
    simp only [smWfFrom, Bool.and_eq_true, decide_eq_true_eq] at h
    simp only [smIns]
    split
    · simp only [smWfFrom, Bool.and_eq_true, decide_eq_true_eq]
      exact ⟨⟨hk, hv⟩, ⟨by omega, h.1.2⟩, h.2⟩
    · split
      · simp only [smWfFrom, Bool.and_eq_true, decide_eq_true_eq]
        exact ⟨⟨hk, hv⟩, by subst_vars; exact h.2⟩
      · simp only [smWfFrom, Bool.and_eq_true, decide_eq_true_eq]
        exact ⟨h.1, ih (by omega) h.2⟩

theorem smWfFrom_smDel [DecidableEq α] {d : α} {lo k : Nat} {m : SMap α} (h : smWfFrom d lo m = true) :
    smWfFrom d lo (smDel k m) = true := by
  induction m generalizing lo with
  | nil => rfl
  | cons e m ih =>
    obtain ⟨j, w⟩ := e
    simp only [smWfFrom, Bool.and_eq_true, decide_eq_true_eq] at h
    simp only [smDel]
    split
    · exact smWfFrom_mono (by omega) (ih h.2)
    · simp only [smWfFrom, Bool.and_eq_true, decide_eq_true_eq]
      exact ⟨h.1, ih h.2⟩

/-- A write keeps the canonical form. -/
theorem smWf_smPut [DecidableEq α] {d v : α} {k : Nat} {m : SMap α} (h : smWf d m = true) : smWf d (smPut d k v m) = true := by
  unfold smPut
  split
  · exact smWfFrom_smDel h
  · exact smWfFrom_smIns ‹_› (Nat.zero_le k) h

/-- Equal reads of canonical maps: a key below the least key reads as unlisted. -/
theorem smGet_below [DecidableEq α] {d : α} {lo k : Nat} {m : SMap α} (h : smWfFrom d lo m = true) (hk : k < lo) :
    smGet d k m = d := by
  induction m generalizing lo with
  | nil => rfl
  | cons e m ih =>
    obtain ⟨j, w⟩ := e
    simp only [smWfFrom, Bool.and_eq_true, decide_eq_true_eq] at h
    simp only [smGet]
    rw [if_neg (by omega)]
    exact ih h.2 (by omega)

end Sys2Proof.Machine
end

