-- ==== Sys2Proof/Laws/State.lean ====
section
/-!
SUPPORT. What each update of the state leaves alone: one lemma per field per update.
-/

namespace Sys2Proof.Machine

variable (s : State)

/-! ### setHw -/

@[simp] theorem setHw_pending (a : Nat) (w : Word) : (setHw a w s).pending = s.pending := rfl
@[simp] theorem setHw_commits (a : Nat) (w : Word) : (setHw a w s).commits = s.commits := rfl
@[simp] theorem setHw_sealing (a : Nat) (w : Word) : (setHw a w s).sealing = s.sealing := rfl
@[simp] theorem setHw_folds (a : Nat) (w : Word) : (setHw a w s).folds = s.folds := rfl
@[simp] theorem setHw_pwr (a : Nat) (w : Word) : (setHw a w s).pwr = s.pwr := rfl
@[simp] theorem setHw_boot (a : Nat) (w : Word) : (setHw a w s).boot = s.boot := rfl
@[simp] theorem setHw_pins (a : Nat) (w : Word) : (setHw a w s).pins = s.pins := rfl
@[simp] theorem setHw_clk (a : Nat) (w : Word) : (setHw a w s).clk = s.clk := rfl
@[simp] theorem setHw_tb (a : Nat) (w : Word) : (setHw a w s).tb = s.tb := rfl
@[simp] theorem setHw_cnt (a : Nat) (w : Word) : (setHw a w s).cnt = s.cnt := rfl
@[simp] theorem setHw_slc (a : Nat) (w : Word) : (setHw a w s).slc = s.slc := rfl
@[simp] theorem setHw_spt (a : Nat) (w : Word) : (setHw a w s).spt = s.spt := rfl
@[simp] theorem setHw_ports (a : Nat) (w : Word) : (setHw a w s).ports = s.ports := rfl
@[simp] theorem setHw_ptp (a : Nat) (w : Word) : (setHw a w s).ptp = s.ptp := rfl
@[simp] theorem setHw_lgr (a : Nat) (w : Word) : (setHw a w s).lgr = s.lgr := rfl
@[simp] theorem setHw_sec (a : Nat) (w : Word) : (setHw a w s).sec = s.sec := rfl
@[simp] theorem setHw_cnv (a : Nat) (w : Word) : (setHw a w s).cnv = s.cnv := rfl
@[simp] theorem setHw_lch (a : Nat) (w : Word) : (setHw a w s).lch = s.lch := rfl
@[simp] theorem setHw_arms (a : Nat) (w : Word) : (setHw a w s).arms = s.arms := rfl
@[simp] theorem setHw_tiu (a : Nat) (w : Word) : (setHw a w s).tiu = s.tiu := rfl
@[simp] theorem setHw_basin (a : Nat) (w : Word) : (setHw a w s).basin = s.basin := rfl
@[simp] theorem setHw_csc (a : Nat) (w : Word) : (setHw a w s).csc = s.csc := rfl
@[simp] theorem setHw_pol (a : Nat) (w : Word) : (setHw a w s).pol = s.pol := rfl
@[simp] theorem setHw_weir (a : Nat) (w : Word) : (setHw a w s).weir = s.weir := rfl
@[simp] theorem setHw_cis (a : Nat) (w : Word) : (setHw a w s).cis = s.cis := rfl
@[simp] theorem setHw_dram (a : Nat) (w : Word) : (setHw a w s).dram = s.dram := rfl
@[simp] theorem setHw_rnl (a : Nat) (w : Word) : (setHw a w s).rnl = s.rnl := rfl
@[simp] theorem setHw_timers (a : Nat) (w : Word) : (setHw a w s).timers = s.timers := rfl
@[simp] theorem setHw_shadow (a : Nat) (w : Word) : (setHw a w s).regs.shadow = s.regs.shadow := rfl
@[simp] theorem setHw_active (a : Nat) (w : Word) : (setHw a w s).regs.active = s.regs.active := rfl
@[simp] theorem setHw_committed (a : Nat) (w : Word) : (setHw a w s).regs.committed = s.regs.committed := rfl
@[simp] theorem setHw_pend (a : Nat) (w : Word) : (setHw a w s).regs.pend = s.regs.pend := rfl
@[simp] theorem setHw_overrides (a : Nat) (w : Word) : (setHw a w s).regs.overrides = s.regs.overrides := rfl
@[simp] theorem setHw_laps (a : Nat) (w : Word) : (setHw a w s).regs.laps = s.regs.laps := rfl
@[simp] theorem setHw_latch (a : Nat) (w : Word) : (setHw a w s).regs.latch = s.regs.latch := rfl
@[simp] theorem setHw_cmdQueued (a : Nat) (w : Word) : (setHw a w s).regs.cmdQueued = s.regs.cmdQueued := rfl

/-! ### setCnt -/

@[simp] theorem setCnt_pending (a n : Nat) : (setCnt a n s).pending = s.pending := by simp [setCnt]
@[simp] theorem setCnt_commits (a n : Nat) : (setCnt a n s).commits = s.commits := by simp [setCnt]
@[simp] theorem setCnt_sealing (a n : Nat) : (setCnt a n s).sealing = s.sealing := by simp [setCnt]
@[simp] theorem setCnt_folds (a n : Nat) : (setCnt a n s).folds = s.folds := by simp [setCnt]
@[simp] theorem setCnt_pwr (a n : Nat) : (setCnt a n s).pwr = s.pwr := by simp [setCnt]
@[simp] theorem setCnt_boot (a n : Nat) : (setCnt a n s).boot = s.boot := by simp [setCnt]
@[simp] theorem setCnt_pins (a n : Nat) : (setCnt a n s).pins = s.pins := by simp [setCnt]
@[simp] theorem setCnt_clk (a n : Nat) : (setCnt a n s).clk = s.clk := by simp [setCnt]
@[simp] theorem setCnt_tb (a n : Nat) : (setCnt a n s).tb = s.tb := by simp [setCnt]
@[simp] theorem setCnt_cnt (a n : Nat) : (setCnt a n s).cnt = s.cnt := by simp [setCnt]
@[simp] theorem setCnt_slc (a n : Nat) : (setCnt a n s).slc = s.slc := by simp [setCnt]
@[simp] theorem setCnt_spt (a n : Nat) : (setCnt a n s).spt = s.spt := by simp [setCnt]
@[simp] theorem setCnt_ports (a n : Nat) : (setCnt a n s).ports = s.ports := by simp [setCnt]
@[simp] theorem setCnt_ptp (a n : Nat) : (setCnt a n s).ptp = s.ptp := by simp [setCnt]
@[simp] theorem setCnt_lgr (a n : Nat) : (setCnt a n s).lgr = s.lgr := by simp [setCnt]
@[simp] theorem setCnt_sec (a n : Nat) : (setCnt a n s).sec = s.sec := by simp [setCnt]
@[simp] theorem setCnt_cnv (a n : Nat) : (setCnt a n s).cnv = s.cnv := by simp [setCnt]
@[simp] theorem setCnt_lch (a n : Nat) : (setCnt a n s).lch = s.lch := by simp [setCnt]
@[simp] theorem setCnt_arms (a n : Nat) : (setCnt a n s).arms = s.arms := by simp [setCnt]
@[simp] theorem setCnt_tiu (a n : Nat) : (setCnt a n s).tiu = s.tiu := by simp [setCnt]
@[simp] theorem setCnt_basin (a n : Nat) : (setCnt a n s).basin = s.basin := by simp [setCnt]
@[simp] theorem setCnt_csc (a n : Nat) : (setCnt a n s).csc = s.csc := by simp [setCnt]
@[simp] theorem setCnt_pol (a n : Nat) : (setCnt a n s).pol = s.pol := by simp [setCnt]
@[simp] theorem setCnt_weir (a n : Nat) : (setCnt a n s).weir = s.weir := by simp [setCnt]
@[simp] theorem setCnt_cis (a n : Nat) : (setCnt a n s).cis = s.cis := by simp [setCnt]
@[simp] theorem setCnt_dram (a n : Nat) : (setCnt a n s).dram = s.dram := by simp [setCnt]
@[simp] theorem setCnt_rnl (a n : Nat) : (setCnt a n s).rnl = s.rnl := by simp [setCnt]
@[simp] theorem setCnt_timers (a n : Nat) : (setCnt a n s).timers = s.timers := by simp [setCnt]
@[simp] theorem setCnt_shadow (a n : Nat) : (setCnt a n s).regs.shadow = s.regs.shadow := by simp [setCnt]
@[simp] theorem setCnt_active (a n : Nat) : (setCnt a n s).regs.active = s.regs.active := by simp [setCnt]
@[simp] theorem setCnt_committed (a n : Nat) : (setCnt a n s).regs.committed = s.regs.committed := by simp [setCnt]
@[simp] theorem setCnt_pend (a n : Nat) : (setCnt a n s).regs.pend = s.regs.pend := by simp [setCnt]
@[simp] theorem setCnt_overrides (a n : Nat) : (setCnt a n s).regs.overrides = s.regs.overrides := by simp [setCnt]
@[simp] theorem setCnt_laps (a n : Nat) : (setCnt a n s).regs.laps = s.regs.laps := by simp [setCnt]
@[simp] theorem setCnt_latch (a n : Nat) : (setCnt a n s).regs.latch = s.regs.latch := by simp [setCnt]
@[simp] theorem setCnt_cmdQueued (a n : Nat) : (setCnt a n s).regs.cmdQueued = s.regs.cmdQueued := by simp [setCnt]

/-! ### addCnt -/

@[simp] theorem addCnt_pending (a n : Nat) : (addCnt a n s).pending = s.pending := by simp [addCnt]
@[simp] theorem addCnt_commits (a n : Nat) : (addCnt a n s).commits = s.commits := by simp [addCnt]
@[simp] theorem addCnt_sealing (a n : Nat) : (addCnt a n s).sealing = s.sealing := by simp [addCnt]
@[simp] theorem addCnt_folds (a n : Nat) : (addCnt a n s).folds = s.folds := by simp [addCnt]
@[simp] theorem addCnt_pwr (a n : Nat) : (addCnt a n s).pwr = s.pwr := by simp [addCnt]
@[simp] theorem addCnt_boot (a n : Nat) : (addCnt a n s).boot = s.boot := by simp [addCnt]
@[simp] theorem addCnt_pins (a n : Nat) : (addCnt a n s).pins = s.pins := by simp [addCnt]
@[simp] theorem addCnt_clk (a n : Nat) : (addCnt a n s).clk = s.clk := by simp [addCnt]
@[simp] theorem addCnt_tb (a n : Nat) : (addCnt a n s).tb = s.tb := by simp [addCnt]
@[simp] theorem addCnt_cnt (a n : Nat) : (addCnt a n s).cnt = s.cnt := by simp [addCnt]
@[simp] theorem addCnt_slc (a n : Nat) : (addCnt a n s).slc = s.slc := by simp [addCnt]
@[simp] theorem addCnt_spt (a n : Nat) : (addCnt a n s).spt = s.spt := by simp [addCnt]
@[simp] theorem addCnt_ports (a n : Nat) : (addCnt a n s).ports = s.ports := by simp [addCnt]
@[simp] theorem addCnt_ptp (a n : Nat) : (addCnt a n s).ptp = s.ptp := by simp [addCnt]
@[simp] theorem addCnt_lgr (a n : Nat) : (addCnt a n s).lgr = s.lgr := by simp [addCnt]
@[simp] theorem addCnt_sec (a n : Nat) : (addCnt a n s).sec = s.sec := by simp [addCnt]
@[simp] theorem addCnt_cnv (a n : Nat) : (addCnt a n s).cnv = s.cnv := by simp [addCnt]
@[simp] theorem addCnt_lch (a n : Nat) : (addCnt a n s).lch = s.lch := by simp [addCnt]
@[simp] theorem addCnt_arms (a n : Nat) : (addCnt a n s).arms = s.arms := by simp [addCnt]
@[simp] theorem addCnt_tiu (a n : Nat) : (addCnt a n s).tiu = s.tiu := by simp [addCnt]
@[simp] theorem addCnt_basin (a n : Nat) : (addCnt a n s).basin = s.basin := by simp [addCnt]
@[simp] theorem addCnt_csc (a n : Nat) : (addCnt a n s).csc = s.csc := by simp [addCnt]
@[simp] theorem addCnt_pol (a n : Nat) : (addCnt a n s).pol = s.pol := by simp [addCnt]
@[simp] theorem addCnt_weir (a n : Nat) : (addCnt a n s).weir = s.weir := by simp [addCnt]
@[simp] theorem addCnt_cis (a n : Nat) : (addCnt a n s).cis = s.cis := by simp [addCnt]
@[simp] theorem addCnt_dram (a n : Nat) : (addCnt a n s).dram = s.dram := by simp [addCnt]
@[simp] theorem addCnt_rnl (a n : Nat) : (addCnt a n s).rnl = s.rnl := by simp [addCnt]
@[simp] theorem addCnt_timers (a n : Nat) : (addCnt a n s).timers = s.timers := by simp [addCnt]
@[simp] theorem addCnt_shadow (a n : Nat) : (addCnt a n s).regs.shadow = s.regs.shadow := by simp [addCnt]
@[simp] theorem addCnt_active (a n : Nat) : (addCnt a n s).regs.active = s.regs.active := by simp [addCnt]
@[simp] theorem addCnt_committed (a n : Nat) : (addCnt a n s).regs.committed = s.regs.committed := by simp [addCnt]
@[simp] theorem addCnt_pend (a n : Nat) : (addCnt a n s).regs.pend = s.regs.pend := by simp [addCnt]
@[simp] theorem addCnt_overrides (a n : Nat) : (addCnt a n s).regs.overrides = s.regs.overrides := by simp [addCnt]
@[simp] theorem addCnt_laps (a n : Nat) : (addCnt a n s).regs.laps = s.regs.laps := by simp [addCnt]
@[simp] theorem addCnt_latch (a n : Nat) : (addCnt a n s).regs.latch = s.regs.latch := by simp [addCnt]
@[simp] theorem addCnt_cmdQueued (a n : Nat) : (addCnt a n s).regs.cmdQueued = s.regs.cmdQueued := by simp [addCnt]

/-! ### addHold -/

@[simp] theorem addHold_pending (a n : Nat) : (addHold a n s).pending = s.pending := by simp [addHold]
@[simp] theorem addHold_commits (a n : Nat) : (addHold a n s).commits = s.commits := by simp [addHold]
@[simp] theorem addHold_sealing (a n : Nat) : (addHold a n s).sealing = s.sealing := by simp [addHold]
@[simp] theorem addHold_folds (a n : Nat) : (addHold a n s).folds = s.folds := by simp [addHold]
@[simp] theorem addHold_pwr (a n : Nat) : (addHold a n s).pwr = s.pwr := by simp [addHold]
@[simp] theorem addHold_boot (a n : Nat) : (addHold a n s).boot = s.boot := by simp [addHold]
@[simp] theorem addHold_pins (a n : Nat) : (addHold a n s).pins = s.pins := by simp [addHold]
@[simp] theorem addHold_clk (a n : Nat) : (addHold a n s).clk = s.clk := by simp [addHold]
@[simp] theorem addHold_tb (a n : Nat) : (addHold a n s).tb = s.tb := by simp [addHold]
@[simp] theorem addHold_cnt (a n : Nat) : (addHold a n s).cnt = s.cnt := by simp [addHold]
@[simp] theorem addHold_slc (a n : Nat) : (addHold a n s).slc = s.slc := by simp [addHold]
@[simp] theorem addHold_spt (a n : Nat) : (addHold a n s).spt = s.spt := by simp [addHold]
@[simp] theorem addHold_ports (a n : Nat) : (addHold a n s).ports = s.ports := by simp [addHold]
@[simp] theorem addHold_ptp (a n : Nat) : (addHold a n s).ptp = s.ptp := by simp [addHold]
@[simp] theorem addHold_lgr (a n : Nat) : (addHold a n s).lgr = s.lgr := by simp [addHold]
@[simp] theorem addHold_sec (a n : Nat) : (addHold a n s).sec = s.sec := by simp [addHold]
@[simp] theorem addHold_cnv (a n : Nat) : (addHold a n s).cnv = s.cnv := by simp [addHold]
@[simp] theorem addHold_lch (a n : Nat) : (addHold a n s).lch = s.lch := by simp [addHold]
@[simp] theorem addHold_arms (a n : Nat) : (addHold a n s).arms = s.arms := by simp [addHold]
@[simp] theorem addHold_tiu (a n : Nat) : (addHold a n s).tiu = s.tiu := by simp [addHold]
@[simp] theorem addHold_basin (a n : Nat) : (addHold a n s).basin = s.basin := by simp [addHold]
@[simp] theorem addHold_csc (a n : Nat) : (addHold a n s).csc = s.csc := by simp [addHold]
@[simp] theorem addHold_pol (a n : Nat) : (addHold a n s).pol = s.pol := by simp [addHold]
@[simp] theorem addHold_weir (a n : Nat) : (addHold a n s).weir = s.weir := by simp [addHold]
@[simp] theorem addHold_cis (a n : Nat) : (addHold a n s).cis = s.cis := by simp [addHold]
@[simp] theorem addHold_dram (a n : Nat) : (addHold a n s).dram = s.dram := by simp [addHold]
@[simp] theorem addHold_rnl (a n : Nat) : (addHold a n s).rnl = s.rnl := by simp [addHold]
@[simp] theorem addHold_timers (a n : Nat) : (addHold a n s).timers = s.timers := by simp [addHold]
@[simp] theorem addHold_shadow (a n : Nat) : (addHold a n s).regs.shadow = s.regs.shadow := by simp [addHold]
@[simp] theorem addHold_active (a n : Nat) : (addHold a n s).regs.active = s.regs.active := by simp [addHold]
@[simp] theorem addHold_committed (a n : Nat) : (addHold a n s).regs.committed = s.regs.committed := by simp [addHold]
@[simp] theorem addHold_pend (a n : Nat) : (addHold a n s).regs.pend = s.regs.pend := by simp [addHold]
@[simp] theorem addHold_overrides (a n : Nat) : (addHold a n s).regs.overrides = s.regs.overrides := by simp [addHold]
@[simp] theorem addHold_laps (a n : Nat) : (addHold a n s).regs.laps = s.regs.laps := by simp [addHold]
@[simp] theorem addHold_latch (a n : Nat) : (addHold a n s).regs.latch = s.regs.latch := by simp [addHold]
@[simp] theorem addHold_cmdQueued (a n : Nat) : (addHold a n s).regs.cmdQueued = s.regs.cmdQueued := by simp [addHold]

/-! ### setCnt64 -/

@[simp] theorem setCnt64_pending (a n : Nat) : (setCnt64 a n s).pending = s.pending := by simp [setCnt64]
@[simp] theorem setCnt64_commits (a n : Nat) : (setCnt64 a n s).commits = s.commits := by simp [setCnt64]
@[simp] theorem setCnt64_sealing (a n : Nat) : (setCnt64 a n s).sealing = s.sealing := by simp [setCnt64]
@[simp] theorem setCnt64_folds (a n : Nat) : (setCnt64 a n s).folds = s.folds := by simp [setCnt64]
@[simp] theorem setCnt64_pwr (a n : Nat) : (setCnt64 a n s).pwr = s.pwr := by simp [setCnt64]
@[simp] theorem setCnt64_boot (a n : Nat) : (setCnt64 a n s).boot = s.boot := by simp [setCnt64]
@[simp] theorem setCnt64_pins (a n : Nat) : (setCnt64 a n s).pins = s.pins := by simp [setCnt64]
@[simp] theorem setCnt64_clk (a n : Nat) : (setCnt64 a n s).clk = s.clk := by simp [setCnt64]
@[simp] theorem setCnt64_tb (a n : Nat) : (setCnt64 a n s).tb = s.tb := by simp [setCnt64]
@[simp] theorem setCnt64_cnt (a n : Nat) : (setCnt64 a n s).cnt = s.cnt := by simp [setCnt64]
@[simp] theorem setCnt64_slc (a n : Nat) : (setCnt64 a n s).slc = s.slc := by simp [setCnt64]
@[simp] theorem setCnt64_spt (a n : Nat) : (setCnt64 a n s).spt = s.spt := by simp [setCnt64]
@[simp] theorem setCnt64_ports (a n : Nat) : (setCnt64 a n s).ports = s.ports := by simp [setCnt64]
@[simp] theorem setCnt64_ptp (a n : Nat) : (setCnt64 a n s).ptp = s.ptp := by simp [setCnt64]
@[simp] theorem setCnt64_lgr (a n : Nat) : (setCnt64 a n s).lgr = s.lgr := by simp [setCnt64]
@[simp] theorem setCnt64_sec (a n : Nat) : (setCnt64 a n s).sec = s.sec := by simp [setCnt64]
@[simp] theorem setCnt64_cnv (a n : Nat) : (setCnt64 a n s).cnv = s.cnv := by simp [setCnt64]
@[simp] theorem setCnt64_lch (a n : Nat) : (setCnt64 a n s).lch = s.lch := by simp [setCnt64]
@[simp] theorem setCnt64_arms (a n : Nat) : (setCnt64 a n s).arms = s.arms := by simp [setCnt64]
@[simp] theorem setCnt64_tiu (a n : Nat) : (setCnt64 a n s).tiu = s.tiu := by simp [setCnt64]
@[simp] theorem setCnt64_basin (a n : Nat) : (setCnt64 a n s).basin = s.basin := by simp [setCnt64]
@[simp] theorem setCnt64_csc (a n : Nat) : (setCnt64 a n s).csc = s.csc := by simp [setCnt64]
@[simp] theorem setCnt64_pol (a n : Nat) : (setCnt64 a n s).pol = s.pol := by simp [setCnt64]
@[simp] theorem setCnt64_weir (a n : Nat) : (setCnt64 a n s).weir = s.weir := by simp [setCnt64]
@[simp] theorem setCnt64_cis (a n : Nat) : (setCnt64 a n s).cis = s.cis := by simp [setCnt64]
@[simp] theorem setCnt64_dram (a n : Nat) : (setCnt64 a n s).dram = s.dram := by simp [setCnt64]
@[simp] theorem setCnt64_rnl (a n : Nat) : (setCnt64 a n s).rnl = s.rnl := by simp [setCnt64]
@[simp] theorem setCnt64_timers (a n : Nat) : (setCnt64 a n s).timers = s.timers := by simp [setCnt64]
@[simp] theorem setCnt64_shadow (a n : Nat) : (setCnt64 a n s).regs.shadow = s.regs.shadow := by simp [setCnt64]
@[simp] theorem setCnt64_active (a n : Nat) : (setCnt64 a n s).regs.active = s.regs.active := by simp [setCnt64]
@[simp] theorem setCnt64_committed (a n : Nat) : (setCnt64 a n s).regs.committed = s.regs.committed := by simp [setCnt64]
@[simp] theorem setCnt64_pend (a n : Nat) : (setCnt64 a n s).regs.pend = s.regs.pend := by simp [setCnt64]
@[simp] theorem setCnt64_overrides (a n : Nat) : (setCnt64 a n s).regs.overrides = s.regs.overrides := by simp [setCnt64]
@[simp] theorem setCnt64_laps (a n : Nat) : (setCnt64 a n s).regs.laps = s.regs.laps := by simp [setCnt64]
@[simp] theorem setCnt64_latch (a n : Nat) : (setCnt64 a n s).regs.latch = s.regs.latch := by simp [setCnt64]
@[simp] theorem setCnt64_cmdQueued (a n : Nat) : (setCnt64 a n s).regs.cmdQueued = s.regs.cmdQueued := by simp [setCnt64]

/-! ### setStamp -/

@[simp] theorem setStamp_pending (a : Nat) (t : Stamp) : (setStamp a t s).pending = s.pending := by simp [setStamp]
@[simp] theorem setStamp_commits (a : Nat) (t : Stamp) : (setStamp a t s).commits = s.commits := by simp [setStamp]
@[simp] theorem setStamp_sealing (a : Nat) (t : Stamp) : (setStamp a t s).sealing = s.sealing := by simp [setStamp]
@[simp] theorem setStamp_folds (a : Nat) (t : Stamp) : (setStamp a t s).folds = s.folds := by simp [setStamp]
@[simp] theorem setStamp_pwr (a : Nat) (t : Stamp) : (setStamp a t s).pwr = s.pwr := by simp [setStamp]
@[simp] theorem setStamp_boot (a : Nat) (t : Stamp) : (setStamp a t s).boot = s.boot := by simp [setStamp]
@[simp] theorem setStamp_pins (a : Nat) (t : Stamp) : (setStamp a t s).pins = s.pins := by simp [setStamp]
@[simp] theorem setStamp_clk (a : Nat) (t : Stamp) : (setStamp a t s).clk = s.clk := by simp [setStamp]
@[simp] theorem setStamp_tb (a : Nat) (t : Stamp) : (setStamp a t s).tb = s.tb := by simp [setStamp]
@[simp] theorem setStamp_cnt (a : Nat) (t : Stamp) : (setStamp a t s).cnt = s.cnt := by simp [setStamp]
@[simp] theorem setStamp_slc (a : Nat) (t : Stamp) : (setStamp a t s).slc = s.slc := by simp [setStamp]
@[simp] theorem setStamp_spt (a : Nat) (t : Stamp) : (setStamp a t s).spt = s.spt := by simp [setStamp]
@[simp] theorem setStamp_ports (a : Nat) (t : Stamp) : (setStamp a t s).ports = s.ports := by simp [setStamp]
@[simp] theorem setStamp_ptp (a : Nat) (t : Stamp) : (setStamp a t s).ptp = s.ptp := by simp [setStamp]
@[simp] theorem setStamp_lgr (a : Nat) (t : Stamp) : (setStamp a t s).lgr = s.lgr := by simp [setStamp]
@[simp] theorem setStamp_sec (a : Nat) (t : Stamp) : (setStamp a t s).sec = s.sec := by simp [setStamp]
@[simp] theorem setStamp_cnv (a : Nat) (t : Stamp) : (setStamp a t s).cnv = s.cnv := by simp [setStamp]
@[simp] theorem setStamp_lch (a : Nat) (t : Stamp) : (setStamp a t s).lch = s.lch := by simp [setStamp]
@[simp] theorem setStamp_arms (a : Nat) (t : Stamp) : (setStamp a t s).arms = s.arms := by simp [setStamp]
@[simp] theorem setStamp_tiu (a : Nat) (t : Stamp) : (setStamp a t s).tiu = s.tiu := by simp [setStamp]
@[simp] theorem setStamp_basin (a : Nat) (t : Stamp) : (setStamp a t s).basin = s.basin := by simp [setStamp]
@[simp] theorem setStamp_csc (a : Nat) (t : Stamp) : (setStamp a t s).csc = s.csc := by simp [setStamp]
@[simp] theorem setStamp_pol (a : Nat) (t : Stamp) : (setStamp a t s).pol = s.pol := by simp [setStamp]
@[simp] theorem setStamp_weir (a : Nat) (t : Stamp) : (setStamp a t s).weir = s.weir := by simp [setStamp]
@[simp] theorem setStamp_cis (a : Nat) (t : Stamp) : (setStamp a t s).cis = s.cis := by simp [setStamp]
@[simp] theorem setStamp_dram (a : Nat) (t : Stamp) : (setStamp a t s).dram = s.dram := by simp [setStamp]
@[simp] theorem setStamp_rnl (a : Nat) (t : Stamp) : (setStamp a t s).rnl = s.rnl := by simp [setStamp]
@[simp] theorem setStamp_timers (a : Nat) (t : Stamp) : (setStamp a t s).timers = s.timers := by simp [setStamp]
@[simp] theorem setStamp_shadow (a : Nat) (t : Stamp) : (setStamp a t s).regs.shadow = s.regs.shadow := by simp [setStamp]
@[simp] theorem setStamp_active (a : Nat) (t : Stamp) : (setStamp a t s).regs.active = s.regs.active := by simp [setStamp]
@[simp] theorem setStamp_committed (a : Nat) (t : Stamp) : (setStamp a t s).regs.committed = s.regs.committed := by simp [setStamp]
@[simp] theorem setStamp_pend (a : Nat) (t : Stamp) : (setStamp a t s).regs.pend = s.regs.pend := by simp [setStamp]
@[simp] theorem setStamp_overrides (a : Nat) (t : Stamp) : (setStamp a t s).regs.overrides = s.regs.overrides := by simp [setStamp]
@[simp] theorem setStamp_laps (a : Nat) (t : Stamp) : (setStamp a t s).regs.laps = s.regs.laps := by simp [setStamp]
@[simp] theorem setStamp_latch (a : Nat) (t : Stamp) : (setStamp a t s).regs.latch = s.regs.latch := by simp [setStamp]
@[simp] theorem setStamp_cmdQueued (a : Nat) (t : Stamp) : (setStamp a t s).regs.cmdQueued = s.regs.cmdQueued := by simp [setStamp]

/-! ### setStream -/

@[simp] theorem setStream_pending (n : Nat) (x : Stream) : (setStream n x s).pending = s.pending := rfl
@[simp] theorem setStream_regs (n : Nat) (x : Stream) : (setStream n x s).regs = s.regs := rfl
@[simp] theorem setStream_commits (n : Nat) (x : Stream) : (setStream n x s).commits = s.commits := rfl
@[simp] theorem setStream_sealing (n : Nat) (x : Stream) : (setStream n x s).sealing = s.sealing := rfl
@[simp] theorem setStream_folds (n : Nat) (x : Stream) : (setStream n x s).folds = s.folds := rfl
@[simp] theorem setStream_pwr (n : Nat) (x : Stream) : (setStream n x s).pwr = s.pwr := rfl
@[simp] theorem setStream_boot (n : Nat) (x : Stream) : (setStream n x s).boot = s.boot := rfl
@[simp] theorem setStream_pins (n : Nat) (x : Stream) : (setStream n x s).pins = s.pins := rfl
@[simp] theorem setStream_clk (n : Nat) (x : Stream) : (setStream n x s).clk = s.clk := rfl
@[simp] theorem setStream_tb (n : Nat) (x : Stream) : (setStream n x s).tb = s.tb := rfl
@[simp] theorem setStream_cnt (n : Nat) (x : Stream) : (setStream n x s).cnt = s.cnt := rfl
@[simp] theorem setStream_slc (n : Nat) (x : Stream) : (setStream n x s).slc = s.slc := rfl
@[simp] theorem setStream_ports (n : Nat) (x : Stream) : (setStream n x s).ports = s.ports := rfl
@[simp] theorem setStream_ptp (n : Nat) (x : Stream) : (setStream n x s).ptp = s.ptp := rfl
@[simp] theorem setStream_lgr (n : Nat) (x : Stream) : (setStream n x s).lgr = s.lgr := rfl
@[simp] theorem setStream_sec (n : Nat) (x : Stream) : (setStream n x s).sec = s.sec := rfl
@[simp] theorem setStream_cnv (n : Nat) (x : Stream) : (setStream n x s).cnv = s.cnv := rfl
@[simp] theorem setStream_lch (n : Nat) (x : Stream) : (setStream n x s).lch = s.lch := rfl
@[simp] theorem setStream_arms (n : Nat) (x : Stream) : (setStream n x s).arms = s.arms := rfl
@[simp] theorem setStream_tiu (n : Nat) (x : Stream) : (setStream n x s).tiu = s.tiu := rfl
@[simp] theorem setStream_basin (n : Nat) (x : Stream) : (setStream n x s).basin = s.basin := rfl
@[simp] theorem setStream_csc (n : Nat) (x : Stream) : (setStream n x s).csc = s.csc := rfl
@[simp] theorem setStream_pol (n : Nat) (x : Stream) : (setStream n x s).pol = s.pol := rfl
@[simp] theorem setStream_weir (n : Nat) (x : Stream) : (setStream n x s).weir = s.weir := rfl
@[simp] theorem setStream_cis (n : Nat) (x : Stream) : (setStream n x s).cis = s.cis := rfl
@[simp] theorem setStream_dram (n : Nat) (x : Stream) : (setStream n x s).dram = s.dram := rfl
@[simp] theorem setStream_rnl (n : Nat) (x : Stream) : (setStream n x s).rnl = s.rnl := rfl
@[simp] theorem setStream_timers (n : Nat) (x : Stream) : (setStream n x s).timers = s.timers := rfl

/-! ### setLch -/

@[simp] theorem setLch_pending (p : Nat) (x : Lch) : (setLch p x s).pending = s.pending := rfl
@[simp] theorem setLch_regs (p : Nat) (x : Lch) : (setLch p x s).regs = s.regs := rfl
@[simp] theorem setLch_commits (p : Nat) (x : Lch) : (setLch p x s).commits = s.commits := rfl
@[simp] theorem setLch_sealing (p : Nat) (x : Lch) : (setLch p x s).sealing = s.sealing := rfl
@[simp] theorem setLch_folds (p : Nat) (x : Lch) : (setLch p x s).folds = s.folds := rfl
@[simp] theorem setLch_pwr (p : Nat) (x : Lch) : (setLch p x s).pwr = s.pwr := rfl
@[simp] theorem setLch_boot (p : Nat) (x : Lch) : (setLch p x s).boot = s.boot := rfl
@[simp] theorem setLch_pins (p : Nat) (x : Lch) : (setLch p x s).pins = s.pins := rfl
@[simp] theorem setLch_clk (p : Nat) (x : Lch) : (setLch p x s).clk = s.clk := rfl
@[simp] theorem setLch_tb (p : Nat) (x : Lch) : (setLch p x s).tb = s.tb := rfl
@[simp] theorem setLch_cnt (p : Nat) (x : Lch) : (setLch p x s).cnt = s.cnt := rfl
@[simp] theorem setLch_slc (p : Nat) (x : Lch) : (setLch p x s).slc = s.slc := rfl
@[simp] theorem setLch_spt (p : Nat) (x : Lch) : (setLch p x s).spt = s.spt := rfl
@[simp] theorem setLch_ports (p : Nat) (x : Lch) : (setLch p x s).ports = s.ports := rfl
@[simp] theorem setLch_ptp (p : Nat) (x : Lch) : (setLch p x s).ptp = s.ptp := rfl
@[simp] theorem setLch_lgr (p : Nat) (x : Lch) : (setLch p x s).lgr = s.lgr := rfl
@[simp] theorem setLch_sec (p : Nat) (x : Lch) : (setLch p x s).sec = s.sec := rfl
@[simp] theorem setLch_cnv (p : Nat) (x : Lch) : (setLch p x s).cnv = s.cnv := rfl
@[simp] theorem setLch_arms (p : Nat) (x : Lch) : (setLch p x s).arms = s.arms := rfl
@[simp] theorem setLch_tiu (p : Nat) (x : Lch) : (setLch p x s).tiu = s.tiu := rfl
@[simp] theorem setLch_basin (p : Nat) (x : Lch) : (setLch p x s).basin = s.basin := rfl
@[simp] theorem setLch_csc (p : Nat) (x : Lch) : (setLch p x s).csc = s.csc := rfl
@[simp] theorem setLch_pol (p : Nat) (x : Lch) : (setLch p x s).pol = s.pol := rfl
@[simp] theorem setLch_weir (p : Nat) (x : Lch) : (setLch p x s).weir = s.weir := rfl
@[simp] theorem setLch_cis (p : Nat) (x : Lch) : (setLch p x s).cis = s.cis := rfl
@[simp] theorem setLch_dram (p : Nat) (x : Lch) : (setLch p x s).dram = s.dram := rfl
@[simp] theorem setLch_rnl (p : Nat) (x : Lch) : (setLch p x s).rnl = s.rnl := rfl
@[simp] theorem setLch_timers (p : Nat) (x : Lch) : (setLch p x s).timers = s.timers := rfl

/-! ### setPort -/

@[simp] theorem setPort_pending (p : Nat) (x : Port) : (setPort p x s).pending = s.pending := rfl
@[simp] theorem setPort_regs (p : Nat) (x : Port) : (setPort p x s).regs = s.regs := rfl
@[simp] theorem setPort_commits (p : Nat) (x : Port) : (setPort p x s).commits = s.commits := rfl
@[simp] theorem setPort_sealing (p : Nat) (x : Port) : (setPort p x s).sealing = s.sealing := rfl
@[simp] theorem setPort_folds (p : Nat) (x : Port) : (setPort p x s).folds = s.folds := rfl
@[simp] theorem setPort_pwr (p : Nat) (x : Port) : (setPort p x s).pwr = s.pwr := rfl
@[simp] theorem setPort_boot (p : Nat) (x : Port) : (setPort p x s).boot = s.boot := rfl
@[simp] theorem setPort_pins (p : Nat) (x : Port) : (setPort p x s).pins = s.pins := rfl
@[simp] theorem setPort_clk (p : Nat) (x : Port) : (setPort p x s).clk = s.clk := rfl
@[simp] theorem setPort_tb (p : Nat) (x : Port) : (setPort p x s).tb = s.tb := rfl
@[simp] theorem setPort_cnt (p : Nat) (x : Port) : (setPort p x s).cnt = s.cnt := rfl
@[simp] theorem setPort_slc (p : Nat) (x : Port) : (setPort p x s).slc = s.slc := rfl
@[simp] theorem setPort_spt (p : Nat) (x : Port) : (setPort p x s).spt = s.spt := rfl
@[simp] theorem setPort_ptp (p : Nat) (x : Port) : (setPort p x s).ptp = s.ptp := rfl
@[simp] theorem setPort_lgr (p : Nat) (x : Port) : (setPort p x s).lgr = s.lgr := rfl
@[simp] theorem setPort_sec (p : Nat) (x : Port) : (setPort p x s).sec = s.sec := rfl
@[simp] theorem setPort_cnv (p : Nat) (x : Port) : (setPort p x s).cnv = s.cnv := rfl
@[simp] theorem setPort_lch (p : Nat) (x : Port) : (setPort p x s).lch = s.lch := rfl
@[simp] theorem setPort_arms (p : Nat) (x : Port) : (setPort p x s).arms = s.arms := rfl
@[simp] theorem setPort_tiu (p : Nat) (x : Port) : (setPort p x s).tiu = s.tiu := rfl
@[simp] theorem setPort_basin (p : Nat) (x : Port) : (setPort p x s).basin = s.basin := rfl
@[simp] theorem setPort_csc (p : Nat) (x : Port) : (setPort p x s).csc = s.csc := rfl
@[simp] theorem setPort_pol (p : Nat) (x : Port) : (setPort p x s).pol = s.pol := rfl
@[simp] theorem setPort_weir (p : Nat) (x : Port) : (setPort p x s).weir = s.weir := rfl
@[simp] theorem setPort_cis (p : Nat) (x : Port) : (setPort p x s).cis = s.cis := rfl
@[simp] theorem setPort_dram (p : Nat) (x : Port) : (setPort p x s).dram = s.dram := rfl
@[simp] theorem setPort_rnl (p : Nat) (x : Port) : (setPort p x s).rnl = s.rnl := rfl
@[simp] theorem setPort_timers (p : Nat) (x : Port) : (setPort p x s).timers = s.timers := rfl

/-! ### setConv -/

@[simp] theorem setConv_pending (n : Nat) (x : Conv) : (setConv n x s).pending = s.pending := rfl
@[simp] theorem setConv_regs (n : Nat) (x : Conv) : (setConv n x s).regs = s.regs := rfl
@[simp] theorem setConv_commits (n : Nat) (x : Conv) : (setConv n x s).commits = s.commits := rfl
@[simp] theorem setConv_sealing (n : Nat) (x : Conv) : (setConv n x s).sealing = s.sealing := rfl
@[simp] theorem setConv_folds (n : Nat) (x : Conv) : (setConv n x s).folds = s.folds := rfl
@[simp] theorem setConv_pwr (n : Nat) (x : Conv) : (setConv n x s).pwr = s.pwr := rfl
@[simp] theorem setConv_boot (n : Nat) (x : Conv) : (setConv n x s).boot = s.boot := rfl
@[simp] theorem setConv_pins (n : Nat) (x : Conv) : (setConv n x s).pins = s.pins := rfl
@[simp] theorem setConv_clk (n : Nat) (x : Conv) : (setConv n x s).clk = s.clk := rfl
@[simp] theorem setConv_tb (n : Nat) (x : Conv) : (setConv n x s).tb = s.tb := rfl
@[simp] theorem setConv_cnt (n : Nat) (x : Conv) : (setConv n x s).cnt = s.cnt := rfl
@[simp] theorem setConv_slc (n : Nat) (x : Conv) : (setConv n x s).slc = s.slc := rfl
@[simp] theorem setConv_spt (n : Nat) (x : Conv) : (setConv n x s).spt = s.spt := rfl
@[simp] theorem setConv_ports (n : Nat) (x : Conv) : (setConv n x s).ports = s.ports := rfl
@[simp] theorem setConv_ptp (n : Nat) (x : Conv) : (setConv n x s).ptp = s.ptp := rfl
@[simp] theorem setConv_lgr (n : Nat) (x : Conv) : (setConv n x s).lgr = s.lgr := rfl
@[simp] theorem setConv_sec (n : Nat) (x : Conv) : (setConv n x s).sec = s.sec := rfl
@[simp] theorem setConv_lch (n : Nat) (x : Conv) : (setConv n x s).lch = s.lch := rfl
@[simp] theorem setConv_arms (n : Nat) (x : Conv) : (setConv n x s).arms = s.arms := rfl
@[simp] theorem setConv_tiu (n : Nat) (x : Conv) : (setConv n x s).tiu = s.tiu := rfl
@[simp] theorem setConv_basin (n : Nat) (x : Conv) : (setConv n x s).basin = s.basin := rfl
@[simp] theorem setConv_csc (n : Nat) (x : Conv) : (setConv n x s).csc = s.csc := rfl
@[simp] theorem setConv_pol (n : Nat) (x : Conv) : (setConv n x s).pol = s.pol := rfl
@[simp] theorem setConv_weir (n : Nat) (x : Conv) : (setConv n x s).weir = s.weir := rfl
@[simp] theorem setConv_cis (n : Nat) (x : Conv) : (setConv n x s).cis = s.cis := rfl
@[simp] theorem setConv_dram (n : Nat) (x : Conv) : (setConv n x s).dram = s.dram := rfl
@[simp] theorem setConv_rnl (n : Nat) (x : Conv) : (setConv n x s).rnl = s.rnl := rfl
@[simp] theorem setConv_timers (n : Nat) (x : Conv) : (setConv n x s).timers = s.timers := rfl

/-! ### setUnit -/

@[simp] theorem setUnit_pending (u : Nat) (x : Weir) : (setUnit u x s).pending = s.pending := rfl
@[simp] theorem setUnit_regs (u : Nat) (x : Weir) : (setUnit u x s).regs = s.regs := rfl
@[simp] theorem setUnit_commits (u : Nat) (x : Weir) : (setUnit u x s).commits = s.commits := rfl
@[simp] theorem setUnit_sealing (u : Nat) (x : Weir) : (setUnit u x s).sealing = s.sealing := rfl
@[simp] theorem setUnit_folds (u : Nat) (x : Weir) : (setUnit u x s).folds = s.folds := rfl
@[simp] theorem setUnit_pwr (u : Nat) (x : Weir) : (setUnit u x s).pwr = s.pwr := rfl
@[simp] theorem setUnit_boot (u : Nat) (x : Weir) : (setUnit u x s).boot = s.boot := rfl
@[simp] theorem setUnit_pins (u : Nat) (x : Weir) : (setUnit u x s).pins = s.pins := rfl
@[simp] theorem setUnit_clk (u : Nat) (x : Weir) : (setUnit u x s).clk = s.clk := rfl
@[simp] theorem setUnit_tb (u : Nat) (x : Weir) : (setUnit u x s).tb = s.tb := rfl
@[simp] theorem setUnit_cnt (u : Nat) (x : Weir) : (setUnit u x s).cnt = s.cnt := rfl
@[simp] theorem setUnit_slc (u : Nat) (x : Weir) : (setUnit u x s).slc = s.slc := rfl
@[simp] theorem setUnit_spt (u : Nat) (x : Weir) : (setUnit u x s).spt = s.spt := rfl
@[simp] theorem setUnit_ports (u : Nat) (x : Weir) : (setUnit u x s).ports = s.ports := rfl
@[simp] theorem setUnit_ptp (u : Nat) (x : Weir) : (setUnit u x s).ptp = s.ptp := rfl
@[simp] theorem setUnit_lgr (u : Nat) (x : Weir) : (setUnit u x s).lgr = s.lgr := rfl
@[simp] theorem setUnit_sec (u : Nat) (x : Weir) : (setUnit u x s).sec = s.sec := rfl
@[simp] theorem setUnit_cnv (u : Nat) (x : Weir) : (setUnit u x s).cnv = s.cnv := rfl
@[simp] theorem setUnit_lch (u : Nat) (x : Weir) : (setUnit u x s).lch = s.lch := rfl
@[simp] theorem setUnit_arms (u : Nat) (x : Weir) : (setUnit u x s).arms = s.arms := rfl
@[simp] theorem setUnit_tiu (u : Nat) (x : Weir) : (setUnit u x s).tiu = s.tiu := rfl
@[simp] theorem setUnit_basin (u : Nat) (x : Weir) : (setUnit u x s).basin = s.basin := rfl
@[simp] theorem setUnit_csc (u : Nat) (x : Weir) : (setUnit u x s).csc = s.csc := rfl
@[simp] theorem setUnit_pol (u : Nat) (x : Weir) : (setUnit u x s).pol = s.pol := rfl
@[simp] theorem setUnit_cis (u : Nat) (x : Weir) : (setUnit u x s).cis = s.cis := rfl
@[simp] theorem setUnit_dram (u : Nat) (x : Weir) : (setUnit u x s).dram = s.dram := rfl
@[simp] theorem setUnit_rnl (u : Nat) (x : Weir) : (setUnit u x s).rnl = s.rnl := rfl
@[simp] theorem setUnit_timers (u : Nat) (x : Weir) : (setUnit u x s).timers = s.timers := rfl

/-! ### setWatch -/

@[simp] theorem setWatch_pending (w : Nat) (x : Weir) : (setWatch w x s).pending = s.pending := rfl
@[simp] theorem setWatch_regs (w : Nat) (x : Weir) : (setWatch w x s).regs = s.regs := rfl
@[simp] theorem setWatch_commits (w : Nat) (x : Weir) : (setWatch w x s).commits = s.commits := rfl
@[simp] theorem setWatch_sealing (w : Nat) (x : Weir) : (setWatch w x s).sealing = s.sealing := rfl
@[simp] theorem setWatch_folds (w : Nat) (x : Weir) : (setWatch w x s).folds = s.folds := rfl
@[simp] theorem setWatch_pwr (w : Nat) (x : Weir) : (setWatch w x s).pwr = s.pwr := rfl
@[simp] theorem setWatch_boot (w : Nat) (x : Weir) : (setWatch w x s).boot = s.boot := rfl
@[simp] theorem setWatch_pins (w : Nat) (x : Weir) : (setWatch w x s).pins = s.pins := rfl
@[simp] theorem setWatch_clk (w : Nat) (x : Weir) : (setWatch w x s).clk = s.clk := rfl
@[simp] theorem setWatch_tb (w : Nat) (x : Weir) : (setWatch w x s).tb = s.tb := rfl
@[simp] theorem setWatch_cnt (w : Nat) (x : Weir) : (setWatch w x s).cnt = s.cnt := rfl
@[simp] theorem setWatch_slc (w : Nat) (x : Weir) : (setWatch w x s).slc = s.slc := rfl
@[simp] theorem setWatch_spt (w : Nat) (x : Weir) : (setWatch w x s).spt = s.spt := rfl
@[simp] theorem setWatch_ports (w : Nat) (x : Weir) : (setWatch w x s).ports = s.ports := rfl
@[simp] theorem setWatch_ptp (w : Nat) (x : Weir) : (setWatch w x s).ptp = s.ptp := rfl
@[simp] theorem setWatch_lgr (w : Nat) (x : Weir) : (setWatch w x s).lgr = s.lgr := rfl
@[simp] theorem setWatch_sec (w : Nat) (x : Weir) : (setWatch w x s).sec = s.sec := rfl
@[simp] theorem setWatch_cnv (w : Nat) (x : Weir) : (setWatch w x s).cnv = s.cnv := rfl
@[simp] theorem setWatch_lch (w : Nat) (x : Weir) : (setWatch w x s).lch = s.lch := rfl
@[simp] theorem setWatch_arms (w : Nat) (x : Weir) : (setWatch w x s).arms = s.arms := rfl
@[simp] theorem setWatch_tiu (w : Nat) (x : Weir) : (setWatch w x s).tiu = s.tiu := rfl
@[simp] theorem setWatch_basin (w : Nat) (x : Weir) : (setWatch w x s).basin = s.basin := rfl
@[simp] theorem setWatch_csc (w : Nat) (x : Weir) : (setWatch w x s).csc = s.csc := rfl
@[simp] theorem setWatch_pol (w : Nat) (x : Weir) : (setWatch w x s).pol = s.pol := rfl
@[simp] theorem setWatch_cis (w : Nat) (x : Weir) : (setWatch w x s).cis = s.cis := rfl
@[simp] theorem setWatch_dram (w : Nat) (x : Weir) : (setWatch w x s).dram = s.dram := rfl
@[simp] theorem setWatch_rnl (w : Nat) (x : Weir) : (setWatch w x s).rnl = s.rnl := rfl
@[simp] theorem setWatch_timers (w : Nat) (x : Weir) : (setWatch w x s).timers = s.timers := rfl

/-! ### setRegion -/

@[simp] theorem setRegion_pending (r : Nat) (x : Region) : (setRegion r x s).pending = s.pending := rfl
@[simp] theorem setRegion_regs (r : Nat) (x : Region) : (setRegion r x s).regs = s.regs := rfl
@[simp] theorem setRegion_commits (r : Nat) (x : Region) : (setRegion r x s).commits = s.commits := rfl
@[simp] theorem setRegion_sealing (r : Nat) (x : Region) : (setRegion r x s).sealing = s.sealing := rfl
@[simp] theorem setRegion_folds (r : Nat) (x : Region) : (setRegion r x s).folds = s.folds := rfl
@[simp] theorem setRegion_pwr (r : Nat) (x : Region) : (setRegion r x s).pwr = s.pwr := rfl
@[simp] theorem setRegion_boot (r : Nat) (x : Region) : (setRegion r x s).boot = s.boot := rfl
@[simp] theorem setRegion_pins (r : Nat) (x : Region) : (setRegion r x s).pins = s.pins := rfl
@[simp] theorem setRegion_clk (r : Nat) (x : Region) : (setRegion r x s).clk = s.clk := rfl
@[simp] theorem setRegion_tb (r : Nat) (x : Region) : (setRegion r x s).tb = s.tb := rfl
@[simp] theorem setRegion_cnt (r : Nat) (x : Region) : (setRegion r x s).cnt = s.cnt := rfl
@[simp] theorem setRegion_slc (r : Nat) (x : Region) : (setRegion r x s).slc = s.slc := rfl
@[simp] theorem setRegion_spt (r : Nat) (x : Region) : (setRegion r x s).spt = s.spt := rfl
@[simp] theorem setRegion_ports (r : Nat) (x : Region) : (setRegion r x s).ports = s.ports := rfl
@[simp] theorem setRegion_ptp (r : Nat) (x : Region) : (setRegion r x s).ptp = s.ptp := rfl
@[simp] theorem setRegion_lgr (r : Nat) (x : Region) : (setRegion r x s).lgr = s.lgr := rfl
@[simp] theorem setRegion_sec (r : Nat) (x : Region) : (setRegion r x s).sec = s.sec := rfl
@[simp] theorem setRegion_cnv (r : Nat) (x : Region) : (setRegion r x s).cnv = s.cnv := rfl
@[simp] theorem setRegion_lch (r : Nat) (x : Region) : (setRegion r x s).lch = s.lch := rfl
@[simp] theorem setRegion_arms (r : Nat) (x : Region) : (setRegion r x s).arms = s.arms := rfl
@[simp] theorem setRegion_tiu (r : Nat) (x : Region) : (setRegion r x s).tiu = s.tiu := rfl
@[simp] theorem setRegion_basin (r : Nat) (x : Region) : (setRegion r x s).basin = s.basin := rfl
@[simp] theorem setRegion_csc (r : Nat) (x : Region) : (setRegion r x s).csc = s.csc := rfl
@[simp] theorem setRegion_pol (r : Nat) (x : Region) : (setRegion r x s).pol = s.pol := rfl
@[simp] theorem setRegion_weir (r : Nat) (x : Region) : (setRegion r x s).weir = s.weir := rfl
@[simp] theorem setRegion_dram (r : Nat) (x : Region) : (setRegion r x s).dram = s.dram := rfl
@[simp] theorem setRegion_rnl (r : Nat) (x : Region) : (setRegion r x s).rnl = s.rnl := rfl
@[simp] theorem setRegion_timers (r : Nat) (x : Region) : (setRegion r x s).timers = s.timers := rfl

/-! ### setPol -/

@[simp] theorem setPol_pending (e : Nat) (x : Pol) : (setPol e x s).pending = s.pending := rfl
@[simp] theorem setPol_regs (e : Nat) (x : Pol) : (setPol e x s).regs = s.regs := rfl
@[simp] theorem setPol_commits (e : Nat) (x : Pol) : (setPol e x s).commits = s.commits := rfl
@[simp] theorem setPol_sealing (e : Nat) (x : Pol) : (setPol e x s).sealing = s.sealing := rfl
@[simp] theorem setPol_folds (e : Nat) (x : Pol) : (setPol e x s).folds = s.folds := rfl
@[simp] theorem setPol_pwr (e : Nat) (x : Pol) : (setPol e x s).pwr = s.pwr := rfl
@[simp] theorem setPol_boot (e : Nat) (x : Pol) : (setPol e x s).boot = s.boot := rfl
@[simp] theorem setPol_pins (e : Nat) (x : Pol) : (setPol e x s).pins = s.pins := rfl
@[simp] theorem setPol_clk (e : Nat) (x : Pol) : (setPol e x s).clk = s.clk := rfl
@[simp] theorem setPol_tb (e : Nat) (x : Pol) : (setPol e x s).tb = s.tb := rfl
@[simp] theorem setPol_cnt (e : Nat) (x : Pol) : (setPol e x s).cnt = s.cnt := rfl
@[simp] theorem setPol_slc (e : Nat) (x : Pol) : (setPol e x s).slc = s.slc := rfl
@[simp] theorem setPol_spt (e : Nat) (x : Pol) : (setPol e x s).spt = s.spt := rfl
@[simp] theorem setPol_ports (e : Nat) (x : Pol) : (setPol e x s).ports = s.ports := rfl
@[simp] theorem setPol_ptp (e : Nat) (x : Pol) : (setPol e x s).ptp = s.ptp := rfl
@[simp] theorem setPol_lgr (e : Nat) (x : Pol) : (setPol e x s).lgr = s.lgr := rfl
@[simp] theorem setPol_sec (e : Nat) (x : Pol) : (setPol e x s).sec = s.sec := rfl
@[simp] theorem setPol_cnv (e : Nat) (x : Pol) : (setPol e x s).cnv = s.cnv := rfl
@[simp] theorem setPol_lch (e : Nat) (x : Pol) : (setPol e x s).lch = s.lch := rfl
@[simp] theorem setPol_arms (e : Nat) (x : Pol) : (setPol e x s).arms = s.arms := rfl
@[simp] theorem setPol_tiu (e : Nat) (x : Pol) : (setPol e x s).tiu = s.tiu := rfl
@[simp] theorem setPol_basin (e : Nat) (x : Pol) : (setPol e x s).basin = s.basin := rfl
@[simp] theorem setPol_csc (e : Nat) (x : Pol) : (setPol e x s).csc = s.csc := rfl
@[simp] theorem setPol_weir (e : Nat) (x : Pol) : (setPol e x s).weir = s.weir := rfl
@[simp] theorem setPol_cis (e : Nat) (x : Pol) : (setPol e x s).cis = s.cis := rfl
@[simp] theorem setPol_dram (e : Nat) (x : Pol) : (setPol e x s).dram = s.dram := rfl
@[simp] theorem setPol_rnl (e : Nat) (x : Pol) : (setPol e x s).rnl = s.rnl := rfl
@[simp] theorem setPol_timers (e : Nat) (x : Pol) : (setPol e x s).timers = s.timers := rfl

/-! ### setCsc -/

@[simp] theorem setCsc_pending (p : Nat) (x : Csc) : (setCsc p x s).pending = s.pending := rfl
@[simp] theorem setCsc_regs (p : Nat) (x : Csc) : (setCsc p x s).regs = s.regs := rfl
@[simp] theorem setCsc_commits (p : Nat) (x : Csc) : (setCsc p x s).commits = s.commits := rfl
@[simp] theorem setCsc_sealing (p : Nat) (x : Csc) : (setCsc p x s).sealing = s.sealing := rfl
@[simp] theorem setCsc_folds (p : Nat) (x : Csc) : (setCsc p x s).folds = s.folds := rfl
@[simp] theorem setCsc_pwr (p : Nat) (x : Csc) : (setCsc p x s).pwr = s.pwr := rfl
@[simp] theorem setCsc_boot (p : Nat) (x : Csc) : (setCsc p x s).boot = s.boot := rfl
@[simp] theorem setCsc_pins (p : Nat) (x : Csc) : (setCsc p x s).pins = s.pins := rfl
@[simp] theorem setCsc_clk (p : Nat) (x : Csc) : (setCsc p x s).clk = s.clk := rfl
@[simp] theorem setCsc_tb (p : Nat) (x : Csc) : (setCsc p x s).tb = s.tb := rfl
@[simp] theorem setCsc_cnt (p : Nat) (x : Csc) : (setCsc p x s).cnt = s.cnt := rfl
@[simp] theorem setCsc_slc (p : Nat) (x : Csc) : (setCsc p x s).slc = s.slc := rfl
@[simp] theorem setCsc_spt (p : Nat) (x : Csc) : (setCsc p x s).spt = s.spt := rfl
@[simp] theorem setCsc_ports (p : Nat) (x : Csc) : (setCsc p x s).ports = s.ports := rfl
@[simp] theorem setCsc_ptp (p : Nat) (x : Csc) : (setCsc p x s).ptp = s.ptp := rfl
@[simp] theorem setCsc_lgr (p : Nat) (x : Csc) : (setCsc p x s).lgr = s.lgr := rfl
@[simp] theorem setCsc_sec (p : Nat) (x : Csc) : (setCsc p x s).sec = s.sec := rfl
@[simp] theorem setCsc_cnv (p : Nat) (x : Csc) : (setCsc p x s).cnv = s.cnv := rfl
@[simp] theorem setCsc_lch (p : Nat) (x : Csc) : (setCsc p x s).lch = s.lch := rfl
@[simp] theorem setCsc_arms (p : Nat) (x : Csc) : (setCsc p x s).arms = s.arms := rfl
@[simp] theorem setCsc_tiu (p : Nat) (x : Csc) : (setCsc p x s).tiu = s.tiu := rfl
@[simp] theorem setCsc_basin (p : Nat) (x : Csc) : (setCsc p x s).basin = s.basin := rfl
@[simp] theorem setCsc_pol (p : Nat) (x : Csc) : (setCsc p x s).pol = s.pol := rfl
@[simp] theorem setCsc_weir (p : Nat) (x : Csc) : (setCsc p x s).weir = s.weir := rfl
@[simp] theorem setCsc_cis (p : Nat) (x : Csc) : (setCsc p x s).cis = s.cis := rfl
@[simp] theorem setCsc_dram (p : Nat) (x : Csc) : (setCsc p x s).dram = s.dram := rfl
@[simp] theorem setCsc_rnl (p : Nat) (x : Csc) : (setCsc p x s).rnl = s.rnl := rfl
@[simp] theorem setCsc_timers (p : Nat) (x : Csc) : (setCsc p x s).timers = s.timers := rfl

/-! ### setRch -/

@[simp] theorem setRch_pending (c : Nat) (x : RChan) : (setRch c x s).pending = s.pending := rfl
@[simp] theorem setRch_regs (c : Nat) (x : RChan) : (setRch c x s).regs = s.regs := rfl
@[simp] theorem setRch_commits (c : Nat) (x : RChan) : (setRch c x s).commits = s.commits := rfl
@[simp] theorem setRch_sealing (c : Nat) (x : RChan) : (setRch c x s).sealing = s.sealing := rfl
@[simp] theorem setRch_folds (c : Nat) (x : RChan) : (setRch c x s).folds = s.folds := rfl
@[simp] theorem setRch_pwr (c : Nat) (x : RChan) : (setRch c x s).pwr = s.pwr := rfl
@[simp] theorem setRch_boot (c : Nat) (x : RChan) : (setRch c x s).boot = s.boot := rfl
@[simp] theorem setRch_pins (c : Nat) (x : RChan) : (setRch c x s).pins = s.pins := rfl
@[simp] theorem setRch_clk (c : Nat) (x : RChan) : (setRch c x s).clk = s.clk := rfl
@[simp] theorem setRch_tb (c : Nat) (x : RChan) : (setRch c x s).tb = s.tb := rfl
@[simp] theorem setRch_cnt (c : Nat) (x : RChan) : (setRch c x s).cnt = s.cnt := rfl
@[simp] theorem setRch_slc (c : Nat) (x : RChan) : (setRch c x s).slc = s.slc := rfl
@[simp] theorem setRch_spt (c : Nat) (x : RChan) : (setRch c x s).spt = s.spt := rfl
@[simp] theorem setRch_ports (c : Nat) (x : RChan) : (setRch c x s).ports = s.ports := rfl
@[simp] theorem setRch_ptp (c : Nat) (x : RChan) : (setRch c x s).ptp = s.ptp := rfl
@[simp] theorem setRch_lgr (c : Nat) (x : RChan) : (setRch c x s).lgr = s.lgr := rfl
@[simp] theorem setRch_sec (c : Nat) (x : RChan) : (setRch c x s).sec = s.sec := rfl
@[simp] theorem setRch_cnv (c : Nat) (x : RChan) : (setRch c x s).cnv = s.cnv := rfl
@[simp] theorem setRch_lch (c : Nat) (x : RChan) : (setRch c x s).lch = s.lch := rfl
@[simp] theorem setRch_arms (c : Nat) (x : RChan) : (setRch c x s).arms = s.arms := rfl
@[simp] theorem setRch_tiu (c : Nat) (x : RChan) : (setRch c x s).tiu = s.tiu := rfl
@[simp] theorem setRch_basin (c : Nat) (x : RChan) : (setRch c x s).basin = s.basin := rfl
@[simp] theorem setRch_csc (c : Nat) (x : RChan) : (setRch c x s).csc = s.csc := rfl
@[simp] theorem setRch_pol (c : Nat) (x : RChan) : (setRch c x s).pol = s.pol := rfl
@[simp] theorem setRch_weir (c : Nat) (x : RChan) : (setRch c x s).weir = s.weir := rfl
@[simp] theorem setRch_cis (c : Nat) (x : RChan) : (setRch c x s).cis = s.cis := rfl
@[simp] theorem setRch_dram (c : Nat) (x : RChan) : (setRch c x s).dram = s.dram := rfl
@[simp] theorem setRch_timers (c : Nat) (x : RChan) : (setRch c x s).timers = s.timers := rfl

/-! ### setDch -/

@[simp] theorem setDch_pending (c : Nat) (x : DChan) : (setDch c x s).pending = s.pending := rfl
@[simp] theorem setDch_regs (c : Nat) (x : DChan) : (setDch c x s).regs = s.regs := rfl
@[simp] theorem setDch_commits (c : Nat) (x : DChan) : (setDch c x s).commits = s.commits := rfl
@[simp] theorem setDch_sealing (c : Nat) (x : DChan) : (setDch c x s).sealing = s.sealing := rfl
@[simp] theorem setDch_folds (c : Nat) (x : DChan) : (setDch c x s).folds = s.folds := rfl
@[simp] theorem setDch_pwr (c : Nat) (x : DChan) : (setDch c x s).pwr = s.pwr := rfl
@[simp] theorem setDch_boot (c : Nat) (x : DChan) : (setDch c x s).boot = s.boot := rfl
@[simp] theorem setDch_pins (c : Nat) (x : DChan) : (setDch c x s).pins = s.pins := rfl
@[simp] theorem setDch_clk (c : Nat) (x : DChan) : (setDch c x s).clk = s.clk := rfl
@[simp] theorem setDch_tb (c : Nat) (x : DChan) : (setDch c x s).tb = s.tb := rfl
@[simp] theorem setDch_cnt (c : Nat) (x : DChan) : (setDch c x s).cnt = s.cnt := rfl
@[simp] theorem setDch_slc (c : Nat) (x : DChan) : (setDch c x s).slc = s.slc := rfl
@[simp] theorem setDch_spt (c : Nat) (x : DChan) : (setDch c x s).spt = s.spt := rfl
@[simp] theorem setDch_ports (c : Nat) (x : DChan) : (setDch c x s).ports = s.ports := rfl
@[simp] theorem setDch_ptp (c : Nat) (x : DChan) : (setDch c x s).ptp = s.ptp := rfl
@[simp] theorem setDch_lgr (c : Nat) (x : DChan) : (setDch c x s).lgr = s.lgr := rfl
@[simp] theorem setDch_sec (c : Nat) (x : DChan) : (setDch c x s).sec = s.sec := rfl
@[simp] theorem setDch_cnv (c : Nat) (x : DChan) : (setDch c x s).cnv = s.cnv := rfl
@[simp] theorem setDch_lch (c : Nat) (x : DChan) : (setDch c x s).lch = s.lch := rfl
@[simp] theorem setDch_arms (c : Nat) (x : DChan) : (setDch c x s).arms = s.arms := rfl
@[simp] theorem setDch_tiu (c : Nat) (x : DChan) : (setDch c x s).tiu = s.tiu := rfl
@[simp] theorem setDch_basin (c : Nat) (x : DChan) : (setDch c x s).basin = s.basin := rfl
@[simp] theorem setDch_csc (c : Nat) (x : DChan) : (setDch c x s).csc = s.csc := rfl
@[simp] theorem setDch_pol (c : Nat) (x : DChan) : (setDch c x s).pol = s.pol := rfl
@[simp] theorem setDch_weir (c : Nat) (x : DChan) : (setDch c x s).weir = s.weir := rfl
@[simp] theorem setDch_cis (c : Nat) (x : DChan) : (setDch c x s).cis = s.cis := rfl
@[simp] theorem setDch_rnl (c : Nat) (x : DChan) : (setDch c x s).rnl = s.rnl := rfl
@[simp] theorem setDch_timers (c : Nat) (x : DChan) : (setDch c x s).timers = s.timers := rfl

/-! ### setSes -/

@[simp] theorem setSes_pending (n : Nat) (x : Session) : (setSes n x s).pending = s.pending := rfl
@[simp] theorem setSes_regs (n : Nat) (x : Session) : (setSes n x s).regs = s.regs := rfl
@[simp] theorem setSes_commits (n : Nat) (x : Session) : (setSes n x s).commits = s.commits := rfl
@[simp] theorem setSes_sealing (n : Nat) (x : Session) : (setSes n x s).sealing = s.sealing := rfl
@[simp] theorem setSes_folds (n : Nat) (x : Session) : (setSes n x s).folds = s.folds := rfl
@[simp] theorem setSes_pwr (n : Nat) (x : Session) : (setSes n x s).pwr = s.pwr := rfl
@[simp] theorem setSes_boot (n : Nat) (x : Session) : (setSes n x s).boot = s.boot := rfl
@[simp] theorem setSes_pins (n : Nat) (x : Session) : (setSes n x s).pins = s.pins := rfl
@[simp] theorem setSes_clk (n : Nat) (x : Session) : (setSes n x s).clk = s.clk := rfl
@[simp] theorem setSes_tb (n : Nat) (x : Session) : (setSes n x s).tb = s.tb := rfl
@[simp] theorem setSes_cnt (n : Nat) (x : Session) : (setSes n x s).cnt = s.cnt := rfl
@[simp] theorem setSes_spt (n : Nat) (x : Session) : (setSes n x s).spt = s.spt := rfl
@[simp] theorem setSes_ports (n : Nat) (x : Session) : (setSes n x s).ports = s.ports := rfl
@[simp] theorem setSes_ptp (n : Nat) (x : Session) : (setSes n x s).ptp = s.ptp := rfl
@[simp] theorem setSes_lgr (n : Nat) (x : Session) : (setSes n x s).lgr = s.lgr := rfl
@[simp] theorem setSes_sec (n : Nat) (x : Session) : (setSes n x s).sec = s.sec := rfl
@[simp] theorem setSes_cnv (n : Nat) (x : Session) : (setSes n x s).cnv = s.cnv := rfl
@[simp] theorem setSes_lch (n : Nat) (x : Session) : (setSes n x s).lch = s.lch := rfl
@[simp] theorem setSes_arms (n : Nat) (x : Session) : (setSes n x s).arms = s.arms := rfl
@[simp] theorem setSes_tiu (n : Nat) (x : Session) : (setSes n x s).tiu = s.tiu := rfl
@[simp] theorem setSes_basin (n : Nat) (x : Session) : (setSes n x s).basin = s.basin := rfl
@[simp] theorem setSes_csc (n : Nat) (x : Session) : (setSes n x s).csc = s.csc := rfl
@[simp] theorem setSes_pol (n : Nat) (x : Session) : (setSes n x s).pol = s.pol := rfl
@[simp] theorem setSes_weir (n : Nat) (x : Session) : (setSes n x s).weir = s.weir := rfl
@[simp] theorem setSes_cis (n : Nat) (x : Session) : (setSes n x s).cis = s.cis := rfl
@[simp] theorem setSes_dram (n : Nat) (x : Session) : (setSes n x s).dram = s.dram := rfl
@[simp] theorem setSes_rnl (n : Nat) (x : Session) : (setSes n x s).rnl = s.rnl := rfl
@[simp] theorem setSes_timers (n : Nat) (x : Session) : (setSes n x s).timers = s.timers := rfl

/-! ### setPll -/

@[simp] theorem setPll_pending (p : Nat) (x : PllState) : (setPll p x s).pending = s.pending := rfl
@[simp] theorem setPll_regs (p : Nat) (x : PllState) : (setPll p x s).regs = s.regs := rfl
@[simp] theorem setPll_commits (p : Nat) (x : PllState) : (setPll p x s).commits = s.commits := rfl
@[simp] theorem setPll_sealing (p : Nat) (x : PllState) : (setPll p x s).sealing = s.sealing := rfl
@[simp] theorem setPll_folds (p : Nat) (x : PllState) : (setPll p x s).folds = s.folds := rfl
@[simp] theorem setPll_pwr (p : Nat) (x : PllState) : (setPll p x s).pwr = s.pwr := rfl
@[simp] theorem setPll_boot (p : Nat) (x : PllState) : (setPll p x s).boot = s.boot := rfl
@[simp] theorem setPll_pins (p : Nat) (x : PllState) : (setPll p x s).pins = s.pins := rfl
@[simp] theorem setPll_tb (p : Nat) (x : PllState) : (setPll p x s).tb = s.tb := rfl
@[simp] theorem setPll_cnt (p : Nat) (x : PllState) : (setPll p x s).cnt = s.cnt := rfl
@[simp] theorem setPll_slc (p : Nat) (x : PllState) : (setPll p x s).slc = s.slc := rfl
@[simp] theorem setPll_spt (p : Nat) (x : PllState) : (setPll p x s).spt = s.spt := rfl
@[simp] theorem setPll_ports (p : Nat) (x : PllState) : (setPll p x s).ports = s.ports := rfl
@[simp] theorem setPll_ptp (p : Nat) (x : PllState) : (setPll p x s).ptp = s.ptp := rfl
@[simp] theorem setPll_lgr (p : Nat) (x : PllState) : (setPll p x s).lgr = s.lgr := rfl
@[simp] theorem setPll_sec (p : Nat) (x : PllState) : (setPll p x s).sec = s.sec := rfl
@[simp] theorem setPll_cnv (p : Nat) (x : PllState) : (setPll p x s).cnv = s.cnv := rfl
@[simp] theorem setPll_lch (p : Nat) (x : PllState) : (setPll p x s).lch = s.lch := rfl
@[simp] theorem setPll_arms (p : Nat) (x : PllState) : (setPll p x s).arms = s.arms := rfl
@[simp] theorem setPll_tiu (p : Nat) (x : PllState) : (setPll p x s).tiu = s.tiu := rfl
@[simp] theorem setPll_basin (p : Nat) (x : PllState) : (setPll p x s).basin = s.basin := rfl
@[simp] theorem setPll_csc (p : Nat) (x : PllState) : (setPll p x s).csc = s.csc := rfl
@[simp] theorem setPll_pol (p : Nat) (x : PllState) : (setPll p x s).pol = s.pol := rfl
@[simp] theorem setPll_weir (p : Nat) (x : PllState) : (setPll p x s).weir = s.weir := rfl
@[simp] theorem setPll_cis (p : Nat) (x : PllState) : (setPll p x s).cis = s.cis := rfl
@[simp] theorem setPll_dram (p : Nat) (x : PllState) : (setPll p x s).dram = s.dram := rfl
@[simp] theorem setPll_rnl (p : Nat) (x : PllState) : (setPll p x s).rnl = s.rnl := rfl
@[simp] theorem setPll_timers (p : Nat) (x : PllState) : (setPll p x s).timers = s.timers := rfl

/-! ### timerSet -/

@[simp] theorem timerSet_pending (k i n : Nat) : (timerSet k i n s).pending = s.pending := rfl
@[simp] theorem timerSet_regs (k i n : Nat) : (timerSet k i n s).regs = s.regs := rfl
@[simp] theorem timerSet_commits (k i n : Nat) : (timerSet k i n s).commits = s.commits := rfl
@[simp] theorem timerSet_sealing (k i n : Nat) : (timerSet k i n s).sealing = s.sealing := rfl
@[simp] theorem timerSet_folds (k i n : Nat) : (timerSet k i n s).folds = s.folds := rfl
@[simp] theorem timerSet_pwr (k i n : Nat) : (timerSet k i n s).pwr = s.pwr := rfl
@[simp] theorem timerSet_boot (k i n : Nat) : (timerSet k i n s).boot = s.boot := rfl
@[simp] theorem timerSet_pins (k i n : Nat) : (timerSet k i n s).pins = s.pins := rfl
@[simp] theorem timerSet_clk (k i n : Nat) : (timerSet k i n s).clk = s.clk := rfl
@[simp] theorem timerSet_tb (k i n : Nat) : (timerSet k i n s).tb = s.tb := rfl
@[simp] theorem timerSet_cnt (k i n : Nat) : (timerSet k i n s).cnt = s.cnt := rfl
@[simp] theorem timerSet_slc (k i n : Nat) : (timerSet k i n s).slc = s.slc := rfl
@[simp] theorem timerSet_spt (k i n : Nat) : (timerSet k i n s).spt = s.spt := rfl
@[simp] theorem timerSet_ports (k i n : Nat) : (timerSet k i n s).ports = s.ports := rfl
@[simp] theorem timerSet_ptp (k i n : Nat) : (timerSet k i n s).ptp = s.ptp := rfl
@[simp] theorem timerSet_lgr (k i n : Nat) : (timerSet k i n s).lgr = s.lgr := rfl
@[simp] theorem timerSet_sec (k i n : Nat) : (timerSet k i n s).sec = s.sec := rfl
@[simp] theorem timerSet_cnv (k i n : Nat) : (timerSet k i n s).cnv = s.cnv := rfl
@[simp] theorem timerSet_lch (k i n : Nat) : (timerSet k i n s).lch = s.lch := rfl
@[simp] theorem timerSet_arms (k i n : Nat) : (timerSet k i n s).arms = s.arms := rfl
@[simp] theorem timerSet_tiu (k i n : Nat) : (timerSet k i n s).tiu = s.tiu := rfl
@[simp] theorem timerSet_basin (k i n : Nat) : (timerSet k i n s).basin = s.basin := rfl
@[simp] theorem timerSet_csc (k i n : Nat) : (timerSet k i n s).csc = s.csc := rfl
@[simp] theorem timerSet_pol (k i n : Nat) : (timerSet k i n s).pol = s.pol := rfl
@[simp] theorem timerSet_weir (k i n : Nat) : (timerSet k i n s).weir = s.weir := rfl
@[simp] theorem timerSet_cis (k i n : Nat) : (timerSet k i n s).cis = s.cis := rfl
@[simp] theorem timerSet_dram (k i n : Nat) : (timerSet k i n s).dram = s.dram := rfl
@[simp] theorem timerSet_rnl (k i n : Nat) : (timerSet k i n s).rnl = s.rnl := rfl

/-! ### timerGrid -/

@[simp] theorem timerGrid_pending (k i n : Nat) : (timerGrid k i n s).pending = s.pending := rfl
@[simp] theorem timerGrid_regs (k i n : Nat) : (timerGrid k i n s).regs = s.regs := rfl
@[simp] theorem timerGrid_commits (k i n : Nat) : (timerGrid k i n s).commits = s.commits := rfl
@[simp] theorem timerGrid_sealing (k i n : Nat) : (timerGrid k i n s).sealing = s.sealing := rfl
@[simp] theorem timerGrid_folds (k i n : Nat) : (timerGrid k i n s).folds = s.folds := rfl
@[simp] theorem timerGrid_pwr (k i n : Nat) : (timerGrid k i n s).pwr = s.pwr := rfl
@[simp] theorem timerGrid_boot (k i n : Nat) : (timerGrid k i n s).boot = s.boot := rfl
@[simp] theorem timerGrid_pins (k i n : Nat) : (timerGrid k i n s).pins = s.pins := rfl
@[simp] theorem timerGrid_clk (k i n : Nat) : (timerGrid k i n s).clk = s.clk := rfl
@[simp] theorem timerGrid_tb (k i n : Nat) : (timerGrid k i n s).tb = s.tb := rfl
@[simp] theorem timerGrid_cnt (k i n : Nat) : (timerGrid k i n s).cnt = s.cnt := rfl
@[simp] theorem timerGrid_slc (k i n : Nat) : (timerGrid k i n s).slc = s.slc := rfl
@[simp] theorem timerGrid_spt (k i n : Nat) : (timerGrid k i n s).spt = s.spt := rfl
@[simp] theorem timerGrid_ports (k i n : Nat) : (timerGrid k i n s).ports = s.ports := rfl
@[simp] theorem timerGrid_ptp (k i n : Nat) : (timerGrid k i n s).ptp = s.ptp := rfl
@[simp] theorem timerGrid_lgr (k i n : Nat) : (timerGrid k i n s).lgr = s.lgr := rfl
@[simp] theorem timerGrid_sec (k i n : Nat) : (timerGrid k i n s).sec = s.sec := rfl
@[simp] theorem timerGrid_cnv (k i n : Nat) : (timerGrid k i n s).cnv = s.cnv := rfl
@[simp] theorem timerGrid_lch (k i n : Nat) : (timerGrid k i n s).lch = s.lch := rfl
@[simp] theorem timerGrid_arms (k i n : Nat) : (timerGrid k i n s).arms = s.arms := rfl
@[simp] theorem timerGrid_tiu (k i n : Nat) : (timerGrid k i n s).tiu = s.tiu := rfl
@[simp] theorem timerGrid_basin (k i n : Nat) : (timerGrid k i n s).basin = s.basin := rfl
@[simp] theorem timerGrid_csc (k i n : Nat) : (timerGrid k i n s).csc = s.csc := rfl
@[simp] theorem timerGrid_pol (k i n : Nat) : (timerGrid k i n s).pol = s.pol := rfl
@[simp] theorem timerGrid_weir (k i n : Nat) : (timerGrid k i n s).weir = s.weir := rfl
@[simp] theorem timerGrid_cis (k i n : Nat) : (timerGrid k i n s).cis = s.cis := rfl
@[simp] theorem timerGrid_dram (k i n : Nat) : (timerGrid k i n s).dram = s.dram := rfl
@[simp] theorem timerGrid_rnl (k i n : Nat) : (timerGrid k i n s).rnl = s.rnl := rfl

/-! ### timerStop -/

@[simp] theorem timerStop_pending (k i : Nat) : (timerStop k i s).pending = s.pending := rfl
@[simp] theorem timerStop_regs (k i : Nat) : (timerStop k i s).regs = s.regs := rfl
@[simp] theorem timerStop_commits (k i : Nat) : (timerStop k i s).commits = s.commits := rfl
@[simp] theorem timerStop_sealing (k i : Nat) : (timerStop k i s).sealing = s.sealing := rfl
@[simp] theorem timerStop_folds (k i : Nat) : (timerStop k i s).folds = s.folds := rfl
@[simp] theorem timerStop_pwr (k i : Nat) : (timerStop k i s).pwr = s.pwr := rfl
@[simp] theorem timerStop_boot (k i : Nat) : (timerStop k i s).boot = s.boot := rfl
@[simp] theorem timerStop_pins (k i : Nat) : (timerStop k i s).pins = s.pins := rfl
@[simp] theorem timerStop_clk (k i : Nat) : (timerStop k i s).clk = s.clk := rfl
@[simp] theorem timerStop_tb (k i : Nat) : (timerStop k i s).tb = s.tb := rfl
@[simp] theorem timerStop_cnt (k i : Nat) : (timerStop k i s).cnt = s.cnt := rfl
@[simp] theorem timerStop_slc (k i : Nat) : (timerStop k i s).slc = s.slc := rfl
@[simp] theorem timerStop_spt (k i : Nat) : (timerStop k i s).spt = s.spt := rfl
@[simp] theorem timerStop_ports (k i : Nat) : (timerStop k i s).ports = s.ports := rfl
@[simp] theorem timerStop_ptp (k i : Nat) : (timerStop k i s).ptp = s.ptp := rfl
@[simp] theorem timerStop_lgr (k i : Nat) : (timerStop k i s).lgr = s.lgr := rfl
@[simp] theorem timerStop_sec (k i : Nat) : (timerStop k i s).sec = s.sec := rfl
@[simp] theorem timerStop_cnv (k i : Nat) : (timerStop k i s).cnv = s.cnv := rfl
@[simp] theorem timerStop_lch (k i : Nat) : (timerStop k i s).lch = s.lch := rfl
@[simp] theorem timerStop_arms (k i : Nat) : (timerStop k i s).arms = s.arms := rfl
@[simp] theorem timerStop_tiu (k i : Nat) : (timerStop k i s).tiu = s.tiu := rfl
@[simp] theorem timerStop_basin (k i : Nat) : (timerStop k i s).basin = s.basin := rfl
@[simp] theorem timerStop_csc (k i : Nat) : (timerStop k i s).csc = s.csc := rfl
@[simp] theorem timerStop_pol (k i : Nat) : (timerStop k i s).pol = s.pol := rfl
@[simp] theorem timerStop_weir (k i : Nat) : (timerStop k i s).weir = s.weir := rfl
@[simp] theorem timerStop_cis (k i : Nat) : (timerStop k i s).cis = s.cis := rfl
@[simp] theorem timerStop_dram (k i : Nat) : (timerStop k i s).dram = s.dram := rfl
@[simp] theorem timerStop_rnl (k i : Nat) : (timerStop k i s).rnl = s.rnl := rfl

/-! ### Parts of a field -/

@[simp] theorem setStream_spt_windows (n : Nat) (x : Stream) : (setStream n x s).spt.windows = s.spt.windows := rfl
@[simp] theorem setStream_spt_haltAll (n : Nat) (x : Stream) : (setStream n x s).spt.haltAll = s.spt.haltAll := rfl
@[simp] theorem setStream_spt_haltEx (n : Nat) (x : Stream) : (setStream n x s).spt.haltEx = s.spt.haltEx := rfl
@[simp] theorem setSes_slc_lease (n : Nat) (x : Session) : (setSes n x s).slc.lease = s.slc.lease := rfl
@[simp] theorem setSes_slc_openings (n : Nat) (x : Session) : (setSes n x s).slc.openings = s.slc.openings := rfl
@[simp] theorem setSes_slc_idReqs (n : Nat) (x : Session) : (setSes n x s).slc.idReqs = s.slc.idReqs := rfl
@[simp] theorem setSes_slc_dropping (n : Nat) (x : Session) : (setSes n x s).slc.dropping = s.slc.dropping := rfl
@[simp] theorem setUnit_weir_watches (u : Nat) (x : Weir) : (setUnit u x s).weir.watches = s.weir.watches := rfl
@[simp] theorem setUnit_weir_alarm (u : Nat) (x : Weir) : (setUnit u x s).weir.alarm = s.weir.alarm := rfl
@[simp] theorem setUnit_weir_alarmSrc (u : Nat) (x : Weir) : (setUnit u x s).weir.alarmSrc = s.weir.alarmSrc := rfl
@[simp] theorem setUnit_weir_lanes (u : Nat) (x : Weir) : (setUnit u x s).weir.lanes = s.weir.lanes := rfl
@[simp] theorem setUnit_weir_degraded (u : Nat) (x : Weir) : (setUnit u x s).weir.degraded = s.weir.degraded := rfl
@[simp] theorem setUnit_weir_tapLog (u : Nat) (x : Weir) : (setUnit u x s).weir.tapLog = s.weir.tapLog := rfl
@[simp] theorem setWatch_weir_units (w : Nat) (x : Weir) : (setWatch w x s).weir.units = s.weir.units := rfl
@[simp] theorem setWatch_weir_alarm (w : Nat) (x : Weir) : (setWatch w x s).weir.alarm = s.weir.alarm := rfl
@[simp] theorem setWatch_weir_alarmSrc (w : Nat) (x : Weir) : (setWatch w x s).weir.alarmSrc = s.weir.alarmSrc := rfl
@[simp] theorem setWatch_weir_lanes (w : Nat) (x : Weir) : (setWatch w x s).weir.lanes = s.weir.lanes := rfl
@[simp] theorem setWatch_weir_degraded (w : Nat) (x : Weir) : (setWatch w x s).weir.degraded = s.weir.degraded := rfl
@[simp] theorem setWatch_weir_tapLog (w : Nat) (x : Weir) : (setWatch w x s).weir.tapLog = s.weir.tapLog := rfl
@[simp] theorem setRegion_cis_segs (r : Nat) (x : Region) : (setRegion r x s).cis.segs = s.cis.segs := rfl
@[simp] theorem setRegion_cis_nextSeg (r : Nat) (x : Region) : (setRegion r x s).cis.nextSeg = s.cis.nextSeg := rfl
@[simp] theorem setRegion_cis_sealNo (r : Nat) (x : Region) : (setRegion r x s).cis.sealNo = s.cis.sealNo := rfl
@[simp] theorem setRegion_cis_seals (r : Nat) (x : Region) : (setRegion r x s).cis.seals = s.cis.seals := rfl
@[simp] theorem setRegion_cis_sealPrev (r : Nat) (x : Region) : (setRegion r x s).cis.sealPrev = s.cis.sealPrev := rfl
@[simp] theorem setRegion_cis_sealAt (r : Nat) (x : Region) : (setRegion r x s).cis.sealAt = s.cis.sealAt := rfl
@[simp] theorem setRegion_cis_sealWait (r : Nat) (x : Region) : (setRegion r x s).cis.sealWait = s.cis.sealWait := rfl
@[simp] theorem setRegion_cis_nowWait (r : Nat) (x : Region) : (setRegion r x s).cis.nowWait = s.cis.nowWait := rfl
@[simp] theorem setRegion_cis_hist (r : Nat) (x : Region) : (setRegion r x s).cis.hist = s.cis.hist := rfl
@[simp] theorem setRegion_cis_shots (r : Nat) (x : Region) : (setRegion r x s).cis.shots = s.cis.shots := rfl
@[simp] theorem setRegion_cis_taps (r : Nat) (x : Region) : (setRegion r x s).cis.taps = s.cis.taps := rfl
@[simp] theorem setConv_cnv_base (n : Nat) (x : Conv) : (setConv n x s).cnv.base = s.cnv.base := rfl
@[simp] theorem setConv_cnv_strBase (n : Nat) (x : Conv) : (setConv n x s).cnv.strBase = s.cnv.strBase := rfl
@[simp] theorem setConv_cnv_fgLate (n : Nat) (x : Conv) : (setConv n x s).cnv.fgLate = s.cnv.fgLate := rfl
@[simp] theorem setConv_cnv_qcalOpen (n : Nat) (x : Conv) : (setConv n x s).cnv.qcalOpen = s.cnv.qcalOpen := rfl
@[simp] theorem setConv_cnv_modeCal (n : Nat) (x : Conv) : (setConv n x s).cnv.modeCal = s.cnv.modeCal := rfl
@[simp] theorem setConv_cnv_direct (n : Nat) (x : Conv) : (setConv n x s).cnv.direct = s.cnv.direct := rfl
@[simp] theorem setConv_cnv_lanes (n : Nat) (x : Conv) : (setConv n x s).cnv.lanes = s.cnv.lanes := rfl
@[simp] theorem setConv_cnv_origin (n : Nat) (x : Conv) : (setConv n x s).cnv.origin = s.cnv.origin := rfl
@[simp] theorem setRch_rnl_last (c : Nat) (x : RChan) : (setRch c x s).rnl.last = s.rnl.last := rfl
@[simp] theorem setRch_rnl_mbox (c : Nat) (x : RChan) : (setRch c x s).rnl.mbox = s.rnl.mbox := rfl
@[simp] theorem setRch_rnl_mboxBad (c : Nat) (x : RChan) : (setRch c x s).rnl.mboxBad = s.rnl.mboxBad := rfl
@[simp] theorem setRch_rnl_tiuOff (c : Nat) (x : RChan) : (setRch c x s).rnl.tiuOff = s.rnl.tiuOff := rfl
@[simp] theorem setPll_clk_coreB (p : Nat) (x : PllState) : (setPll p x s).clk.coreB = s.clk.coreB := rfl
@[simp] theorem setPll_clk_switching (p : Nat) (x : PllState) : (setPll p x s).clk.switching = s.clk.switching := rfl
@[simp] theorem setPll_clk_coreSrc (p : Nat) (x : PllState) : (setPll p x s).clk.coreSrc = s.clk.coreSrc := rfl
@[simp] theorem setPll_clk_refS (p : Nat) (x : PllState) : (setPll p x s).clk.refS = s.clk.refS := rfl
@[simp] theorem setPll_clk_refC (p : Nat) (x : PllState) : (setPll p x s).clk.refC = s.clk.refC := rfl
@[simp] theorem setPll_clk_refSFine (p : Nat) (x : PllState) : (setPll p x s).clk.refSFine = s.clk.refSFine := rfl
@[simp] theorem setPll_clk_trimmed (p : Nat) (x : PllState) : (setPll p x s).clk.trimmed = s.clk.trimmed := rfl
@[simp] theorem setPll_clk_stopped (p : Nat) (x : PllState) : (setPll p x s).clk.stopped = s.clk.stopped := rfl
@[simp] theorem setPll_clk_loss (p : Nat) (x : PllState) : (setPll p x s).clk.loss = s.clk.loss := rfl
@[simp] theorem setPll_clk_rate (p : Nat) (x : PllState) : (setPll p x s).clk.rate = s.clk.rate := rfl
@[simp] theorem setPll_clk_resume (p : Nat) (x : PllState) : (setPll p x s).clk.resume = s.clk.resume := rfl
@[simp] theorem setPll_clk_stopStart (p : Nat) (x : PllState) : (setPll p x s).clk.stopStart = s.clk.stopStart := rfl
@[simp] theorem setPll_clk_been (p : Nat) (x : PllState) : (setPll p x s).clk.been = s.clk.been := rfl
@[simp] theorem setPll_clk_splRelock (p : Nat) (x : PllState) : (setPll p x s).clk.splRelock = s.clk.splRelock := rfl
@[simp] theorem setDch_dram_nActive (c : Nat) (x : DChan) : (setDch c x s).dram.nActive = s.dram.nActive := rfl
@[simp] theorem setDch_dram_grade (c : Nat) (x : DChan) : (setDch c x s).dram.grade = s.dram.grade := rfl
@[simp] theorem setDch_dram_spare (c : Nat) (x : DChan) : (setDch c x s).dram.spare = s.dram.spare := rfl
@[simp] theorem setDch_dram_chmap (c : Nat) (x : DChan) : (setDch c x s).dram.chmap = s.dram.chmap := rfl
@[simp] theorem setDch_dram_grain (c : Nat) (x : DChan) : (setDch c x s).dram.grain = s.dram.grain := rfl
@[simp] theorem setDch_dram_phase (c : Nat) (x : DChan) : (setDch c x s).dram.phase = s.dram.phase := rfl
@[simp] theorem setDch_dram_source (c : Nat) (x : DChan) : (setDch c x s).dram.source = s.dram.source := rfl
@[simp] theorem setDch_dram_target (c : Nat) (x : DChan) : (setDch c x s).dram.target = s.dram.target := rfl
@[simp] theorem setDch_dram_ptr (c : Nat) (x : DChan) : (setDch c x s).dram.ptr = s.dram.ptr := rfl
@[simp] theorem setDch_dram_kept (c : Nat) (x : DChan) : (setDch c x s).dram.kept = s.dram.kept := rfl
@[simp] theorem setDch_dram_copyAt (c : Nat) (x : DChan) : (setDch c x s).dram.copyAt = s.dram.copyAt := rfl
@[simp] theorem setDch_dram_regrade (c : Nat) (x : DChan) : (setDch c x s).dram.regrade = s.dram.regrade := rfl
@[simp] theorem setDch_dram_filling (c : Nat) (x : DChan) : (setDch c x s).dram.filling = s.dram.filling := rfl
@[simp] theorem setDch_dram_setup (c : Nat) (x : DChan) : (setDch c x s).dram.setup = s.dram.setup := rfl
@[simp] theorem setDch_dram_answers (c : Nat) (x : DChan) : (setDch c x s).dram.answers = s.dram.answers := rfl

end Sys2Proof.Machine
end

