-- ==== Sys2Proof/Laws/Ops.lean ====
section
/-!
SUPPORT. What the shared operations do, each said once: registers, events, ledgers, replies and the running of a command.
-/

namespace Sys2Proof.Machine

/-! ### Registers -/

/-- An image reads as the sparse map whose default is the reset value of the address. -/
theorem imageGet_eq (m : SMap Word) (a : Nat) : imageGet m a = smGet (resetOf a) a m := by
  induction m with
  | nil => rfl
  | cons e m ih => simp only [imageGet, smGet, ih]

@[simp] theorem imageGet_imagePut_same (a : Nat) (w : Word) (m : SMap Word) : imageGet (imagePut a w m) a = w := by
  rw [imageGet_eq]; unfold imagePut
  split <;> simp_all

@[simp] theorem imageGet_imagePut_ne (w : Word) {a b : Nat} (h : b ≠ a) (m : SMap Word) :
    imageGet (imagePut a w m) b = imageGet m b := by
  rw [imageGet_eq, imageGet_eq]; unfold imagePut
  split <;> simp [h]

@[simp] theorem hw_setHw_same (a : Nat) (w : Word) (s : State) : hw (setHw a w s) a = w := by simp [hw, setHw]

@[simp] theorem hw_setHw_ne (w : Word) {a b : Nat} (h : b ≠ a) (s : State) : hw (setHw a w s) b = hw s b := by
  simp [hw, setHw, h]

/-- The value in force comes from the active copy and its overrides alone. -/
theorem cfg_congr {s t : State} (h : t.regs.active = s.regs.active) (h' : t.regs.overrides = s.regs.overrides) : cfg t = cfg s := by
  funext a; simp [cfg, h, h']

/-- A sts, cnt or cmd word reads the register file alone. -/
theorem hw_congr {s t : State} (h : t.regs.hw = s.regs.hw) (a : Nat) : hw t a = hw s a := by simp [hw, h]

/-- Adding to a 64-bit count changes its two words and nothing else. -/
theorem addCnt64_eq (a n : Nat) (s : State) :
    addCnt64 a n s = { s with regs := { s.regs with hw := (addCnt64 a n s).regs.hw } } := by
  unfold addCnt64; split <;> rfl

theorem hw_addCnt64_ne (n : Nat) {a b : Nat} (h : b ≠ a) (h' : b ≠ a + 4) (s : State) : hw (addCnt64 a n s) b = hw s b := by
  unfold addCnt64 setCnt64; split <;> simp [h, h']

/-! ### Accessors after their own updates -/

@[simp] theorem ses_setSes_same (n : Nat) (x : Session) (s : State) : ses (setSes n x s) n = x := by simp [ses, setSes]
@[simp] theorem ses_setSes_ne (x : Session) {n m : Nat} (h : m ≠ n) (s : State) : ses (setSes n x s) m = ses s m := by
  simp [ses, setSes, h]
@[simp] theorem lch_setLch_same (p : Nat) (x : Lch) (s : State) : lch (setLch p x s) p = x := by simp [lch, setLch]
@[simp] theorem lch_setLch_ne (x : Lch) {p q : Nat} (h : q ≠ p) (s : State) : lch (setLch p x s) q = lch s q := by
  simp [lch, setLch, h]
@[simp] theorem port_setPort_same (p : Nat) (x : Port) (s : State) : port (setPort p x s) p = x := by simp [port, setPort]
@[simp] theorem port_setPort_ne (x : Port) {p q : Nat} (h : q ≠ p) (s : State) : port (setPort p x s) q = port s q := by
  simp [port, setPort, h]
@[simp] theorem stream_setStream_same (n : Nat) (x : Stream) (s : State) : stream (setStream n x s) n = x := by
  simp [stream, setStream]
@[simp] theorem stream_setStream_ne (x : Stream) {n m : Nat} (h : m ≠ n) (s : State) :
    stream (setStream n x s) m = stream s m := by simp [stream, setStream, h]
@[simp] theorem conv_setConv_same (n : Nat) (x : Conv) (s : State) : conv (setConv n x s) n = x := by simp [conv, setConv]
@[simp] theorem conv_setConv_ne (x : Conv) {n m : Nat} (h : m ≠ n) (s : State) : conv (setConv n x s) m = conv s m := by
  simp [conv, setConv, h]
@[simp] theorem dch_setDch_same (c : Nat) (x : DChan) (s : State) : dch (setDch c x s) c = x := by simp [dch, setDch]
@[simp] theorem dch_setDch_ne (x : DChan) {c d : Nat} (h : d ≠ c) (s : State) : dch (setDch c x s) d = dch s d := by
  simp [dch, setDch, h]
@[simp] theorem rch_setRch_same (c : Nat) (x : RChan) (s : State) : rch (setRch c x s) c = x := by simp [rch, setRch]
@[simp] theorem rch_setRch_ne (x : RChan) {c d : Nat} (h : d ≠ c) (s : State) : rch (setRch c x s) d = rch s d := by
  simp [rch, setRch, h]
@[simp] theorem pll_setPll_same (p : Nat) (x : PllState) (s : State) : pll (setPll p x s) p = x := by simp [pll, setPll]
@[simp] theorem pll_setPll_ne (x : PllState) {p q : Nat} (h : q ≠ p) (s : State) : pll (setPll p x s) q = pll s q := by
  simp [pll, setPll, h]
@[simp] theorem unitSt_setUnit_same (u : Nat) (x : Weir) (s : State) : unitSt (setUnit u x s) u = x := by
  simp [unitSt, setUnit]
@[simp] theorem unitSt_setUnit_ne (x : Weir) {u v : Nat} (h : v ≠ u) (s : State) : unitSt (setUnit u x s) v = unitSt s v := by
  simp [unitSt, setUnit, h]
@[simp] theorem watchSt_setWatch_same (u : Nat) (x : Weir) (s : State) : watchSt (setWatch u x s) u = x := by
  simp [watchSt, setWatch]
@[simp] theorem watchSt_setWatch_ne (x : Weir) {u v : Nat} (h : v ≠ u) (s : State) :
    watchSt (setWatch u x s) v = watchSt s v := by simp [watchSt, setWatch, h]

/-! ### Loops -/

/-- What every turn of a loop keeps, the loop keeps. -/
theorem each_keeps {α β : Type} (g : State → β) {l : List α} {f : α → State → State} (h : ∀ x s, g (f x s) = g s) (s : State) :
    g (each l f s) = g s := by
  unfold each
  induction l generalizing s with
  | nil => rfl
  | cons x l ih => rw [List.foldl_cons, ih, h]

/-! ### Events -/

/-- An event entry goes into streams and nowhere else. -/
theorem sendEvent_eq (cat : Nat) (e : Event) (s : State) :
    sendEvent cat e s = { s with spt := { s.spt with streams := (sendEvent cat e s).spt.streams } } := by
  unfold sendEvent
  dsimp only
  generalize enabledStreams s.regs.active = l
  generalize plOf (cfg s) = pl
  generalize s.cnt.ticks + 500 * Nat.max 1 (cfgF s 0xB0000 0 16) = due
  suffices h : ∀ (l : List Nat) (t : State), t = { s with spt := { s.spt with streams := t.spt.streams } } →
      l.foldl (fun t n => if streamType t n = 4 ∧ takesCategory t n cat then
        setStream n ((layEvent pl e).foldl (fun x b => putEntry pl e.flags due b x) (stream t n)) t else t) t
      = { s with spt := { s.spt with streams := (l.foldl (fun t n => if streamType t n = 4 ∧ takesCategory t n cat then
        setStream n ((layEvent pl e).foldl (fun x b => putEntry pl e.flags due b x) (stream t n)) t else t) t).spt.streams } } from
    h l s rfl
  intro l
  induction l with
  | nil => intro t h; exact h
  | cons n l ih =>
    intro t h
    simp only [List.foldl_cons]
    apply ih
    split
    · conv_lhs => rw [h]
      rfl
    · exact h

/-- What an event changes: its own sts word and lap count, the table of folds, and streams (R33, R419). -/
theorem raiseAt_eq (u : Stamp) (q : Byte) (src a e : Nat) (s : State) :
    raiseAt u q src a e s = { s with
      regs := { s.regs with hw := (raiseAt u q src a e s).regs.hw, laps := (raiseAt u q src a e s).regs.laps },
      folds := (raiseAt u q src a e s).folds,
      spt := { s.spt with streams := (raiseAt u q src a e s).spt.streams } } := by
  unfold raiseAt
  dsimp only
  split
  · rw [sendEvent_eq]; rfl
  · rfl

/-- The sts word after an event: its bit is set and SEQ has moved on (R33). -/
def afterEvent (s : State) (a e : Nat) : Word :=
  wd (setBit (fld (hw s a) 0 24 ||| (if 256 ≤ smGet 0 a s.regs.laps + 1 then 0x800000 else 0)) e
    + 2 ^ 24 * ((fld (hw s a) 24 8 + 1) % 256))

theorem raiseAt_hw (u : Stamp) (q : Byte) (src a e : Nat) (s : State) :
    (raiseAt u q src a e s).regs.hw = imagePut a (afterEvent s a e) s.regs.hw := by
  unfold raiseAt
  dsimp only
  split
  · rw [sendEvent_eq]; rfl
  · rfl

@[simp] theorem hw_raiseAt_same (u : Stamp) (q : Byte) (src a e : Nat) (s : State) :
    hw (raiseAt u q src a e s) a = afterEvent s a e := by simp [hw, raiseAt_hw]

@[simp] theorem hw_raiseAt_ne (u : Stamp) (q : Byte) (src e : Nat) {a b : Nat} (h : b ≠ a) (s : State) :
    hw (raiseAt u q src a e s) b = hw s b := by simp [hw, raiseAt_hw, h]

@[simp] theorem hw_raise_same (a e : Nat) (s : State) : hw (raise a e s) a = afterEvent s a e := by simp [raise, raiseFrom]

@[simp] theorem hw_raise_ne (e : Nat) {a b : Nat} (h : b ≠ a) (s : State) : hw (raise a e s) b = hw s b := by
  simp [raise, raiseFrom, h]

/-- The bit of an event is set after it. -/
theorem bit_afterEvent (s : State) (a : Nat) {e : Nat} (h : e < 24) : bit (afterEvent s a e) e = true := by
  have h24 : ∀ x y : Nat, (x + 2 ^ 24 * y).testBit e = x.testBit e := by
    intro x y
    rw [Nat.testBit_eq_decide_div_mod_eq, Nat.testBit_eq_decide_div_mod_eq]
    have h1 : (2 : Nat) ^ 24 = 2 ^ e * (2 * 2 ^ (23 - e)) := by
      rw [← Nat.pow_succ', ← Nat.pow_add]; congr 1; omega
    rw [h1, Nat.mul_assoc, Nat.add_mul_div_left _ _ (by positivity)]
    congr 1
    rw [Nat.mul_assoc, Nat.add_mul_mod_self_left]
  unfold afterEvent bit wd setBit
  rw [BitVec.getLsbD_ofNat, h24]
  simp [Nat.one_shiftLeft, show e < 32 by omega]

end Sys2Proof.Machine
end

