-- ==== Sys2Proof/Laws/Frames.lean ====
section
/-!
SUPPORT. What events, ledger counts and replies leave alone, field by field.
-/

namespace Sys2Proof.Machine

variable (s : State)

/-! ### addCnt64 -/

@[simp] theorem addCnt64_pending (a n : Nat) : (addCnt64 a n s).pending = s.pending := by rw [addCnt64_eq]
@[simp] theorem addCnt64_commits (a n : Nat) : (addCnt64 a n s).commits = s.commits := by rw [addCnt64_eq]
@[simp] theorem addCnt64_sealing (a n : Nat) : (addCnt64 a n s).sealing = s.sealing := by rw [addCnt64_eq]
@[simp] theorem addCnt64_folds (a n : Nat) : (addCnt64 a n s).folds = s.folds := by rw [addCnt64_eq]
@[simp] theorem addCnt64_timers (a n : Nat) : (addCnt64 a n s).timers = s.timers := by rw [addCnt64_eq]
@[simp] theorem addCnt64_pwr (a n : Nat) : (addCnt64 a n s).pwr = s.pwr := by rw [addCnt64_eq]
@[simp] theorem addCnt64_boot (a n : Nat) : (addCnt64 a n s).boot = s.boot := by rw [addCnt64_eq]
@[simp] theorem addCnt64_pins (a n : Nat) : (addCnt64 a n s).pins = s.pins := by rw [addCnt64_eq]
@[simp] theorem addCnt64_clk (a n : Nat) : (addCnt64 a n s).clk = s.clk := by rw [addCnt64_eq]
@[simp] theorem addCnt64_tb (a n : Nat) : (addCnt64 a n s).tb = s.tb := by rw [addCnt64_eq]
@[simp] theorem addCnt64_cnt (a n : Nat) : (addCnt64 a n s).cnt = s.cnt := by rw [addCnt64_eq]
@[simp] theorem addCnt64_slc (a n : Nat) : (addCnt64 a n s).slc = s.slc := by rw [addCnt64_eq]
@[simp] theorem addCnt64_spt (a n : Nat) : (addCnt64 a n s).spt = s.spt := by rw [addCnt64_eq]
@[simp] theorem addCnt64_ports (a n : Nat) : (addCnt64 a n s).ports = s.ports := by rw [addCnt64_eq]
@[simp] theorem addCnt64_ptp (a n : Nat) : (addCnt64 a n s).ptp = s.ptp := by rw [addCnt64_eq]
@[simp] theorem addCnt64_lgr (a n : Nat) : (addCnt64 a n s).lgr = s.lgr := by rw [addCnt64_eq]
@[simp] theorem addCnt64_sec (a n : Nat) : (addCnt64 a n s).sec = s.sec := by rw [addCnt64_eq]
@[simp] theorem addCnt64_cnv (a n : Nat) : (addCnt64 a n s).cnv = s.cnv := by rw [addCnt64_eq]
@[simp] theorem addCnt64_lch (a n : Nat) : (addCnt64 a n s).lch = s.lch := by rw [addCnt64_eq]
@[simp] theorem addCnt64_arms (a n : Nat) : (addCnt64 a n s).arms = s.arms := by rw [addCnt64_eq]
@[simp] theorem addCnt64_tiu (a n : Nat) : (addCnt64 a n s).tiu = s.tiu := by rw [addCnt64_eq]
@[simp] theorem addCnt64_basin (a n : Nat) : (addCnt64 a n s).basin = s.basin := by rw [addCnt64_eq]
@[simp] theorem addCnt64_csc (a n : Nat) : (addCnt64 a n s).csc = s.csc := by rw [addCnt64_eq]
@[simp] theorem addCnt64_pol (a n : Nat) : (addCnt64 a n s).pol = s.pol := by rw [addCnt64_eq]
@[simp] theorem addCnt64_weir (a n : Nat) : (addCnt64 a n s).weir = s.weir := by rw [addCnt64_eq]
@[simp] theorem addCnt64_cis (a n : Nat) : (addCnt64 a n s).cis = s.cis := by rw [addCnt64_eq]
@[simp] theorem addCnt64_dram (a n : Nat) : (addCnt64 a n s).dram = s.dram := by rw [addCnt64_eq]
@[simp] theorem addCnt64_rnl (a n : Nat) : (addCnt64 a n s).rnl = s.rnl := by rw [addCnt64_eq]
@[simp] theorem addCnt64_shadow (a n : Nat) : (addCnt64 a n s).regs.shadow = s.regs.shadow := by rw [addCnt64_eq]
@[simp] theorem addCnt64_active (a n : Nat) : (addCnt64 a n s).regs.active = s.regs.active := by rw [addCnt64_eq]
@[simp] theorem addCnt64_committed (a n : Nat) : (addCnt64 a n s).regs.committed = s.regs.committed := by rw [addCnt64_eq]
@[simp] theorem addCnt64_pend (a n : Nat) : (addCnt64 a n s).regs.pend = s.regs.pend := by rw [addCnt64_eq]
@[simp] theorem addCnt64_overrides (a n : Nat) : (addCnt64 a n s).regs.overrides = s.regs.overrides := by rw [addCnt64_eq]
@[simp] theorem addCnt64_laps (a n : Nat) : (addCnt64 a n s).regs.laps = s.regs.laps := by rw [addCnt64_eq]
@[simp] theorem addCnt64_latch (a n : Nat) : (addCnt64 a n s).regs.latch = s.regs.latch := by rw [addCnt64_eq]
@[simp] theorem addCnt64_cmdQueued (a n : Nat) : (addCnt64 a n s).regs.cmdQueued = s.regs.cmdQueued := by rw [addCnt64_eq]

/-! ### sendEvent -/

@[simp] theorem sendEvent_pending (c : Nat) (e : Event) : (sendEvent c e s).pending = s.pending := by rw [sendEvent_eq]
@[simp] theorem sendEvent_regs (c : Nat) (e : Event) : (sendEvent c e s).regs = s.regs := by rw [sendEvent_eq]
@[simp] theorem sendEvent_commits (c : Nat) (e : Event) : (sendEvent c e s).commits = s.commits := by rw [sendEvent_eq]
@[simp] theorem sendEvent_sealing (c : Nat) (e : Event) : (sendEvent c e s).sealing = s.sealing := by rw [sendEvent_eq]
@[simp] theorem sendEvent_folds (c : Nat) (e : Event) : (sendEvent c e s).folds = s.folds := by rw [sendEvent_eq]
@[simp] theorem sendEvent_timers (c : Nat) (e : Event) : (sendEvent c e s).timers = s.timers := by rw [sendEvent_eq]
@[simp] theorem sendEvent_pwr (c : Nat) (e : Event) : (sendEvent c e s).pwr = s.pwr := by rw [sendEvent_eq]
@[simp] theorem sendEvent_boot (c : Nat) (e : Event) : (sendEvent c e s).boot = s.boot := by rw [sendEvent_eq]
@[simp] theorem sendEvent_pins (c : Nat) (e : Event) : (sendEvent c e s).pins = s.pins := by rw [sendEvent_eq]
@[simp] theorem sendEvent_clk (c : Nat) (e : Event) : (sendEvent c e s).clk = s.clk := by rw [sendEvent_eq]
@[simp] theorem sendEvent_tb (c : Nat) (e : Event) : (sendEvent c e s).tb = s.tb := by rw [sendEvent_eq]
@[simp] theorem sendEvent_cnt (c : Nat) (e : Event) : (sendEvent c e s).cnt = s.cnt := by rw [sendEvent_eq]
@[simp] theorem sendEvent_slc (c : Nat) (e : Event) : (sendEvent c e s).slc = s.slc := by rw [sendEvent_eq]
@[simp] theorem sendEvent_ports (c : Nat) (e : Event) : (sendEvent c e s).ports = s.ports := by rw [sendEvent_eq]
@[simp] theorem sendEvent_ptp (c : Nat) (e : Event) : (sendEvent c e s).ptp = s.ptp := by rw [sendEvent_eq]
@[simp] theorem sendEvent_lgr (c : Nat) (e : Event) : (sendEvent c e s).lgr = s.lgr := by rw [sendEvent_eq]
@[simp] theorem sendEvent_sec (c : Nat) (e : Event) : (sendEvent c e s).sec = s.sec := by rw [sendEvent_eq]
@[simp] theorem sendEvent_cnv (c : Nat) (e : Event) : (sendEvent c e s).cnv = s.cnv := by rw [sendEvent_eq]
@[simp] theorem sendEvent_lch (c : Nat) (e : Event) : (sendEvent c e s).lch = s.lch := by rw [sendEvent_eq]
@[simp] theorem sendEvent_arms (c : Nat) (e : Event) : (sendEvent c e s).arms = s.arms := by rw [sendEvent_eq]
@[simp] theorem sendEvent_tiu (c : Nat) (e : Event) : (sendEvent c e s).tiu = s.tiu := by rw [sendEvent_eq]
@[simp] theorem sendEvent_basin (c : Nat) (e : Event) : (sendEvent c e s).basin = s.basin := by rw [sendEvent_eq]
@[simp] theorem sendEvent_csc (c : Nat) (e : Event) : (sendEvent c e s).csc = s.csc := by rw [sendEvent_eq]
@[simp] theorem sendEvent_pol (c : Nat) (e : Event) : (sendEvent c e s).pol = s.pol := by rw [sendEvent_eq]
@[simp] theorem sendEvent_weir (c : Nat) (e : Event) : (sendEvent c e s).weir = s.weir := by rw [sendEvent_eq]
@[simp] theorem sendEvent_cis (c : Nat) (e : Event) : (sendEvent c e s).cis = s.cis := by rw [sendEvent_eq]
@[simp] theorem sendEvent_dram (c : Nat) (e : Event) : (sendEvent c e s).dram = s.dram := by rw [sendEvent_eq]
@[simp] theorem sendEvent_rnl (c : Nat) (e : Event) : (sendEvent c e s).rnl = s.rnl := by rw [sendEvent_eq]
@[simp] theorem sendEvent_windows (c : Nat) (e : Event) : (sendEvent c e s).spt.windows = s.spt.windows := by rw [sendEvent_eq]
@[simp] theorem sendEvent_haltAll (c : Nat) (e : Event) : (sendEvent c e s).spt.haltAll = s.spt.haltAll := by rw [sendEvent_eq]
@[simp] theorem sendEvent_haltEx (c : Nat) (e : Event) : (sendEvent c e s).spt.haltEx = s.spt.haltEx := by rw [sendEvent_eq]

/-! ### raiseAt -/

@[simp] theorem raiseAt_pending (u : Stamp) (q : Byte) (r a e : Nat) : (raiseAt u q r a e s).pending = s.pending := by rw [raiseAt_eq]
@[simp] theorem raiseAt_commits (u : Stamp) (q : Byte) (r a e : Nat) : (raiseAt u q r a e s).commits = s.commits := by rw [raiseAt_eq]
@[simp] theorem raiseAt_sealing (u : Stamp) (q : Byte) (r a e : Nat) : (raiseAt u q r a e s).sealing = s.sealing := by rw [raiseAt_eq]
@[simp] theorem raiseAt_pwr (u : Stamp) (q : Byte) (r a e : Nat) : (raiseAt u q r a e s).pwr = s.pwr := by rw [raiseAt_eq]
@[simp] theorem raiseAt_boot (u : Stamp) (q : Byte) (r a e : Nat) : (raiseAt u q r a e s).boot = s.boot := by rw [raiseAt_eq]
@[simp] theorem raiseAt_pins (u : Stamp) (q : Byte) (r a e : Nat) : (raiseAt u q r a e s).pins = s.pins := by rw [raiseAt_eq]
@[simp] theorem raiseAt_clk (u : Stamp) (q : Byte) (r a e : Nat) : (raiseAt u q r a e s).clk = s.clk := by rw [raiseAt_eq]
@[simp] theorem raiseAt_tb (u : Stamp) (q : Byte) (r a e : Nat) : (raiseAt u q r a e s).tb = s.tb := by rw [raiseAt_eq]
@[simp] theorem raiseAt_cnt (u : Stamp) (q : Byte) (r a e : Nat) : (raiseAt u q r a e s).cnt = s.cnt := by rw [raiseAt_eq]
@[simp] theorem raiseAt_slc (u : Stamp) (q : Byte) (r a e : Nat) : (raiseAt u q r a e s).slc = s.slc := by rw [raiseAt_eq]
@[simp] theorem raiseAt_ports (u : Stamp) (q : Byte) (r a e : Nat) : (raiseAt u q r a e s).ports = s.ports := by rw [raiseAt_eq]
@[simp] theorem raiseAt_ptp (u : Stamp) (q : Byte) (r a e : Nat) : (raiseAt u q r a e s).ptp = s.ptp := by rw [raiseAt_eq]
@[simp] theorem raiseAt_lgr (u : Stamp) (q : Byte) (r a e : Nat) : (raiseAt u q r a e s).lgr = s.lgr := by rw [raiseAt_eq]
@[simp] theorem raiseAt_sec (u : Stamp) (q : Byte) (r a e : Nat) : (raiseAt u q r a e s).sec = s.sec := by rw [raiseAt_eq]
@[simp] theorem raiseAt_cnv (u : Stamp) (q : Byte) (r a e : Nat) : (raiseAt u q r a e s).cnv = s.cnv := by rw [raiseAt_eq]
@[simp] theorem raiseAt_lch (u : Stamp) (q : Byte) (r a e : Nat) : (raiseAt u q r a e s).lch = s.lch := by rw [raiseAt_eq]
@[simp] theorem raiseAt_arms (u : Stamp) (q : Byte) (r a e : Nat) : (raiseAt u q r a e s).arms = s.arms := by rw [raiseAt_eq]
@[simp] theorem raiseAt_tiu (u : Stamp) (q : Byte) (r a e : Nat) : (raiseAt u q r a e s).tiu = s.tiu := by rw [raiseAt_eq]
@[simp] theorem raiseAt_basin (u : Stamp) (q : Byte) (r a e : Nat) : (raiseAt u q r a e s).basin = s.basin := by rw [raiseAt_eq]
@[simp] theorem raiseAt_csc (u : Stamp) (q : Byte) (r a e : Nat) : (raiseAt u q r a e s).csc = s.csc := by rw [raiseAt_eq]
@[simp] theorem raiseAt_pol (u : Stamp) (q : Byte) (r a e : Nat) : (raiseAt u q r a e s).pol = s.pol := by rw [raiseAt_eq]
@[simp] theorem raiseAt_weir (u : Stamp) (q : Byte) (r a e : Nat) : (raiseAt u q r a e s).weir = s.weir := by rw [raiseAt_eq]
@[simp] theorem raiseAt_cis (u : Stamp) (q : Byte) (r a e : Nat) : (raiseAt u q r a e s).cis = s.cis := by rw [raiseAt_eq]
@[simp] theorem raiseAt_dram (u : Stamp) (q : Byte) (r a e : Nat) : (raiseAt u q r a e s).dram = s.dram := by rw [raiseAt_eq]
@[simp] theorem raiseAt_rnl (u : Stamp) (q : Byte) (r a e : Nat) : (raiseAt u q r a e s).rnl = s.rnl := by rw [raiseAt_eq]
@[simp] theorem raiseAt_shadow (u : Stamp) (q : Byte) (r a e : Nat) : (raiseAt u q r a e s).regs.shadow = s.regs.shadow := by rw [raiseAt_eq]
@[simp] theorem raiseAt_active (u : Stamp) (q : Byte) (r a e : Nat) : (raiseAt u q r a e s).regs.active = s.regs.active := by rw [raiseAt_eq]
@[simp] theorem raiseAt_committed (u : Stamp) (q : Byte) (r a e : Nat) : (raiseAt u q r a e s).regs.committed = s.regs.committed := by rw [raiseAt_eq]
@[simp] theorem raiseAt_pend (u : Stamp) (q : Byte) (r a e : Nat) : (raiseAt u q r a e s).regs.pend = s.regs.pend := by rw [raiseAt_eq]
@[simp] theorem raiseAt_overrides (u : Stamp) (q : Byte) (r a e : Nat) : (raiseAt u q r a e s).regs.overrides = s.regs.overrides := by rw [raiseAt_eq]
@[simp] theorem raiseAt_latch (u : Stamp) (q : Byte) (r a e : Nat) : (raiseAt u q r a e s).regs.latch = s.regs.latch := by rw [raiseAt_eq]
@[simp] theorem raiseAt_cmdQueued (u : Stamp) (q : Byte) (r a e : Nat) : (raiseAt u q r a e s).regs.cmdQueued = s.regs.cmdQueued := by rw [raiseAt_eq]
@[simp] theorem raiseAt_windows (u : Stamp) (q : Byte) (r a e : Nat) : (raiseAt u q r a e s).spt.windows = s.spt.windows := by rw [raiseAt_eq]
@[simp] theorem raiseAt_haltAll (u : Stamp) (q : Byte) (r a e : Nat) : (raiseAt u q r a e s).spt.haltAll = s.spt.haltAll := by rw [raiseAt_eq]
@[simp] theorem raiseAt_haltEx (u : Stamp) (q : Byte) (r a e : Nat) : (raiseAt u q r a e s).spt.haltEx = s.spt.haltEx := by rw [raiseAt_eq]

/-! ### raiseFrom -/

@[simp] theorem raiseFrom_pending (r a e : Nat) : (raiseFrom r a e s).pending = s.pending := by simp [raiseFrom]
@[simp] theorem raiseFrom_commits (r a e : Nat) : (raiseFrom r a e s).commits = s.commits := by simp [raiseFrom]
@[simp] theorem raiseFrom_sealing (r a e : Nat) : (raiseFrom r a e s).sealing = s.sealing := by simp [raiseFrom]
@[simp] theorem raiseFrom_pwr (r a e : Nat) : (raiseFrom r a e s).pwr = s.pwr := by simp [raiseFrom]
@[simp] theorem raiseFrom_boot (r a e : Nat) : (raiseFrom r a e s).boot = s.boot := by simp [raiseFrom]
@[simp] theorem raiseFrom_pins (r a e : Nat) : (raiseFrom r a e s).pins = s.pins := by simp [raiseFrom]
@[simp] theorem raiseFrom_clk (r a e : Nat) : (raiseFrom r a e s).clk = s.clk := by simp [raiseFrom]
@[simp] theorem raiseFrom_tb (r a e : Nat) : (raiseFrom r a e s).tb = s.tb := by simp [raiseFrom]
@[simp] theorem raiseFrom_cnt (r a e : Nat) : (raiseFrom r a e s).cnt = s.cnt := by simp [raiseFrom]
@[simp] theorem raiseFrom_slc (r a e : Nat) : (raiseFrom r a e s).slc = s.slc := by simp [raiseFrom]
@[simp] theorem raiseFrom_ports (r a e : Nat) : (raiseFrom r a e s).ports = s.ports := by simp [raiseFrom]
@[simp] theorem raiseFrom_ptp (r a e : Nat) : (raiseFrom r a e s).ptp = s.ptp := by simp [raiseFrom]
@[simp] theorem raiseFrom_lgr (r a e : Nat) : (raiseFrom r a e s).lgr = s.lgr := by simp [raiseFrom]
@[simp] theorem raiseFrom_sec (r a e : Nat) : (raiseFrom r a e s).sec = s.sec := by simp [raiseFrom]
@[simp] theorem raiseFrom_cnv (r a e : Nat) : (raiseFrom r a e s).cnv = s.cnv := by simp [raiseFrom]
@[simp] theorem raiseFrom_lch (r a e : Nat) : (raiseFrom r a e s).lch = s.lch := by simp [raiseFrom]
@[simp] theorem raiseFrom_arms (r a e : Nat) : (raiseFrom r a e s).arms = s.arms := by simp [raiseFrom]
@[simp] theorem raiseFrom_tiu (r a e : Nat) : (raiseFrom r a e s).tiu = s.tiu := by simp [raiseFrom]
@[simp] theorem raiseFrom_basin (r a e : Nat) : (raiseFrom r a e s).basin = s.basin := by simp [raiseFrom]
@[simp] theorem raiseFrom_csc (r a e : Nat) : (raiseFrom r a e s).csc = s.csc := by simp [raiseFrom]
@[simp] theorem raiseFrom_pol (r a e : Nat) : (raiseFrom r a e s).pol = s.pol := by simp [raiseFrom]
@[simp] theorem raiseFrom_weir (r a e : Nat) : (raiseFrom r a e s).weir = s.weir := by simp [raiseFrom]
@[simp] theorem raiseFrom_cis (r a e : Nat) : (raiseFrom r a e s).cis = s.cis := by simp [raiseFrom]
@[simp] theorem raiseFrom_dram (r a e : Nat) : (raiseFrom r a e s).dram = s.dram := by simp [raiseFrom]
@[simp] theorem raiseFrom_rnl (r a e : Nat) : (raiseFrom r a e s).rnl = s.rnl := by simp [raiseFrom]
@[simp] theorem raiseFrom_shadow (r a e : Nat) : (raiseFrom r a e s).regs.shadow = s.regs.shadow := by simp [raiseFrom]
@[simp] theorem raiseFrom_active (r a e : Nat) : (raiseFrom r a e s).regs.active = s.regs.active := by simp [raiseFrom]
@[simp] theorem raiseFrom_committed (r a e : Nat) : (raiseFrom r a e s).regs.committed = s.regs.committed := by simp [raiseFrom]
@[simp] theorem raiseFrom_pend (r a e : Nat) : (raiseFrom r a e s).regs.pend = s.regs.pend := by simp [raiseFrom]
@[simp] theorem raiseFrom_overrides (r a e : Nat) : (raiseFrom r a e s).regs.overrides = s.regs.overrides := by simp [raiseFrom]
@[simp] theorem raiseFrom_latch (r a e : Nat) : (raiseFrom r a e s).regs.latch = s.regs.latch := by simp [raiseFrom]
@[simp] theorem raiseFrom_cmdQueued (r a e : Nat) : (raiseFrom r a e s).regs.cmdQueued = s.regs.cmdQueued := by simp [raiseFrom]
@[simp] theorem raiseFrom_windows (r a e : Nat) : (raiseFrom r a e s).spt.windows = s.spt.windows := by simp [raiseFrom]
@[simp] theorem raiseFrom_haltAll (r a e : Nat) : (raiseFrom r a e s).spt.haltAll = s.spt.haltAll := by simp [raiseFrom]
@[simp] theorem raiseFrom_haltEx (r a e : Nat) : (raiseFrom r a e s).spt.haltEx = s.spt.haltEx := by simp [raiseFrom]

/-! ### raise -/

@[simp] theorem raise_pending (a e : Nat) : (raise a e s).pending = s.pending := by simp [raise]
@[simp] theorem raise_commits (a e : Nat) : (raise a e s).commits = s.commits := by simp [raise]
@[simp] theorem raise_sealing (a e : Nat) : (raise a e s).sealing = s.sealing := by simp [raise]
@[simp] theorem raise_pwr (a e : Nat) : (raise a e s).pwr = s.pwr := by simp [raise]
@[simp] theorem raise_boot (a e : Nat) : (raise a e s).boot = s.boot := by simp [raise]
@[simp] theorem raise_pins (a e : Nat) : (raise a e s).pins = s.pins := by simp [raise]
@[simp] theorem raise_clk (a e : Nat) : (raise a e s).clk = s.clk := by simp [raise]
@[simp] theorem raise_tb (a e : Nat) : (raise a e s).tb = s.tb := by simp [raise]
@[simp] theorem raise_cnt (a e : Nat) : (raise a e s).cnt = s.cnt := by simp [raise]
@[simp] theorem raise_slc (a e : Nat) : (raise a e s).slc = s.slc := by simp [raise]
@[simp] theorem raise_ports (a e : Nat) : (raise a e s).ports = s.ports := by simp [raise]
@[simp] theorem raise_ptp (a e : Nat) : (raise a e s).ptp = s.ptp := by simp [raise]
@[simp] theorem raise_lgr (a e : Nat) : (raise a e s).lgr = s.lgr := by simp [raise]
@[simp] theorem raise_sec (a e : Nat) : (raise a e s).sec = s.sec := by simp [raise]
@[simp] theorem raise_cnv (a e : Nat) : (raise a e s).cnv = s.cnv := by simp [raise]
@[simp] theorem raise_lch (a e : Nat) : (raise a e s).lch = s.lch := by simp [raise]
@[simp] theorem raise_arms (a e : Nat) : (raise a e s).arms = s.arms := by simp [raise]
@[simp] theorem raise_tiu (a e : Nat) : (raise a e s).tiu = s.tiu := by simp [raise]
@[simp] theorem raise_basin (a e : Nat) : (raise a e s).basin = s.basin := by simp [raise]
@[simp] theorem raise_csc (a e : Nat) : (raise a e s).csc = s.csc := by simp [raise]
@[simp] theorem raise_pol (a e : Nat) : (raise a e s).pol = s.pol := by simp [raise]
@[simp] theorem raise_weir (a e : Nat) : (raise a e s).weir = s.weir := by simp [raise]
@[simp] theorem raise_cis (a e : Nat) : (raise a e s).cis = s.cis := by simp [raise]
@[simp] theorem raise_dram (a e : Nat) : (raise a e s).dram = s.dram := by simp [raise]
@[simp] theorem raise_rnl (a e : Nat) : (raise a e s).rnl = s.rnl := by simp [raise]
@[simp] theorem raise_shadow (a e : Nat) : (raise a e s).regs.shadow = s.regs.shadow := by simp [raise]
@[simp] theorem raise_active (a e : Nat) : (raise a e s).regs.active = s.regs.active := by simp [raise]
@[simp] theorem raise_committed (a e : Nat) : (raise a e s).regs.committed = s.regs.committed := by simp [raise]
@[simp] theorem raise_pend (a e : Nat) : (raise a e s).regs.pend = s.regs.pend := by simp [raise]
@[simp] theorem raise_overrides (a e : Nat) : (raise a e s).regs.overrides = s.regs.overrides := by simp [raise]
@[simp] theorem raise_latch (a e : Nat) : (raise a e s).regs.latch = s.regs.latch := by simp [raise]
@[simp] theorem raise_cmdQueued (a e : Nat) : (raise a e s).regs.cmdQueued = s.regs.cmdQueued := by simp [raise]
@[simp] theorem raise_windows (a e : Nat) : (raise a e s).spt.windows = s.spt.windows := by simp [raise]
@[simp] theorem raise_haltAll (a e : Nat) : (raise a e s).spt.haltAll = s.spt.haltAll := by simp [raise]
@[simp] theorem raise_haltEx (a e : Nat) : (raise a e s).spt.haltEx = s.spt.haltEx := by simp [raise]

/-! ### raiseIf -/

@[simp] theorem raiseIf_pending (c : Bool) (a e : Nat) : (raiseIf c a e s).pending = s.pending := by cases c <;> simp [raiseIf]
@[simp] theorem raiseIf_commits (c : Bool) (a e : Nat) : (raiseIf c a e s).commits = s.commits := by cases c <;> simp [raiseIf]
@[simp] theorem raiseIf_sealing (c : Bool) (a e : Nat) : (raiseIf c a e s).sealing = s.sealing := by cases c <;> simp [raiseIf]
@[simp] theorem raiseIf_pwr (c : Bool) (a e : Nat) : (raiseIf c a e s).pwr = s.pwr := by cases c <;> simp [raiseIf]
@[simp] theorem raiseIf_boot (c : Bool) (a e : Nat) : (raiseIf c a e s).boot = s.boot := by cases c <;> simp [raiseIf]
@[simp] theorem raiseIf_pins (c : Bool) (a e : Nat) : (raiseIf c a e s).pins = s.pins := by cases c <;> simp [raiseIf]
@[simp] theorem raiseIf_clk (c : Bool) (a e : Nat) : (raiseIf c a e s).clk = s.clk := by cases c <;> simp [raiseIf]
@[simp] theorem raiseIf_tb (c : Bool) (a e : Nat) : (raiseIf c a e s).tb = s.tb := by cases c <;> simp [raiseIf]
@[simp] theorem raiseIf_cnt (c : Bool) (a e : Nat) : (raiseIf c a e s).cnt = s.cnt := by cases c <;> simp [raiseIf]
@[simp] theorem raiseIf_slc (c : Bool) (a e : Nat) : (raiseIf c a e s).slc = s.slc := by cases c <;> simp [raiseIf]
@[simp] theorem raiseIf_ports (c : Bool) (a e : Nat) : (raiseIf c a e s).ports = s.ports := by cases c <;> simp [raiseIf]
@[simp] theorem raiseIf_ptp (c : Bool) (a e : Nat) : (raiseIf c a e s).ptp = s.ptp := by cases c <;> simp [raiseIf]
@[simp] theorem raiseIf_lgr (c : Bool) (a e : Nat) : (raiseIf c a e s).lgr = s.lgr := by cases c <;> simp [raiseIf]
@[simp] theorem raiseIf_sec (c : Bool) (a e : Nat) : (raiseIf c a e s).sec = s.sec := by cases c <;> simp [raiseIf]
@[simp] theorem raiseIf_cnv (c : Bool) (a e : Nat) : (raiseIf c a e s).cnv = s.cnv := by cases c <;> simp [raiseIf]
@[simp] theorem raiseIf_lch (c : Bool) (a e : Nat) : (raiseIf c a e s).lch = s.lch := by cases c <;> simp [raiseIf]
@[simp] theorem raiseIf_arms (c : Bool) (a e : Nat) : (raiseIf c a e s).arms = s.arms := by cases c <;> simp [raiseIf]
@[simp] theorem raiseIf_tiu (c : Bool) (a e : Nat) : (raiseIf c a e s).tiu = s.tiu := by cases c <;> simp [raiseIf]
@[simp] theorem raiseIf_basin (c : Bool) (a e : Nat) : (raiseIf c a e s).basin = s.basin := by cases c <;> simp [raiseIf]
@[simp] theorem raiseIf_csc (c : Bool) (a e : Nat) : (raiseIf c a e s).csc = s.csc := by cases c <;> simp [raiseIf]
@[simp] theorem raiseIf_pol (c : Bool) (a e : Nat) : (raiseIf c a e s).pol = s.pol := by cases c <;> simp [raiseIf]
@[simp] theorem raiseIf_weir (c : Bool) (a e : Nat) : (raiseIf c a e s).weir = s.weir := by cases c <;> simp [raiseIf]
@[simp] theorem raiseIf_cis (c : Bool) (a e : Nat) : (raiseIf c a e s).cis = s.cis := by cases c <;> simp [raiseIf]
@[simp] theorem raiseIf_dram (c : Bool) (a e : Nat) : (raiseIf c a e s).dram = s.dram := by cases c <;> simp [raiseIf]
@[simp] theorem raiseIf_rnl (c : Bool) (a e : Nat) : (raiseIf c a e s).rnl = s.rnl := by cases c <;> simp [raiseIf]
@[simp] theorem raiseIf_shadow (c : Bool) (a e : Nat) : (raiseIf c a e s).regs.shadow = s.regs.shadow := by cases c <;> simp [raiseIf]
@[simp] theorem raiseIf_active (c : Bool) (a e : Nat) : (raiseIf c a e s).regs.active = s.regs.active := by cases c <;> simp [raiseIf]
@[simp] theorem raiseIf_committed (c : Bool) (a e : Nat) : (raiseIf c a e s).regs.committed = s.regs.committed := by cases c <;> simp [raiseIf]
@[simp] theorem raiseIf_pend (c : Bool) (a e : Nat) : (raiseIf c a e s).regs.pend = s.regs.pend := by cases c <;> simp [raiseIf]
@[simp] theorem raiseIf_overrides (c : Bool) (a e : Nat) : (raiseIf c a e s).regs.overrides = s.regs.overrides := by cases c <;> simp [raiseIf]
@[simp] theorem raiseIf_latch (c : Bool) (a e : Nat) : (raiseIf c a e s).regs.latch = s.regs.latch := by cases c <;> simp [raiseIf]
@[simp] theorem raiseIf_cmdQueued (c : Bool) (a e : Nat) : (raiseIf c a e s).regs.cmdQueued = s.regs.cmdQueued := by cases c <;> simp [raiseIf]
@[simp] theorem raiseIf_windows (c : Bool) (a e : Nat) : (raiseIf c a e s).spt.windows = s.spt.windows := by cases c <;> simp [raiseIf]
@[simp] theorem raiseIf_haltAll (c : Bool) (a e : Nat) : (raiseIf c a e s).spt.haltAll = s.spt.haltAll := by cases c <;> simp [raiseIf]
@[simp] theorem raiseIf_haltEx (c : Bool) (a e : Nat) : (raiseIf c a e s).spt.haltEx = s.spt.haltEx := by cases c <;> simp [raiseIf]

/-! ### loss -/

@[simp] theorem loss_pending (i n : Nat) : (loss i n s).pending = s.pending := by unfold loss; split <;> simp
@[simp] theorem loss_commits (i n : Nat) : (loss i n s).commits = s.commits := by unfold loss; split <;> simp
@[simp] theorem loss_sealing (i n : Nat) : (loss i n s).sealing = s.sealing := by unfold loss; split <;> simp
@[simp] theorem loss_pwr (i n : Nat) : (loss i n s).pwr = s.pwr := by unfold loss; split <;> simp
@[simp] theorem loss_boot (i n : Nat) : (loss i n s).boot = s.boot := by unfold loss; split <;> simp
@[simp] theorem loss_pins (i n : Nat) : (loss i n s).pins = s.pins := by unfold loss; split <;> simp
@[simp] theorem loss_clk (i n : Nat) : (loss i n s).clk = s.clk := by unfold loss; split <;> simp
@[simp] theorem loss_tb (i n : Nat) : (loss i n s).tb = s.tb := by unfold loss; split <;> simp
@[simp] theorem loss_cnt (i n : Nat) : (loss i n s).cnt = s.cnt := by unfold loss; split <;> simp
@[simp] theorem loss_slc (i n : Nat) : (loss i n s).slc = s.slc := by unfold loss; split <;> simp
@[simp] theorem loss_ports (i n : Nat) : (loss i n s).ports = s.ports := by unfold loss; split <;> simp
@[simp] theorem loss_ptp (i n : Nat) : (loss i n s).ptp = s.ptp := by unfold loss; split <;> simp
@[simp] theorem loss_lgr (i n : Nat) : (loss i n s).lgr = s.lgr := by unfold loss; split <;> simp
@[simp] theorem loss_sec (i n : Nat) : (loss i n s).sec = s.sec := by unfold loss; split <;> simp
@[simp] theorem loss_cnv (i n : Nat) : (loss i n s).cnv = s.cnv := by unfold loss; split <;> simp
@[simp] theorem loss_lch (i n : Nat) : (loss i n s).lch = s.lch := by unfold loss; split <;> simp
@[simp] theorem loss_arms (i n : Nat) : (loss i n s).arms = s.arms := by unfold loss; split <;> simp
@[simp] theorem loss_tiu (i n : Nat) : (loss i n s).tiu = s.tiu := by unfold loss; split <;> simp
@[simp] theorem loss_basin (i n : Nat) : (loss i n s).basin = s.basin := by unfold loss; split <;> simp
@[simp] theorem loss_csc (i n : Nat) : (loss i n s).csc = s.csc := by unfold loss; split <;> simp
@[simp] theorem loss_pol (i n : Nat) : (loss i n s).pol = s.pol := by unfold loss; split <;> simp
@[simp] theorem loss_weir (i n : Nat) : (loss i n s).weir = s.weir := by unfold loss; split <;> simp
@[simp] theorem loss_cis (i n : Nat) : (loss i n s).cis = s.cis := by unfold loss; split <;> simp
@[simp] theorem loss_dram (i n : Nat) : (loss i n s).dram = s.dram := by unfold loss; split <;> simp
@[simp] theorem loss_rnl (i n : Nat) : (loss i n s).rnl = s.rnl := by unfold loss; split <;> simp
@[simp] theorem loss_shadow (i n : Nat) : (loss i n s).regs.shadow = s.regs.shadow := by unfold loss; split <;> simp
@[simp] theorem loss_active (i n : Nat) : (loss i n s).regs.active = s.regs.active := by unfold loss; split <;> simp
@[simp] theorem loss_committed (i n : Nat) : (loss i n s).regs.committed = s.regs.committed := by unfold loss; split <;> simp
@[simp] theorem loss_pend (i n : Nat) : (loss i n s).regs.pend = s.regs.pend := by unfold loss; split <;> simp
@[simp] theorem loss_overrides (i n : Nat) : (loss i n s).regs.overrides = s.regs.overrides := by unfold loss; split <;> simp
@[simp] theorem loss_latch (i n : Nat) : (loss i n s).regs.latch = s.regs.latch := by unfold loss; split <;> simp
@[simp] theorem loss_cmdQueued (i n : Nat) : (loss i n s).regs.cmdQueued = s.regs.cmdQueued := by unfold loss; split <;> simp
@[simp] theorem loss_windows (i n : Nat) : (loss i n s).spt.windows = s.spt.windows := by unfold loss; split <;> simp
@[simp] theorem loss_haltAll (i n : Nat) : (loss i n s).spt.haltAll = s.spt.haltAll := by unfold loss; split <;> simp
@[simp] theorem loss_haltEx (i n : Nat) : (loss i n s).spt.haltEx = s.spt.haltEx := by unfold loss; split <;> simp

/-! ### rill -/

@[simp] theorem rill_pending (k n : Nat) : (rill k n s).pending = s.pending := by simp [rill]
@[simp] theorem rill_commits (k n : Nat) : (rill k n s).commits = s.commits := by simp [rill]
@[simp] theorem rill_sealing (k n : Nat) : (rill k n s).sealing = s.sealing := by simp [rill]
@[simp] theorem rill_folds (k n : Nat) : (rill k n s).folds = s.folds := by simp [rill]
@[simp] theorem rill_timers (k n : Nat) : (rill k n s).timers = s.timers := by simp [rill]
@[simp] theorem rill_pwr (k n : Nat) : (rill k n s).pwr = s.pwr := by simp [rill]
@[simp] theorem rill_boot (k n : Nat) : (rill k n s).boot = s.boot := by simp [rill]
@[simp] theorem rill_pins (k n : Nat) : (rill k n s).pins = s.pins := by simp [rill]
@[simp] theorem rill_clk (k n : Nat) : (rill k n s).clk = s.clk := by simp [rill]
@[simp] theorem rill_tb (k n : Nat) : (rill k n s).tb = s.tb := by simp [rill]
@[simp] theorem rill_cnt (k n : Nat) : (rill k n s).cnt = s.cnt := by simp [rill]
@[simp] theorem rill_slc (k n : Nat) : (rill k n s).slc = s.slc := by simp [rill]
@[simp] theorem rill_spt (k n : Nat) : (rill k n s).spt = s.spt := by simp [rill]
@[simp] theorem rill_ports (k n : Nat) : (rill k n s).ports = s.ports := by simp [rill]
@[simp] theorem rill_ptp (k n : Nat) : (rill k n s).ptp = s.ptp := by simp [rill]
@[simp] theorem rill_lgr (k n : Nat) : (rill k n s).lgr = s.lgr := by simp [rill]
@[simp] theorem rill_sec (k n : Nat) : (rill k n s).sec = s.sec := by simp [rill]
@[simp] theorem rill_cnv (k n : Nat) : (rill k n s).cnv = s.cnv := by simp [rill]
@[simp] theorem rill_lch (k n : Nat) : (rill k n s).lch = s.lch := by simp [rill]
@[simp] theorem rill_arms (k n : Nat) : (rill k n s).arms = s.arms := by simp [rill]
@[simp] theorem rill_tiu (k n : Nat) : (rill k n s).tiu = s.tiu := by simp [rill]
@[simp] theorem rill_basin (k n : Nat) : (rill k n s).basin = s.basin := by simp [rill]
@[simp] theorem rill_csc (k n : Nat) : (rill k n s).csc = s.csc := by simp [rill]
@[simp] theorem rill_pol (k n : Nat) : (rill k n s).pol = s.pol := by simp [rill]
@[simp] theorem rill_weir (k n : Nat) : (rill k n s).weir = s.weir := by simp [rill]
@[simp] theorem rill_cis (k n : Nat) : (rill k n s).cis = s.cis := by simp [rill]
@[simp] theorem rill_dram (k n : Nat) : (rill k n s).dram = s.dram := by simp [rill]
@[simp] theorem rill_rnl (k n : Nat) : (rill k n s).rnl = s.rnl := by simp [rill]
@[simp] theorem rill_shadow (k n : Nat) : (rill k n s).regs.shadow = s.regs.shadow := by simp [rill]
@[simp] theorem rill_active (k n : Nat) : (rill k n s).regs.active = s.regs.active := by simp [rill]
@[simp] theorem rill_committed (k n : Nat) : (rill k n s).regs.committed = s.regs.committed := by simp [rill]
@[simp] theorem rill_pend (k n : Nat) : (rill k n s).regs.pend = s.regs.pend := by simp [rill]
@[simp] theorem rill_overrides (k n : Nat) : (rill k n s).regs.overrides = s.regs.overrides := by simp [rill]
@[simp] theorem rill_laps (k n : Nat) : (rill k n s).regs.laps = s.regs.laps := by simp [rill]
@[simp] theorem rill_latch (k n : Nat) : (rill k n s).regs.latch = s.regs.latch := by simp [rill]
@[simp] theorem rill_cmdQueued (k n : Nat) : (rill k n s).regs.cmdQueued = s.regs.cmdQueued := by simp [rill]

/-! ### rnlCount -/

@[simp] theorem rnlCount_pending (c n : Nat) : (rnlCount c n s).pending = s.pending := by simp [rnlCount]
@[simp] theorem rnlCount_commits (c n : Nat) : (rnlCount c n s).commits = s.commits := by simp [rnlCount]
@[simp] theorem rnlCount_sealing (c n : Nat) : (rnlCount c n s).sealing = s.sealing := by simp [rnlCount]
@[simp] theorem rnlCount_folds (c n : Nat) : (rnlCount c n s).folds = s.folds := by simp [rnlCount]
@[simp] theorem rnlCount_timers (c n : Nat) : (rnlCount c n s).timers = s.timers := by simp [rnlCount]
@[simp] theorem rnlCount_pwr (c n : Nat) : (rnlCount c n s).pwr = s.pwr := by simp [rnlCount]
@[simp] theorem rnlCount_boot (c n : Nat) : (rnlCount c n s).boot = s.boot := by simp [rnlCount]
@[simp] theorem rnlCount_pins (c n : Nat) : (rnlCount c n s).pins = s.pins := by simp [rnlCount]
@[simp] theorem rnlCount_clk (c n : Nat) : (rnlCount c n s).clk = s.clk := by simp [rnlCount]
@[simp] theorem rnlCount_tb (c n : Nat) : (rnlCount c n s).tb = s.tb := by simp [rnlCount]
@[simp] theorem rnlCount_cnt (c n : Nat) : (rnlCount c n s).cnt = s.cnt := by simp [rnlCount]
@[simp] theorem rnlCount_slc (c n : Nat) : (rnlCount c n s).slc = s.slc := by simp [rnlCount]
@[simp] theorem rnlCount_spt (c n : Nat) : (rnlCount c n s).spt = s.spt := by simp [rnlCount]
@[simp] theorem rnlCount_ports (c n : Nat) : (rnlCount c n s).ports = s.ports := by simp [rnlCount]
@[simp] theorem rnlCount_ptp (c n : Nat) : (rnlCount c n s).ptp = s.ptp := by simp [rnlCount]
@[simp] theorem rnlCount_lgr (c n : Nat) : (rnlCount c n s).lgr = s.lgr := by simp [rnlCount]
@[simp] theorem rnlCount_sec (c n : Nat) : (rnlCount c n s).sec = s.sec := by simp [rnlCount]
@[simp] theorem rnlCount_cnv (c n : Nat) : (rnlCount c n s).cnv = s.cnv := by simp [rnlCount]
@[simp] theorem rnlCount_lch (c n : Nat) : (rnlCount c n s).lch = s.lch := by simp [rnlCount]
@[simp] theorem rnlCount_arms (c n : Nat) : (rnlCount c n s).arms = s.arms := by simp [rnlCount]
@[simp] theorem rnlCount_tiu (c n : Nat) : (rnlCount c n s).tiu = s.tiu := by simp [rnlCount]
@[simp] theorem rnlCount_basin (c n : Nat) : (rnlCount c n s).basin = s.basin := by simp [rnlCount]
@[simp] theorem rnlCount_csc (c n : Nat) : (rnlCount c n s).csc = s.csc := by simp [rnlCount]
@[simp] theorem rnlCount_pol (c n : Nat) : (rnlCount c n s).pol = s.pol := by simp [rnlCount]
@[simp] theorem rnlCount_weir (c n : Nat) : (rnlCount c n s).weir = s.weir := by simp [rnlCount]
@[simp] theorem rnlCount_cis (c n : Nat) : (rnlCount c n s).cis = s.cis := by simp [rnlCount]
@[simp] theorem rnlCount_dram (c n : Nat) : (rnlCount c n s).dram = s.dram := by simp [rnlCount]
@[simp] theorem rnlCount_rnl (c n : Nat) : (rnlCount c n s).rnl = s.rnl := by simp [rnlCount]
@[simp] theorem rnlCount_shadow (c n : Nat) : (rnlCount c n s).regs.shadow = s.regs.shadow := by simp [rnlCount]
@[simp] theorem rnlCount_active (c n : Nat) : (rnlCount c n s).regs.active = s.regs.active := by simp [rnlCount]
@[simp] theorem rnlCount_committed (c n : Nat) : (rnlCount c n s).regs.committed = s.regs.committed := by simp [rnlCount]
@[simp] theorem rnlCount_pend (c n : Nat) : (rnlCount c n s).regs.pend = s.regs.pend := by simp [rnlCount]
@[simp] theorem rnlCount_overrides (c n : Nat) : (rnlCount c n s).regs.overrides = s.regs.overrides := by simp [rnlCount]
@[simp] theorem rnlCount_laps (c n : Nat) : (rnlCount c n s).regs.laps = s.regs.laps := by simp [rnlCount]
@[simp] theorem rnlCount_latch (c n : Nat) : (rnlCount c n s).regs.latch = s.regs.latch := by simp [rnlCount]
@[simp] theorem rnlCount_cmdQueued (c n : Nat) : (rnlCount c n s).regs.cmdQueued = s.regs.cmdQueued := by simp [rnlCount]

/-! ### countCmd -/

@[simp] theorem countCmd_pending (st : Nat) : (countCmd st s).pending = s.pending := by simp [countCmd]
@[simp] theorem countCmd_commits (st : Nat) : (countCmd st s).commits = s.commits := by simp [countCmd]
@[simp] theorem countCmd_sealing (st : Nat) : (countCmd st s).sealing = s.sealing := by simp [countCmd]
@[simp] theorem countCmd_folds (st : Nat) : (countCmd st s).folds = s.folds := by simp [countCmd]
@[simp] theorem countCmd_timers (st : Nat) : (countCmd st s).timers = s.timers := by simp [countCmd]
@[simp] theorem countCmd_pwr (st : Nat) : (countCmd st s).pwr = s.pwr := by simp [countCmd]
@[simp] theorem countCmd_boot (st : Nat) : (countCmd st s).boot = s.boot := by simp [countCmd]
@[simp] theorem countCmd_pins (st : Nat) : (countCmd st s).pins = s.pins := by simp [countCmd]
@[simp] theorem countCmd_clk (st : Nat) : (countCmd st s).clk = s.clk := by simp [countCmd]
@[simp] theorem countCmd_tb (st : Nat) : (countCmd st s).tb = s.tb := by simp [countCmd]
@[simp] theorem countCmd_cnt (st : Nat) : (countCmd st s).cnt = s.cnt := by simp [countCmd]
@[simp] theorem countCmd_slc (st : Nat) : (countCmd st s).slc = s.slc := by simp [countCmd]
@[simp] theorem countCmd_spt (st : Nat) : (countCmd st s).spt = s.spt := by simp [countCmd]
@[simp] theorem countCmd_ports (st : Nat) : (countCmd st s).ports = s.ports := by simp [countCmd]
@[simp] theorem countCmd_ptp (st : Nat) : (countCmd st s).ptp = s.ptp := by simp [countCmd]
@[simp] theorem countCmd_lgr (st : Nat) : (countCmd st s).lgr = s.lgr := by simp [countCmd]
@[simp] theorem countCmd_sec (st : Nat) : (countCmd st s).sec = s.sec := by simp [countCmd]
@[simp] theorem countCmd_cnv (st : Nat) : (countCmd st s).cnv = s.cnv := by simp [countCmd]
@[simp] theorem countCmd_lch (st : Nat) : (countCmd st s).lch = s.lch := by simp [countCmd]
@[simp] theorem countCmd_arms (st : Nat) : (countCmd st s).arms = s.arms := by simp [countCmd]
@[simp] theorem countCmd_tiu (st : Nat) : (countCmd st s).tiu = s.tiu := by simp [countCmd]
@[simp] theorem countCmd_basin (st : Nat) : (countCmd st s).basin = s.basin := by simp [countCmd]
@[simp] theorem countCmd_csc (st : Nat) : (countCmd st s).csc = s.csc := by simp [countCmd]
@[simp] theorem countCmd_pol (st : Nat) : (countCmd st s).pol = s.pol := by simp [countCmd]
@[simp] theorem countCmd_weir (st : Nat) : (countCmd st s).weir = s.weir := by simp [countCmd]
@[simp] theorem countCmd_cis (st : Nat) : (countCmd st s).cis = s.cis := by simp [countCmd]
@[simp] theorem countCmd_dram (st : Nat) : (countCmd st s).dram = s.dram := by simp [countCmd]
@[simp] theorem countCmd_rnl (st : Nat) : (countCmd st s).rnl = s.rnl := by simp [countCmd]
@[simp] theorem countCmd_shadow (st : Nat) : (countCmd st s).regs.shadow = s.regs.shadow := by simp [countCmd]
@[simp] theorem countCmd_active (st : Nat) : (countCmd st s).regs.active = s.regs.active := by simp [countCmd]
@[simp] theorem countCmd_committed (st : Nat) : (countCmd st s).regs.committed = s.regs.committed := by simp [countCmd]
@[simp] theorem countCmd_pend (st : Nat) : (countCmd st s).regs.pend = s.regs.pend := by simp [countCmd]
@[simp] theorem countCmd_overrides (st : Nat) : (countCmd st s).regs.overrides = s.regs.overrides := by simp [countCmd]
@[simp] theorem countCmd_laps (st : Nat) : (countCmd st s).regs.laps = s.regs.laps := by simp [countCmd]
@[simp] theorem countCmd_latch (st : Nat) : (countCmd st s).regs.latch = s.regs.latch := by simp [countCmd]
@[simp] theorem countCmd_cmdQueued (st : Nat) : (countCmd st s).regs.cmdQueued = s.regs.cmdQueued := by simp [countCmd]

/-! ### skipDead -/

@[simp] theorem skipDead_pending (n : Nat) : (skipDead n s).pending = s.pending := by simp [skipDead]
@[simp] theorem skipDead_commits (n : Nat) : (skipDead n s).commits = s.commits := by simp [skipDead]
@[simp] theorem skipDead_sealing (n : Nat) : (skipDead n s).sealing = s.sealing := by simp [skipDead]
@[simp] theorem skipDead_folds (n : Nat) : (skipDead n s).folds = s.folds := by simp [skipDead]
@[simp] theorem skipDead_timers (n : Nat) : (skipDead n s).timers = s.timers := by simp [skipDead]
@[simp] theorem skipDead_pwr (n : Nat) : (skipDead n s).pwr = s.pwr := by simp [skipDead]
@[simp] theorem skipDead_boot (n : Nat) : (skipDead n s).boot = s.boot := by simp [skipDead]
@[simp] theorem skipDead_pins (n : Nat) : (skipDead n s).pins = s.pins := by simp [skipDead]
@[simp] theorem skipDead_clk (n : Nat) : (skipDead n s).clk = s.clk := by simp [skipDead]
@[simp] theorem skipDead_tb (n : Nat) : (skipDead n s).tb = s.tb := by simp [skipDead]
@[simp] theorem skipDead_cnt (n : Nat) : (skipDead n s).cnt = s.cnt := by simp [skipDead]
@[simp] theorem skipDead_spt (n : Nat) : (skipDead n s).spt = s.spt := by simp [skipDead]
@[simp] theorem skipDead_ports (n : Nat) : (skipDead n s).ports = s.ports := by simp [skipDead]
@[simp] theorem skipDead_ptp (n : Nat) : (skipDead n s).ptp = s.ptp := by simp [skipDead]
@[simp] theorem skipDead_lgr (n : Nat) : (skipDead n s).lgr = s.lgr := by simp [skipDead]
@[simp] theorem skipDead_sec (n : Nat) : (skipDead n s).sec = s.sec := by simp [skipDead]
@[simp] theorem skipDead_cnv (n : Nat) : (skipDead n s).cnv = s.cnv := by simp [skipDead]
@[simp] theorem skipDead_lch (n : Nat) : (skipDead n s).lch = s.lch := by simp [skipDead]
@[simp] theorem skipDead_arms (n : Nat) : (skipDead n s).arms = s.arms := by simp [skipDead]
@[simp] theorem skipDead_tiu (n : Nat) : (skipDead n s).tiu = s.tiu := by simp [skipDead]
@[simp] theorem skipDead_basin (n : Nat) : (skipDead n s).basin = s.basin := by simp [skipDead]
@[simp] theorem skipDead_csc (n : Nat) : (skipDead n s).csc = s.csc := by simp [skipDead]
@[simp] theorem skipDead_pol (n : Nat) : (skipDead n s).pol = s.pol := by simp [skipDead]
@[simp] theorem skipDead_weir (n : Nat) : (skipDead n s).weir = s.weir := by simp [skipDead]
@[simp] theorem skipDead_cis (n : Nat) : (skipDead n s).cis = s.cis := by simp [skipDead]
@[simp] theorem skipDead_dram (n : Nat) : (skipDead n s).dram = s.dram := by simp [skipDead]
@[simp] theorem skipDead_rnl (n : Nat) : (skipDead n s).rnl = s.rnl := by simp [skipDead]
@[simp] theorem skipDead_shadow (n : Nat) : (skipDead n s).regs.shadow = s.regs.shadow := by simp [skipDead]
@[simp] theorem skipDead_active (n : Nat) : (skipDead n s).regs.active = s.regs.active := by simp [skipDead]
@[simp] theorem skipDead_committed (n : Nat) : (skipDead n s).regs.committed = s.regs.committed := by simp [skipDead]
@[simp] theorem skipDead_pend (n : Nat) : (skipDead n s).regs.pend = s.regs.pend := by simp [skipDead]
@[simp] theorem skipDead_overrides (n : Nat) : (skipDead n s).regs.overrides = s.regs.overrides := by simp [skipDead]
@[simp] theorem skipDead_laps (n : Nat) : (skipDead n s).regs.laps = s.regs.laps := by simp [skipDead]
@[simp] theorem skipDead_latch (n : Nat) : (skipDead n s).regs.latch = s.regs.latch := by simp [skipDead]
@[simp] theorem skipDead_cmdQueued (n : Nat) : (skipDead n s).regs.cmdQueued = s.regs.cmdQueued := by simp [skipDead]
@[simp] theorem skipDead_lease (n : Nat) : (skipDead n s).slc.lease = s.slc.lease := by simp [skipDead]
@[simp] theorem skipDead_openings (n : Nat) : (skipDead n s).slc.openings = s.slc.openings := by simp [skipDead]
@[simp] theorem skipDead_idReqs (n : Nat) : (skipDead n s).slc.idReqs = s.slc.idReqs := by simp [skipDead]
@[simp] theorem skipDead_dropping (n : Nat) : (skipDead n s).slc.dropping = s.slc.dropping := by simp [skipDead]

/-! ### answer -/

@[simp] theorem answer_pending (n op st : Nat) (l : List Byte) : (answer n op st l s).pending = s.pending := by simp [answer]
@[simp] theorem answer_commits (n op st : Nat) (l : List Byte) : (answer n op st l s).commits = s.commits := by simp [answer]
@[simp] theorem answer_sealing (n op st : Nat) (l : List Byte) : (answer n op st l s).sealing = s.sealing := by simp [answer]
@[simp] theorem answer_folds (n op st : Nat) (l : List Byte) : (answer n op st l s).folds = s.folds := by simp [answer]
@[simp] theorem answer_timers (n op st : Nat) (l : List Byte) : (answer n op st l s).timers = s.timers := by simp [answer]
@[simp] theorem answer_pwr (n op st : Nat) (l : List Byte) : (answer n op st l s).pwr = s.pwr := by simp [answer]
@[simp] theorem answer_boot (n op st : Nat) (l : List Byte) : (answer n op st l s).boot = s.boot := by simp [answer]
@[simp] theorem answer_pins (n op st : Nat) (l : List Byte) : (answer n op st l s).pins = s.pins := by simp [answer]
@[simp] theorem answer_clk (n op st : Nat) (l : List Byte) : (answer n op st l s).clk = s.clk := by simp [answer]
@[simp] theorem answer_tb (n op st : Nat) (l : List Byte) : (answer n op st l s).tb = s.tb := by simp [answer]
@[simp] theorem answer_cnt (n op st : Nat) (l : List Byte) : (answer n op st l s).cnt = s.cnt := by simp [answer]
@[simp] theorem answer_spt (n op st : Nat) (l : List Byte) : (answer n op st l s).spt = s.spt := by simp [answer]
@[simp] theorem answer_ports (n op st : Nat) (l : List Byte) : (answer n op st l s).ports = s.ports := by simp [answer]
@[simp] theorem answer_ptp (n op st : Nat) (l : List Byte) : (answer n op st l s).ptp = s.ptp := by simp [answer]
@[simp] theorem answer_lgr (n op st : Nat) (l : List Byte) : (answer n op st l s).lgr = s.lgr := by simp [answer]
@[simp] theorem answer_sec (n op st : Nat) (l : List Byte) : (answer n op st l s).sec = s.sec := by simp [answer]
@[simp] theorem answer_cnv (n op st : Nat) (l : List Byte) : (answer n op st l s).cnv = s.cnv := by simp [answer]
@[simp] theorem answer_lch (n op st : Nat) (l : List Byte) : (answer n op st l s).lch = s.lch := by simp [answer]
@[simp] theorem answer_arms (n op st : Nat) (l : List Byte) : (answer n op st l s).arms = s.arms := by simp [answer]
@[simp] theorem answer_tiu (n op st : Nat) (l : List Byte) : (answer n op st l s).tiu = s.tiu := by simp [answer]
@[simp] theorem answer_basin (n op st : Nat) (l : List Byte) : (answer n op st l s).basin = s.basin := by simp [answer]
@[simp] theorem answer_csc (n op st : Nat) (l : List Byte) : (answer n op st l s).csc = s.csc := by simp [answer]
@[simp] theorem answer_pol (n op st : Nat) (l : List Byte) : (answer n op st l s).pol = s.pol := by simp [answer]
@[simp] theorem answer_weir (n op st : Nat) (l : List Byte) : (answer n op st l s).weir = s.weir := by simp [answer]
@[simp] theorem answer_cis (n op st : Nat) (l : List Byte) : (answer n op st l s).cis = s.cis := by simp [answer]
@[simp] theorem answer_dram (n op st : Nat) (l : List Byte) : (answer n op st l s).dram = s.dram := by simp [answer]
@[simp] theorem answer_rnl (n op st : Nat) (l : List Byte) : (answer n op st l s).rnl = s.rnl := by simp [answer]
@[simp] theorem answer_shadow (n op st : Nat) (l : List Byte) : (answer n op st l s).regs.shadow = s.regs.shadow := by simp [answer]
@[simp] theorem answer_active (n op st : Nat) (l : List Byte) : (answer n op st l s).regs.active = s.regs.active := by simp [answer]
@[simp] theorem answer_committed (n op st : Nat) (l : List Byte) : (answer n op st l s).regs.committed = s.regs.committed := by simp [answer]
@[simp] theorem answer_pend (n op st : Nat) (l : List Byte) : (answer n op st l s).regs.pend = s.regs.pend := by simp [answer]
@[simp] theorem answer_overrides (n op st : Nat) (l : List Byte) : (answer n op st l s).regs.overrides = s.regs.overrides := by simp [answer]
@[simp] theorem answer_laps (n op st : Nat) (l : List Byte) : (answer n op st l s).regs.laps = s.regs.laps := by simp [answer]
@[simp] theorem answer_latch (n op st : Nat) (l : List Byte) : (answer n op st l s).regs.latch = s.regs.latch := by simp [answer]
@[simp] theorem answer_cmdQueued (n op st : Nat) (l : List Byte) : (answer n op st l s).regs.cmdQueued = s.regs.cmdQueued := by simp [answer]
@[simp] theorem answer_lease (n op st : Nat) (l : List Byte) : (answer n op st l s).slc.lease = s.slc.lease := by simp [answer]
@[simp] theorem answer_openings (n op st : Nat) (l : List Byte) : (answer n op st l s).slc.openings = s.slc.openings := by simp [answer]
@[simp] theorem answer_idReqs (n op st : Nat) (l : List Byte) : (answer n op st l s).slc.idReqs = s.slc.idReqs := by simp [answer]
@[simp] theorem answer_dropping (n op st : Nat) (l : List Byte) : (answer n op st l s).slc.dropping = s.slc.dropping := by simp [answer]

end Sys2Proof.Machine
end

