-- ==== Sys2Proof/Laws/Memory.lean ====
section
/-!
SUPPORT. The memories: what a stored burst reads as, that a store leaves every other byte alone, and that every memory
operation keeps the canonical form.
-/

namespace Sys2Proof.Machine

/-! ### Bytes of a channel -/

/-- A store below or above an address leaves its byte alone. -/
theorem smGet_putCells_out {a i : Nat} {vs : List Byte} {ms : List Bool} {m : SMap Byte} (h : i < a ∨ a + vs.length ≤ i) :
    smGet 0 i (putCells a vs ms m) = smGet 0 i m := by
  induction vs generalizing a ms m with
  | nil => rfl
  | cons v vs ih =>
    cases ms with
    | nil => rfl
    | cons b ms =>
      simp only [List.length_cons] at h
      simp only [putCells]
      rw [ih (by omega)]
      split
      · exact smGet_smPut_ne 0 v (by omega) m
      · rfl

/-- A byte whose mask bit is set reads as the byte stored, one whose bit is clear as before. -/
theorem smGet_putCells_in {a k : Nat} {vs : List Byte} {ms : List Bool} {m : SMap Byte} (hv : k < vs.length)
    (hm : k < ms.length) :
    smGet 0 (a + k) (putCells a vs ms m) = if ms[k] then vs[k] else smGet 0 (a + k) m := by
  induction vs generalizing a ms m k with
  | nil => simp at hv
  | cons v vs ih =>
    cases ms with
    | nil => simp at hm
    | cons b ms =>
      simp only [putCells]
      cases k with
      | zero =>
        rw [smGet_putCells_out (by omega)]
        cases b <;> simp
      | succ k =>
        have h1 : k < vs.length := by simpa using hv
        have h2 : k < ms.length := by simpa using hm
        rw [show a + (k + 1) = a + 1 + k by omega, ih h1 h2]
        simp only [List.getElem_cons_succ]
        split
        · rfl
        · split
          · exact smGet_smPut_ne 0 v (by omega) m
          · rfl

theorem smWf_putCells {a : Nat} {vs : List Byte} {ms : List Bool} {m : SMap Byte} (h : smWf 0 m = true) :
    smWf 0 (putCells a vs ms m) = true := by
  induction vs generalizing a ms m with
  | nil => exact h
  | cons v vs ih =>
    cases ms with
    | nil => exact h
    | cons b ms =>
      simp only [putCells]
      split
      · exact ih (smWf_smPut h)
      · exact ih h

/-! ### The whole state -/

theorem memory_wf_iff (s : State) :
    Memory.wf s = true ↔ (∀ e ∈ s.dram.chans, smWf 0 e.2.cells = true) ∧ smWf 0 s.rnl.mbox = true := by
  simp [Memory.wf]

/-- The canonical form is a matter of the DRAM channels and the mailboxes. -/
theorem memory_wf_congr {s t : State} (h : t.dram.chans = s.dram.chans) (h' : t.rnl.mbox = s.rnl.mbox) :
    Memory.wf t = Memory.wf s := by
  simp [Memory.wf, h, h']

/-- Memory is canonical at reset. -/
theorem memory_wf_reset : Memory.wf State.reset = true := rfl

theorem dch_cells_wf {s : State} (h : Memory.wf s = true) (c : Nat) : smWf 0 (dch s c).cells = true := by
  have hc := ((memory_wf_iff s).mp h).1
  unfold dch
  generalize s.dram.chans = m at hc
  induction m with
  | nil => rfl
  | cons e m ih =>
    obtain ⟨j, x⟩ := e
    simp only [smGet]
    split
    · exact hc (j, x) (by simp)
    · exact ih fun e he => hc e (by simp [he])

theorem mem_smDel {α : Type} {k : Nat} {m : SMap α} {e : Nat × α} (h : e ∈ smDel k m) : e ∈ m := by
  induction m with
  | nil => simp [smDel] at h
  | cons y m ih =>
    obtain ⟨j, w⟩ := y
    simp only [smDel] at h
    split at h
    · exact List.mem_cons_of_mem _ (ih h)
    · rcases List.mem_cons.mp h with rfl | h
      · exact List.mem_cons_self ..
      · exact List.mem_cons_of_mem _ (ih h)

theorem mem_smIns {α : Type} {k : Nat} {v : α} {m : SMap α} {e : Nat × α} (h : e ∈ smIns k v m) : e = (k, v) ∨ e ∈ m := by
  induction m with
  | nil => simpa [smIns] using h
  | cons y m ih =>
    obtain ⟨j, w⟩ := y
    simp only [smIns] at h
    split at h
    · simpa using h
    · split at h
      · rcases List.mem_cons.mp h with rfl | h
        · exact .inl rfl
        · exact .inr (List.mem_cons_of_mem _ h)
      · rcases List.mem_cons.mp h with rfl | h
        · exact .inr (List.mem_cons_self ..)
        · rcases ih h with rfl | h
          · exact .inl rfl
          · exact .inr (List.mem_cons_of_mem _ h)

theorem mem_smPut {α : Type} [DecidableEq α] {d : α} {k : Nat} {v : α} {m : SMap α} {e : Nat × α} (h : e ∈ smPut d k v m) :
    e = (k, v) ∨ e ∈ m := by
  unfold smPut at h
  split at h
  · exact .inr (mem_smDel h)
  · exact mem_smIns h

/-- A channel written back with canonical cells keeps memory canonical. -/
theorem memory_wf_setDch {s : State} {c : Nat} {x : DChan} (h : Memory.wf s = true) (hx : smWf 0 x.cells = true) :
    Memory.wf (setDch c x s) = true := by
  rw [memory_wf_iff] at h ⊢
  refine ⟨fun e he => ?_, h.2⟩
  rcases mem_smPut (show e ∈ smPut {} c x s.dram.chans from he) with rfl | he
  · exact hx
  · exact h.1 e he

/-- A burst written into a channel keeps its cells canonical (R285). -/
theorem smWf_putBurst {b : Nat} {data : List Byte} {mask : List Bool} {poison : Bool} {x : DChan}
    (h : smWf 0 x.cells = true) : smWf 0 (putBurst b data mask poison x).cells = true := smWf_putCells h

/-- Counters and events leave memory alone. -/
@[simp] theorem memory_wf_addCnt64 (a n : Nat) (s : State) : Memory.wf (addCnt64 a n s) = Memory.wf s :=
  memory_wf_congr (by simp) (by simp)

@[simp] theorem memory_wf_raise (a e : Nat) (s : State) : Memory.wf (raise a e s) = Memory.wf s :=
  memory_wf_congr (by simp) (by simp)

@[simp] theorem memory_wf_loss (i n : Nat) (s : State) : Memory.wf (loss i n s) = Memory.wf s := by
  unfold loss; split <;> simp

/-- Which bursts a migration has kept is no part of memory. -/
@[simp] theorem memory_wf_kept (k : List Nat) (s : State) : Memory.wf { s with dram := { s.dram with kept := k } } = Memory.wf s := rfl

theorem memory_wf_ite {p : Prop} [Decidable p] {s t : State} (hs : Memory.wf s = true) (ht : Memory.wf t = true) :
    Memory.wf (if p then s else t) = true := by split <;> assumption

/-- The write of one burst keeps memory canonical (R285, R316, R317). -/
theorem memory_wf_writeBurst {c b : Nat} {data : List Byte} {mask : List Bool} {poison : Bool} {s : State}
    (h : Memory.wf s = true) : Memory.wf (writeBurst c b data mask poison s) = true := by
  unfold writeBurst
  refine memory_wf_ite (by simpa using h) ?_
  generalize (poison || (!wholeBurst data mask && burstBad s c b)) = q
  have h1 : Memory.wf (setDch c (putBurst b data mask q (dch s c)) s) = true :=
    memory_wf_setDch h (smWf_putBurst (dch_cells_wf h c))
  generalize setDch c (putBurst b data mask q (dch s c)) s = u at h1 ⊢
  dsimp only
  generalize (decide (u.dram.source = c) && (decide (u.dram.phase = 2) || decide (u.dram.phase = 3))) = m
  have h2 : ∀ (p : Prop) [Decidable p] (d : Nat) (l : List Byte) (ms : List Bool) (q : Bool),
      Memory.wf (if p then setDch d (putBurst b l ms q (dch u d)) u else u) = true := fun p _ d l ms q =>
    memory_wf_ite (memory_wf_setDch h1 (smWf_putBurst (dch_cells_wf h1 d))) h1
  exact memory_wf_ite ((memory_wf_kept _ _).trans (h2 ..)) (h2 ..)

/-- Bytes written into a mailbox keep memory canonical (R330). -/
theorem memory_wf_mboxPut {off : Nat} {l : List (Byte × Bool)} {s : State} (h : Memory.wf s = true) :
    Memory.wf (mboxPut off l s) = true := by
  rw [memory_wf_iff] at h ⊢
  refine ⟨h.1, ?_⟩
  have : ∀ (xs : List ((Byte × Bool) × Nat)) (m : SMap Byte), smWf 0 m = true →
      smWf 0 (xs.foldl (fun m e => smPut 0 (off + e.2) e.1.1 m) m) = true := by
    intro xs
    induction xs with
    | nil => exact fun m hm => hm
    | cons e xs ih => exact fun m hm => ih _ (smWf_smPut hm)
  exact this _ _ h.2

end Sys2Proof.Machine
end

