-- ==== Sys2Proof/Laws/Otp.lean ====
section
/-!
SUPPORT. The OTP of a die as delivered: its CHECK holds, so that it can raise READY.
-/

namespace Sys2Proof.Machine

theorem otpByte_delivered {s : State} (h : s.sec.otp = []) (h' : s.sec.otpQueue = []) (a : Nat) :
    otpByte s a = otpDelivered a := by
  simp [otpByte, h, h', smGet]

theorem otpDelivered_identity {i : Nat} (h : i < 36) : otpDelivered i = idDelivered i := by
  unfold otpDelivered
  rw [if_neg (by omega), if_pos h]

/-- The four bytes of a word, low byte first, read back as the word. -/
theorem leAt_word (w : Word) : leAt ((List.range 4).map fun i => (w >>> (8 * i)).setWidth 8) 0 4 = w.toNat := by
  have h := w.isLt
  simp [leAt, slice, ofLe, List.range_succ, BitVec.toNat_setWidth, BitVec.toNat_ushiftRight, Nat.shiftRight_eq_div_pow]
  omega

/-- CHECK of a die as delivered is the CRC of its identity (R426). -/
theorem identityOk_delivered {s : State} (h : s.sec.otp = []) (h' : s.sec.otpQueue = []) : identityOk s = true := by
  have h1 : otpBytes s 0 36 = (List.range 36).map idDelivered := by
    refine List.map_congr_left fun i hi => ?_
    rw [otpByte_delivered h h', Nat.zero_add, otpDelivered_identity (List.mem_range.mp hi)]
  have h2 : otpBytes s 0x24 4 = (List.range 4).map fun i => (crc32c ((List.range 36).map idDelivered) >>> (8 * i)).setWidth 8 := by
    refine List.map_congr_left fun i hi => ?_
    have hi := List.mem_range.mp hi
    rw [otpByte_delivered h h']
    unfold otpDelivered
    rw [if_neg (by omega), if_neg (by omega), if_pos (by omega)]
    simp
  simp [identityOk, h1, h2, leAt_word]

end Sys2Proof.Machine
end

