-- ==== Sys2Proof/Laws/Replies.lean ====
section
/-!
SUPPORT. Replies and the running of a command: what a reply changes, and what a host command comes to at its turn.
-/

namespace Sys2Proof.Machine

theorem hw_addCnt64_off {a b n : Nat} (hb : offLedger b) (h : 0xD2400 ≤ a ∧ a + 4 < 0xD2420) (s : State) :
    hw (addCnt64 a n s) b = hw s b := by
  unfold offLedger at hb
  exact hw_addCnt64_ne n (by omega) (by omega) s

@[simp] theorem hw_setSes (n : Nat) (x : Session) (s : State) (a : Nat) : hw (setSes n x s) a = hw s a := rfl

@[simp] theorem ses_addCnt64 (a n m : Nat) (s : State) : ses (addCnt64 a n s) m = ses s m := by simp [ses]

@[simp] theorem ses_countCmd (st m : Nat) (s : State) : ses (countCmd st s) m = ses s m := by simp [ses]

theorem hw_countCmd_off {st b : Nat} (hb : offLedger b) (s : State) : hw (countCmd st s) b = hw s b := by
  unfold countCmd
  rw [hw_addCnt64_off hb (by split <;> omega), hw_addCnt64_off hb (by omega)]

theorem hw_skipDead_off {n b : Nat} (hb : offLedger b) (s : State) : hw (skipDead n s) b = hw s b := by
  unfold skipDead
  dsimp only
  rw [hw_addCnt64_off hb (by omega), hw_addCnt64_off hb (by omega), hw_setSes]

/-- A reply leaves every register outside the command ledger alone. -/
theorem hw_answer_off {n op st b : Nat} {l : List Byte} (hb : offLedger b) (s : State) : hw (answer n op st l s) b = hw s b := by
  unfold answer
  dsimp only
  rw [hw_skipDead_off hb, hw_countCmd_off hb, hw_setSes]

@[simp] theorem ses_skipDead_same (n : Nat) (s : State) :
    ses (skipDead n s) n = { ses s n with packets := (skipPkts (ses s n).packets).1 } := by
  simp [skipDead]

theorem ses_skipDead_ne {n m : Nat} (h : m ≠ n) (s : State) : ses (skipDead n s) m = ses s m := by
  simp [skipDead, h]

/-- A reply leaves every other session alone. -/
theorem ses_answer_ne {n m op st : Nat} {l : List Byte} (h : m ≠ n) (s : State) : ses (answer n op st l s) m = ses s m := by
  unfold answer
  dsimp only
  rw [ses_skipDead_ne h, ses_countCmd, ses_setSes_ne _ h]

/-- What a reply leaves of the session: its packets and loose entries, its wait; everything else stays. -/
theorem ses_answer_same (n op st : Nat) (l : List Byte) (s : State) :
    ses (answer n op st l s) n = { ses s n with
      packets := (ses (answer n op st l s) n).packets, loose := (ses (answer n op st l s) n).loose, wait := none } := by
  unfold answer
  dsimp only
  split <;> simp

/-- A reply puts the entry in its place (R376, R378), whatever the command did to other fields of the session before. -/
theorem answer_replied {n op st : Nat} {l : List Byte} {s u : State} (hp : (ses u n).packets = (ses s n).packets)
    (hl : (ses u n).loose = (ses s n).loose) : Replied n op st l s (answer n op st l u) := by
  unfold Replied answer
  dsimp only
  rw [← hp, ← hl]
  cases hh : headPkt (ses u n).packets <;> simp

/-- A reply by itself changes the session and the ledger alone. -/
theorem answer_onlyReplies (n op st : Nat) (l : List Byte) (s : State) : OnlyReplies n s (answer n op st l s) := by
  refine ⟨?_, fun m h => ses_answer_ne h s, fun a h => hw_answer_off h s⟩
  apply State.ext <;> try simp
  · apply Regs.ext <;> simp
  · apply SlcSt.ext <;> simp

/-! ### Running a command -/

/-- A host command at its turn does what it does, and the queue and the boot stage stay. -/
theorem run_of_live {f : State → State} {s : State} (h : s.boot ≠ .held) :
    run f s = .next { f s with pending := s.pending, boot := s.boot } := by simp [run, h]

theorem hostCmd_at_turn {s : State} {n op len : Nat} {boot : Bool} {body : State → State} (h : HostTurn s n op len boot) :
    hostCmd n op boot true len body s = body s := by
  obtain ⟨-, ht, hf, hb⟩ := h
  unfold hostCmd
  rw [if_pos ht]
  simp only [hf, Bool.and_self, if_true]
  rw [if_neg]
  rintro ⟨h1, h2⟩
  exact h2 (hb h1)

theorem raised_raise {a e : Nat} (s : State) (h : e < 24) : Raised a e s (raise a e s) := by
  refine ⟨by rw [hw_raise_same]; exact bit_afterEvent s a h, ?_⟩
  rw [hw_raise_same]
  unfold afterEvent
  have hq : (fld (hw s a) 24 8 + 1) % 256 < 256 := Nat.mod_lt _ (by decide)
  generalize (fld (hw s a) 24 8 + 1) % 256 = q at hq
  have hx : setBit (fld (hw s a) 0 24 ||| (if 256 ≤ smGet 0 a s.regs.laps + 1 then 0x800000 else 0)) e < 2 ^ 24 := by
    unfold setBit
    apply Nat.or_lt_two_pow
    · apply Nat.or_lt_two_pow
      · exact Nat.mod_lt _ (by decide)
      · split <;> decide
    · rw [Nat.one_shiftLeft]; exact Nat.pow_lt_pow_right (by decide) h
  generalize setBit _ e = x at hx
  unfold fld wd
  rw [BitVec.toNat_ofNat, Nat.shiftRight_eq_div_pow]
  omega

end Sys2Proof.Machine
end

