-- ==== Sys2Proof/Tests/Slice0.lean ====
section
/-!
SUPPORT. Tests: ill-formed terms are refused, values from outside the model, one step of each family, and for every
statement a state and operands that meet the premises of each of its clauses.
-/

set_option Elab.async false

namespace Sys2Proof.Tests
open Sys2Proof Sys2Proof.Machine

/-- A device that runs: boot is over, the clocks run, both ports are up, sessions 1 and 2 are open and 1 has the lease. -/
def up : State :=
  { State.reset with
    boot := .up
    pins := { ready := true }
    clk := { pll := [(0, .inUse), (1, .inUse), (2, .inUse), (3, .standbyReady), (4, .inUse), (5, .inUse), (6, .inUse)],
             coreSrc := .pll, refS := true, refC := true, refSFine := true, trimmed := true, stopped := false,
             loss := false }
    tb := { state := .freerun, acc := 2 ^ 80 }
    slc := { sessions := [(1, { kind := .active }), (2, { kind := .active })], lease := some 1 }
    ports := [(0, { up := true }), (1, { up := true })]
    sec := { rngOk := true, lmsEpoch := some 0, lmsLeft := 8 } }

/-- The same with nobody holding the lease. -/
def free : State := { up with slc := { up.slc with lease := none } }

/-- An active image with the given words. -/
def conf (l : SMap Word) (s : State) : State := { s with regs := { s.regs with active := l } }

/-- Hardware words as they stand. -/
def stat (l : SMap Word) (s : State) : State := { s with regs := { s.regs with hw := l } }

/-- A DRAM channel with one rank that is in service. -/
def bank1 : DChan := { code := 1, ranks := 1 }

/-- The device with its DRAM in service: channels 0 to 3, channel 4 the spare. -/
def memory : State :=
  { up with dram := { chans := [(0, bank1), (1, bank1), (2, bank1), (3, bank1), (4, { code := 2, ranks := 1 })], nActive := 4,
                      spare := 4, chmap := [0, 1, 2, 3] } }

/-- The same with channel 0 changed. -/
def chan0 (x : DChan) : State :=
  { memory with dram := { memory.dram with chans := (0, x) :: memory.dram.chans.drop 1 } }

/-- An identity record of zeros with its check word, CRC-32C of its first 36 bytes (R72). -/
def idBytes : SMap Byte :=
  (List.range 0x40).map fun a => (a, if a < 0x24 ∨ 0x28 ≤ a then 0 else BitVec.ofNat 8 (0xFA2626D2 >>> (8 * (a - 0x24))))

/-- The base point of P-384 (FIPS 186-4), uncompressed. -/
def point : List Byte :=
  [0x04,
   0xAA, 0x87, 0xCA, 0x22, 0xBE, 0x8B, 0x05, 0x37, 0x8E, 0xB1, 0xC7, 0x1E, 0xF3, 0x20, 0xAD, 0x74,
   0x6E, 0x1D, 0x3B, 0x62, 0x8B, 0xA7, 0x9B, 0x98, 0x59, 0xF7, 0x41, 0xE0, 0x82, 0x54, 0x2A, 0x38,
   0x55, 0x02, 0xF2, 0x5D, 0xBF, 0x55, 0x29, 0x6C, 0x3A, 0x54, 0x5E, 0x38, 0x72, 0x76, 0x0A, 0xB7,
   0x36, 0x17, 0xDE, 0x4A, 0x96, 0x26, 0x2C, 0x6F, 0x5D, 0x9E, 0x98, 0xBF, 0x92, 0x92, 0xDC, 0x29,
   0xF8, 0xF4, 0x1D, 0xBD, 0x28, 0x9A, 0x14, 0x7C, 0xE9, 0xDA, 0x31, 0x13, 0xB5, 0xF0, 0xB8, 0xC0,
   0x0A, 0x60, 0xB1, 0xCE, 0x1D, 0x7E, 0x81, 0x9D, 0x7A, 0x43, 0x1D, 0x7C, 0x90, 0xEA, 0x0E, 0x5F]

/-- An HSS public key of one level with the smallest tree (R426, RFC 8554). -/
def hssKey : List Byte := [0, 0, 0, 1, 0, 0, 0, 5, 0, 0, 0, 1] ++ zeros 48

theorem word_succ (w : Word) : w ≠ w + 1 := by
  intro h
  bv_omega

/-- Stream 0 with entry word `t` and one record waiting for a raw-Ethernet destination. -/
def route (t : Word) : State :=
  conf [(0xB4000, t)] { up with spt := { streams := [(0, { queue := [.data { dest := [2] }] })] } }

/-- A good frame of 64 bytes that is none of Sluice, PTP or PFC. -/
def rx : RxFrame :=
  { kind := .other, len := 64, toMe := true, badFcs := false, fragment := false, badSum := false, tags := 0, vid := 0,
    pcp := 0,
    peer := { rawEth := false, linkLocal := false, toMine := true, udpPort := 29460, addr := 0, srcPort := 0 },
    nextHop := 0, mac := 0, bytes := [], pause := [] }

/-- A sample of tap 0 with no channel. -/
def tapSample : TapSample := { tap := 0, index := 0, slot := 0, pair := false, attr := {}, values := [] }


/-! ### Well-formedness: a term that breaks each check is refused, and its neighbour within the range is not -/

/-- Sessions are numbered 1 to 64 (R375). -/
theorem test_wf_session :
    (Instr.sluiceReply 0).wf = false ∧ (Instr.sluiceReply 65).wf = false ∧ (Instr.sluiceReply 64).wf = true := by decide

/-- IDENTITY_GET also answers session 0 (R379). -/
theorem test_wf_identity : (Instr.identityGet 65).wf = false ∧ (Instr.identityGet 0).wf = true := by decide

/-- Fields of 16, 32 and 64 bits. -/
theorem test_wf_fields :
    (Instr.leaseHandover 1 65536).wf = false ∧ (Instr.regRead 1 4294967296 false).wf = false ∧
    (Instr.segPin 1 (2 ^ 64)).wf = false ∧ (Instr.regReadBlock 1 0 65536 false).wf = false ∧
    (Instr.ledgerRead 1 0 4294967296 1).wf = false ∧ (Instr.segPin 1 (2 ^ 64 - 1)).wf = true := by decide

/-- A block write holds at most 65,535 values. -/
theorem test_wf_block : (Instr.regWriteBlock 1 0 (List.replicate 65536 0)).wf = false := by decide +kernel

/-- A mailbox write lies within one command of 65,535 bytes. -/
theorem test_wf_mailbox :
    (Instr.mboxWrite 1 256 0 []).wf = false ∧ (Instr.mboxRead 1 24 65536 8).wf = false ∧
    (Instr.mboxWrite 1 24 0 (List.replicate 65532 0)).wf = false := by decide +kernel

/-- Streams are numbered 0 to 4095 (R348). -/
theorem test_wf_stream : (Instr.recordCreate 4096).wf = false ∧ (Instr.recordCreate 4095).wf = true := by decide

/-- Stamps have 48 bits of seconds (R104). -/
theorem test_wf_stamp :
    (Instr.arm 1 0 (some (2 ^ 48 * 65536000000000))).wf = false ∧
      (Instr.timeSet 1 (2 ^ 48 * 65536000000000) false).wf = false ∧
    (Instr.commit 1 0 false (some (2 ^ 48 * 65536000000000)) 0).wf = false ∧ (Instr.arm 1 0 none).wf = true := by decide

/-- Coarse counts have 48 bits, and a line has 768 taps (R150). -/
theorem test_wf_coarse :
    (Instr.ppsInEdge (2 ^ 48) 0).wf = false ∧ (Instr.ppsInEdge 0 768).wf = false ∧
      (Instr.tiuEdgeStamp 0 (2 ^ 48) 0 true).wf = false ∧
    (Instr.tiuEdgeStamp 0 0 768 true).wf = false ∧ (Instr.tiuEdgeStamp 0 0 767 true).wf = true := by decide

/-- There are eight lane trigger units and 16,384 watches (R2). -/
theorem test_wf_unit :
    (Instr.holdoffExpiry (.unit 8)).wf = false ∧ (Instr.postWindowEnd (.watch 16384)).wf = false ∧
    (Instr.allocationAnswer (.watch 16383)).wf = true := by decide

/-- Nine channels are trained, and nine rails are watched. -/
theorem test_wf_boot :
    (Instr.trainingComplete (List.replicate 10 { ranks := 0, x8 := false, gb16 := false, rdimm := false, passed := false })).wf = false ∧
    (Instr.windowClose (List.replicate 10 []) 0).wf = false ∧
      (Instr.windowClose (List.replicate 9 []) 0).wf = true := by decide

/-- Eight positions in a check, nine slices in a window,
  18 evaluation lanes of a fibre port; 64 rows of eight 16-bit sums in
a notice; 16 lanes of 14-bit samples. -/
theorem test_wf_converter :
    (Instr.iscBlockEnd 0 (List.replicate 9 { mean := 0, meanSq := 0 }) 0 none).wf = false ∧
    (Instr.fgWindowEnd 0 (List.replicate 10 { gainErr := 0, offset := 0, skew := 0, bist := true })).wf = false ∧
    (Instr.evalLaneCheck 0 18 true true).wf = false ∧
      (Instr.inputLedgerNotice 0 (List.replicate 65 (List.replicate 8 0))).wf = false ∧
    (Instr.inputLedgerNotice 0 [[0]]).wf = false ∧ (Instr.inputLedgerNotice 0 [List.replicate 8 32768]).wf = false ∧
    (Instr.laneTriggerCondition 0 [(16, 0)]).wf = false ∧ (Instr.laneTriggerCondition 0 [(15,
      8192)]).wf = false := by decide

/-- Basin has 65,536 rows and 4,096 spare rows (R178). -/
theorem test_wf_basin : (Instr.basinScrub 69632 .clean).wf = false ∧ (Instr.basinRowRetire 65536).wf = false := by decide

/-- Segment numbers start at 1 (R258). -/
theorem test_wf_segment : (Instr.segmentClose 0).wf = false := by decide

/-- At most two VLAN tags are told apart, with three bits of priority and 12 of identifier. -/
theorem test_wf_frame :
    (Instr.ethFrameRx 0 { rx with tags := 3 }).wf = false ∧ (Instr.ethFrameRx 0 { rx with pcp := 8 }).wf = false ∧
    (Instr.ethFrameRx 0 { rx with vid := 4096 }).wf = false ∧ (Instr.ethFrameRx 0 rx).wf = true := by decide

/-- A DRAM request is one aligned burst; 32 banks; 72 error bytes; a source channel of eight bits. -/
theorem test_wf_dram :
    (Instr.channelRequest 0 { write := false, addr := 32, data := [], mask := [], poison := false, who := 0 }).wf = false ∧
    (Instr.pageIdleClose 0 32).wf = false ∧ (Instr.patrolScrubRead 0 (List.replicate 73 0)).wf = false ∧
    (Instr.migrate 1 256).wf = false ∧ (Instr.rnlStart 1 256 0).wf = false := by decide

/-- Lengths of nonces and keys, slots and targets of eight bits. -/
theorem test_wf_security :
    (Instr.attest 1 (zeros 31)).wf = false ∧ (Instr.rootInstall 1 0 (zeros 96) (zeros 60)).wf = false ∧
    (Instr.rootInstall 1 0 (zeros 97) (zeros 59)).wf = false ∧ (Instr.rootInstall 1 256 (zeros 97) (zeros 60)).wf = false ∧
    (Instr.rootRevoke 1 256).wf = false ∧ (Instr.gmacKeySet 1 256 false (zeros 32)).wf = false ∧
    (Instr.gmacKeySet 1 0 false (zeros 31)).wf = false ∧ (Instr.lifecycleAdvance 1 256 0).wf = false ∧
    (Instr.dhcpRenewal 0 0 33 0).wf = false := by decide

/-- ECHO data has at most 8,192 bytes. -/
theorem test_wf_echo : (Instr.echo 1 (zeros 8193)).wf = false := by decide +kernel

/-! ### Arithmetic and codes against values from outside the model -/

/-- The check value of CRC-32C for the digits 1 to 9. -/
theorem test_crc : crc32c [0x31, 0x32, 0x33, 0x34, 0x35, 0x36, 0x37, 0x38, 0x39] = 0xE3069283 := by decide +kernel

/-- The digest of "abc" in FIPS 180-4. -/
theorem test_sha : ((sha384 [0x61, 0x62, 0x63]).take 8) = [0xCB, 0x00, 0x75, 0x3F, 0x45, 0xA3, 0x5E,
  0x8B] := by decide +kernel

/-- Rounding to nearest, ties to even. -/
theorem test_rounding : rhe 5 2 = 2 ∧ rhe 7 2 = 4 ∧ rhe (-5) 2 = -2 ∧ rhe (-7) 2 = -4 ∧ rhe 8 3 = 3 := by decide

/-- The two CODE examples under R419: a seal mismatch, and a FAILED converter. -/
theorem test_event_codes :
    (stsKind 0x2C).1 * 256 + (stsKind 0x2C).2.1 * 32 = 0x0020 ∧
      (stsKind 0x20040).1 * 256 + (stsKind 0x20040).2.1 * 32 + 1 = 0x0201 := by
  decide

/-- The time-quality byte of a FREERUN device: STATE 1, no BACKUP, EPOCH 0 (R106). -/
theorem test_tqb : tqb up = 1 := by decide +kernel

/-! ### One step each -/

/-- What a command comes to. -/
def after (c : Instr) (s : State) : State :=
  match step { s with pending := [c] } with
  | .next t => t
  | _ => s

/-- The status of the reply that session `n` got without a packet. -/
def status (n : Nat) (s : State) : List Nat := (ses s n).loose.map (·.status)

/-- The lease goes to the session that takes it while it is free (R387). -/
theorem test_lease_take : (after (.leaseTake 2) free).slc.lease = some 2 ∧
  status 2 (after (.leaseTake 2) up) = [8] := by decide +kernel

/-- A closed session gives its lease back and is free once its reply is out (R383). -/
theorem test_session_close :
    let t := after (.sluiceReply 1) (after (.sessionClose 1) up)
    t.slc.lease = none ∧ (ses t 1).kind = .free := by decide +kernel

/-- A write goes to the shadow copy alone; another session gets NOT_OWNER (R31, R387). -/
theorem test_reg_write :
    imageGet (after (.regWrite 1 0xB4000 9) up).regs.shadow 0xB4000 = 9 ∧
      (after (.regWrite 1 0xB4000 9) up).regs.active = [] ∧
    status 2 (after (.regWrite 2 0xB4000 9) up) = [4] := by decide +kernel

/-- A stale clear is refused (R34). -/
theorem test_sts_clear : status 1 (after (.stsClear 1 0xD0040 1 0xFFFFFF) up) = [2] ∧
    hw (after (.stsClear 1 0xD0040 5 1) (stat [(0xD0040, 0x05000001)] up)) 0xD0040 = 0x05000000 := by decide +kernel

/-- Every event moves SEQ on by one and sets its bit (R33). -/
theorem test_raise : hw (raise 0xD0040 10 (raise 0xD0040 10 up)) 0xD0040 = 0x02000400 := by decide +kernel

/-- RESET_N low holds the device, and its release starts boot (R72, R447). -/
theorem test_reset : (after .resetNAssert up).boot = .held ∧ (after .resetNAssert up).pins.ready = false ∧
    (after .resetRelease State.reset).boot = .booting := by decide +kernel

/-- An open window gathers its rails, and a rail above its warning threshold opens none (R76, R84). -/
theorem test_window : (after (.railJoinsWindow 8 [-2000]) (after (.windowOpen 0 [-2000]) (conf [(0xF0000,
  0x101)] up))).pwr.window = some 0x101 ∧
    (after (.windowOpen 0 [-100]) (conf [(0xF0000, 0x101)] up)).pwr.window = none := by decide +kernel

/-- A reading of 85 °C, 0x5500 in Q8.8, does not reset the device (R87). -/
theorem test_temperature : (after (.thermalReading 0 0x5500) up).boot = .up := by decide +kernel

/-- TIME_SET from UNSET goes to FREERUN (R109). -/
theorem test_time_set : (after (.timeSet 1 0 false) { up with tb := {} }).tb.state = .freerun := by decide +kernel

/-- A passing spare takes the position that it was calibrated for (R124). -/
theorem test_rotation :
    let t := after (.rotationPeriodEnd 0 { gainErr := 0, offset := 0, skew := 0, bist := true })
      { up with cnv := { convs := [(0, { on := true })] }, cnt := { smp := 32000 * 2 ^ 24 } }
    (conv t 0).pos.getD 0 9 = 8 ∧ (conv t 0).spare = some 0 := by decide +kernel

/-- A timed-out measurement is over (R159). -/
theorem test_timeout : (tiuCtx (after (.measurementTimeout 0)
    { up with
      tiu := { ctxs := [(0, { start := some { c := 0, f16 := 0, dly := 0, stamp := 0, tqb := 0, flags := 0 } })] },
      cnt := { coarse := 2 ^ 40 } }) 0).start = none := by
  decide +kernel

/-- Basin row retirement uses one spare row at a time (R178, R192). -/
theorem test_basin_row : (after (.basinRowRetire 3) { up with basin := { repair := [(3, 1)] } }).basin.used = 1 := by decide +kernel

/-- ALARM_ACK ends a latched alarm (R240). -/
theorem test_alarm_ack : (after (.alarmAck 1) { up with weir := { alarm := true } }).weir.alarm = false := by decide +kernel

/-- A pinned segment stays until it is unpinned (R258). -/
theorem test_seg_pin :
    let s := { up with cis := { segs := [{ id := 1, slot := 0, region := 0, watch := false, base := 0, len := 64, units := [] }] } }
    ((segOf (after (.segPin 1 1) s) 1).map (·.pinned)) = some true ∧
      status 1 (after (.segQuery 1 2) s) = [13] := by decide +kernel

/-- A halt of all streams, then the resumption of one (R359). -/
theorem test_halt : streamHalted (after (.haltStreams 1) up) 7 = true ∧
    streamHalted (after (.streamResume 1 7) (after (.haltStreams 1) up)) 7 = false ∧
    streamHalted (after (.streamResume 1 7) (after (.haltStreams 1) up)) 8 = true := by decide +kernel

/-- HALT_N low halts every stream (R359). -/
theorem test_halt_pin : (after .haltNFall up).pins.haltN = false ∧
  streamHalted (after .haltNFall up) 0 = true := by decide +kernel

/-- A link that fails and clears (R338). -/
theorem test_link : (port (after (.linkFault 0) up) 0).fault = true ∧
  (port (after (.faultClear 0) (after (.linkFault 0) up)) 0).fault = false := by
  decide +kernel

/-- A whole burst is stored at its address, and nothing beside it (R285). -/
theorem test_burst_write :
    let x := putBurst 1 (List.replicate 64 7) (List.replicate 64 true) false {}
    smGet 0 63 x.cells = 0 ∧ smGet 0 64 x.cells = 7 ∧ smGet 0 127 x.cells = 7 ∧ smGet 0 128 x.cells = 0 := by decide +kernel

/-- A write of a part is a read-modify-write, and keeps stored poison (R285, R308). -/
theorem test_burst_mask :
    let x := putBurst 0 (List.replicate 64 7) (true :: List.replicate 63 false) false { cells := [(1, 5)], poisoned := [0] }
    x.cells = [(0, 7), (1, 5)] ∧ x.poisoned = [0] := by decide +kernel

/-- A mailbox write lands in the window of its channel (R328). -/
theorem test_mailbox : (after (.mboxWrite 1 25 8 [1, 0, 3, 0, 0, 0, 0, 0]) up).rnl.mbox = [(0x10008, 1), (0x1000A,
  3)] := by decide +kernel

/-- Runnel channel numbers 24 to 31 are the host's (R328). -/
theorem test_runnel_start :
    (rch (after (.rnlStart 1 24 0x8008000000) up) 24).state ≠ .idle ∧
      status 1 (after (.rnlStart 1 23 0) up) ≠ [0] := by decide +kernel

/-- Tokens of ATTEST refill one at a time up to 16 (R432). -/
theorem test_tokens : (after .attestTokenRefill up).sec.tokens = 16 ∧
    (after .attestTokenRefill { up with sec := { up.sec with tokens := 3 } }).sec.tokens = 4 := by decide +kernel

/-- A wrong confirmation word changes nothing of the life cycle (R442). -/
theorem test_lifecycle : lifecycle (after (.lifecycleAdvance 1 1 0) up) = 1 ∧
  (after (.lifecycleAdvance 1 1 0) up).sec.otpQueue = [] := by
  decide +kernel

/-- An empty queue lets one tick of the TIU clock pass (log entry 2). -/
theorem test_idle : (match step up with | .next t => t.cnt.ticks | _ => 0) = 1 := by decide +kernel

/-! ### The premises of the statements are met -/

/-- The premises of each clause of StepRunsFront are met by some state and operands. -/
theorem witness_StepRunsFront :
    (∃ s : State, ∃ c : Instr, ∃ cs : List Instr, s.pending = c :: cs) ∧
    (∃ s : State, s.pending = []) ∧
    (∃ s : State, s.pending = [] ∧ s.boot = .held) :=
  ⟨⟨{ up with pending := [.ready] }, .ready, [], rfl⟩,
   ⟨up, rfl⟩,
   ⟨State.reset, ⟨rfl, rfl⟩⟩⟩

/-- The premises of each clause of HeldDeviceIgnores are met by some state and operands. -/
theorem witness_HeldDeviceIgnores :
    (∃ c : Instr, ∃ s : State, s.boot = .held ∧ c ≠ .resetRelease ∧ c ≠ .resetNAssert ∧ (∀ rails,
      c ≠ .resetMonitorTrip rails) ∧ (∀ k v, c ≠ .thermalReading k v)) ∧
    (∃ s : State, s.boot = .held) ∧
    (∃ s : State, s.boot = .held) :=
  ⟨⟨.ready, State.reset, ⟨by decide +kernel, by decide +kernel, by decide +kernel, (fun r h => by cases h),
    fun k v h => by cases h⟩⟩,
   ⟨State.reset, rfl⟩,
   ⟨State.reset, rfl⟩⟩

/-- The premises of each clause of BootStageMoves are met by some state and operands. -/
theorem witness_BootStageMoves :
    ∃ c : Instr, ∃ s t : State, exec c s = .next t ∧ t.boot ≠ s.boot :=
  ⟨.resetNAssert, up, _, ⟨rfl, by decide +kernel⟩⟩

/-- The premises of each clause of ResetCleanKept are met by some state and operands. -/
theorem witness_ResetCleanKept :
    ∃ s t : State, ResetClean s ∧ step s = .next t :=
  ⟨{ State.reset with pending := [.ready] }, _, ⟨by decide +kernel, rfl⟩⟩

/-- The premises of each clause of CanonicalMemoryKept are met by some state and operands. -/
theorem witness_CanonicalMemoryKept :
    ∃ s t : State, Memory.wf s = true ∧ step s = .next t :=
  ⟨{ up with rnl := { mbox := [(0, 1)] }, pending := [.ready] }, _, ⟨by decide +kernel, rfl⟩⟩

/-- The premises of each clause of ResetsWipe are met by some state and operands. -/
theorem witness_ResetsWipe :
    (∃ s : State, s.boot ≠ .held) ∧
    (∃ s : State, s.boot ≠ .held ∧ tooHot s = false) ∧
    (∃ s : State, s.boot ≠ .held ∧ tooHot s = true) ∧
    (∃ s : State, ∃ rails : BitVec 9, s.boot ≠ .held ∧ rails ≠ 0 ∧ rails.getLsbD 7 = false) ∧
    (∃ rails : BitVec 9, rails.getLsbD 7 = true) ∧
    (∃ s : State, ∃ w : BitVec 9, s.boot ≠ .held ∧ s.pwr.window = some w) :=
  ⟨⟨up, by decide +kernel⟩,
   ⟨up, by decide +kernel⟩,
   ⟨{ up with pwr := { hotSince := [(0, 0)] }, cnt := { ticks := 500000 } }, by decide +kernel⟩,
   ⟨up, 1, by decide +kernel⟩,
   ⟨0x80, by decide +kernel⟩,
   ⟨{ up with pwr := { window := some 1 } }, 1, by decide +kernel⟩⟩

/-- The premises of each clause of BootProceeds are met by some state and operands. -/
theorem witness_BootProceeds :
    (∃ s : State, s.boot = .held ∧ s.pwr.cause = 3 ∧ s.pwr.over100 ≠ 0) ∧
    (∃ s : State, s.boot = .held ∧ (s.pwr.cause = 3 → s.pwr.over100 = 0)) ∧
    (∃ s : State, ∃ r : TrainResult, s.boot = .booting ∧ (∀ p ∈ [4, 5, 6], pll s p = .inUse) ∧ 0 < r.ranks ∧
      r.passed = true ∧ (∀ c < 9, wearRetires s c = false) ∧ (otpByte s 0x28).toNat % 16 = 0) ∧
    (∃ s : State, s.boot = .trained) ∧
    (∃ s : State, readyOk s = true) ∧
    (∃ s : State, ∃ o : List (Nat × Byte), ∃ rest : List (List (Nat × Byte)), s.boot ≠ .held ∧ otpHeld s = false ∧
      s.sec.otpQueue = o :: rest ∧ s.slc.dropping = false) :=
  ⟨⟨{ State.reset with pwr := { cause := 3, over100 := 1 } }, by decide +kernel⟩,
   ⟨State.reset, by decide +kernel⟩,
   ⟨{ up with boot := .booting, sec := { up.sec with otp := idBytes } },
     { ranks := 1, x8 := true, gb16 := false, rdimm := false, passed := true }, by decide +kernel⟩,
   ⟨{ up with boot := .trained }, by decide +kernel⟩,
   ⟨{ memory with boot := .filled, sec := { memory.sec with otp := idBytes } }, by decide +kernel⟩,
   ⟨{ up with sec := { up.sec with otpQueue := [[(0x44, 1)]] } }, [(0x44, 1)], [], by decide +kernel⟩⟩

/-- The premises of each clause of Dram are met by some state and operands. -/
theorem witness_Dram :
    (∃ s : State, ∃ c : Fin 9, ∃ q : DramReq, s.boot ≠ .held ∧ (dch s c).banks = [] ∧ (dch s c).held = [] ∧
      mayIssue s c = true ∧ (dch s c).replayTill ≤ s.cnt.ticks ∧ q.addr < chanBytes (dch s c) ∧ q.write = false ∧
      q.err = []) ∧
    (∃ s : State, ∃ c : Fin 9, ∃ q : DramReq, ∃ i : Nat, ∃ l : List Nat, s.boot ≠ .held ∧ (dch s c).banks = [] ∧
      (dch s c).held = [] ∧ mayIssue s c = true ∧ (dch s c).replayTill ≤ s.cnt.ticks ∧ q.addr < chanBytes (dch s c) ∧
      q.write = false ∧ burstBad s c (q.addr / 64) = false ∧ q.err ≠ [] ∧
      rsDecode (dch s c).x8 ((padTo 72 (q.err.take 72)).map (·.toNat)) = some (some i, l) ∧ (∀ v ∈ l, v = 0)) ∧
    (∃ s : State, ∃ c : Fin 9, ∃ q : DramReq, s.boot ≠ .held ∧ (dch s c).banks = [] ∧ (dch s c).held = [] ∧
      mayIssue s c = true ∧ (dch s c).replayTill ≤ s.cnt.ticks ∧ q.addr < chanBytes (dch s c) ∧ q.write = false) ∧
    (∃ s : State, ∃ c : Fin 9, ∃ q : DramReq, s.boot ≠ .held ∧ (dch s c).banks = [] ∧ (dch s c).held = [] ∧
      mayIssue s c = true ∧ (dch s c).replayTill ≤ s.cnt.ticks ∧ q.addr < chanBytes (dch s c) ∧ q.write = true ∧
      q.err = [] ∧ (dch s c).code ≠ 5 ∧ s.dram.phase = 0) ∧
    (∃ s : State, ∃ c : Fin 9, ∃ q : DramReq, chanBytes (dch s c) ≤ q.addr) ∧
    (∃ s : State, ∃ c : Fin 9, ∃ b tk : Nat, ∃ q : DQ, ∃ rest : List DCmd, s.boot ≠ .held ∧ (dch s c).alerted = false ∧
      (dch s c).code ≠ 4 ∧ (dch s c).retry = .column b q tk :: rest ∧ q.write = true ∧ tk + alertWin s c ≤ s.cnt.ticks ∧
      (dch s c).replayTill ≤ s.cnt.ticks ∧
      (s.dram.source = c.val → s.dram.phase = 2 ∨ s.dram.phase = 3 → (dch s s.dram.target).alerted = false ∧
      (dch s s.dram.target).replayTill ≤ s.cnt.ticks)) ∧
    (∃ s : State, ∃ c : Fin 9, ∃ b tk : Nat, ∃ q : DQ, ∃ rest : List DCmd, s.boot ≠ .held ∧ (dch s c).alerted = false ∧
      (dch s c).code ≠ 4 ∧ (dch s c).retry = .column b q tk :: rest ∧ q.write = true ∧
      (s.cnt.ticks < tk + alertWin s c ∨ s.cnt.ticks < (dch s c).replayTill)) ∧
    (∃ s : State, ∃ c : Fin 9, s.boot ≠ .held ∧ (dch s c).trefwAt ≤ s.cnt.ticks) ∧
    (∃ s : State, ∃ c : Fin 9, ∃ r : Fin 2, s.boot ≠ .held ∧ r.val < (dch s c).ranks ∧ (dch s c).selfRef = false ∧
      (rankSt (dch s c) r).refAt ≤ s.cnt.ticks ∧ refreshReady s c = true ∧ rankQueue (dch s c) r = []) ∧
    (∃ s : State, ∃ c : Fin 9, ∃ r : Fin 2, s.boot ≠ .held ∧ r.val < (dch s c).ranks ∧ (dch s c).selfRef = false ∧
      (rankSt (dch s c) r).refAt ≤ s.cnt.ticks ∧ refreshReady s c = false) ∧
    (∃ s : State, ∃ c : Fin 9, ∃ r : Fin 2, s.boot ≠ .held ∧ rankQueue (dch s c) r = [] ∧ refreshReady s c = true ∧
      (dch s c).retry.length + (rankSt (dch s c) r).due ≤ 64) ∧
    (∃ s : State, ∃ c : Fin 9, ∃ r : Fin 2, s.boot ≠ .held ∧ rankQueue (dch s c) r ≠ []) ∧
    (∃ s : State, ∃ c : Fin 9, ∃ r : Fin 2, s.boot ≠ .held ∧ r.val < (dch s c).ranks ∧
      (rankSt (dch s c) r).mprAt ≤ s.cnt.ticks) ∧
    (∃ s : State, ∃ c : Fin 9, ∃ r : Fin 2, s.boot ≠ .held ∧ r.val < (dch s c).ranks ∧ rankQueue (dch s c) r = [] ∧
      (rankSt (dch s c) r).cmdAt + ctrlTicks s (Nat.max 8 (cfgF s (memA c 4) 16 8)) ≤ s.cnt.ticks) ∧
    (∃ s : State, ∃ c : Fin 9, ∃ b : Nat, s.boot ≠ .held ∧
      (bankSt (dch s c) b).colAt + ctrlTicks s (Nat.max 16 (cfgF s (memA c 4) 0 10)) ≤ s.cnt.ticks) ∧
    (∃ s : State, ∃ c : Fin 9, s.boot ≠ .held ∧ (dch s c).selfRef = false ∧ (dch s c).zqcsAt ≤ s.cnt.ticks) ∧
    (∃ s : State, ∃ c : Fin 9, s.boot ≠ .held ∧ (dch s c).selfRef = true ∧ pll s (4 + c.val / 3) = .inUse ∧
      (dch s c).wakeAt ≤ s.cnt.ticks) ∧
    (∃ s : State, ∃ c : Fin 9, s.boot ≠ .held ∧ (dch s c).selfRef = false) ∧
    (∃ s : State, ∃ c : Fin 9, s.boot ≠ .held ∧ (dch s c).code = 1 ∨ (dch s c).code = 2 ∧ cfgF s (memA c 8) 0 16 ≠ 0 ∧
      queued (dch s c) = [] ∧ (dch s c).held = [] ∧ (dch s c).usedAt + 500 * cfgF s (memA c 8) 0 16 ≤ s.cnt.ticks) ∧
    (∃ s : State, ∃ c : Fin 9, s.boot ≠ .held ∧ ((dch s c).code = 1 ∨ (dch s c).code = 2) ∧
      pll s (4 + c.val / 3) = .inUse ∧ (dch s c).alerted = false ∧ (dch s c).selfRef = false ∧ 0 < (dch s c).ranks ∧
      (dch s c).banks = [] ∧ (dch s c).held = [] ∧ (dch s c).scrubAt ≤ s.cnt.ticks ∧ burstBad s c (dch s c).sweep = false) ∧
    (∃ s : State, ∃ c : Fin 9, s.boot ≠ .held ∧ ((dch s c).code = 1 ∨ (dch s c).code = 2) ∧ (dch s c).alerted = false ∧
      (dch s c).replayTill ≤ s.cnt.ticks) ∧
    (∃ s : State, ∃ c : Fin 9, s.boot ≠ .held ∧ ((dch s c).code = 1 ∨ (dch s c).code = 2) ∧ (dch s c).alerted = false ∧
      s.cnt.ticks < (dch s c).replayTill ∧ (dch s c).fails ≠ 3) ∧
    (∃ s : State, ∃ c : Fin 9, s.boot ≠ .held ∧ ((dch s c).code = 1 ∨ (dch s c).code = 2) ∧ (dch s c).alerted = false ∧
      s.cnt.ticks < (dch s c).replayTill ∧ (dch s c).fails = 3 ∧ s.dram.phase = 0) ∧
    (∃ s : State, ∃ c : Fin 9, s.boot ≠ .held ∧ (dch s c).alerted = true) ∧
    (∃ s : State, ∃ c : Fin 9, s.boot ≠ .held ∧ (dch s c).alerted = false) :=
  ⟨⟨memory, 3, { write := false, addr := 2 ^ 34 - 64, data := [], mask := [], poison := false, who := 0 },
    by decide +kernel⟩,
   ⟨memory, 3, { write := false, addr := 2 ^ 34 - 64, data := [], mask := [], poison := false, who := 0, err := [1] },
     0, List.replicate 72 0, by decide +kernel⟩,
   ⟨memory, 3, { write := false, addr := 2 ^ 34 - 64, data := [], mask := [], poison := false, who := 0 },
     by decide +kernel⟩,
   ⟨memory, 0, { write := true, addr := 0, data := [], mask := [], poison := false, who := 0 }, by decide +kernel⟩,
   ⟨memory, 0, { write := false, addr := 2 ^ 34, data := [], mask := [], poison := false, who := 0 }, by decide +kernel⟩,
   ⟨{ chan0 { bank1 with retry := [.column 0 { write := true, burst := 0, data := [], mask := [], poison := false, who := 0, order := 0 } 0] } with cnt := { ticks := 10 ^ 15 } }, 0, 0, 0, { write := true, burst := 0, data := [], mask := [], poison := false, who := 0, order := 0 }, [], by decide +kernel⟩,
   ⟨chan0 { bank1 with retry := [.column 0 { write := true, burst := 0, data := [], mask := [], poison := false, who := 0, order := 0 } 0] }, 0, 0, 0, { write := true, burst := 0, data := [], mask := [], poison := false, who := 0, order := 0 }, [], by decide +kernel⟩,
   ⟨memory, 0, by decide +kernel⟩,
   ⟨memory, 0, 0, by decide +kernel⟩,
   ⟨chan0 { bank1 with alerted := true }, 0, 0, by decide +kernel⟩,
   ⟨chan0 { bank1 with rankSt := [(0, { due := 64 })] }, 0, 0, by decide +kernel⟩,
   ⟨chan0 { bank1 with banks := [(0, { queue := [{ write := true, burst := 0, data := [], mask := [], poison := false, who := 0, order := 0 }] })] }, 0, 0, by decide +kernel⟩,
   ⟨memory, 0, 0, by decide +kernel⟩,
   ⟨{ memory with cnt := { ticks := 10 ^ 15 } }, 0, 0, by decide +kernel⟩,
   ⟨{ memory with cnt := { ticks := 10 ^ 15 } }, 0, 31, by decide +kernel⟩,
   ⟨memory, 8, by decide +kernel⟩,
   ⟨chan0 { bank1 with selfRef := true }, 0, by decide +kernel⟩,
   ⟨memory, 8, by decide +kernel⟩,
   ⟨{ conf [(0x80008, 1)] memory with cnt := { ticks := 500 } }, 0, by decide +kernel⟩,
   ⟨memory, 0, by decide +kernel⟩,
   ⟨memory, 4, by decide +kernel⟩,
   ⟨chan0 { bank1 with replayTill := 1 }, 0, by decide +kernel⟩,
   ⟨chan0 { bank1 with replayTill := 1, fails := 3 }, 0, by decide +kernel⟩,
   ⟨chan0 { bank1 with alerted := true }, 0, by decide +kernel⟩,
   ⟨memory, 0, by decide +kernel⟩⟩

/-- The premises of each clause of Retraining are met by some state and operands. -/
theorem witness_Retraining :
    (∃ s : State, ∃ c : Fin 9, s.boot ≠ .held ∧ (dch s c).code = 7 ∧ s.regs.cmdQueued = [] ∧ s.dram.phase = 0) ∧
    (∃ s : State, ∃ c : Fin 9, s.boot ≠ .held ∧ (dch s c).code = 7 ∧ s.regs.cmdQueued = [] ∧ s.dram.phase = 0 ∧
      (dch s c).relock = false) ∧
    (∃ s : State, ∃ c : Fin 9, (dch s c).code ≠ 7 ∧ (dch s c).code ≠ 4) ∧
    (∃ s : State, ∃ n c : Nat, HostTurn s n 0x0801 0 false ∧ s.slc.lease = some n ∧ spareReady s = true ∧
      c ∈ s.dram.chmap.take s.dram.nActive ∧ (dch s c).code = 1) ∧
    (∃ s : State, ∃ n c : Nat, HostTurn s n 0x0801 0 false ∧ s.slc.lease = some n ∧
      (spareReady s = false ∨ c ∉ s.dram.chmap.take s.dram.nActive)) ∧
    (∃ s : State, ∃ n : Nat, HostTurn s n 0x0801 0 false ∧ s.slc.lease ≠ some n) ∧
    (∃ s : State, s.boot ≠ .held ∧ s.dram.phase = 3 ∧ (s.dram.source) ≠ (s.dram.target) ∧ (∀ k,
      k = (s.dram.source) ∨ k = (s.dram.target) → (dch s k).alerted = false ∧ (dch s k).replayTill ≤ s.cnt.ticks ∧
      ((dch s k).code = 1 ∨ (dch s k).code = 2) ∧ (dch s k).retry = [])) ∧
    (∃ s : State, s.dram.phase ≠ 3) :=
  ⟨⟨chan0 { bank1 with code := 7 }, 0, by decide +kernel⟩,
   ⟨chan0 { bank1 with code := 7 }, 0, by decide +kernel⟩,
   ⟨memory, 8, by decide +kernel⟩,
   ⟨memory, 1, 3, by decide +kernel⟩,
   ⟨memory, 1, 4, by decide +kernel⟩,
   ⟨memory, 2, by decide +kernel⟩,
   ⟨{ memory with dram := { memory.dram with phase := 3, source := 0, target := 4 } }, ⟨by decide +kernel,
     by decide +kernel, by decide +kernel, by rintro k (rfl | rfl) <;> decide +kernel⟩⟩,
   ⟨memory, by decide +kernel⟩⟩

/-- The premises of each clause of RunnelChannels are met by some state and operands. -/
theorem witness_RunnelChannels :
    (∃ s : State, ∃ c : Fin 32, s.boot ≠ .held ∧ (rch s c).state = .fetch ∧ (rch s c).stop = false ∧
      (2 ^ 39 ≤ (rch s c).cur ∨ dramUp s (rch s c).cur 32 = true) ∧ (descFetch c (rch s c).cur s).2.1 = 0) ∧
    (∃ s : State, ∃ c : Fin 32, s.boot ≠ .held ∧ (rch s c).state = .fetch ∧ (rch s c).stop = false ∧
      (2 ^ 39 ≤ (rch s c).cur ∨ dramUp s (rch s c).cur 32 = true) ∧ (descFetch c (rch s c).cur s).2.1 ≠ 0) ∧
    (∃ s : State, ∃ c : Fin 32, (rch s c).state ≠ .fetch ∨ (rch s c).stop = true) ∧
    (∃ s : State, rnlGrant s = none) ∧
    (∃ s : State, ∃ c : Nat, ∃ b : Bool, s.boot ≠ .held ∧ rnlGrant s = some (c, b)) ∧
    (∃ s : State, ∃ c : Fin 32, s.boot ≠ .held ∧ (rch s c).state = .moving ∧ (rch s c).len ≤ (rch s c).moved) ∧
    (∃ s : State, ∃ c : Fin 32, s.boot ≠ .held ∧ waitsFifo s c = true ∧ fifoWaited s c = true) ∧
    (∃ s : State, ∃ c : Fin 32, (waitsFifo s c = false ∨ fifoWaited s c = false)) ∧
    (∃ s : State, ∃ c : Fin 32, s.boot ≠ .held ∧ (rch s c).stop = true ∧
      (rch s c).state = .moving ∨ (rch s c).state = .fetch) ∧
    (∃ s : State, ∃ c : Fin 32, (rch s c).stop = false) :=
  ⟨⟨{ up with rnl := { chans := [(24, { state := .fetch, cur := 0x8008000000 })] } }, 24, by decide +kernel⟩,
   ⟨{ up with rnl := { chans := [(24, { state := .fetch, cur := 0x8008000001 })] } }, 24, by decide +kernel⟩,
   ⟨{ up with rnl := { chans := [(24, { state := .fetch, stop := true })] } }, 24, by decide +kernel⟩,
   ⟨up, by decide +kernel⟩,
   ⟨{ up with rnl := { chans := [(24, { state := .moving, src := 0x8008000000, dst := 0x8008000100, len := 8 })] } },
     24, false, by decide +kernel⟩,
   ⟨{ up with rnl := { chans := [(24, { state := .moving, len := 8, moved := 8 })] } }, 24, by decide +kernel⟩,
   ⟨{ { up with rnl := { chans := [(24, { state := .moving, src := 0xFF00000000, len := 32, ctrl := 8 })] } } with cnt := { ticks := 10 ^ 15 } }, 24, by decide +kernel⟩,
   ⟨up, 31, by decide +kernel⟩,
   ⟨{ up with rnl := { chans := [(24, { state := .fetch, stop := true })] } }, 24, by decide +kernel⟩,
   ⟨up, 31, by decide +kernel⟩⟩

/-- The premises of each clause of RunnelCommands are met by some state and operands. -/
theorem witness_RunnelCommands :
    (∃ s : State, ∃ n c : Nat, HostTurn s n 0x0600 4 false ∧ s.slc.lease = some n ∧ 24 ≤ c ∧ c < 32 ∧
      (rch s c).state = .moving ∨ (rch s c).state = .fetch) ∧
    (∃ s : State, ∃ n c desc : Nat, HostTurn s n 0x0600 4 false ∧ s.slc.lease = some n ∧ 24 ≤ c ∧ c < 32 ∧
      (rch s c).state = .idle ∨ (rch s c).state = .halted ∧
      (backed s ≤ desc % 2 ^ 40 ∨ dramUp s (desc % 2 ^ 40) 32 = true) ∧ (descFetch c (desc % 2 ^ 40) s).2.1 = 0) ∧
    (∃ s : State, ∃ n c desc : Nat, HostTurn s n 0x0600 4 false ∧ s.slc.lease = some n ∧ 24 ≤ c ∧ c < 32 ∧
      (rch s c).state = .idle ∨ (rch s c).state = .halted ∧
      (backed s ≤ desc % 2 ^ 40 ∨ dramUp s (desc % 2 ^ 40) 32 = true) ∧ (descFetch c (desc % 2 ^ 40) s).2.1 = 2) ∧
    (∃ s : State, ∃ n c desc : Nat, HostTurn s n 0x0600 4 false ∧ s.slc.lease = some n ∧ 24 ≤ c ∧ c < 32 ∧
      (rch s c).state = .idle ∨ (rch s c).state = .halted ∧
      (backed s ≤ desc % 2 ^ 40 ∨ dramUp s (desc % 2 ^ 40) 32 = true) ∧ (descFetch c (desc % 2 ^ 40) s).2.1 ≠ 0 ∧
      (descFetch c (desc % 2 ^ 40) s).2.1 ≠ 2) ∧
    (∃ s : State, ∃ n c : Nat, HostTurn s n 0x0600 4 false ∧ s.slc.lease ≠ some n ∧ 24 ≤ c ∧ c < 32) ∧
    (∃ s : State, ∃ n : Nat, HostTurn s n 0x0601 0 false ∧ s.slc.lease = some n) ∧
    (∃ s : State, ∃ n c off : Nat, ∃ data : List Byte, HostTurn s n 0x0602 0 false ∧ s.slc.lease = some n ∧ 24 ≤ c ∧
      c < 32 ∧ off % 8 = 0 ∧ off + data.length ≤ 65536) ∧
    (∃ s : State, ∃ n c off bytes : Nat, HostTurn s n 0x0603 (128 + bytes) false ∧ 24 ≤ c ∧ c < 32 ∧ off % 8 = 0 ∧
      8 ≤ bytes ∧ bytes ≤ 8192 ∧ off + bytes ≤ 65536) ∧
    (∃ s : State, ∃ n off bytes : Nat, HostTurn s n 0x0603 (128 + bytes) false ∧ 65536 < off + bytes) :=
  ⟨⟨{ up with rnl := { chans := [(24, { state := .moving })] } }, 1, 24, by decide +kernel⟩,
   ⟨up, 1, 31, 0x8008000000, by decide +kernel⟩,
   ⟨{ memory with rnl := { mbox := [(0x10, 8)] } }, 1, 24, 0x8008000000, by decide +kernel⟩,
   ⟨up, 1, 24, 1, by decide +kernel⟩,
   ⟨up, 2, 31, by decide +kernel⟩,
   ⟨up, 1, by decide +kernel⟩,
   ⟨up, 1, 31, 65528, zeros 8, by decide +kernel⟩,
   ⟨up, 1, 24, 57344, 8192, by decide +kernel⟩,
   ⟨up, 1, 65536, 8, by decide +kernel⟩⟩

/-- The premises of each clause of Ledgers are met by some state and operands. -/
theorem witness_Ledgers :
    (∃ s : State, ∃ n : Nat, HostTurn s n 0x0800 96 true) ∧
    (∃ s : State, ∃ n : Nat, HostTurn s n 0x0900 28 true ∧ snapRoom s = false) ∧
    (∃ s : State, ∃ n : Nat, HostTurn s n 0x0900 28 true ∧ snapRoom s = true) ∧
    (∃ s : State, ∃ x : Snap, s.boot ≠ .held ∧ s.lgr.snaps.reverse.find? (fun x => !x.complete) = some x) ∧
    (∃ s : State, ∃ n no off bytes : Nat, ∃ x, HostTurn s n 0x0901 bytes true ∧ 1 ≤ bytes ∧ bytes ≤ 8192 ∧
      off + bytes ≤ imageLen ∧ snapHeld s no = some x) ∧
    (∃ s : State, ∃ n no off bytes : Nat, HostTurn s n 0x0901 bytes true ∧ 1 ≤ bytes ∧ bytes ≤ 8192 ∧
      off + bytes ≤ imageLen ∧ snapHeld s no = none) ∧
    (∃ s : State, ∃ a src : Nat, ∃ f : Fold, s.boot ≠ .held ∧ smFind (foldKey a src) s.folds = some f ∧
      s.cnt.ticks < f.due) ∧
    (∃ s : State, ∃ a src : Nat, ∃ f : Fold, s.boot ≠ .held ∧ smFind (foldKey a src) s.folds = some f ∧
      f.due ≤ s.cnt.ticks ∧ f.count = 0) ∧
    (∃ s : State, ∃ a src : Nat, ∃ f : Fold, s.boot ≠ .held ∧ smFind (foldKey a src) s.folds = some f ∧
      f.due ≤ s.cnt.ticks ∧ f.count ≠ 0) ∧
    (∃ s : State, ∃ w : Nat, ∃ ws : List Nat, s.boot ≠ .held ∧ s.lgr.wearPend = w :: ws ∧ otpHeld s = true) ∧
    (∃ s : State, ∃ w : Nat, ∃ ws : List Nat, s.boot ≠ .held ∧ s.lgr.wearPend = w :: ws ∧ otpHeld s = false ∧
      wearUsed s < 1024) ∧
    (∃ s : State, s.boot ≠ .held ∧ s.lgr.lifeMin < 61440) ∧
    (∃ s : State, s.boot ≠ .held ∧ 61440 ≤ s.lgr.lifeMin ∧ otpHeld s = true ∧ s.pwr.lifeNoted.getLsbD 0 = true) ∧
    (∃ s : State, s.boot ≠ .held ∧ 61440 ≤ s.lgr.lifeMin ∧ otpHeld s = true ∧ s.pwr.lifeNoted.getLsbD 0 = false) ∧
    (∃ s : State, s.boot ≠ .held ∧ 61440 ≤ s.lgr.lifeMin ∧ otpHeld s = false ∧ lifeHours s < 2048) ∧
    (∃ s : State, s.boot ≠ .held ∧ s.cnt.ticks < s.lgr.minuteAt) ∧
    (∃ s : State, s.boot ≠ .held ∧ s.lgr.minuteAt ≤ s.cnt.ticks ∧
      (s.lgr.stressRun + stressWeight s.lgr.minuteMax) < 983040) ∧
    (∃ s : State, s.boot ≠ .held ∧ s.lgr.minuteAt ≤ s.cnt.ticks ∧
      983040 ≤ (s.lgr.stressRun + stressWeight s.lgr.minuteMax) ∧ otpHeld s = false ∧ lifeStress s < 2048) :=
  ⟨⟨up, 1, by decide +kernel⟩,
   ⟨{ up with lgr := { snaps := [{ no := 1, epoch := 0, stamp := 0, tqb := 0, flags := 0, freeze := 0, hw := [], watches := [], streams := [], complete := false }, { no := 1, epoch := 0, stamp := 0, tqb := 0, flags := 0, freeze := 0, hw := [], watches := [], streams := [], complete := false }] } }, 1, by decide +kernel⟩,
   ⟨up, 1, by decide +kernel⟩,
   ⟨{ up with lgr := { snaps := [{ no := 1, epoch := 0, stamp := 0, tqb := 0, flags := 0, freeze := 0, hw := [], watches := [], streams := [], complete := false }] } }, { no := 1, epoch := 0, stamp := 0, tqb := 0, flags := 0, freeze := 0, hw := [], watches := [], streams := [], complete := false }, by decide +kernel⟩,
   ⟨{ up with lgr := { snaps := [{ no := 1, epoch := 0, stamp := 0, tqb := 0, flags := 0, freeze := 0, hw := [], watches := [], streams := [], complete := true }] } }, 1, 1, 1186304, 8192, { no := 1, epoch := 0, stamp := 0, tqb := 0, flags := 0, freeze := 0, hw := [], watches := [], streams := [], complete := true }, by decide +kernel⟩,
   ⟨up, 2, 0, 0, 1, by decide +kernel⟩,
   ⟨{ up with folds := [(foldKey 0xD0040 0, { code := 0, stamp := 0, tqb := 0, count := 0, due := 1 })] }, 0xD0040, 0,
     { code := 0, stamp := 0, tqb := 0, count := 0, due := 1 }, by decide +kernel⟩,
   ⟨{ up with folds := [(foldKey 0xD0040 0, { code := 0, stamp := 0, tqb := 0, count := 0, due := 0 })] }, 0xD0040, 0,
     { code := 0, stamp := 0, tqb := 0, count := 0, due := 0 }, by decide +kernel⟩,
   ⟨{ up with folds := [(foldKey 0xD0040 0, { code := 0, stamp := 0, tqb := 0, count := 1, due := 0 })] }, 0xD0040, 0,
     { code := 0, stamp := 0, tqb := 0, count := 1, due := 0 }, by decide +kernel⟩,
   ⟨{ up with lgr := { wearPend := [1] }, pwr := { window := some 1 } }, 1, [], by decide +kernel⟩,
   ⟨{ up with lgr := { wearPend := [1] } }, 1, [], by decide +kernel⟩,
   ⟨{ up with lgr := { lifeMin := 61439 } }, by decide +kernel⟩,
   ⟨{ up with lgr := { lifeMin := 61440 }, pwr := { holdEnd := some 0, lifeNoted := 1 } }, by decide +kernel⟩,
   ⟨{ up with lgr := { lifeMin := 61440 }, pwr := { holdEnd := some 0 } }, by decide +kernel⟩,
   ⟨{ up with lgr := { lifeMin := 61440 } }, by decide +kernel⟩,
   ⟨{ up with lgr := { minuteAt := 1 } }, by decide +kernel⟩,
   ⟨{ up with lgr := { stressRun := 983037, minuteMax := 14080 } }, by decide +kernel⟩,
   ⟨{ up with lgr := { stressRun := 983038, minuteMax := 14080 } }, by decide +kernel⟩⟩

/-- The premises of each clause of Security are met by some state and operands. -/
theorem witness_Security :
    (∃ s : State, ∃ n : Nat, ∃ nonce : List Byte, HostTurn s n 0x0A00 (if lmsExhausted s then 388 else 3672) true ∧
      nonce.length = 32 ∧ s.sec.tokens = 0) ∧
    (∃ s : State, ∃ n : Nat, ∃ nonce : List Byte, HostTurn s n 0x0A00 (if lmsExhausted s then 388 else 3672) true ∧
      nonce.length = 32 ∧ 0 < s.sec.tokens ∧ s.sec.lmsGen = false ∧ 0 < s.sec.lmsLeft) ∧
    (∃ s : State, ∃ n : Nat, ∃ nonce : List Byte, HostTurn s n 0x0A00 (if lmsExhausted s then 388 else 3672) true ∧
      nonce.length = 32 ∧ 0 < s.sec.tokens ∧ s.sec.lmsGen = true) ∧
    (∃ s : State, s.boot ≠ .held ∧ s.sec.tokenAt ≤ s.cnt.ticks) ∧
    (∃ s : State, s.cnt.ticks < s.sec.tokenAt) ∧
    (∃ s : State, s.boot ≠ .held ∧ s.sec.lmsGen = true ∧ s.sec.rngOk = true ∧ s.sec.lmsEpoch.isSome = true ∧
      (∀ e ∈ s.slc.sessions, ∀ nonce, e.2.wait ≠ some (.attest nonce))) ∧
    (∃ s : State, s.sec.rngOk = false) ∧
    (∃ s : State, s.boot ≠ .held) ∧
    (∃ s : State, s.boot ≠ .held ∧ (s.boot ≠ .booting ∨ s.sec.noiseAt ≤ s.cnt.ticks)) ∧
    (∃ s : State, s.boot ≠ .held ∧ s.boot = .booting ∧ s.cnt.ticks < s.sec.noiseAt) ∧
    (∃ s : State, ∃ n slot : Nat, ∃ e l : List Byte, HostTurn s n 0x0A01 0 true ∧ (ses s n).kind = .active ∧ slot < 8 ∧
      e.length = 97 ∧ l.length = 60 ∧ s.slc.lease ≠ some n) ∧
    (∃ s : State, ∃ n slot : Nat, ∃ e l : List Byte, HostTurn s n 0x0A01 0 true ∧ (ses s n).kind = .active ∧ slot < 8 ∧
      e.length = 97 ∧ l.length = 60 ∧ s.slc.lease = some n ∧ (lifecycle s = 1 ∨ lifecycle s = 2) ∧ otpHeld s = false ∧
      (onCurve e = false ∨ hssKeyOk l = false)) ∧
    (∃ s : State, ∃ n slot : Nat, ∃ e l : List Byte, HostTurn s n 0x0A01 0 true ∧ (ses s n).kind = .active ∧ slot < 8 ∧
      e.length = 97 ∧ l.length = 60 ∧ s.slc.lease = some n ∧ (lifecycle s = 1 ∨ lifecycle s = 2) ∧ otpHeld s = false ∧
      onCurve e = true ∧ hssKeyOk l = true ∧ rootInstalled s slot = false) ∧
    (∃ s : State, ∃ n slot : Nat, ∃ e l : List Byte, HostTurn s n 0x0A01 0 true ∧ (ses s n).kind = .active ∧ slot < 8 ∧
      e.length = 97 ∧ l.length = 60 ∧ s.slc.lease = some n ∧ (lifecycle s = 1 ∨ lifecycle s = 2) ∧ otpHeld s = false ∧
      onCurve e = true ∧ hssKeyOk l = true ∧ rootInstalled s slot = true ∧ otpBytes s (rootAt slot) 156 ≠ e.drop 1 ++ l) ∧
    (∃ s : State, ∃ n slot : Nat, HostTurn s n 0x0A02 0 false ∧ s.slc.lease = some n ∧ slot < 8 ∧
      rootInstalled s slot = true ∧ rootRevoked s slot = false ∧ (lifecycle s = 2 → otherRoot s slot = true)) ∧
    (∃ s : State, ∃ n slot : Nat, ∃ key : List Byte, HostTurn s n 0x0A03 0 false ∧ s.slc.lease = some n ∧ slot < 16 ∧
      key.length = 32) ∧
    (∃ s : State, ∃ n slot : Nat, ∃ key : List Byte, HostTurn s n 0x0A03 0 false ∧ s.slc.lease = some n ∧ slot < 16 ∧
      key.length = 32 ∧ slotUsed s slot = true) ∧
    (∃ s : State, ∃ n slot : Nat, ∃ key : List Byte, HostTurn s n 0x0A03 0 false ∧ s.slc.lease = some n ∧ slot < 16 ∧
      key.length = 32 ∧ slotUsed s slot = false) ∧
    (∃ s : State, ∃ n target : Nat, ∃ w : Word, HostTurn s n 0x0A04 0 false ∧ s.slc.lease = some n ∧ w ≠ confirmOf target) ∧
    (∃ s : State, ∃ n target : Nat, ∃ w : Word, HostTurn s n 0x0A04 0 false ∧ s.slc.lease = some n ∧
      (target = 1 ∨ target = 2) ∧ lifecycle s = target ∧ w = confirmOf target ∧ lastOfPacket s n = true ∧
      (target = 1 → otherRoot s 8 = true) ∧ otpHeld s = false ∧ s.sec.lmsGen = true) :=
  ⟨⟨{ up with sec := { up.sec with tokens := 0 } }, 1, zeros 32, by decide +kernel⟩,
   ⟨up, 1, zeros 32, by decide +kernel⟩,
   ⟨{ up with sec := { up.sec with lmsGen := true } }, 1, zeros 32, by decide +kernel⟩,
   ⟨up, by decide +kernel⟩,
   ⟨{ up with sec := { up.sec with tokenAt := 1 } }, by decide +kernel⟩,
   ⟨{ up with sec := { up.sec with lmsGen := true } }, ⟨by decide +kernel, by decide +kernel, by decide +kernel,
     by decide +kernel, by simp [up]⟩⟩,
   ⟨State.reset, by decide +kernel⟩,
   ⟨up, by decide +kernel⟩,
   ⟨up, by decide +kernel⟩,
   ⟨{ up with boot := .booting, sec := { up.sec with noiseAt := 1 } }, by decide +kernel⟩,
   ⟨up, 2, 7, zeros 97, zeros 60, by decide +kernel⟩,
   ⟨up, 1, 7, zeros 97, hssKey, by decide +kernel⟩,
   ⟨up, 1, 7, point, hssKey, by decide +kernel⟩,
   ⟨{ up with sec := { up.sec with otp := [(0x900, 1)] } }, 1, 0, point, hssKey, by decide +kernel⟩,
   ⟨{ up with sec := { up.sec with otp := [(0x900, 1)] } }, 1, 0, by decide +kernel⟩,
   ⟨up, 1, 15, zeros 32, by decide +kernel⟩,
   ⟨conf [(0xB1000, 0xF8), (0xB4000, 1)] up, 1, 15, zeros 32, by decide +kernel⟩,
   ⟨up, 1, 15, zeros 32, by decide +kernel⟩,
   ⟨up, 1, 1, 0, by decide +kernel⟩,
   ⟨{ up with sec := { up.sec with otp := [(0x900, 1)], lmsGen := true } }, 1, 1, 0x4649454C, by decide +kernel⟩⟩

/-- The premises of each clause of ConfigurationOwners are met by some state and operands. -/
theorem witness_ConfigurationOwners :
    ∃ c : Instr, ∃ s t : State, exec c s = .next t :=
  ⟨.ready, State.reset, _, rfl⟩

/-- The premises of each clause of BlockOwners are met by some state and operands. -/
theorem witness_BlockOwners :
    ∃ c : Instr, ∃ s t : State, exec c s = .next t :=
  ⟨.ready, State.reset, _, rfl⟩

/-- The premises of each clause of OrdinaryPacket are met by some state and operands. -/
theorem witness_OrdinaryPacket :
    (∃ s : State, ∃ p : Fin 2, ∃ src : Peer, ∃ b : List Byte, ∃ cmds : List QCmd, s.boot = .up ∧ (port s p).up = true ∧
      formOk s src b = true ∧ headerOk src b = true ∧ lifecycle s ≠ 3 ∧ nbit (leAt b 1 1) flFast = false ∧
      s.slc.dropping = false ∧ (leAt b 2 2) ≠ 0 ∧ (ses s (leAt b 2 2)).kind = .bootstrap ∧
      nbit (leAt b 1 1) flBoot = true ∧ nbit (leAt b 1 1) flAuth = false ∧ bootTransport src = true ∧
      parseCmds (leAt b 8 2) (plainBody b) = some cmds ∧ leAt b 4 4 = (ses s (leAt b 2 2)).h + 1 ∧
      (ses s (leAt b 2 2)).packets.length < 4 ∧ (ses s (leAt b 2 2)).closing = false) ∧
    (∃ s : State, ∃ p : Fin 2, ∃ src : Peer, ∃ b : List Byte, s.boot = .up ∧ (port s p).up = true ∧
      formOk s src b = true ∧ headerOk src b = true ∧ lifecycle s ≠ 3 ∧ nbit (leAt b 1 1) flFast = false ∧
      s.slc.dropping = false ∧ (leAt b 2 2) ≠ 0 ∧ (ses s (leAt b 2 2)).kind = .active ∧
      nbit (leAt b 1 1) flAuth = true ∧ leAt b 4 4 = (ses s (leAt b 2 2)).h + 1 ∧
      (ses s (leAt b 2 2)).packets.length < 4 ∧ (ses s (leAt b 2 2)).closing = false) :=
  ⟨⟨{ up with slc := { up.slc with sessions := [(64, { kind := .bootstrap })] } }, 1,
    { rawEth := true, linkLocal := false, toMine := true, udpPort := 0, addr := 0, srcPort := 0 }, [1, 8, 64, 0, 1, 0,
    0, 0, 1, 0, 8, 0] ++ zeros 12 ++ [3, 0, 7, 0, 0, 0, 0, 0], [{ opcode := 3, tag := 7, params := [] }],
    by decide +kernel⟩,
   ⟨up, 0, { rawEth := false, linkLocal := false, toMine := true, udpPort := 29460, addr := 0, srcPort := 0 }, [1, 2, 1,
     0, 1, 0, 0, 0, 1, 0, 8, 0] ++ zeros 36, by decide +kernel⟩⟩

/-- The premises of each clause of FastPacket are met by some state and operands. -/
theorem witness_FastPacket :
    ∃ s : State, ∃ p : Fin 2, ∃ src : Peer, ∃ b : List Byte, s.boot = .up ∧ (port s p).up = true ∧
      formOk s src b = true ∧ headerOk src b = true ∧ lifecycle s ≠ 3 ∧ nbit (leAt b 1 1) flFast = true ∧
      nbit (leAt b 1 1) flAuth = true ∧ (ses s (leAt b 2 2)).kind = .active ∧ leAt b 8 2 = 1 ∧
      (ses s (leAt b 2 2)).f < leAt b 4 4 :=
  ⟨up, 0, { rawEth := false, linkLocal := false, toMine := true, udpPort := 29460, addr := 0, srcPort := 0 }, [1, 6, 1,
    0, 1, 0, 0, 0, 1, 0, 8, 0] ++ zeros 36, by decide +kernel⟩

/-- The premises of each clause of ReplySent are met by some state and operands. -/
theorem witness_ReplySent :
    (∃ s : State, ∃ n : Nat, ∃ k : Pkt, ∃ rest : List Pkt, s.boot ≠ .held ∧ (ses s n).packets = k :: rest ∧
      k.cmds = [] ∧ k.dups = [] ∧ ((ses s n).closing = false ∨ rest ≠ [])) ∧
    (∃ s : State, ∃ n : Nat, ∃ k : Pkt, s.boot ≠ .held ∧ (ses s n).kind ≠ .free ∧ (ses s n).packets = [k] ∧
      k.cmds = [] ∧ (ses s n).closing = true) :=
  ⟨⟨{ up with slc := { up.slc with sessions := [(1, { kind := .active, packets := [{ seq := 1, port := 0, src := { rawEth := true, linkLocal := false, toMine := true, udpPort := 0, addr := 0, srcPort := 0 }, cmds := [], done := [] }] })] } }, 1, { seq := 1, port := 0, src := { rawEth := true, linkLocal := false, toMine := true, udpPort := 0, addr := 0, srcPort := 0 }, cmds := [], done := [] }, [], by decide +kernel⟩,
   ⟨{ up with slc := { up.slc with sessions := [(1, { kind := .active, packets := [{ seq := 1, port := 0, src := { rawEth := true, linkLocal := false, toMine := true, udpPort := 0, addr := 0, srcPort := 0 }, cmds := [], done := [] }], closing := true })] } }, 1, { seq := 1, port := 0, src := { rawEth := true, linkLocal := false, toMine := true, udpPort := 0, addr := 0, srcPort := 0 }, cmds := [], done := [] }, by decide +kernel⟩⟩

/-- The premises of each clause of Openings are met by some state and operands. -/
theorem witness_Openings :
    (∃ s : State, ∃ o : Opening, ∃ n : Nat, s.boot ≠ .held ∧ s.slc.openings.find? (·.boot = true) = some o ∧
      o.params = [] ∧ lifecycle s ≤ 1 ∧ cfgB s 0xC0000 24 = true ∧ s.slc.sessions.any (fun (_,
      x) => decide (x.kind = .bootstrap)) = false ∧ bootTransport o.src = true ∧ freeSession s = some n) ∧
    (∃ s : State, ∃ o : Opening, ∃ n : Nat, s.boot ≠ .held ∧ s.slc.openings.find? (·.boot = false) = some o ∧
      o.params.length = 136 + leAt o.params 0 2 ∧ sameOpen s o.params = none ∧ (lifecycle s = 1 ∨ lifecycle s = 2) ∧
      freeSession s = some n ∧ s.sec.rngOk = true) :=
  ⟨⟨{ up with slc := { up.slc with openings := [{ port := 0, src := { rawEth := true, linkLocal := false, toMine := true, udpPort := 0, addr := 0, srcPort := 0 }, seq := 0, tag := 0, boot := true, params := [] }] } }, { port := 0, src := { rawEth := true, linkLocal := false, toMine := true, udpPort := 0, addr := 0, srcPort := 0 }, seq := 0, tag := 0, boot := true, params := [] }, 3, by decide +kernel⟩,
   ⟨{ up with slc := { up.slc with openings := [{ port := 0, src := { rawEth := true, linkLocal := false, toMine := true, udpPort := 0, addr := 0, srcPort := 0 }, seq := 0, tag := 0, boot := false, params := zeros 136 }] } }, { port := 0, src := { rawEth := true, linkLocal := false, toMine := true, udpPort := 0, addr := 0, srcPort := 0 }, seq := 0, tag := 0, boot := false, params := zeros 136 }, 3, by decide +kernel⟩⟩

/-- The premises of each clause of SessionCommands are met by some state and operands. -/
theorem witness_SessionCommands :
    (∃ s : State, ∃ n : Nat, HostTurn s n 0x0002 0 true) ∧
    (∃ s : State, ∃ n : Nat, HostTurn s n 0x0003 16 true) ∧
    (∃ s : State, ∃ n : Nat, HostTurn s n 0x0004 16 true) ∧
    (∃ s : State, ∃ n : Nat, n ≠ 0 ∧ HostTurn s n 0x0005 2148 true) ∧
    (∃ s : State, ∃ n : Nat, ∃ data : List Byte, HostTurn s n 0x0F00 data.length true ∧ data.length ≤ 8192) ∧
    (∃ s : State, ∃ o : Opening, ∃ rest : List Opening, s.boot ≠ .held ∧ s.slc.idReqs = o :: rest ∧ o.params = [] ∧
      24 + 8 + 2148 ≤ maxFrame (cfg s) o.port - 70) :=
  ⟨⟨up, 1, by decide +kernel⟩,
   ⟨up, 1, by decide +kernel⟩,
   ⟨up, 2, by decide +kernel⟩,
   ⟨up, 1, by decide +kernel⟩,
   ⟨up, 1, zeros 8192, by decide +kernel⟩,
   ⟨{ up with slc := { up.slc with idReqs := [{ port := 0, src := { rawEth := true, linkLocal := false, toMine := true, udpPort := 0, addr := 0, srcPort := 0 }, seq := 0, tag := 0, boot := false, params := [] }] } }, { port := 0, src := { rawEth := true, linkLocal := false, toMine := true, udpPort := 0, addr := 0, srcPort := 0 }, seq := 0, tag := 0, boot := false, params := [] }, [], by decide +kernel⟩⟩

/-- The premises of each clause of Lease are met by some state and operands. -/
theorem witness_Lease :
    (∃ s : State, ∃ n : Nat, HostTurn s n 0x0010 0 false ∧ s.slc.lease = none) ∧
    (∃ s : State, ∃ n m : Nat, HostTurn s n 0x0010 0 false ∧ s.slc.lease = some m) ∧
    (∃ s : State, ∃ n m : Nat, HostTurn s n 0x0011 0 false ∧ s.slc.lease = some n ∧ m ≠ n ∧ (ses s m).kind = .active) ∧
    (∃ s : State, ∃ n : Nat, HostTurn s n 0x0012 0 false ∧ s.slc.lease = some n) ∧
    (∃ s : State, ∃ n : Nat, HostTurn s n 0x0011 0 false ∧ s.slc.lease ≠ some n) ∧
    (∃ s : State, ∃ n : Nat, HostTurn s n 0x0012 0 false ∧ s.slc.lease ≠ some n) ∧
    (∃ s : State, ∃ n : Nat, s.boot ≠ .held ∧ (ses s n).kind ≠ .free ∧ (∀ g, (ses s n).wait ≠ some (.lifecycle g)) ∧
      keepaliveLeft s n ≠ 0) ∧
    (∃ s : State, ∃ n : Nat, s.boot ≠ .held ∧ (ses s n).kind ≠ .free ∧ (∀ g, (ses s n).wait ≠ some (.lifecycle g)) ∧
      keepaliveLeft s n = 0) :=
  ⟨⟨free, 1, by decide +kernel⟩,
   ⟨up, 2, 1, by decide +kernel⟩,
   ⟨up, 1, 2, by decide +kernel⟩,
   ⟨up, 1, by decide +kernel⟩,
   ⟨up, 2, by decide +kernel⟩,
   ⟨up, 2, by decide +kernel⟩,
   ⟨up, 1, ⟨by decide +kernel, by decide +kernel, by intro g; simp [up, Machine.ses, smGet], by decide +kernel⟩⟩,
   ⟨{ up with cnt := { ticks := 10 ^ 15 } }, 1, ⟨by decide +kernel, by decide +kernel, by intro g; simp [up,
     Machine.ses, smGet], by decide +kernel⟩⟩⟩

/-- The premises of each clause of RegisterReads are met by some state and operands. -/
theorem witness_RegisterReads :
    (∃ s : State, ∃ n a : Nat, HostTurn s n 0x0100 4 true ∧ a % 4 = 0 ∧ clsOf a = some .cfg) ∧
    (∃ s : State, ∃ n a : Nat, ∃ k : Cls, HostTurn s n 0x0100 4 true ∧ a % 4 = 0 ∧ clsOf a = some k ∧ k ≠ .cfg ∧
      smFind (latchKey n a) s.regs.latch = none) ∧
    (∃ s : State, ∃ n a : Nat, HostTurn s n 0x0100 4 true ∧ (a % 4 ≠ 0 ∨ clsOf a = none)) ∧
    (∃ s : State, ∃ n a k : Nat, HostTurn s n 0x0102 (4 * k) true ∧ 1 ≤ k ∧ k ≤ 256 ∧ a % 4 = 0 ∧ (∀ i < k,
      clsOf (a + 4 * i) = some .cfg)) :=
  ⟨⟨up, 2, 0xB4000, by decide +kernel⟩,
   ⟨up, 2, 0xD0040, .sts, by decide +kernel⟩,
   ⟨up, 1, 0x41, by decide +kernel⟩,
   ⟨up, 1, 0xB4000, 256, by decide +kernel⟩⟩

/-- The premises of each clause of RegisterWrites are met by some state and operands. -/
theorem witness_RegisterWrites :
    (∃ s : State, ∃ n a : Nat, HostTurn s n 0x0101 4 false ∧ s.slc.lease = some n ∧ a % 4 = 0 ∧ clsOf a = some .cfg) ∧
    (∃ s : State, ∃ n a : Nat, ∃ v : Word, HostTurn s n 0x0101 4 false ∧ s.slc.lease ≠ some n ∧ a % 4 = 0 ∧
      clsOf a = some .cfg ∧ v &&& maskOf a ≠ imageGet s.regs.shadow a) ∧
    (∃ s : State, ∃ n a : Nat, ∃ k : Cls, HostTurn s n 0x0101 4 false ∧ a % 4 = 0 ∧ clsOf a = some k ∧
      (k = .sts ∨ k = .cnt)) ∧
    (∃ s : State, ∃ n a : Nat, HostTurn s n 0x0103 4 false ∧ s.slc.lease = some n ∧ a % 4 = 0 ∧ clsOf a = some .cfg ∧
      clsOf (a + 4) = some .cfg) :=
  ⟨⟨up, 1, 0xB4000, by decide +kernel⟩,
   ⟨up, 2, 0xB4000, 1, by decide +kernel⟩,
   ⟨up, 2, 0xD0040, .sts, by decide +kernel⟩,
   ⟨up, 1, 0xB4000, by decide +kernel⟩⟩

/-- The premises of each clause of StatusClears are met by some state and operands. -/
theorem witness_StatusClears :
    (∃ s : State, ∃ n a : Nat, ∃ q : BitVec 8, ∃ m : BitVec 24, HostTurn s n 0x0104 4 false ∧ a % 4 = 0 ∧
      clsOf a = some .sts ∧ fld (hw s a) 24 8 = q.toNat ∧ (bit (hw s a) 23 = false ∨ m.getLsbD 23 = true) ∧ offLedger a) ∧
    (∃ s : State, ∃ n a : Nat, ∃ q : BitVec 8, HostTurn s n 0x0104 4 false ∧ a % 4 = 0 ∧ clsOf a = some .sts ∧
      fld (hw s a) 24 8 ≠ q.toNat) :=
  ⟨⟨up, 2, 0xD0040, 0, 0xFFFFFF, by decide +kernel⟩,
   ⟨up, 2, 0xD0040, 1, by decide +kernel⟩⟩

/-- The premises of each clause of ReloadShadows are met by some state and operands. -/
theorem witness_ReloadShadows :
    (∃ s : State, ∃ n : Nat, HostTurn s n 0x0101 4 false ∧ s.slc.lease = some n ∧ bit (hw s 0x54) 1 = false ∧ (0x54,
      1) ∉ s.regs.cmdQueued) ∧
    (∃ s : State, ∃ n : Nat, HostTurn s n 0x0101 4 false ∧ s.slc.lease ≠ some n) :=
  ⟨⟨up, 1, by decide +kernel⟩,
   ⟨up, 2, by decide +kernel⟩⟩

/-- The premises of each clause of Seal are met by some state and operands. -/
theorem witness_Seal :
    (∃ s : State, ∃ n : Nat, HostTurn s n 0x0101 4 false ∧ s.slc.lease = some n ∧ s.boot = .up ∧
      bit (hw s 0x54) 0 = false ∧ (0x54, 0) ∉ s.regs.cmdQueued) ∧
    (∃ s : State, s.boot = .up ∧ timerDue s tmScan 0 = true ∧ s.sealing.scan = none) ∧
    (∃ s : State, s.boot = .up ∧ timerDue s tmScan 0 = true ∧
      s.sealing.scan = some { scheduled := false, restarted := false }) ∧
    (∃ s : State, (s.boot ≠ .up ∨ timerDue s tmScan 0 = false)) ∧
    (∃ s : State, ∃ x : Scan, s.boot ≠ .held ∧ s.sealing.scan = some x) ∧
    (∃ s : State, ∃ n : Nat, HostTurn s n 0x0106 4 true) :=
  ⟨⟨up, 1, by decide +kernel⟩,
   ⟨up, by decide +kernel⟩,
   ⟨{ up with sealing := { up.sealing with scan := some { scheduled := false, restarted := false } } }, by decide +kernel⟩,
   ⟨State.reset, by decide +kernel⟩,
   ⟨{ up with sealing := { up.sealing with scan := some { scheduled := true, restarted := false } } },
     { scheduled := true, restarted := false }, by decide +kernel⟩,
   ⟨up, 2, by decide +kernel⟩⟩

/-- The premises of each clause of CommitAccepted are met by some state and operands. -/
theorem witness_CommitAccepted :
    (∃ s : State, ∃ n : Nat, ∃ mask : BitVec 16, ∃ st : Option Stamp, HostTurn s n 0x0105 (commitLen mask) false ∧
      mask.toNat < 0x400 ∧ s.slc.lease = some n ∧ mask ≠ 0 ∧
      stateRefuses s mask st (imageGet (queueImage s)) (imageGet (candidate s mask)) (candidate s mask) = false ∧
      capacityRefuses s (imageGet (queueImage s)) (imageGet (candidate s mask)) (candidate s mask) = false ∧
      budgetRefuses s mask (imageGet (candidate s mask)) (candidate s mask) = none ∧ s.commits.queue.length < 16) ∧
    (∃ s : State, ∃ n : Nat, ∃ mask : BitVec 16, ∃ st : Option Stamp, ∃ w : Word,
      HostTurn s n 0x0105 (commitLen mask) false ∧ mask.toNat < 0x400 ∧ s.slc.lease = some n ∧ mask ≠ 0 ∧
      stateRefuses s mask st (imageGet (queueImage s)) (imageGet (candidate s mask)) (candidate s mask) = false ∧
      sealOf (candidate s mask) ≠ w) ∧
    (∃ s : State, ∃ n : Nat, ∃ mask : BitVec 16, HostTurn s n 0x0105 (commitLen mask) false ∧ mask.toNat < 0x400 ∧
      s.slc.lease ≠ some n) :=
  ⟨⟨up, 1, 0x3FF, none, by decide +kernel⟩,
   ⟨up, 1, 0x3FF, none, sealOf (candidate up 0x3FF) + 1, ⟨by decide +kernel, by decide +kernel, by decide +kernel,
     by decide +kernel, by decide +kernel, word_succ _⟩⟩,
   ⟨up, 2, 0x3FF, by decide +kernel⟩⟩

/-- The premises of each clause of CommitStrobes are met by some state and operands. -/
theorem witness_CommitStrobes :
    (∃ s : State, ∃ q : QCommit, ∃ qs : List QCommit, s.boot ≠ .held ∧ s.commits.queue = q :: qs ∧
      strobeDue q s = true ∧ q.adopt = false ∧ q.mask ≠ 0) ∧
    (∃ s : State, ∃ q : QCommit, ∃ qs : List QCommit, s.boot ≠ .held ∧ s.commits.queue = q :: qs ∧
      strobeDue q s = true ∧ q.adopt = false ∧ q.mask ≠ 0 ∧ q.mask &&& 0x9E = 0 ∧ s.regs.pend = []) ∧
    (∃ s : State, ∃ q : QCommit, ∃ qs : List QCommit, ∃ u : Stamp, s.boot ≠ .held ∧ s.commits.queue = q :: qs ∧
      q.stamp = some u ∧ now s < u) ∧
    (∃ s : State, ∃ p : Fin 4, ∃ w : SMap Word, s.boot ≠ .held ∧ launching s p = false ∧ (lch s p).fallback = [] ∧
      smFind (p + 1) s.regs.pend = some w) ∧
    (∃ s : State, s.boot ≠ .held ∧ s.commits.align.find? (fun a => alignFull a && tickCome s (roundUp 8 a.latest)) = none) ∧
    (∃ s : State, ∃ a : AlignSet, s.boot ≠ .held ∧
      s.commits.align.find? (fun a => alignFull a && tickCome s (roundUp 8 a.latest)) = some a ∧ a.ports.Nodup ∧
      s.clk.stopped = false ∧ (∀ p ∈ a.ports, (lch s p).armed = true ∧ (lch s p).fallback = [])) :=
  ⟨⟨{ up with commits := { queue := [{ id := 0, ses := 1, mask := 0x3FF, aligned := false, stamp := none, sealW := 0, image := [], adopt := false }] } }, { id := 0, ses := 1, mask := 0x3FF, aligned := false, stamp := none, sealW := 0, image := [], adopt := false }, [], by decide +kernel⟩,
   ⟨{ up with commits := { queue := [{ id := 0, ses := 1, mask := 0x361, aligned := false, stamp := none, sealW := 0, image := [], adopt := false }] } }, { id := 0, ses := 1, mask := 0x361, aligned := false, stamp := none, sealW := 0, image := [], adopt := false }, [], by decide +kernel⟩,
   ⟨{ up with commits := { queue := [{ id := 0, ses := 1, mask := 1, aligned := false, stamp := some (2 ^ 48 + 1), sealW := 0, image := [], adopt := false }] } }, { id := 0, ses := 1, mask := 1, aligned := false, stamp := some (2 ^ 48 + 1), sealW := 0, image := [], adopt := false }, [], 2 ^ 48 + 1, by decide +kernel⟩,
   ⟨{ up with regs := { up.regs with pend := [(4, [])] } }, 3, [], by decide +kernel⟩,
   ⟨up, by decide +kernel⟩,
   ⟨{ up with commits := { align := [{ id := 0, ports := [0, 3], reached := [3, 0] }] }, lch := [(0, { armed := true }), (3, { armed := true })] }, { id := 0, ports := [0, 3], reached := [3, 0] }, by decide +kernel⟩⟩

/-- The premises of each clause of ConverterAndPhaseBits are met by some state and operands. -/
theorem witness_ConverterAndPhaseBits :
    (∃ s : State, ∃ n c : Nat, HostTurn s n 0x0101 4 false ∧ s.slc.lease = some n ∧ bit (hw s 0x20044) 0 = false ∧
      (0x20044, 0) ∉ s.regs.cmdQueued ∧ c < 16 ∧ (conv s c).on = true ∧ (conv s c).failed = false ∧
      onEight (conv s c) = false) ∧
    (∃ s : State, ∃ n c : Nat, HostTurn s n 0x0101 4 false ∧ s.slc.lease = some n ∧ bit (hw s 0x20044) 1 = false ∧
      (0x20044, 1) ∉ s.regs.cmdQueued ∧ c ∈ (directLanes (cfg s)).flatMap (convsOf (cfg s)) ∧ onEight (conv s c) = true) ∧
    (∃ s : State, ∃ n : Nat, ∃ p : Fin 4, HostTurn s n 0x0101 4 false ∧ s.slc.lease = some n ∧
      bit (hw s (0x40084 + 0x1000 * p.val)) 0 = false ∧ (0x40084 + 0x1000 * p.val, 0) ∉ s.regs.cmdQueued ∧
      launching s p = true) ∧
    (∃ s : State, ∃ n : Nat, ∃ p : Fin 4, HostTurn s n 0x0101 4 false ∧ s.slc.lease = some n ∧
      bit (hw s (0x40084 + 0x1000 * p.val)) 0 = false ∧ (0x40084 + 0x1000 * p.val, 0) ∉ s.regs.cmdQueued ∧
      launching s p = false ∧ (lch s p).cmds = []) ∧
    (∃ s : State, ∃ n : Nat, ∃ p : Fin 4, HostTurn s n 0x0101 4 false ∧ s.slc.lease = some n ∧
      bit (hw s (0x40084 + 0x1000 * p.val)) 1 = false ∧ (0x40084 + 0x1000 * p.val, 1) ∉ s.regs.cmdQueued ∧
      launching s p = true) ∧
    (∃ s : State, ∃ n : Nat, ∃ p : Fin 4, HostTurn s n 0x0101 4 false ∧ s.slc.lease = some n ∧
      bit (hw s (0x40084 + 0x1000 * p.val)) 1 = false ∧ (0x40084 + 0x1000 * p.val, 1) ∉ s.regs.cmdQueued ∧
      launching s p = false ∧ (lch s p).cmds = []) :=
  ⟨⟨{ up with cnv := { convs := [(15, { on := true })] } }, 1, 15, by decide +kernel⟩,
   ⟨conf [(0x20004, 1)] { up with cnv := { convs := [(0, { on := true, retired := 1 })] } }, 1, 0, by decide +kernel⟩,
   ⟨{ up with lch := [(3, { armed := true })] }, 1, 3, by decide +kernel⟩,
   ⟨up, 1, 3, by decide +kernel⟩,
   ⟨{ up with lch := [(3, { armed := true })] }, 1, 3, by decide +kernel⟩,
   ⟨up, 1, 3, by decide +kernel⟩⟩

/-- The premises of each clause of WeirAndPoolBits are met by some state and operands. -/
theorem witness_WeirAndPoolBits :
    (∃ s : State, ∃ n : Nat, ∃ units : BitVec 8, ∃ u : Fin 8, HostTurn s n 0x0101 4 false ∧ s.slc.lease = some n ∧
      (∀ v < 8, bit (hw s 0x61014) v = false) ∧ (∀ v, (0x61014, v) ∉ s.regs.cmdQueued) ∧ units.getLsbD u = true ∧
      (unitSt s u).armed = true) ∧
    (∃ s : State, ∃ n : Nat, HostTurn s n 0x0101 4 false ∧ s.slc.lease = some n ∧ bit (hw s 0x61014) 8 = false ∧
      (0x61014, 8) ∉ s.regs.cmdQueued ∧ s.weir.alarm = true) ∧
    (∃ s : State, ∃ n : Nat, ∃ e : Fin 4, HostTurn s n 0x0101 4 false ∧ s.slc.lease = some n ∧
      bit (hw s (polA e 0x44)) 0 = false ∧ (polA e 0x44, 0) ∉ s.regs.cmdQueued ∧ (pol s e).running = false) ∧
    (∃ s : State, ∃ n : Nat, ∃ e : Fin 4, HostTurn s n 0x0101 4 false ∧ s.slc.lease = some n ∧
      bit (hw s (polA e 0x44)) 1 = false ∧ (polA e 0x44, 1) ∉ s.regs.cmdQueued ∧ (pol s e).events ≠ 0) :=
  ⟨⟨{ up with weir := { units := [(7, { armed := true })] } }, 1, 0x80, 7, ⟨by decide +kernel, by decide +kernel,
    by decide +kernel, by intro v; simp [up, State.reset], by decide +kernel, by decide +kernel⟩⟩,
   ⟨{ up with weir := { alarm := true } }, 1, by decide +kernel⟩,
   ⟨up, 1, 3, by decide +kernel⟩,
   ⟨{ up with pol := [(3, { events := 1 })] }, 1, 3, by decide +kernel⟩⟩

/-- The premises of each clause of MemoryBits are met by some state and operands. -/
theorem witness_MemoryBits :
    (∃ s : State, ∃ n : Nat, ∃ v : Word, HostTurn s n 0x0101 4 false ∧ s.slc.lease = some n ∧ lifecycle s = 1 ∧
      readHw s 0x80808 = 15 ∧ v &&& maskOf 0x80808 ≠ 15) ∧
    (∃ s : State, ∃ n : Nat, ∃ c : Fin 9, HostTurn s n 0x0101 4 false ∧ s.slc.lease = some n ∧
      bit (hw s (memA c 0x44)) 0 = false ∧ (memA c 0x44, 0) ∉ s.regs.cmdQueued ∧
      ((dch s c).code = 1 ∨ (dch s c).code = 2)) ∧
    (∃ s : State, ∃ n : Nat, ∃ c : Fin 9, HostTurn s n 0x0101 4 false ∧ s.slc.lease = some n ∧
      bit (hw s (memA c 0x44)) 1 = false ∧ (memA c 0x44, 1) ∉ s.regs.cmdQueued ∧ chanActive s c = false ∧
      (dch s c).gen < 7) ∧
    (∃ s : State, ∃ n : Nat, ∃ b : Fin 8, HostTurn s n 0x0101 4 false ∧ s.slc.lease = some n ∧
      bit (hw s 0x91044) b = false ∧ (0x91044, b.val) ∉ s.regs.cmdQueued ∧ (rch s (24 + b)).state = .moving) :=
  ⟨⟨{ up with sec := { up.sec with otp := idBytes } }, 1, 0, by decide +kernel⟩,
   ⟨memory, 1, 4, by decide +kernel⟩,
   ⟨memory, 1, 8, by decide +kernel⟩,
   ⟨{ up with rnl := { chans := [(31, { state := .moving })] } }, 1, 7, by decide +kernel⟩⟩

/-- The premises of each clause of StreamAndLedgerBits are met by some state and operands. -/
theorem witness_StreamAndLedgerBits :
    (∃ s : State, ∃ n : Nat, HostTurn s n 0x0101 4 false ∧ s.slc.lease = some n ∧ bit (hw s 0xB0044) 0 = false ∧
      (0xB0044, 0) ∉ s.regs.cmdQueued ∧ s.pins.haltN = true) ∧
    (∃ s : State, ∃ n : Nat, HostTurn s n 0x0101 4 false ∧ s.slc.lease = some n ∧ bit (hw s 0x70044) 0 = false ∧
      (0x70044, 0) ∉ s.regs.cmdQueued ∧ sealSpaced s = false) ∧
    (∃ s : State, ∃ n : Nat, HostTurn s n 0x0101 4 false ∧ s.slc.lease = some n ∧ bit (hw s 0x70044) 0 = false ∧
      (0x70044, 0) ∉ s.regs.cmdQueued ∧ sealSpaced s = true ∧ (lmsExhausted s = true ∨ (0 < s.sec.lmsLeft ∧
      s.cis.sealWait = [] ∧ s.sec.lmsGen = false))) ∧
    (∃ s : State, ∃ n : Nat, HostTurn s n 0x0101 4 false ∧ s.slc.lease = some n ∧ bit (hw s 0xD0044) 0 = false ∧
      (0xD0044, 0) ∉ s.regs.cmdQueued ∧ snapRoom s = true) :=
  ⟨⟨up, 1, by decide +kernel⟩,
   ⟨{ up with cis := { sealAt := some 0 }, cnt := { ticks := 499999999 } }, 1, by decide +kernel⟩,
   ⟨{ up with cis := { sealAt := some 0 }, cnt := { ticks := 500000000 } }, 1, by decide +kernel⟩,
   ⟨up, 1, by decide +kernel⟩⟩

/-- The premises of each clause of SupplyWindows are met by some state and operands. -/
theorem witness_SupplyWindows :
    (∃ s : State, ∃ r : Fin 9, ∃ l : List Int, s.boot ≠ .held ∧ s.pwr.window = none ∧ meetsWarning s r l = true) ∧
    (∃ s : State, ∃ r : Fin 9, ∃ l : List Int, s.boot ≠ .held ∧ s.pwr.window = none ∧ meetsWarning s r l = false) ∧
    (∃ s : State, ∃ r : Fin 9, ∃ l : List Int, ∃ w : BitVec 9, s.boot ≠ .held ∧ s.pwr.window = some w ∧
      (w.getLsbD r = true ∨ meetsWarning s r l = true)) ∧
    (∃ s : State, ∃ r : Fin 9, ∃ l : List Int, ∃ w : BitVec 9, s.boot ≠ .held ∧ s.pwr.window = some w ∧
      w.getLsbD r = false ∧ meetsWarning s r l = false) ∧
    (∃ s : State, ∃ w : BitVec 9, ∃ rails : List (List Int), s.boot ≠ .held ∧ s.pwr.window = some w ∧ (∀ r < 9,
      (w.getLsbD r = true → railClears s r (rails.getD r []) = true) ∧
      (w.getLsbD r = false → meetsWarning s r (rails.getD r []) = false)) ∧ rails.length = 9) ∧
    (∃ s : State, ∃ w : BitVec 9, ∃ rails : List (List Int), ∃ r, s.boot ≠ .held ∧ s.pwr.window = some w ∧
      w.getLsbD r = true ∧ railClears s r (rails.getD r []) = false) ∧
    (∃ s : State, s.boot ≠ .held ∧ s.pwr.qcalFor ≠ [] ∧ s.clk.stopped = false ∧ (∀ c < 16, (conv s c).qcal = none) ∧
      s.pwr.window = none) ∧
    (∃ s : State, ∃ u : Nat, s.boot ≠ .held ∧ s.pwr.window = none ∧ s.pwr.holdEnd = some u ∧ u ≤ s.cnt.ticks) ∧
    (∃ s : State, ∃ u : Nat, s.boot ≠ .held ∧ s.pwr.window = none ∧ s.pwr.holdEnd = some u ∧ s.cnt.ticks < u) :=
  ⟨⟨conf [(0xF0000, 0x101)] up, 8, [-2000], by decide +kernel⟩,
   ⟨conf [(0xF0000, 0x101)] up, 8, [0], by decide +kernel⟩,
   ⟨conf [(0xF0000, 0x101)] { up with pwr := { window := some 1 } }, 8, [-2000], 1, by decide +kernel⟩,
   ⟨conf [(0xF0000, 0x101)] { up with pwr := { window := some 1 } }, 8, [0], 1, by decide +kernel⟩,
   ⟨conf [(0xF0000, 0x101)] { up with pwr := { window := some 1 } }, 1, List.replicate 9 [0], by decide +kernel⟩,
   ⟨conf [(0xF0000, 0x101)] { up with pwr := { window := some 1 } }, 1, List.replicate 9 [-2000], 0, by decide +kernel⟩,
   ⟨{ up with pwr := { qcalFor := [0] } }, by decide +kernel⟩,
   ⟨{ up with pwr := { holdEnd := some 0 } }, 0, by decide +kernel⟩,
   ⟨{ up with pwr := { holdEnd := some 1 } }, 1, by decide +kernel⟩⟩

/-- The premises of each clause of Temperature are met by some state and operands. -/
theorem witness_Temperature :
    ∃ s : State, s.boot ≠ .held :=
  ⟨up, by decide +kernel⟩

/-- The premises of each clause of ReferenceChecks are met by some state and operands. -/
theorem witness_ReferenceChecks :
    (∃ s : State, ∃ k : Nat, s.boot ≠ .held ∧ s.clk.refC = false ∧ timerDue s tmRefCount 1 = true ∧
      countOk 100000 k 5 = true) ∧
    (∃ s : State, ∃ r : Ref, timerDue s tmRefCount (match r with | .refS => 0 | .refC => 1) = false) ∧
    (∃ s : State, ∃ k : Nat, s.boot ≠ .held ∧ s.clk.refS = false ∧ timerDue s tmRefCount 0 = true ∧
      (s.boot = .up ∨ s.clk.refC = true) ∧ countOk (refEdges s .refS) k (if s.clk.trimmed then 1 else 5) = true) ∧
    (∃ s : State, ∃ k : Nat, s.boot ≠ .held ∧ s.clk.refC = true ∧ timerDue s tmRefCount 1 = true ∧
      countOk 100000 k 5 = false) ∧
    (∃ s : State, ∃ k : Nat, s.boot ≠ .held ∧ s.clk.refS = true ∧ s.clk.refSFine = true ∧ s.clk.refC = false ∧
      timerDue s tmCross 0 = true ∧ countOk 100000 k 1 = true) ∧
    (∃ s : State, ∃ k : Nat, s.boot ≠ .held ∧ s.clk.refS = true ∧ s.clk.refSFine = true ∧ s.clk.refC = true ∧
      timerDue s tmCross 0 = true ∧ countOk 100000 k 1 = false) ∧
    (∃ s : State, s.boot ≠ .held ∧ s.clk.refC = true) ∧
    (∃ s : State, s.boot ≠ .held ∧ s.clk.refC = false) ∧
    (∃ s : State, s.boot ≠ .held ∧ s.clk.refC = true ∧ timerDue s tmTrim 0 = true) ∧
    (∃ s : State, (s.clk.refC = false ∨ timerDue s tmTrim 0 = false)) :=
  ⟨⟨{ up with clk := { up.clk with refC := false } }, 95000, by decide +kernel⟩,
   ⟨{ up with timers := smIns (timerKey tmRefCount 1) 1 [] }, .refC, by decide +kernel⟩,
   ⟨{ up with clk := { up.clk with refS := false } }, 101000, by decide +kernel⟩,
   ⟨up, 105001, by decide +kernel⟩,
   ⟨{ up with clk := { up.clk with refC := false } }, 101000, by decide +kernel⟩,
   ⟨up, 101001, by decide +kernel⟩,
   ⟨up, by decide +kernel⟩,
   ⟨{ up with clk := { up.clk with refC := false } }, by decide +kernel⟩,
   ⟨up, by decide +kernel⟩,
   ⟨{ up with clk := { up.clk with refC := false } }, by decide +kernel⟩⟩

/-- The premises of each clause of PllLocking are met by some state and operands. -/
theorem witness_PllLocking :
    (∃ s : State, ∃ p : Fin 7, s.boot ≠ .held ∧ (pll s p = .locking ∨ pll s p = .hold)) ∧
    (∃ s : State, ∃ p : Fin 7, timerDue s tmSettle p = false) ∧
    (∃ s : State, ∃ p : Fin 7, s.boot ≠ .held ∧ pll s p = .settling ∧ timerDue s tmSettle p = true ∧
      (p.val < 2 ∨ 4 ≤ p.val)) ∧
    (∃ s : State, ∃ p : Fin 7, s.boot ≠ .held ∧ pll s p = .settling ∧ timerDue s tmSettle p = true ∧ p.val = coreIndex s) ∧
    (∃ s : State, ∃ p : Fin 7, s.boot ≠ .held ∧ pll s p = .settling ∧ timerDue s tmSettle p = true ∧
      p.val = coreOther s ∧ s.clk.coreSrc = .pll) :=
  ⟨⟨{ up with clk := { up.clk with pll := [(6, .hold)] } }, 6, by decide +kernel⟩,
   ⟨{ up with timers := smIns (timerKey tmSettle 6) 1 [] }, 6, by decide +kernel⟩,
   ⟨{ up with clk := { up.clk with pll := [(1, .settling)] } }, 1, by decide +kernel⟩,
   ⟨{ up with clk := { up.clk with pll := [(2, .settling)] } }, 2, by decide +kernel⟩,
   ⟨{ up with clk := { up.clk with pll := [(3, .settling)] } }, 3, by decide +kernel⟩⟩

/-- The premises of each clause of ClockLosses are met by some state and operands. -/
theorem witness_ClockLosses :
    (∃ s : State, s.boot ≠ .held ∧ pll s 0 = .inUse) ∧
    (∃ s : State, s.boot ≠ .held ∧ s.clk.refS = true ∧ pll s 0 = .inUse ∧ pll s 1 = .inUse) ∧
    (∃ s : State, s.boot ≠ .held ∧ pll s 1 = .inUse) ∧
    (∃ s : State, s.boot ≠ .held ∧ pll s 1 = .inUse ∧ s.tb.backup = true) ∧
    (∃ s : State, s.boot ≠ .held ∧ s.tb.backup = false ∧ timerDue s tmSteer 0 = true) ∧
    (∃ s : State, (s.tb.backup = true ∨ timerDue s tmSteer 0 = false)) ∧
    (∃ s : State, s.boot ≠ .held ∧ pll s (coreIndex s) = .inUse ∧ s.clk.refC = true) ∧
    (∃ s : State, s.boot ≠ .held ∧ pll s (coreOther s) = .standbyReady ∧ s.clk.refC = true) :=
  ⟨⟨up, by decide +kernel⟩,
   ⟨up, by decide +kernel⟩,
   ⟨up, by decide +kernel⟩,
   ⟨{ up with tb := { up.tb with backup := true } }, by decide +kernel⟩,
   ⟨up, by decide +kernel⟩,
   ⟨{ up with tb := { up.tb with backup := true } }, by decide +kernel⟩,
   ⟨up, by decide +kernel⟩,
   ⟨up, by decide +kernel⟩⟩

/-- The premises of each clause of CorePllExchange are met by some state and operands. -/
theorem witness_CorePllExchange :
    (∃ s : State, s.boot ≠ .held ∧ s.clk.coreSrc = .bypass ∧ pll s (coreIndex s) = .locking ∧
      pll s (coreOther s) = .off ∧ timerRan s tmRelock 0 = true) ∧
    (∃ s : State, s.boot ≠ .held ∧ s.clk.coreSrc = .bypass ∧ pll s (coreIndex s) = .locking ∧
      pll s (coreOther s) = .standbyReady ∧ timerRan s tmRelock 0 = true) ∧
    (∃ s : State, timerRan s tmRelock 0 = false) ∧
    (∃ s : State, s.boot ≠ .held ∧ s.clk.coreSrc = .bypass ∧ pll s (coreOther s) = .retired ∧
      pll s (coreIndex s) = .locking ∧ timerDue s tmCoreRetry 0 = true ∧ timerRuns s tmRelock 0 = false) ∧
    (∃ s : State, (pll s (coreOther s) ≠ .retired ∨ timerDue s tmCoreRetry 0 = false)) ∧
    (∃ s : State, ∃ i : Fin 3, s.boot ≠ .held ∧ pll s (4 + i) = .inUse) ∧
    (∃ s : State, ∃ i : Fin 3, s.boot ≠ .held ∧ (pll s (4 + i) = .locking ∨ (pll s (4 + i) = .settling ∧
      timerDue s tmSettle (4 + i) = true)) ∧ s.clk.refC = true) ∧
    (∃ s : State, ∃ p : Fin 2, s.boot ≠ .held ∧ (port s p).up = true) :=
  ⟨⟨{ { up with clk := { up.clk with coreSrc := .bypass, pll := [(2, .locking)] } } with timers := smIns (timerKey tmRelock 0) 0 [] }, by decide +kernel⟩,
   ⟨{ { up with clk := { up.clk with coreSrc := .bypass, pll := [(2, .locking), (3, .standbyReady)] } } with timers := smIns (timerKey tmRelock 0) 0 [] }, by decide +kernel⟩,
   ⟨up, by decide +kernel⟩,
   ⟨{ up with clk := { up.clk with coreSrc := .bypass, pll := [(2, .locking), (3, .retired)] } }, by decide +kernel⟩,
   ⟨up, by decide +kernel⟩,
   ⟨up, 2, by decide +kernel⟩,
   ⟨{ up with clk := { up.clk with pll := [(6, .locking)] } }, 2, by decide +kernel⟩,
   ⟨up, 1, by decide +kernel⟩⟩

/-- The premises of each clause of TimeCommands are met by some state and operands. -/
theorem witness_TimeCommands :
    (∃ s : State, ∃ n : Nat, HostTurn s n 0x0700 12 false ∧ s.slc.lease = some n ∧ tbSource (cfg s) ≠ 1 ∧
      s.tb.state ≠ .unset) ∧
    (∃ s : State, ∃ n : Nat, HostTurn s n 0x0700 12 false ∧ s.slc.lease = some n ∧ tbSource (cfg s) = 0 ∧
      s.tb.state = .unset) ∧
    (∃ s : State, ∃ n : Nat, HostTurn s n 0x0700 12 false ∧ s.slc.lease = some n ∧ tbSource (cfg s) ≠ 1) ∧
    (∃ s : State, ∃ n : Nat, HostTurn s n 0x0700 12 false ∧ (s.slc.lease ≠ some n ∨ tbSource (cfg s) = 1)) ∧
    (∃ s : State, s.boot ≠ .held) ∧
    (∃ s : State, ∃ n : Nat, ∃ st : Stamp, s.boot ≠ .held ∧ timeWaiters s = [(n, st)] ∧ timerDue s tmTimeSet n = true) ∧
    (∃ s : State, ∃ n : Nat, HostTurn s n 0x0701 24 true) :=
  ⟨⟨up, 1, by decide +kernel⟩,
   ⟨{ up with tb := {} }, 1, by decide +kernel⟩,
   ⟨up, 1, by decide +kernel⟩,
   ⟨conf [(0x10100, 1)] up, 1, by decide +kernel⟩,
   ⟨up, by decide +kernel⟩,
   ⟨{ up with slc := { up.slc with sessions := [(1, { kind := .active, wait := some (.timeSet 5) })] } }, 1, 5,
     by decide +kernel⟩,
   ⟨up, 2, by decide +kernel⟩⟩

/-- The premises of each clause of TimeStates are met by some state and operands. -/
theorem witness_TimeStates :
    (∃ s : State, s.boot ≠ .held ∧ (s.tb.state = .acquiring ∨ s.tb.state = .locked) ∧ timerDue s tmMeas 0 = true) ∧
    (∃ s : State, s.boot ≠ .held ∧ s.tb.state = .holdover ∧ timerDue s tmHoldover 0 = true) ∧
    (∃ s : State, s.boot ≠ .held ∧ cfgB s 0x10110 0 = true ∧ (timeValid s = true ∨ cfgB s 0x10110 1 = true) ∧
      crossesSecond s = true) ∧
    (∃ s : State, (crossesSecond s = false ∨ cfgB s 0x10110 0 = false ∨ (timeValid s = false ∧ cfgB s 0x10110 1 = false))) ∧
    (∃ s : State, s.boot ≠ .held ∧ timerDue s tmPpsWidth 0 = true) ∧
    (∃ s : State, timerDue s tmPpsWidth 0 = false) ∧
    (∃ s : State, timerDue s tmMeas 0 = false) ∧
    (∃ s : State, timerDue s tmHoldover 0 = false) ∧
    (∃ s : State, s.boot ≠ .held ∧ s.tb.leapSign ≠ 0 ∧ s.tb.leapDone = false ∧ s.tb.leapAt * second ≤ now s) :=
  ⟨⟨{ up with tb := { up.tb with state := .locked } }, by decide +kernel⟩,
   ⟨{ up with tb := { up.tb with state := .holdover } }, by decide +kernel⟩,
   ⟨conf [(0x10110, 1)] { up with tb := { up.tb with acc := 5 * second * 2 ^ 32 } }, by decide +kernel⟩,
   ⟨up, by decide +kernel⟩,
   ⟨up, by decide +kernel⟩,
   ⟨{ up with timers := smIns (timerKey tmPpsWidth 0) 1 [] }, by decide +kernel⟩,
   ⟨{ up with timers := smIns (timerKey tmMeas 0) 1 [] }, by decide +kernel⟩,
   ⟨{ up with timers := smIns (timerKey tmHoldover 0) 1 [] }, by decide +kernel⟩,
   ⟨{ up with tb := { up.tb with leapSign := 1, leapAt := 4 } }, by decide +kernel⟩⟩

/-- The premises of each clause of PtpCommands are met by some state and operands. -/
theorem witness_PtpCommands :
    (∃ s : State, ∃ p : Fin 2, s.boot ≠ .held ∧ p.val ≠ ptpPort s) ∧
    (∃ s : State, ∃ p : Fin 2, ∃ m : PtpMsg, s.boot ≠ .held ∧ p.val = ptpPort s ∧ tbSource (cfg s) = 1 ∧
      m.kind = .announce ∧ m.better = true) ∧
    (∃ s : State, ∃ p : Fin 2, ∃ m : PtpMsg, s.boot ≠ .held ∧ p.val = ptpPort s ∧ tbSource (cfg s) = 1 ∧
      m.kind = .announce ∧ m.better = false) ∧
    (∃ s : State, ∃ p : Fin 2, ∃ m : PtpMsg, s.boot ≠ .held ∧ p.val = ptpPort s ∧ tbSource (cfg s) = 1 ∧
      m.kind = .delayReq ∧ cfgB s 0xA2000 2 = true) ∧
    (∃ s : State, ∃ p : Fin 2, ∃ m : PtpMsg, s.boot ≠ .held ∧ p.val = ptpPort s ∧ tbSource (cfg s) = 1 ∧
      m.kind = .delayReq ∧ cfgB s 0xA2000 2 = false ∧ s.ptp.master = true) ∧
    (∃ s : State, ∃ p : Fin 2, ∃ m : PtpMsg, ∃ off : Int, s.boot ≠ .held ∧ p.val = ptpPort s ∧ tbSource (cfg s) = 1 ∧
      (m.kind = .sync ∨ m.kind = .followUp ∨ m.kind = .delayResp) ∧ m.parent % 2 ^ 64 = ptpParent s ∧
      (s.ptp.state = 8 ∨ s.ptp.state = 9) ∧ m.offset = some off ∧ -(2 ^ 31) ≤ (off - ptpAsym s p) ∧
      (off - ptpAsym s p) < 2 ^ 31 ∧ 256 * (off - ptpAsym s p) ≤ (now s : Nat)) ∧
    (∃ s : State, s.boot ≠ .held ∧ s.ptp.master = true ∧ tbSource (cfg s) = 1 ∧ s.ptp.syncAt ≤ s.cnt.ticks) ∧
    (∃ s : State, s.boot ≠ .held ∧ tbSource (cfg s) = 1 ∧ (s.ptp.state = 8 ∨ s.ptp.state = 9) ∧ s.ptp.reqAt ≤ s.cnt.ticks) ∧
    (∃ s : State, s.boot ≠ .held ∧ s.ptp.master = true ∧ tbSource (cfg s) = 1 ∧ s.ptp.annAt ≤ s.cnt.ticks) :=
  ⟨⟨up, 1, by decide +kernel⟩,
   ⟨conf [(0x10100, 1)] up, 0,
     { kind := .announce, offset := none, delay := 0, parent := 0, better := true, utc := 0, leap61 := false, leap59 := false, rxStamp := 0 }, by decide +kernel⟩,
   ⟨conf [(0x10100, 1)] up, 0,
     { kind := .announce, offset := none, delay := 0, parent := 0, better := false, utc := 0, leap61 := false, leap59 := false, rxStamp := 0 }, by decide +kernel⟩,
   ⟨conf [(0x10100, 1), (0xA2000, 4)] up, 0,
     { kind := .delayReq, offset := none, delay := 0, parent := 0, better := false, utc := 0, leap61 := false, leap59 := false, rxStamp := 0 }, by decide +kernel⟩,
   ⟨conf [(0x10100, 1)] { up with ptp := { master := true } }, 0,
     { kind := .delayReq, offset := none, delay := 0, parent := 0, better := false, utc := 0, leap61 := false, leap59 := false, rxStamp := 0 }, by decide +kernel⟩,
   ⟨conf [(0x10100, 1)] { up with ptp := { state := 9 } }, 0,
     { kind := .delayResp, offset := some (2 ^ 31 - 1), delay := 0, parent := 0, better := false, utc := 0, leap61 := false, leap59 := false, rxStamp := 0 }, 2 ^ 31 - 1, by decide +kernel⟩,
   ⟨conf [(0x10100, 1)] { up with ptp := { master := true } }, by decide +kernel⟩,
   ⟨conf [(0x10100, 1)] { up with ptp := { state := 8 } }, by decide +kernel⟩,
   ⟨conf [(0x10100, 1)] { up with ptp := { master := true } }, by decide +kernel⟩⟩

/-- The premises of each clause of TiuCommands are met by some state and operands. -/
theorem witness_TiuCommands :
    (∃ s : State, ∃ ch : Fin 12, ∃ c k : Nat, ∃ rising : Bool, s.boot ≠ .held ∧ pll s 1 = .inUse ∧
      (tiuCh s ch).failed = false ∧ k < 768 ∧ takesEdge (tiuSlope (cfg s) ch) rising = true ∧
      inDead (tiuCh s ch) c = false) ∧
    (∃ s : State, ∃ ch : Fin 12, ∃ c k : Nat, ∃ rising : Bool, s.boot ≠ .held ∧ pll s 1 = .inUse ∧
      (tiuCh s ch).failed = false ∧ k < 768 ∧ takesEdge (tiuSlope (cfg s) ch) rising = true ∧
      inDead (tiuCh s ch) c = true) ∧
    (∃ s : State, ∃ p : Fin 4, ∃ c k : Nat, ∃ rising : Bool, s.boot ≠ .held ∧ pll s 1 = .inUse ∧
      (tiuCh s p).failed = false ∧ k < 768 ∧ takesEdge (tiuSlope (cfg s) p) rising = true ∧
      inDead (tiuCh s p) c = false ∧ (lch s p).shots.any (inWindow (edgeOf s p c k rising).stamp) = false) ∧
    (∃ s : State, ∃ p : Fin 4, ∃ c k : Nat, ∃ rising : Bool, ∃ x : Shot, s.boot ≠ .held ∧ pll s 1 = .inUse ∧
      (tiuCh s p).failed = false ∧ k < 768 ∧ takesEdge (tiuSlope (cfg s) p) rising = true ∧
      inDead (tiuCh s p) c = false ∧ (lch s p).shots = [x] ∧ x.launch = none ∧
      inWindow (edgeOf s p c k rising).stamp x = true) ∧
    (∃ s : State, ∃ ch : Fin 12, ∃ c k : Nat, ∃ rising : Bool, s.boot ≠ .held ∧ pll s 1 = .inUse ∧
      (tiuCh s ch).failed = false ∧ k < 768 ∧ takesEdge (tiuSlope (cfg s) ch) rising = true ∧
      inDead (tiuCh s ch) c = false ∧ 5 ≤ ch.val) ∧
    (∃ s : State, ∃ c k : Nat, s.boot ≠ .held ∧ pll s 1 = .inUse ∧ (tiuCh s 4).failed = false ∧ tiuSlope (cfg s) 4 ≠ 0 ∧
      k < 768 ∧ inDead (tiuCh s 4) c = false) ∧
    (∃ s : State, ∃ m : Fin 4, ∃ a : Edge, s.boot ≠ .held ∧ (ctxCfg (cfg s) m).mode ≠ 3 ∧ (ctxCfg (cfg s) m).nStat = 1 ∧
      (tiuCtx s m).start = some a ∧ ((ctxCfg (cfg s) m).win : Int) ≤ coarseDiff s.cnt.coarse.toNat a.c ∧
      s.tiu.fifo.length < 4096) :=
  ⟨⟨conf [(0x31160, 0x4000)] { up with tiu := { chs := [(11, { ready := true, dead := 65 })] } }, 11, 0, 767, true,
    by decide +kernel⟩,
   ⟨conf [(0x31160, 0x4000)] { up with tiu := { chs := [(11, { ready := true, dead := 64 })] } }, 11, 0, 767, true,
     by decide +kernel⟩,
   ⟨conf [(0x31060, 0x4000)] { up with tiu := { chs := [(3, { ready := true })] } }, 3, 0, 0, true, by decide +kernel⟩,
   ⟨conf [(0x31060, 0x4000)] { up with tiu := { chs := [(3, { ready := true })] }, lch := [(3, { shots := [{ window := some (2 ^ 48, 2 ^ 48) }] })] }, 3, 0, 0, true, { window := some (2 ^ 48, 2 ^ 48) }, by decide +kernel⟩,
   ⟨conf [(0x31160, 0x4000)] { up with tiu := { chs := [(11, { ready := true, dead := 65 })] } }, 11, 0, 0, true,
     by decide +kernel⟩,
   ⟨conf [(0x31080, 0x4000)] { up with tiu := { chs := [(4, { ready := true })] } }, 0, 0, by decide +kernel⟩,
   ⟨{ up with tiu := { ctxs := [(3, { start := some { c := 0, f16 := 0, dly := 0, stamp := 0, tqb := 0, flags := 0 } })] }, cnt := { coarse := 2 ^ 40 } }, 3, { c := 0, f16 := 0, dly := 0, stamp := 0, tqb := 0, flags := 0 }, by decide +kernel⟩⟩

/-- The premises of each clause of TiuCalibration are met by some state and operands. -/
theorem witness_TiuCalibration :
    (∃ s : State, ∃ ch : Fin 12, ∃ n1 n2 : Nat, s.boot ≠ .held ∧ calibratable s ch = true ∧ (tiuCh s ch).ready = false ∧
      beforeDead (tiuCh s ch) s.cnt.coarse.toNat = false ∧ calPasses n1 n2 = true) ∧
    (∃ s : State, ∃ ch : Fin 12, ∃ n1 n2 : Nat, s.boot ≠ .held ∧ calibratable s ch = true ∧ calEach (cfg s) ch = false ∧
      (tiuCh s ch).inCal = true ∧ beforeDead (tiuCh s ch) s.cnt.coarse.toNat = false ∧ calPasses n1 n2 = true) ∧
    (∃ s : State, ∃ ch : Fin 12, ∃ n1 n2 : Nat, s.boot ≠ .held ∧ calibratable s ch = true ∧ (tiuCh s ch).ready = false ∧
      beforeDead (tiuCh s ch) s.cnt.coarse.toNat = false ∧ calPasses n1 n2 = false ∧ (tiuCh s ch).fails < 2) ∧
    (∃ s : State, ∃ ch : Fin 12, ∃ n1 n2 k : Nat, s.boot ≠ .held ∧ calibratable s ch = true ∧
      (tiuCh s ch).ready = false ∧ beforeDead (tiuCh s ch) s.cnt.coarse.toNat = false ∧ calPasses n1 n2 = false ∧
      2 ≤ (tiuCh s ch).fails ∧
      spareFree { s with tiu := { s.tiu with retired := s.tiu.retired ||| BitVec.ofNat 14 (2 ^ lineOf s ch), spareOf := s.tiu.spareOf.filter fun e => decide (e.2 ≠ ch.val) } } = some k) ∧
    (∃ s : State, ∃ l : Fin 2, ∃ n1 n2 : Nat, s.boot ≠ .held ∧ pll s 1 = .inUse ∧ smFind l.val s.tiu.spareOf = none ∧
      s.tiu.retired.getLsbD (12 + l.val) = false ∧ timerDue s tmSpareCal l = true ∧ calPasses n1 n2 = true) ∧
    (∃ s : State, ∃ l : Fin 2, ∃ n1 n2 : Nat, s.boot ≠ .held ∧ pll s 1 = .inUse ∧ smFind l.val s.tiu.spareOf = none ∧
      s.tiu.retired.getLsbD (12 + l.val) = false ∧ timerDue s tmSpareCal l = true ∧ calPasses n1 n2 = false) :=
  ⟨⟨conf [(0x31160, 0x4000)] { up with tiu := { chs := [(11, {})] } }, 11, 426, 760, by decide +kernel⟩,
   ⟨conf [(0x31160, 0x4000)] { up with tiu := { chs := [(11, { ready := true, inCal := true })] } }, 11, 200, 450,
     by decide +kernel⟩,
   ⟨conf [(0x31160, 0x4000)] { up with tiu := { chs := [(11, { fails := 1 })] } }, 11, 200, 449, by decide +kernel⟩,
   ⟨conf [(0x31160, 0x4000)] { up with tiu := { chs := [(11, { fails := 2 })] } }, 11, 200, 449, 0, by decide +kernel⟩,
   ⟨up, 1, 200, 534, by decide +kernel⟩,
   ⟨up, 1, 200, 535, by decide +kernel⟩⟩

/-- The premises of each clause of Rotation are met by some state and operands. -/
theorem witness_Rotation :
    (∃ s : State, ∃ c : Fin 16, ∃ m : SliceMeas, ∃ sp : Nat, s.boot ≠ .held ∧ (conv s c).spare = some sp ∧
      (conv s c).on = true ∧ (conv s c).qcal = none ∧ s.clk.stopped = false ∧
      (conv s c).rotStart + rotLen (cfg s) ≤ s.cnt.smp ∧ sliceCheck m = 0 ∧ (conv s c).faulty = []) ∧
    (∃ s : State, ∃ c : Fin 16, ∃ m : SliceMeas, ∃ sp : Nat, s.boot ≠ .held ∧ (conv s c).spare = some sp ∧
      (conv s c).on = true ∧ (conv s c).qcal = none ∧ s.clk.stopped = false ∧
      (conv s c).rotStart + rotLen (cfg s) ≤ s.cnt.smp ∧ sliceCheck m ≠ 0 ∧ (conv s c).faulty = [] ∧
      (conv s c).retired = 0) ∧
    (∃ s : State, ∃ c : Fin 16, ∃ m : SliceMeas, ∃ sp k : Nat, s.boot ≠ .held ∧ (conv s c).spare = some sp ∧
      (conv s c).qcal = some k ∧ k + 1 < 9 ∧ (conv s c).qcalWin = false ∧ (conv s c).failed = false ∧
      (conv s c).retired = 0 ∧ s.clk.stopped = false ∧ (conv s c).stepStart + stepLen (cfg s) ≤ s.cnt.smp ∧
      sliceCheck m = 0 ∧ (conv s c).faulty = []) ∧
    (∃ s : State, ∃ c : Fin 16, ∃ m : SliceMeas, ∃ sp : Nat, s.boot ≠ .held ∧ (conv s c).spare = some sp ∧
      (conv s c).qcal = some 8 ∧ (conv s c).qcalWin = false ∧ (conv s c).failed = false ∧ (conv s c).retired = 0 ∧
      s.clk.stopped = false ∧ (conv s c).stepStart + stepLen (cfg s) ≤ s.cnt.smp ∧ sliceCheck m = 0 ∧
      (conv s c).faulty = [] ∧ s.regs.cmdQueued = [] ∧ s.cnv.qcalOpen = true ∧ (∀ j < 16,
      j ≠ c.val → (conv s j).qcal = none)) :=
  ⟨⟨{ { up with cnt := { smp := 10 ^ 15 } } with cnv := { convs := [(15, { on := true })] } }, 15,
    { gainErr := 0, offset := 0, skew := 0, bist := true }, 8, by decide +kernel⟩,
   ⟨{ { up with cnt := { smp := 10 ^ 15 } } with cnv := { convs := [(15, { on := true })] } }, 15,
     { gainErr := 0, offset := 0, skew := 0, bist := false }, 8, by decide +kernel⟩,
   ⟨{ { up with cnt := { smp := 10 ^ 15 } } with cnv := { convs := [(15, { on := true, qcal := some 7 })] } }, 15,
     { gainErr := 0, offset := 0, skew := 0, bist := true }, 8, 7, by decide +kernel⟩,
   ⟨{ up with cnv := { convs := [(15, { on := true, qcal := some 8 })], qcalOpen := true }, cnt := { smp := 10 ^ 15 } },
     15, { gainErr := 0, offset := 0, skew := 0, bist := true }, 8, by decide +kernel⟩⟩

/-- The premises of each clause of ConverterChecks are met by some state and operands. -/
theorem witness_ConverterChecks :
    (∃ s : State, ∃ c : Fin 16, ∃ l : List PosStat, s.boot ≠ .held ∧ iscFailed l = [] ∧ (conv s c).qcal = none) ∧
    (∃ s : State, ∃ c : Fin 16, ∃ l : List PosStat, ∃ m : Option SliceMeas, ∃ q sp : Nat, s.boot ≠ .held ∧
      cfgB s 0x20008 31 = true ∧ (conv s c).on = true ∧ (conv s c).inWindow = false ∧ s.clk.stopped = false ∧
      l.length = 8 ∧ iscFailed l = [q] ∧ (conv s c).spare = some sp ∧ ((conv s c).spareOk = true ∨ ∃ v, m = some v ∧
      sliceCheck v = 0 ∧ (conv s c).rotStart + rotLen (cfg s) / 2 ≤ s.cnt.smp) ∧ (conv s c).qcal = none ∧
      (conv s c).retired = 0 ∧ (conv s c).faulty = []) ∧
    (∃ s : State, ∃ c : Fin 16, ∃ l : List PosStat, ∃ m : Option SliceMeas, ∃ q sp : Nat, s.boot ≠ .held ∧
      cfgB s 0x20008 31 = true ∧ (conv s c).on = true ∧ (conv s c).inWindow = false ∧ s.clk.stopped = false ∧
      l.length = 8 ∧ iscFailed l = [q] ∧ (conv s c).spare = some sp ∧ (conv s c).spareOk = false ∧
      sparePassed s c m = none ∧ (conv s c).qcal = none ∧ (conv s c).pos.getD q 0 ∉ (conv s c).faulty) ∧
    (∃ s : State, ∃ c : Fin 16, ∃ p a : Nat, s.boot ≠ .held ∧ onEight (conv s c) = true ∧ (conv s c).inWindow = false ∧
      s.clk.stopped = false ∧ portOfLane (cfg s) (laneOfConv (cfg s) c) = some p ∧ fgPlace s p = some a ∧
      (conv s c).fgFrom ≠ a) ∧
    (∃ s : State, ∃ c : Fin 16, ∃ ms : List SliceMeas, s.boot ≠ .held ∧ (conv s c).inWindow = true ∧
      (conv s c).qcalWin = false ∧ windowOver s (conv s c) = true ∧ s.regs.cmdQueued = [] ∧ (∀ m ∈ ms, sliceCheck m = 0)) ∧
    (∃ s : State, ∃ c : Fin 16, ∃ codes : List (List Int), s.boot ≠ .held ∧ (conv s c).on = true ∧ 0 < codes.length ∧
      codes.length ≤ 64 ∧ (conv s c).done + codes.length ≤ s.cnt.smp / 32000) :=
  ⟨⟨up, 15, [], by decide +kernel⟩,
   ⟨conf [(0x20008, 0x80000000)] { up with cnv := { convs := [(15, { on := true, spareOk := true })] } }, 15,
     [{ mean := 0, meanSq := 2 ^ 42 }, { mean := 0, meanSq := 2 ^ 42 }, { mean := 0, meanSq := 2 ^ 42 },
     { mean := 0, meanSq := 2 ^ 42 }, { mean := 0, meanSq := 2 ^ 42 }, { mean := 0, meanSq := 2 ^ 42 },
     { mean := 0, meanSq := 2 ^ 42 }, { mean := 0, meanSq := 0 }], none, 7, 8, ⟨by decide +kernel, by decide +kernel,
     by decide +kernel, by decide +kernel, by decide +kernel, by decide +kernel, by decide +kernel, by decide +kernel,
     Or.inl (by decide +kernel), by decide +kernel, by decide +kernel, by decide +kernel⟩⟩,
   ⟨conf [(0x20008, 0x80000000)] { up with cnv := { convs := [(15, { on := true })] } }, 15,
     [{ mean := 0, meanSq := 2 ^ 42 }, { mean := 0, meanSq := 2 ^ 42 }, { mean := 0, meanSq := 2 ^ 42 },
     { mean := 0, meanSq := 2 ^ 42 }, { mean := 0, meanSq := 2 ^ 42 }, { mean := 0, meanSq := 2 ^ 42 },
     { mean := 0, meanSq := 2 ^ 42 }, { mean := 0, meanSq := 0 }], none, 7, 8, by decide +kernel⟩,
   ⟨conf [(0x20010, 3)] { { up with lch := [(0, { armed := true, grid := some 0, fgSpan := some (8, 10 ^ 12) })], cnt := { smp := 10 ^ 15 } } with cnv := { convs := [(0, { on := true, retired := 1 })] } }, 0, 0, 8, by decide +kernel⟩,
   ⟨{ up with cnv := { convs := [(15, { inWindow := true })] } }, 15,
     [{ gainErr := 0, offset := 0, skew := 0, bist := true }], by decide +kernel⟩,
   ⟨{ { up with cnt := { smp := 10 ^ 15 } } with cnv := { convs := [(15, { on := true })] } }, 15, [[0]],
     by decide +kernel⟩⟩

/-- The premises of each clause of Launches are met by some state and operands. -/
theorem witness_Launches :
    (∃ s : State, ∃ p : Fin 4, ∃ g : Nat, s.boot ≠ .held ∧ (lch s p).grid = some g ∧ 0 < (lch s p).next ∧
      launching s p = true ∧ (lch s p).alignHold = false ∧ (lch s p).fgSkip = 0 ∧
      tickCome s (g + (lch s p).next * spacingOf (cfg s) p) = true) ∧
    (∃ s : State, ∃ p : Fin 4, ∃ g : Nat, s.boot ≠ .held ∧ (lch s p).grid = some g ∧ 0 < (lch s p).next ∧
      launching s p = true ∧ ((lch s p).alignHold = true ∨ 0 < (lch s p).fgSkip) ∧
      tickCome s (g + (lch s p).next * spacingOf (cfg s) p) = true) ∧
    (∃ s : State, ∃ p : Fin 4, ∃ g : Nat, (lch s p).grid = some g ∧
      tickCome s (g + (lch s p).next * spacingOf (cfg s) p) = false) ∧
    (∃ s : State, ∃ p : Fin 4, s.boot ≠ .held ∧ s.clk.resume = false ∧ leadEdge s p 0 ≤ sliceEdge s ∧
      launching s p = true ∧ (lch s p).grid = none ∧ (lch s p).fallback = [] ∧ calDone s p = true ∧ s.commits.align = []) ∧
    (∃ s : State, ∃ p : Fin 4, s.boot ≠ .held ∧ (lch s p).armed = true ∧
      ((lch s p).grid = none ∨ (lch s p).alignHold = true ∨ ∃ g, (lch s p).grid = some g ∧
      tickCome s (g + (lch s p).next * spacingOf (cfg s) p - slotLead (cfg s) p) = true)) ∧
    (∃ s : State, ∃ p : Fin 4, s.boot ≠ .held ∧
      (s.clk.stopped = true ∨ tickCome s (lastLaunch (lch s p) + widthOf (cfg s) p) = true)) ∧
    (∃ s : State, ∃ p : Fin 4, s.boot ≠ .held ∧ s.clk.resume = true ∧ s.clk.stopped = false ∧ (∀ c < 16,
      (conv s c).qcal = none) ∧ (∀ q, (lch s q).fallback = []) ∧ (∀ q, q ≠ p.val → (lch s q).armed = false) ∧
      s.commits.align = [] ∧ (lch s p).armed = true ∧ (lch s p).grid = none ∧ calDone s p = true) ∧
    (∃ s : State, ∃ p : Fin 4, ∃ x : Shot, ∃ l : List Shot, s.boot ≠ .held ∧ (lch s p).shots = x :: l ∧ (∃ w,
      x.window = some w ∧ w.2 ≤ now s) ∧ x.words = none ∧ x.launch = none) ∧
    (∃ s : State, ∃ p : Fin 4, ∃ x : Shot, ∃ l : List Shot, ∃ st : Stamp, s.boot ≠ .held ∧ (lch s p).shots = x :: l ∧
      (∃ w, x.window = some w ∧ w.2 ≤ now s) ∧ x.words = none ∧ x.launch = some st) :=
  ⟨⟨{ up with lch := [(3, { armed := true, grid := some 0, next := 1 })], cnt := { smp := 10 ^ 15 } }, 3, 0,
    by decide +kernel⟩,
   ⟨{ up with lch := [(3, { armed := true, grid := some 0, next := 1, fgSkip := 1 })], cnt := { smp := 10 ^ 15 } }, 3,
     0, by decide +kernel⟩,
   ⟨{ up with lch := [(3, { armed := true, grid := some 5 })] }, 3, 5, by decide +kernel⟩,
   ⟨{ up with lch := [(3, { armed := true })], cnt := { smp := 1000000000 } }, 3, by decide +kernel⟩,
   ⟨{ up with lch := [(3, { armed := true })] }, 3, ⟨by decide +kernel, by decide +kernel, Or.inl (by decide +kernel)⟩⟩,
   ⟨{ up with cnt := { smp := 10 ^ 15 } }, 3, by decide +kernel⟩,
   ⟨{ up with lch := [(3, { armed := true })], clk := { up.clk with resume := true } }, 3, ⟨by decide +kernel,
     by decide +kernel, by decide +kernel, by decide +kernel, by intro q; simp only [lch, smGet]; split <;> rfl,
     by intro q h; simp only [lch, smGet]; exact if_neg (Ne.symm h) ▸ rfl, by decide +kernel, by decide +kernel,
     by decide +kernel, by decide +kernel⟩⟩,
   ⟨{ up with lch := [(3, { shots := [{ window := some (0, 1) }] })] }, 3, { window := some (0, 1) }, [],
     ⟨by decide +kernel, by decide +kernel, ⟨(0, 1), by decide +kernel, by decide +kernel⟩, by decide +kernel,
     by decide +kernel⟩⟩,
   ⟨{ up with lch := [(3, { shots := [{ window := some (0, 1), launch := some 1 }] })] }, 3,
     { window := some (0, 1), launch := some 1 }, [], 1, ⟨by decide +kernel, by decide +kernel, ⟨(0, 1),
     by decide +kernel, by decide +kernel⟩, by decide +kernel, by decide +kernel⟩⟩⟩

/-- The premises of each clause of ChannelStage are met by some state and operands. -/
theorem witness_ChannelStage :
    (∃ s : State, ∃ p : Fin 4, ∃ x : Shot, ∃ ts : List Shot, s.boot ≠ .held ∧ (lch s p).shots = x :: ts ∧
      x.window = none ∧ x.words = none ∧ x.cut = none) ∧
    (∃ s : State, ∃ p : Fin 4, (∀ x ∈ (lch s p).shots.head?, x.window.isSome = true)) ∧
    (∃ s : State, ∃ row : Nat, s.boot ≠ .held ∧
      (65536 ≤ row ∨ committedChannels s (row / 16384) ≤ 4 * (row % 16384) ∨ (lch s (row / 16384)).armed = false)) ∧
    (∃ s : State, ∃ k : Nat, s.boot ≠ .held ∧ s.basin.used ≤ k ∧ k < 4096 ∧ k ∉ s.basin.badSpares) ∧
    (∃ s : State, ∃ row : Nat, ∃ k, s.boot ≠ .held ∧ smGet 0 row s.basin.repair ≠ 0 ∧ nextSpare s = some k) ∧
    (∃ s : State, ∃ row : Nat, s.boot ≠ .held ∧ smGet 0 row s.basin.repair ≠ 0 ∧ nextSpare s = none) ∧
    (∃ s : State, ∃ e : Fin 4, ∃ samples : List Int, ∃ x : PTrig, ∃ ts : List PTrig, s.boot ≠ .held ∧
      (pol s e).trigs = x :: ts ∧ samples.length < polCount (cfg s) e + (if polInterp (cfg s) e then 7 else 0)) ∧
    (∃ s : State, ∃ e : Fin 4, ∃ samples : List Int, ∃ x : PTrig, ∃ ts : List PTrig, s.boot ≠ .held ∧
      (pol s e).trigs = x :: ts ∧ polInterp (cfg s) e = false ∧ polCount (cfg s) e ≤ samples.length ∧
      (pol s e).running = true) :=
  ⟨⟨{ up with lch := [(3, { shots := [{}] })] }, 3, {}, [], by decide +kernel⟩,
   ⟨up, 3, by decide +kernel⟩,
   ⟨up, 16383, by decide +kernel⟩,
   ⟨{ up with basin := { used := 4095 } }, 4095, by decide +kernel⟩,
   ⟨{ up with basin := { repair := [(65535, 1)], used := 4095 } }, 65535, 4095, by decide +kernel⟩,
   ⟨{ up with basin := { repair := [(65535, 1)], used := 4096 } }, 65535, by decide +kernel⟩,
   ⟨{ up with pol := [(3, { trigs := [{ t := 0, f := 0, stamp := 0, tqb := 0 }] })] }, 3, [],
     { t := 0, f := 0, stamp := 0, tqb := 0 }, [], by decide +kernel⟩,
   ⟨conf [(0x51808, 1)] { up with pol := [(3, { running := true, trigs := [{ t := 0, f := 0, stamp := 0, tqb := 0 }] })] }, 3, [5], { t := 0, f := 0, stamp := 0, tqb := 0 }, [], by decide +kernel⟩⟩

/-- The premises of each clause of WeirUnits are met by some state and operands. -/
theorem witness_WeirUnits :
    (∃ s : State, s.boot ≠ .held ∧ s.clk.stopped = true) ∧
    (∃ s : State, ∃ i : Nat, ∃ xs : List (Nat × Int), ∃ u : Fin 8, ∃ l : Nat, ∃ v : Int, ∃ d : Cond, s.boot ≠ .held ∧
      s.clk.stopped = false ∧ (∀ w : Fin 8, (unitSt s w).armed = decide (w = u)) ∧ (unitSt s u).force = false ∧
      unitSource (cfg s) u = 0 ∧ xs.find? (fun e => decide (e.1 = ownLane (cfg s) u)) = some (l, v) ∧
      condStep (unitCond (cfg s) u) i v (unitSt s u).cond = (d, none)) ∧
    (∃ s : State, ∃ i : Nat, ∃ xs : List (Nat × Int), ∃ u : Fin 8, ∃ l : Nat, ∃ v : Int, ∃ d : Cond, ∃ a : Int,
      s.boot ≠ .held ∧ s.clk.stopped = false ∧ (∀ w : Fin 8, (unitSt s w).armed = decide (w = u)) ∧
      (unitSt s u).force = false ∧ unitSource (cfg s) u = 0 ∧
      xs.find? (fun e => decide (e.1 = ownLane (cfg s) u)) = some (l, v) ∧
      condStep (unitCond (cfg s) u) i v (unitSt s u).cond = (d, some a) ∧ captures (cfg s) (.unit u) = false ∧
      (unitSt s u).hold = .none ∧ (unitSt s u).deadOpen = none) ∧
    (∃ s : State, ∃ u : UnitId, ∃ q : Nat, s.boot ≠ .held ∧ (wst s u).hold = .until q ∧ clockPast s u q = false) ∧
    (∃ s : State, ∃ u : UnitId, ∃ q : Nat, s.boot ≠ .held ∧ (wst s u).hold = .until q ∧ clockPast s u q = true) ∧
    (∃ s : State, ∃ u : UnitId, ∃ id : Nat, s.boot ≠ .held ∧ (wst s u).post = some id ∧ windowDone s u = true ∧
      inService s u = true ∧ captures (cfg s) u = true ∧ ((wst s u).alloc = .none ∨ (wst s u).alloc = .asked)) ∧
    (∃ s : State, ∃ u : UnitId, windowDone s u = false) ∧
    (∃ s : State, ∃ u : UnitId, ∃ a : Nat, s.boot ≠ .held ∧ (wst s u).alloc = .asked ∧
      regionOn (cfg s) (regionOf (cfg s) u) = true ∧ dramUp s (dirBase (cfg s)) 64 = true ∧ slotsFree s ≠ 0 ∧
      placeAt s (regionOf (cfg s) u) (ownSize (cfg s) u) = some a ∧ dramUp s a (ownSize (cfg s) u) = true ∧
      (∀ g ∈ segsIn s (regionOf (cfg s) u),
      takeable s g = true → meets a (ownSize (cfg s) u) g.base g.len = true → dramUp s (slotAt s g.slot) 64 = true)) ∧
    (∃ s : State, ∃ u : UnitId, s.boot ≠ .held ∧ (wst s u).alloc = .asked ∧
      regionOn (cfg s) (regionOf (cfg s) u) = true ∧ dramUp s (dirBase (cfg s)) 64 = true ∧
      (slotsFree s = 0 ∨ placeAt s (regionOf (cfg s) u) (ownSize (cfg s) u) = none)) :=
  ⟨⟨{ up with clk := { up.clk with stopped := true } }, by decide +kernel⟩,
   ⟨{ up with weir := { units := [(7, { armed := true })] } }, 0, [(0, 5)], 7, 0, 5,
     (condStep (unitCond (cfg up) 7) 0 5 {}).1, by decide +kernel⟩,
   ⟨conf [(0x60700, 0x400)] { up with weir := { units := [(7, { armed := true })] } }, 0, [(0, 5)], 7, 0, 5,
     (condStep (unitCond (cfg (conf [(0x60700, 0x400)] up)) 7) 0 5 {}).1, 0, by decide +kernel⟩,
   ⟨{ up with weir := { units := [(7, { hold := .until 5 })] } }, .unit 7, 5, by decide +kernel⟩,
   ⟨{ up with weir := { units := [(7, { hold := .until 5 })] }, cnt := { str := 10 ^ 15 } }, .unit 7, 5, by decide +kernel⟩,
   ⟨conf [(0x60718, 1)] { up with weir := { units := [(7, { armed := true, post := some 1 })] } }, .unit 7, 1,
     by decide +kernel⟩,
   ⟨{ up with weir := { units := [(7, { postEnd := 1 })] } }, .unit 7, by decide +kernel⟩,
   ⟨conf [(0x71000, 1)] { memory with weir := { units := [(7, { alloc := .asked })] } }, .unit 7, 0, by decide +kernel⟩,
   ⟨conf [(0x60718, 0xFFFF0000), (0x6071C, 40000), (0x71000,
     1)] { memory with weir := { units := [(7, { alloc := .asked })] } }, .unit 7, by decide +kernel⟩⟩

/-- The premises of each clause of WeirPort are met by some state and operands. -/
theorem witness_WeirPort :
    (∃ s : State, ∃ p : Fin 4, (csc s p).queue = []) ∧
    (∃ s : State, ∃ p : Fin 4, ∃ x : TapSample, ∃ ts : List TapSample, s.boot ≠ .held ∧ (csc s p).queue = x :: ts) ∧
    (∃ s : State, ∃ p : Fin 4, ∃ x : TapSample, ∃ ts : List TapSample, ∃ w : Nat, ∃ d : Cond, ∃ a : Int,
      s.boot ≠ .held ∧ (csc s p).queue = x :: ts ∧
      fOver (weirDemand (cfg s) (enabledWatches s.regs.active) p) (weirLimit s p, 1) = false ∧
      (enabledWatches s.regs.active).filter (fun w => decide (watchFibre (cfg s) w = p) && decide (watchTap (cfg s) w = x.tap)) = [w] ∧ (watchSt s w).since ≤ x.index ∧ (watchSt s w).sinceShot ≤ x.attr.last ∧ watchCombine (cfg s) w = 0 ∧ watchCount (cfg s) w = 1 ∧ watchFirst (cfg s) w ∉ x.gaps ∧ nbit x.attr.flags 9 = false ∧ nbit x.attr.flags 20 = false ∧ condStep (watchCond (cfg s) w) x.index (watchValue (cfg s) w x (x.values.getD (watchFirst (cfg s) w) [])) (smGet {} (watchFirst (cfg s) w) (watchSt s w).chans) = (d, some a) ∧ captures (cfg s) (.watch w) = false ∧ (watchSt s w).hold = .none ∧ (watchSt s w).deadOpen = none) ∧
    (∃ s : State, ∃ n first count : Nat, HostTurn s n 0x0300 (64 * count) true ∧ (1 ≤ count ∧ count ≤ 128 ∧
      first + count ≤ 16384)) ∧
    (∃ s : State, ∃ n first count : Nat, HostTurn s n 0x0300 (64 * count) true ∧ ¬ (1 ≤ count ∧ count ≤ 128 ∧
      first + count ≤ 16384)) ∧
    (∃ s : State, ∃ k : Fin 4, s.boot ≠ .held ∧ timerDue s tmTrig k = true) ∧
    (∃ s : State, ∃ k : Fin 4, timerDue s tmTrig k = false) ∧
    (∃ s : State, s.boot ≠ .held ∧ (cfgB s 0x61010 0 = false ∨ timerDue s tmAlarm 0 = false)) ∧
    (∃ s : State, s.boot ≠ .held ∧ cfgB s 0x61010 0 = true ∧ timerDue s tmAlarm 0 = true ∧ s.weir.alarm = true) ∧
    (∃ s : State, ∃ p : Fin 4, ∃ lane lost used : Nat, s.boot ≠ .held ∧ lane < 18 ∧ smGet (0, 0) p s.weir.lanes = (lost,
      used) ∧ used < 2) ∧
    (∃ s : State, ∃ p : Fin 4, ∃ lane lost used : Nat, s.boot ≠ .held ∧ lane < 18 ∧ smGet (0, 0) p s.weir.lanes = (lost,
      used) ∧ 2 ≤ used ∧ lost < 16) ∧
    (∃ s : State, ∃ p : Fin 4, ∃ lane lost used : Nat, s.boot ≠ .held ∧ lane < 18 ∧ smGet (0, 0) p s.weir.lanes = (lost,
      used)) :=
  ⟨⟨up, 3, by decide +kernel⟩,
   ⟨{ up with csc := [(3, { queue := [tapSample] })] }, 3, tapSample, [], by decide +kernel⟩,
   ⟨conf [(0x1000000, 0x801), (0x1000008, 1)] { up with csc := [(0, { queue := [tapSample] })] }, 0, tapSample, [], 0,
     (condStep (watchCond (cfg (conf [(0x1000000, 0x801), (0x1000008, 1)] up)) 0) 0 0 {}).1, 0, by decide +kernel⟩,
   ⟨up, 2, 16256, 128, by decide +kernel⟩,
   ⟨up, 2, 16257, 128, by decide +kernel⟩,
   ⟨up, 3, by decide +kernel⟩,
   ⟨{ up with timers := smIns (timerKey tmTrig 3) 1 [] }, 3, by decide +kernel⟩,
   ⟨up, by decide +kernel⟩,
   ⟨conf [(0x61010, 1)] { up with weir := { alarm := true } }, by decide +kernel⟩,
   ⟨{ up with weir := { lanes := [(3, (0, 1))] } }, 3, 17, 0, 1, by decide +kernel⟩,
   ⟨{ up with weir := { lanes := [(3, (15, 2))] } }, 3, 17, 15, 2, by decide +kernel⟩,
   ⟨up, 3, 17, 0, 0, by decide +kernel⟩⟩

/-- The premises of each clause of SegmentEvents are met by some state and operands. -/
theorem witness_SegmentEvents :
    (∃ s : State, ∃ id : Nat, ∃ g : Seg, s.boot ≠ .held ∧ segOf s id = some g ∧ g.state = .opened ∧
      windowOpenOn s id = false ∧ segBrought s g = true ∧ dramUp s g.base g.len = true ∧
      dramUp s (slotAt s g.slot) 64 = true) ∧
    (∃ s : State, ∃ id : Nat, ∃ g : Seg, segOf s id = some g ∧ (windowOpenOn s id = true ∨ segBrought s g = false)) ∧
    (∃ s : State, ∃ u : UnitId, s.boot ≠ .held ∧ (wst s u).suspended = true ∧
      ownSize (cfg s) u ≤ usableSize s (regionOf (cfg s) u)) ∧
    (∃ s : State, ∃ n : Nat, ∃ q : SegRead, s.boot ≠ .held ∧ (stream s n).reads = [q] ∧ q.bytes = 0) ∧
    (∃ s : State, ∃ n : Nat, ∃ q : SegRead, s.boot ≠ .held ∧ (stream s n).reads = [q] ∧ q.bytes ≠ 0) ∧
    (∃ s : State, timerDue s tmSeal 0 = false) ∧
    (∃ s : State, s.boot ≠ .held ∧ timerDue s tmSeal 0 = true ∧ sealRegions s false = []) ∧
    (∃ s : State, s.boot ≠ .held ∧ timerDue s tmSeal 0 = true ∧ sealRegions s false ≠ [] ∧ 0 < s.sec.lmsLeft ∧
      s.cis.sealWait = [] ∧ s.sec.lmsGen = false) ∧
    (∃ s : State, s.boot ≠ .held ∧ timerDue s tmSeal 0 = true ∧ sealRegions s false ≠ [] ∧ s.sec.lmsGen = true) ∧
    (∃ s : State, ∃ k : SealKind, ∃ ks : List SealKind, s.boot ≠ .held ∧ s.cis.sealWait = k :: ks ∧ s.sec.lmsGen = true) ∧
    (∃ s : State, ∃ k : SealKind, ∃ ks : List SealKind, s.boot ≠ .held ∧ s.cis.sealWait = k :: ks ∧
      s.sec.lmsGen = false ∧ 0 < s.sec.lmsLeft ∧ (k = .interval → sealRegions s false ≠ []) ∧
      (k = .host ∨ k = .cmd → sealSpaced s = true)) ∧
    (∃ s : State, ∃ k : SealKind, ∃ ks : List SealKind, s.boot ≠ .held ∧ s.cis.sealWait = k :: ks ∧
      s.sec.lmsGen = false ∧ 0 < s.sec.lmsLeft ∧ k = .interval ∧ sealRegions s false = []) ∧
    (∃ s : State, ∃ k : SealKind, ∃ ks : List SealKind, s.boot ≠ .held ∧ s.cis.sealWait = k :: ks ∧
      (k = .host ∨ k = .cmd) ∧ sealSpaced s = false) ∧
    (∃ s : State, s.boot ≠ .held ∧ (s.cis.nowWait = false ∨ sealSpaced s = false)) ∧
    (∃ s : State, s.boot ≠ .held ∧ s.cis.nowWait = true ∧ sealSpaced s = true ∧ 0 < s.sec.lmsLeft ∧
      s.cis.sealWait = [] ∧ s.sec.lmsGen = false) :=
  ⟨⟨{ memory with cis := { segs := [{ id := 1, slot := 0, region := 0, watch := false, base := 0, len := 64, units := [] }] } }, 1, { id := 1, slot := 0, region := 0, watch := false, base := 0, len := 64, units := [] }, by decide +kernel⟩,
   ⟨{ up with cis := { segs := [{ id := 1, slot := 0, region := 0, watch := false, base := 0, len := 64, units := [] }] }, weir := { units := [(7, { post := some 1 })] } }, 1, { id := 1, slot := 0, region := 0, watch := false, base := 0, len := 64, units := [] }, by decide +kernel⟩,
   ⟨{ up with weir := { units := [(7, { suspended := true })] } }, .unit 7, by decide +kernel⟩,
   ⟨{ up with spt := { streams := [(4095, { reads := [{ seg := 1, offset := 0, bytes := 0 }] })] } }, 4095,
     { seg := 1, offset := 0, bytes := 0 }, by decide +kernel⟩,
   ⟨{ up with spt := { streams := [(4095, { reads := [{ seg := 1, offset := 0, bytes := 8 }] })] } }, 4095,
     { seg := 1, offset := 0, bytes := 8 }, by decide +kernel⟩,
   ⟨{ up with timers := smIns (timerKey tmSeal 0) 1 [] }, by decide +kernel⟩,
   ⟨up, by decide +kernel⟩,
   ⟨{ up with cis := { regions := [(63, { advanced := true })] } }, by decide +kernel⟩,
   ⟨{ up with cis := { regions := [(63, { advanced := true })] }, sec := { up.sec with lmsGen := true } },
     by decide +kernel⟩,
   ⟨{ up with cis := { sealWait := [.host] }, sec := { up.sec with lmsGen := true } }, .host, [], by decide +kernel⟩,
   ⟨{ up with cis := { sealWait := [.host] } }, .host, [], by decide +kernel⟩,
   ⟨{ up with cis := { sealWait := [.interval] } }, .interval, [], by decide +kernel⟩,
   ⟨{ up with cis := { sealWait := [.host], sealAt := some 0 } }, .host, [], by decide +kernel⟩,
   ⟨up, by decide +kernel⟩,
   ⟨{ up with cis := { nowWait := true } }, by decide +kernel⟩⟩

/-- The premises of each clause of CisternCommands are met by some state and operands. -/
theorem witness_CisternCommands :
    (∃ s : State, ∃ n id : Nat, ∃ g, HostTurn s n 0x0400 72 true ∧ segOf s id = some g) ∧
    (∃ s : State, ∃ n id : Nat, HostTurn s n 0x0400 72 true ∧ segOf s id = none) ∧
    (∃ s : State, ∃ n id : Nat, ∃ g : Seg, HostTurn s n 0x0401 0 false ∧ s.slc.lease = some n ∧ segOf s id = some g) ∧
    (∃ s : State, ∃ n : Nat, HostTurn s n 0x0401 0 false ∧ s.slc.lease ≠ some n) ∧
    (∃ s : State, ∃ n id : Nat, ∃ g : Seg, HostTurn s n 0x0402 0 false ∧ s.slc.lease = some n ∧ segOf s id = some g) ∧
    (∃ s : State, ∃ n id : Nat, ∃ g : Seg, HostTurn s n 0x0403 0 false ∧ s.slc.lease = some n ∧ segOf s id = some g ∧
      g.state = .closed ∧ g.pinned = false ∧ g.held = 0 ∧ g.region < 64 ∧ (∀ c ∈ s.dram.chmap, c < 16)) ∧
    (∃ s : State, ∃ n id : Nat, ∃ g : Seg, HostTurn s n 0x0403 0 false ∧ s.slc.lease = some n ∧ segOf s id = some g ∧
      (g.state = .opened ∨ g.pinned = true)) ∧
    (∃ s : State, ∃ n id : Nat, ∃ g : Seg, HostTurn s n 0x0403 0 false ∧ s.slc.lease = some n ∧ segOf s id = some g ∧
      g.state = .closed ∧ g.pinned = false ∧ 0 < g.held) ∧
    (∃ s : State, ∃ n st id offset bytes : Nat, ∃ g : Seg, HostTurn s n 0x0404 2 false ∧ st < 4096 ∧
      streamOn s st = true ∧ streamType s st = 3 ∧ segOf s id = some g ∧ g.state = .closed ∧ offset < g.len ∧
      offset + (if bytes = 0 then g.len - offset else bytes) ≤ g.len ∧ (stream s st).reads.length < 16) ∧
    (∃ s : State, ∃ n st id offset bytes : Nat, ∃ g : Seg, HostTurn s n 0x0404 2 false ∧ st < 4096 ∧
      streamOn s st = true ∧ streamType s st = 3 ∧ segOf s id = some g ∧ g.state = .closed ∧ offset < g.len ∧
      offset + (if bytes = 0 then g.len - offset else bytes) ≤ g.len ∧ 16 ≤ (stream s st).reads.length) ∧
    (∃ s : State, ∃ n : Nat, HostTurn s n 0x0405 8 false ∧ s.slc.lease = some n ∧ sealSpaced s = true) ∧
    (∃ s : State, ∃ n : Nat, HostTurn s n 0x0405 8 false ∧ s.slc.lease = some n ∧ sealSpaced s = false) ∧
    (∃ s : State, ∃ n i : Nat, HostTurn s n 0x0405 (s.cis.seals.getD i []).length true ∧ i < 16 ∧ i < s.cis.seals.length) ∧
    (∃ s : State, ∃ n i : Nat, HostTurn s n 0x0405 (s.cis.seals.getD i []).length true ∧ i < 16 ∧ s.cis.seals.length ≤ i) :=
  ⟨⟨{ up with cis := { segs := [{ id := 1, slot := 0, region := 0, watch := false, base := 0, len := 64, units := [] }] } }, 2, 1, { id := 1, slot := 0, region := 0, watch := false, base := 0, len := 64, units := [] }, by decide +kernel⟩,
   ⟨up, 2, 1, by decide +kernel⟩,
   ⟨{ up with cis := { segs := [{ id := 1, slot := 0, region := 0, watch := false, base := 0, len := 64, units := [] }] } }, 1, 1, { id := 1, slot := 0, region := 0, watch := false, base := 0, len := 64, units := [] }, by decide +kernel⟩,
   ⟨up, 2, by decide +kernel⟩,
   ⟨{ up with cis := { segs := [{ id := 1, slot := 0, region := 0, watch := false, base := 0, len := 64, units := [], pinned := true }] } }, 1, 1, { id := 1, slot := 0, region := 0, watch := false, base := 0, len := 64, units := [], pinned := true }, by decide +kernel⟩,
   ⟨{ up with cis := { segs := [{ id := 1, slot := 0, region := 0, watch := false, base := 0, len := 64, units := [], state := .closed }] } }, 1, 1, { id := 1, slot := 0, region := 0, watch := false, base := 0, len := 64, units := [], state := .closed }, by decide +kernel⟩,
   ⟨{ up with cis := { segs := [{ id := 1, slot := 0, region := 0, watch := false, base := 0, len := 64, units := [] }] } }, 1, 1, { id := 1, slot := 0, region := 0, watch := false, base := 0, len := 64, units := [] }, by decide +kernel⟩,
   ⟨{ up with cis := { segs := [{ id := 1, slot := 0, region := 0, watch := false, base := 0, len := 64, units := [], state := .closed, held := 1 }] } }, 1, 1, { id := 1, slot := 0, region := 0, watch := false, base := 0, len := 64, units := [], state := .closed, held := 1 }, by decide +kernel⟩,
   ⟨conf [(0xBFFF4, 7)] { up with cis := { segs := [{ id := 1, slot := 0, region := 0, watch := false, base := 0, len := 64, units := [], state := .closed }] } }, 2, 4095, 1, 0, 64, { id := 1, slot := 0, region := 0, watch := false, base := 0, len := 64, units := [], state := .closed }, by decide +kernel⟩,
   ⟨conf [(0xBFFF4, 7)] { ({ up with cis := { segs := [{ id := 1, slot := 0, region := 0, watch := false, base := 0, len := 64, units := [], state := .closed }] } }) with spt := { streams := [(4095, { reads := List.replicate 16 { seg := 1, offset := 0, bytes := 8 } })] } }, 2, 4095, 1, 63, 0, { id := 1, slot := 0, region := 0, watch := false, base := 0, len := 64, units := [], state := .closed }, by decide +kernel⟩,
   ⟨up, 1, by decide +kernel⟩,
   ⟨{ up with cis := { sealAt := some 0 } }, 1, by decide +kernel⟩,
   ⟨{ up with cis := { seals := List.replicate 16 [1] } }, 2, 15, by decide +kernel⟩,
   ⟨up, 2, 15, by decide +kernel⟩⟩

/-- The premises of each clause of Arming are met by some state and operands. -/
theorem witness_Arming :
    (∃ s : State, ∃ n : Nat, ∃ tg : BitVec 16, ∃ st : Option Stamp, HostTurn s n 0x0200 12 false ∧
      s.slc.lease = some n ∧ armState s tg st = true) ∧
    (∃ s : State, ∃ n : Nat, ∃ tg : BitVec 16, ∃ st : Option Stamp, HostTurn s n 0x0200 12 false ∧
      s.slc.lease = some n ∧ armState s tg st = false ∧ (∃ u < 8, tg.getLsbD (8 + u) = true ∧ badUnit s (cfg s) u = true)) ∧
    (∃ s : State, ∃ n : Nat, ∃ tg : BitVec 16, HostTurn s n 0x0200 12 false ∧ s.slc.lease = some n ∧ (∀ u < 8,
      tg.getLsbD (8 + u) = true → badUnit s (cfg s) u = false) ∧ armState s tg none = false) ∧
    (∃ s : State, ∃ n : Nat, ∃ tg : BitVec 16, ∃ st : Stamp, HostTurn s n 0x0200 12 false ∧ s.slc.lease = some n ∧
      (∀ u < 8, tg.getLsbD (8 + u) = true → badUnit s (cfg s) u = false) ∧ armState s tg (some st) = false) ∧
    (∃ s : State, s.boot ≠ .held) ∧
    (∃ s : State, ∃ n : Nat, HostTurn s n 0x0201 12 false ∧ s.slc.lease = some n) ∧
    (∃ s : State, ∃ n : Nat, HostTurn s n 0x0202 16 false) ∧
    (∃ s : State, ∃ n : Nat, HostTurn s n 0x0203 4 true) ∧
    (∃ s : State, s.boot ≠ .held ∧ s.pins.haltN = true) ∧
    (∃ s : State, s.pins.haltN = false) ∧
    (∃ s : State, s.boot ≠ .held ∧ s.pins.haltN = false) :=
  ⟨⟨up, 1, 8, none, by decide +kernel⟩,
   ⟨conf [(0x60700, 0xF)] { up with cnv := { convs := [(15, { failed := true })] } }, 1, 0x8000, none, by decide +kernel⟩,
   ⟨up, 1, 0, by decide +kernel⟩,
   ⟨up, 1, 0, 2 ^ 48 + 86400 * second, by decide +kernel⟩,
   ⟨up, by decide +kernel⟩,
   ⟨up, 1, by decide +kernel⟩,
   ⟨up, 2, by decide +kernel⟩,
   ⟨up, 2, by decide +kernel⟩,
   ⟨up, by decide +kernel⟩,
   ⟨{ up with pins := { haltN := false } }, by decide +kernel⟩,
   ⟨{ up with pins := { haltN := false } }, by decide +kernel⟩⟩

/-- The premises of each clause of StreamCommands are met by some state and operands. -/
theorem witness_StreamCommands :
    (∃ s : State, ∃ n : Nat, HostTurn s n 0x0500 16 false) ∧
    (∃ s : State, ∃ n m : Nat, HostTurn s n 0x0501 16 false ∧ m < 4096) ∧
    (∃ s : State, ∃ n m : Nat, HostTurn s n 0x0502 0 false ∧ m < 4096 ∧ s.slc.lease = some n ∧ s.pins.haltN = true) ∧
    (∃ s : State, ∃ n m : Nat, HostTurn s n 0x0502 0 false ∧ m < 4096 ∧ s.slc.lease = some n ∧ s.pins.haltN = false) ∧
    (∃ s : State, ∃ n m : Nat, HostTurn s n 0x0502 0 false ∧ m < 4096 ∧ s.slc.lease ≠ some n) ∧
    (∃ s : State, ∃ n : Nat, HostTurn s n 0x0503 0 false ∧ s.slc.lease = some n ∧ s.pins.haltN = true) ∧
    (∃ s : State, ∃ n : Nat, HostTurn s n 0x0503 0 false ∧ s.slc.lease = some n ∧ s.pins.haltN = false) ∧
    (∃ s : State, ∃ n m first count : Nat, HostTurn s n 0x0504 24 false ∧ m < 4096 ∧ 1 ≤ count ∧ count ≤ 65536 ∧
      ((stream s m).data + (stream s m).gaps) ≤ first) ∧
    (∃ s : State, ∃ n m first count : Nat, HostTurn s n 0x0504 24 false ∧ m < 4096 ∧ 1 ≤ count ∧ count ≤ 65536 ∧
      first < ((stream s m).data + (stream s m).gaps) ∧ 64 ≤ replaysNow s) ∧
    (∃ s : State, ∃ n m first count : Nat, ∃ w : WinRec, ∃ ws : List WinRec, HostTurn s n 0x0504 24 false ∧ m < 4096 ∧
      1 ≤ count ∧ count ≤ 65536 ∧ first < ((stream s m).data + (stream s m).gaps) ∧ replaysNow s < 64 ∧
      (stream s m).window = w :: ws) ∧
    (∃ s : State, ∃ n first count : Nat, HostTurn s n 0x0505 (64 * count) true ∧ 1 ≤ count ∧ count ≤ 128 ∧
      first + count ≤ 4096) :=
  ⟨⟨up, 2, by decide +kernel⟩,
   ⟨up, 2, 4095, by decide +kernel⟩,
   ⟨up, 1, 4095, by decide +kernel⟩,
   ⟨{ up with pins := { haltN := false } }, 1, 4095, by decide +kernel⟩,
   ⟨up, 2, 4095, by decide +kernel⟩,
   ⟨up, 1, by decide +kernel⟩,
   ⟨{ up with pins := { haltN := false } }, 1, by decide +kernel⟩,
   ⟨up, 2, 4095, 0, 65536, by decide +kernel⟩,
   ⟨{ up with spt := { streams := [(4095, { data := 1, retx := List.replicate 64 (0, 1) })] } }, 2, 4095, 0, 65536,
     by decide +kernel⟩,
   ⟨{ up with spt := { streams := [(4095, { data := 1, window := [{ seq := 0, addr := 0, len := 64, bytes := 64, tx := 0, dest := [], keySlot := none }] })] } }, 2, 4095, 0, 1, { seq := 0, addr := 0, len := 64, bytes := 64, tx := 0, dest := [], keySlot := none }, [], by decide +kernel⟩,
   ⟨up, 2, 3968, 128, by decide +kernel⟩⟩

/-- The premises of each clause of RecordCreation are met by some state and operands. -/
theorem witness_RecordCreation :
    (∃ s : State, ∃ n : Nat, ∃ r : Rec, ∃ rs : List Rec, s.boot ≠ .held ∧ (stream s n).ready = r :: rs ∧
      streamHalted s n = true) ∧
    (∃ s : State, ∃ n : Nat, ∃ r : Rec, ∃ rs : List Rec, s.boot ≠ .held ∧ (stream s n).ready = r :: rs ∧
      streamHalted s n = false) ∧
    (∃ s : State, ∃ n : Nat, (stream s n).ready = [] ∧ streamOn s n = false) ∧
    (∃ s : State, ∃ n : Nat, s.boot ≠ .held ∧ (stream s n).lingering = true ∧ (stream s n).lingerAt ≤ s.cnt.ticks ∧
      (stream s n).events ≠ [] ∧ streamHalted s n = false) ∧
    (∃ s : State, ∃ n : Nat, (stream s n).lingering = false ∨ s.cnt.ticks < (stream s n).lingerAt) ∧
    (∃ s : State, ∃ n : Nat, s.boot ≠ .held ∧ streamOn s n = true ∧ streamType s n = 5 ∧
      (stream s n).periodAt ≤ s.cnt.ticks ∧ snapRoom s = true) ∧
    (∃ s : State, ∃ n : Nat, s.boot ≠ .held ∧ streamOn s n = true ∧ streamType s n = 5 ∧
      (stream s n).periodAt ≤ s.cnt.ticks ∧ snapRoom s = false) :=
  ⟨⟨{ up with spt := { streams := [(4095, { ready := [{}] })], haltAll := true } }, 4095, {}, [], by decide +kernel⟩,
   ⟨{ up with spt := { streams := [(4095, { ready := [{}] })] } }, 4095, {}, [], by decide +kernel⟩,
   ⟨up, 4095, by decide +kernel⟩,
   ⟨{ up with spt := { streams := [(4095, { lingering := true, events := [0] })] } }, 4095, by decide +kernel⟩,
   ⟨up, 4095, by decide +kernel⟩,
   ⟨conf [(0xBFFF4, 0xB)] up, 4095, by decide +kernel⟩,
   ⟨conf [(0xBFFF4, 0xB)] { up with lgr := { snaps := [{ no := 1, epoch := 0, stamp := 0, tqb := 0, flags := 0, freeze := 0, hw := [], watches := [], streams := [], complete := false }, { no := 1, epoch := 0, stamp := 0, tqb := 0, flags := 0, freeze := 0, hw := [], watches := [], streams := [], complete := false }] } }, 4095, by decide +kernel⟩⟩

/-- The premises of each clause of Frames are met by some state and operands. -/
theorem witness_Frames :
    (∃ s : State, ∃ p : Fin 2, ∃ f, ∃ fs, s.boot ≠ .held ∧ (port s p).up = true ∧ (port s p).fault = false ∧
      (port s p).tx = none ∧ (port s p).classA = f :: fs) ∧
    (∃ s : State, ∃ p : Fin 2, ∃ n, ∃ deficit, ∃ x, ∃ d, s.boot ≠ .held ∧ (port s p).up = true ∧
      (port s p).fault = false ∧ (port s p).tx = none ∧ (port s p).classA = [] ∧
      drrPick s p (port s p).drrB (readyStreams s p true) = some (n, deficit, x, d)) ∧
    (∃ s : State, ∃ p : Fin 2, ∃ n, ∃ deficit, ∃ x, ∃ d, s.boot ≠ .held ∧ (port s p).up = true ∧
      (port s p).fault = false ∧ (port s p).tx = none ∧ (port s p).classA = [] ∧
      drrPick s p (port s p).drrB (readyStreams s p true) = none ∧
      drrPick s p (port s p).drrC (readyStreams s p false) = some (n, deficit, x, d)) ∧
    (∃ s : State, ∃ p : Fin 2, s.boot ≠ .held ∧ (port s p).up = true ∧ (port s p).fault = false ∧ (port s p).tx = none ∧
      (port s p).classA = [] ∧ drrPick s p (port s p).drrB (readyStreams s p true) = none ∧
      drrPick s p (port s p).drrC (readyStreams s p false) = none) ∧
    (∃ s : State, ∃ p : Fin 2, (port s p).up = false ∨ (port s p).fault = true ∨ (port s p).tx.isSome = true) ∧
    (∃ s : State, ∃ p : Fin 2, ∃ x : Tx, s.boot ≠ .held ∧ (port s p).tx = some x) ∧
    (∃ s : State, ∃ p : Fin 2, (s.boot ≠ .up ∨ (port s p).up = false)) ∧
    (∃ s : State, ∃ p : Fin 2, ∃ f : RxFrame, s.boot = .up ∧ (port s p).up = true ∧ rxPasses s p f = false) ∧
    (∃ s : State, ∃ p : Fin 2, ∃ f : RxFrame, s.boot = .up ∧ (port s p).up = true ∧ rxPasses s p f = true ∧ f.kind = .pfc) ∧
    (∃ s : State, ∃ p : Fin 2, ∃ f : RxFrame, s.boot = .up ∧ (port s p).up = true ∧ rxPasses s p f = true ∧
      isSluice s f = true ∧ 65536 < (port s p).resv + f.len) ∧
    (∃ s : State, ∃ p : Fin 2, ∃ f : RxFrame, s.boot = .up ∧ (port s p).up = true ∧ rxPasses s p f = true ∧
      isSluice s f = false ∧ f.kind ≠ .pfc ∧ ¬ (f.tags = 1 ∧ f.pcp = 7) ∧ 262144 < (port s p).bulk + f.len) ∧
    (∃ s : State, ∃ p : Fin 2, ∃ f : RxFrame, s.boot = .up ∧ (port s p).up = true ∧ rxPasses s p f = true ∧
      isSluice s f = false ∧ f.kind ≠ .pfc ∧ ¬ (f.tags = 1 ∧ f.pcp = 7) ∧ (port s p).bulk + f.len ≤ 262144) ∧
    (∃ s : State, ∃ p : Fin 2, s.boot ≠ .held ∧ (port s p).xoff = true ∧ (port s p).bulk < 131072) ∧
    (∃ s : State, ∃ p : Fin 2, s.boot ≠ .held ∧ (port s p).xoff = false ∨ 131072 ≤ (port s p).bulk) ∧
    (∃ s : State, s.boot ≠ .held) :=
  ⟨⟨{ up with ports := [(1, { up := true, classA := [{ kind := .arp, dst := 0, bytes := [] }] })] }, 1,
    { kind := .arp, dst := 0, bytes := [] }, [], by decide +kernel⟩,
   ⟨route 9, 0, 0, 9216, .item 0 (.data { dest := [2] }), [2], by decide +kernel⟩,
   ⟨route 3, 0, 0, 9216, .item 0 (.data { dest := [2] }), [2], by decide +kernel⟩,
   ⟨up, 1, by decide +kernel⟩,
   ⟨{ up with ports := [(1, { up := true, fault := true })] }, 1, by decide +kernel⟩,
   ⟨{ up with ports := [(1, { up := true, tx := some (.frame { kind := .arp, dst := 0, bytes := [] }) })] }, 1,
     .frame { kind := .arp, dst := 0, bytes := [] }, by decide +kernel⟩,
   ⟨State.reset, 1, by decide +kernel⟩,
   ⟨up, 1, { rx with badFcs := true }, by decide +kernel⟩,
   ⟨up, 1, { rx with kind := .pfc }, by decide +kernel⟩,
   ⟨{ up with ports := [(1, { up := true, resv := 65473 })] }, 1, { rx with kind := .sluice }, by decide +kernel⟩,
   ⟨{ up with ports := [(1, { up := true, bulk := 262081 })] }, 1, rx, by decide +kernel⟩,
   ⟨{ up with ports := [(1, { up := true, bulk := 262080 })] }, 1, rx, by decide +kernel⟩,
   ⟨{ up with ports := [(1, { up := true, xoff := true })] }, 1, by decide +kernel⟩,
   ⟨up, 1, by decide +kernel⟩,
   ⟨up, by decide +kernel⟩⟩

/-- The premises of each clause of Links are met by some state and operands. -/
theorem witness_Links :
    (∃ s : State, ∃ p : Fin 2, s.boot = .up ∧ portMode (cfg s) p ≠ 0 ∧ (port s p).up = false ∧
      (port s p).pllAt + 10 * msTicks ≤ s.cnt.ticks) ∧
    (∃ s : State, ∃ p : Fin 2, (port s p).up = true ∨ s.cnt.ticks < (port s p).pllAt + 10 * msTicks) ∧
    (∃ s : State, ∃ p : Fin 2, s.boot ≠ .held ∧ (port s p).up = true ∧ (port s p).fault = false) ∧
    (∃ s : State, ∃ p : Fin 2, s.boot ≠ .held ∧ (port s p).up = true ∧ (port s p).fault = true ∧
      (port s p).faultAt + linkHold s p < s.cnt.ticks) ∧
    (∃ s : State, ∃ p : Fin 2, s.boot ≠ .held ∧ (port s p).up = true ∧ (port s p).fault = true ∧
      s.cnt.ticks ≤ (port s p).faultAt + linkHold s p) ∧
    (∃ s : State, ∃ p : Fin 2, s.boot ≠ .held ∧ (port s p).up = true ∧ (port s p).fault = true ∧
      s.cnt.ticks < (port s p).faultAt + linkHold s p) ∧
    (∃ s : State, ∃ p : Fin 2, s.boot ≠ .held ∧ (port s p).up = true ∧ (port s p).fault = true ∧
      (port s p).faultAt + linkHold s p ≤ s.cnt.ticks) ∧
    (∃ s : State, ∃ n : Nat, s.boot ≠ .held ∧ (stream s n).moved = true ∧ (port s (homePort s n)).up = true ∧
      (port s (homePort s n)).upSince + secTicks * cfgF s (ethA (homePort s n) 0x10) 16 16 ≤ s.cnt.ticks) ∧
    (∃ s : State, ∃ p : Fin 2, s.boot ≠ .held ∧ cfgB s (ethA p 0x20) 0 = true ∧ (port s p).ip4Valid = true) ∧
    (∃ s : State, ∃ p : Fin 2, s.boot ≠ .held ∧ cfgB s (ethA p 0x20) 0 = true ∧ (port s p).up = true) ∧
    (∃ s : State, ∃ p : Fin 2, ∃ addr : Nat, s.boot ≠ .held ∧ (port s p).up = true ∧ linkLocal6 addr = true ∧
      addr ≠ ownLinkLocal s p) ∧
    (∃ s : State, ∃ p : Fin 2, ∃ addr : Nat, s.boot ≠ .held ∧ (port s p).up = true ∧ linkLocal6 addr = true ∧
      addr = ownLinkLocal s p) ∧
    (∃ s : State, ∃ p : Fin 2, ∃ addr : Nat, s.boot ≠ .held ∧ (port s p).up = true ∧ linkLocal6 addr = false ∧
      cfgB s (ethA p 0x30) 0 = true) ∧
    (∃ s : State, ∃ p : Fin 2, (port s p).up = false ∨ s.cnt.ticks < (port s p).retryAt) ∧
    (∃ s : State, ∃ p : Fin 2, s.boot ≠ .held ∧ (port s p).up = true ∧ (port s p).retryAt ≤ s.cnt.ticks) :=
  ⟨⟨{ up with ports := [], cnt := { ticks := 10 ^ 15 } }, 1, by decide +kernel⟩,
   ⟨up, 1, by decide +kernel⟩,
   ⟨up, 1, by decide +kernel⟩,
   ⟨{ { up with ports := [(1, { up := true, fault := true })] } with cnt := { ticks := 10 ^ 15 } }, 1, by decide +kernel⟩,
   ⟨{ up with ports := [(1, { up := true, fault := true })] }, 1, by decide +kernel⟩,
   ⟨{ up with ports := [(1, { up := true, fault := true })] }, 1, by decide +kernel⟩,
   ⟨{ { up with ports := [(1, { up := true, fault := true })] } with cnt := { ticks := 10 ^ 15 } }, 1, by decide +kernel⟩,
   ⟨{ { up with spt := { streams := [(4095, { moved := true })] } } with cnt := { ticks := 10 ^ 17 } }, 4095,
     by decide +kernel⟩,
   ⟨conf [(0xA1020, 1)] { up with ports := [(1, { up := true, ip4Valid := true })] }, 1, by decide +kernel⟩,
   ⟨conf [(0xA1020, 1)] up, 1, by decide +kernel⟩,
   ⟨{ up with sec := { up.sec with otp := idBytes } }, 1, 0x3FA * 2 ^ 118, by decide +kernel⟩,
   ⟨{ up with sec := { up.sec with otp := idBytes } }, 1,
     ownLinkLocal ({ up with sec := { up.sec with otp := idBytes } }) 1, by decide +kernel⟩,
   ⟨conf [(0xA1030, 1)] up, 1, 0x3FB * 2 ^ 118, by decide +kernel⟩,
   ⟨{ up with ports := [(1, { up := true, retryAt := 1 })] }, 1, by decide +kernel⟩,
   ⟨up, 1, by decide +kernel⟩⟩

end Sys2Proof.Tests
end

section
/-!
PROOFS. Who may change the committed configuration, the lease and the keys (O18). `owned` reads the values in question off a
state. For each operation of the model one lemma says that it leaves them alone (or, for the few that do not, what becomes of
them); the lemma of an operation cites those of the operations it calls, so that nothing is unfolded twice. They stand in the
order of the model's files. The lemma of a command (`keepsOwned_…`) follows in the same way, and the table of all commands
closes the proof.
-/

namespace Sys2Proof.Machine

/-! ### The owned values -/

/-- The values that only a few commands may change: the committed image, the commit queue, the reference seal, the lease, the
GMAC keys, the health of the noise source, the attestation tokens, the level of HALT_N, the reset cause, the epoch and the
latched high words. -/
structure Owned where
  committed  : SMap Word
  queue      : List QCommit
  ref        : Word
  lease      : Option Nat
  gmac       : SMap (List Byte)
  rngOk      : Bool
  tokens     : Nat
  haltN      : Bool
  cause      : Nat
  causeRails : BitVec 9
  epoch      : Nat
  latch      : SMap Word

/-- The owned values of a state. -/
def owned (s : State) : Owned :=
  { committed := s.regs.committed, queue := s.commits.queue, ref := s.sealing.ref, lease := s.slc.lease, gmac := s.sec.gmac,
    rngOk := s.sec.rngOk, tokens := s.sec.tokens, haltN := s.pins.haltN, cause := s.pwr.cause, causeRails := s.pwr.causeRails,
    epoch := s.lgr.epoch, latch := s.regs.latch }

/-- Two states own the same values where each of the values is the same. -/
theorem owned_eq_iff {s t : State} : owned t = owned s ↔
    t.regs.committed = s.regs.committed ∧ t.commits.queue = s.commits.queue ∧ t.sealing.ref = s.sealing.ref ∧
    t.slc.lease = s.slc.lease ∧ t.sec.gmac = s.sec.gmac ∧ t.sec.rngOk = s.sec.rngOk ∧ t.sec.tokens = s.sec.tokens ∧
    t.pins.haltN = s.pins.haltN ∧ (t.pwr.cause = s.pwr.cause ∧ t.pwr.causeRails = s.pwr.causeRails) ∧
    t.lgr.epoch = s.lgr.epoch ∧ t.regs.latch = s.regs.latch := by
  simp only [owned, Owned.mk.injEq, and_assoc]

/-! ### Updates of the state

An update of parts that hold no owned value leaves them: `owned_put` where those parts are whole fields of the state, and one
lemma for each field that holds an owned value beside others. -/

section
variable (s : State) (pending : List Instr) (folds : SMap Fold) (boot : Boot) (clk : ClkSt) (tb : TbSt) (cnt : Counts)
  (spt : SptSt) (ports : SMap Port) (ptp : PtpSt) (cnv : CnvSt) (lch : SMap Lch) (arms : List (BitVec 16 × Stamp))
  (tiu : TiuSt) (basin : BasinSt) (csc : SMap Csc) (pol : SMap Pol) (weir : WeirSt) (cis : CisSt) (dram : DramSt)
  (rnl : RnlSt) (timers : SMap Nat)

theorem owned_put : owned { s with
    pending, folds, boot, clk, tb, cnt, spt, ports, ptp, cnv, lch, arms, tiu, basin, csc, pol, weir, cis, dram, rnl, timers }
    = owned s := by rfl

theorem owned_putRegs (shadow active pend overrides hw laps cmdQueued) : owned { s with
    regs := { s.regs with shadow, active, pend, overrides, hw, laps, cmdQueued },
    pending, folds, boot, clk, tb, cnt, spt, ports, ptp, cnv, lch, arms, tiu, basin, csc, pol, weir, cis, dram, rnl,
    timers } = owned s := by rfl

theorem owned_putCommits (flight align nextId held) : owned { s with
    commits := { s.commits with flight, align, nextId, held },
    pending, folds, boot, clk, tb, cnt, spt, ports, ptp, cnv, lch, arms, tiu, basin, csc, pol, weir, cis, dram, rnl,
    timers } = owned s := by rfl

theorem owned_putSealing (last mismatch scan waiting) : owned { s with
    sealing := { s.sealing with last, mismatch, scan, waiting },
    pending, folds, boot, clk, tb, cnt, spt, ports, ptp, cnv, lch, arms, tiu, basin, csc, pol, weir, cis, dram, rnl,
    timers } = owned s := by rfl

theorem owned_putPwr (window coverage covEnd qcalFor holdEnd hot over110 below over100 hotSince lifeNoted tempSeen outside
    log logNext windowNo) : owned { s with
    pwr := { s.pwr with
      window, coverage, covEnd, qcalFor, holdEnd, hot, over110, below, over100, hotSince, lifeNoted, tempSeen, outside,
      log, logNext, windowNo },
    pending, folds, boot, clk, tb, cnt, spt, ports, ptp, cnv, lch, arms, tiu, basin, csc, pol, weir, cis, dram, rnl,
    timers } = owned s := by rfl

theorem owned_putPins (resetN ready launch slot ppsOut trigOut) : owned { s with
    pins := { s.pins with resetN, ready, launch, slot, ppsOut, trigOut },
    pending, folds, boot, clk, tb, cnt, spt, ports, ptp, cnv, lch, arms, tiu, basin, csc, pol, weir, cis, dram, rnl,
    timers } = owned s := by rfl

theorem owned_putSlc (sessions openings idReqs dropping) : owned { s with
    slc := { s.slc with sessions, openings, idReqs, dropping },
    pending, folds, boot, clk, tb, cnt, spt, ports, ptp, cnv, lch, arms, tiu, basin, csc, pol, weir, cis, dram, rnl,
    timers } = owned s := by rfl

theorem owned_putLgr (epochSet snapNo snaps snapWait snapCmd wearPend lifeMin stressRun minuteMax minuteAt) :
    owned { s with
    lgr := { s.lgr with epochSet, snapNo, snaps, snapWait, snapCmd, wearPend, lifeMin, stressRun, minuteMax, minuteAt },
    pending, folds, boot, clk, tb, cnt, spt, ports, ptp, cnv, lch, arms, tiu, basin, csc, pol, weir, cis, dram, rnl,
    timers } = owned s := by rfl

theorem owned_putSec (otp lmsEpoch lmsLeft lmsGen otpQueue romDone tokenAt noiseAt) : owned { s with
    sec := { s.sec with otp, lmsEpoch, lmsLeft, lmsGen, otpQueue, romDone, tokenAt, noiseAt },
    pending, folds, boot, clk, tb, cnt, spt, ports, ptp, cnv, lch, arms, tiu, basin, csc, pol, weir, cis, dram, rnl,
    timers } = owned s := by rfl
end

/-! ### Choices and loops -/

theorem owned_ite {c : Prop} [Decidable c] (a b : State) : owned (if c then a else b) = if c then owned a else owned b :=
  apply_ite ..

theorem owned_each {α : Type} {l : List α} {f : α → State → State} (h : ∀ x s, owned (f x s) = owned s) (s : State) :
    owned (each l f s) = owned s := each_keeps owned h s

theorem owned_foldl {α : Type} {l : List α} {f : State → α → State} (h : ∀ s x, owned (f s x) = owned s) (s : State) :
    owned (l.foldl f s) = owned s := by
  induction l generalizing s with
  | nil => rfl
  | cons x l ih => rw [List.foldl_cons, ih, h]

theorem owned_foldl_snd {α β : Type} {l : List α} {f : β × State → α → β × State}
    (h : ∀ a x, owned (f a x).2 = owned a.2) (a : β × State) : owned (l.foldl f a).2 = owned a.2 := by
  induction l generalizing a with
  | nil => rfl
  | cons x l ih => rw [List.foldl_cons, ih, h]

theorem owned_foldl_fst {α β : Type} {l : List α} {f : State × β → α → State × β}
    (h : ∀ a x, owned (f a x).1 = owned a.1) (a : State × β) : owned (l.foldl f a).1 = owned a.1 := by
  induction l generalizing a with
  | nil => rfl
  | cons x l ih => rw [List.foldl_cons, ih, h]

/-! ### Views that an operation leaves alone

The operations behind the commands are said once for every view `g` of the state that does not see what they change. A view is
`Blind` where it sees no engine's own state: a whole field of the state, a part of one, or a register above GLB_COMMIT_SEQ. It
is a `View` where it sees no launch generator, clock, session, override or queued start either. The owned values above are
one view; others stand where they are needed. -/

/-- A view of the state that sees no engine's own state and no register above 0x40. -/
structure Blind {β : Type} (g : State → β) : Prop where
  put : ∀ (s : State) (pending : List Instr) (folds : SMap Fold) (boot : Boot) (tb : TbSt) (cnt : Counts) (spt : SptSt)
    (ports : SMap Port) (ptp : PtpSt) (cnv : CnvSt) (arms : List (BitVec 16 × Stamp)) (tiu : TiuSt) (basin : BasinSt)
    (csc : SMap Csc) (pol : SMap Pol) (weir : WeirSt) (cis : CisSt) (dram : DramSt) (rnl : RnlSt) (timers : SMap Nat),
    g { s with
      pending, folds, boot, tb, cnt, spt, ports, ptp, cnv, arms, tiu, basin, csc, pol, weir, cis, dram, rnl, timers } = g s
  putPins : ∀ (s : State) launch slot ppsOut trigOut, g { s with pins := { s.pins with launch, slot, ppsOut, trigOut } } = g s
  putLgr : ∀ (s : State) epochSet wearPend, g { s with lgr := { s.lgr with epochSet, wearPend } } = g s
  putLaps : ∀ (s : State) laps, g { s with regs := { s.regs with laps } } = g s
  of_setHw : ∀ {a : Nat}, 0x40 < a → ∀ (w : Word) (s : State), g (setHw a w s) = g s

/-- A view of the state that sees no launch generator, clock, session, override or queued start either, and of the GLB block
neither the words of an override nor any event but STROBED. -/
structure View {β : Type} (g : State → β) : Prop extends Blind g where
  putClk : ∀ (s : State) (pending : List Instr) (folds : SMap Fold) (boot : Boot) (clk : ClkSt) (tb : TbSt) (cnt : Counts)
    (spt : SptSt) (ports : SMap Port) (ptp : PtpSt) (cnv : CnvSt) (lch : SMap Lch) (arms : List (BitVec 16 × Stamp))
    (tiu : TiuSt) (basin : BasinSt) (csc : SMap Csc) (pol : SMap Pol) (weir : WeirSt) (cis : CisSt) (dram : DramSt)
    (rnl : RnlSt) (timers : SMap Nat),
    g { s with
      pending, folds, boot, clk, tb, cnt, spt, ports, ptp, cnv, lch, arms, tiu, basin, csc, pol, weir, cis, dram, rnl,
      timers } = g s
  putSlc : ∀ (s : State) sessions, g { s with slc := { s.slc with sessions } } = g s
  putCommits : ∀ (s : State) flight align held, g { s with commits := { s.commits with flight, align, held } } = g s
  putRegs : ∀ (s : State) overrides cmdQueued, g { s with regs := { s.regs with overrides, cmdQueued } } = g s
  of_raiseGlb : ∀ {e : Nat}, e ≠ 0 → ∀ s : State, g (raise 0x10 e s) = g s
  of_overrideWords : ∀ (v w : Word) (s : State), g (setHw 0x3C v (setHw 0x38 w s)) = g s
  congrActive : ∀ (s t : State) active, g s = g t →
    g { s with regs := { s.regs with active } } = g { t with regs := { t.regs with active } }
  congrPend : ∀ (s t : State) pend, g s = g t →
    g { s with regs := { s.regs with pend } } = g { t with regs := { t.regs with pend } }

theorem foldl_keeps {α β : Type} (g : State → β) {l : List α} {f : State → α → State} (h : ∀ s x, g (f s x) = g s)
    (s : State) : g (l.foldl f s) = g s := by
  induction l generalizing s with
  | nil => rfl
  | cons x l ih => rw [List.foldl_cons, ih, h]

theorem foldl_snd_keeps {α β γ : Type} (g : State → γ) {l : List α} {f : β × State → α → β × State}
    (h : ∀ a x, g (f a x).2 = g a.2) (a : β × State) : g (l.foldl f a).2 = g a.2 := by
  induction l generalizing a with
  | nil => rfl
  | cons x l ih => rw [List.foldl_cons, ih, h]

theorem foldl_fst_keeps {α β γ : Type} (g : State → γ) {l : List α} {f : State × β → α → State × β}
    (h : ∀ a x, g (f a x).1 = g a.1) (a : State × β) : g (l.foldl f a).1 = g a.1 := by
  induction l generalizing a with
  | nil => rfl
  | cons x l ih => rw [List.foldl_cons, ih, h]

/-! The addresses of the engines' registers lie above the GLB words that a view may see. -/

@[simp] theorem lt_polA (e off : Nat) : 0x40 < polA e off := by unfold polA; omega
@[simp] theorem lt_cscA (p off : Nat) : 0x40 < cscA p off := by unfold cscA; omega
@[simp] theorem lt_inputLedger (c term : Nat) : 0x40 < inputLedger c term := by unfold inputLedger; omega
@[simp] theorem lt_rnlA (c off : Nat) : 0x40 < rnlA c off := by unfold rnlA; omega
@[simp] theorem lt_lgrR (r off : Nat) : 0x40 < lgrR r off := by unfold lgrR; omega
@[simp] theorem lt_unitAt (u : Nat) : 0x40 < unitAt u := by unfold unitAt; omega
@[simp] theorem lt_ctxA (m off : Nat) : 0x40 < ctxA m off := by unfold ctxA; omega
@[simp] theorem lt_cisR (r off : Nat) : 0x40 < cisR r off := by unfold cisR; omega
@[simp] theorem lt_cvA (c off : Nat) : 0x40 < cvA c off := by unfold cvA; omega
@[simp] theorem lt_lchA (p off : Nat) : 0x40 < lchA p off := by unfold lchA; omega
@[simp] theorem lt_lgrFp (p off : Nat) : 0x40 < lgrFp p off := by unfold lgrFp; omega
@[simp] theorem lt_ethA (p off : Nat) : 0x40 < ethA p off := by unfold ethA; omega
@[simp] theorem lt_memA (c off : Nat) : 0x40 < memA c off := by unfold memA; omega

theorem lt_add_off {a b : Nat} (h : 0x40 < a) : 0x40 < a + b := Nat.lt_add_right b h
theorem lt_add_off_off {a b c : Nat} (h : 0x40 < a) : 0x40 < a + b + c := lt_add_off (lt_add_off h)

section
variable {β : Type} {g : State → β}

/-- An operation under another active copy, the active copy and the overrides put back after it. -/
theorem View.of_underActive (hg : View g) {s t : State} {use : SMap Word}
    (h : g t = g { s with regs := { s.regs with active := use } }) :
    g { t with regs := { t.regs with active := s.regs.active, overrides := s.regs.overrides } } = g s :=
  (hg.putRegs { t with regs := { t.regs with active := s.regs.active } } s.regs.overrides t.regs.cmdQueued).trans
    (hg.congrActive t { s with regs := { s.regs with active := use } } s.regs.active h)

/-! ### Registers and events -/

theorem Blind.of_setCnt (hg : Blind g) {a : Nat} (ha : 0x40 < a) (n : Nat) (s : State) : g (setCnt a n s) = g s :=
  hg.of_setHw ha _ s

theorem Blind.of_addCnt (hg : Blind g) {a : Nat} (ha : 0x40 < a) (n : Nat) (s : State) : g (addCnt a n s) = g s :=
  hg.of_setHw ha _ s

theorem Blind.of_addHold (hg : Blind g) {a : Nat} (ha : 0x40 < a) (n : Nat) (s : State) : g (addHold a n s) = g s :=
  hg.of_setHw ha _ s

theorem Blind.of_setCnt64 (hg : Blind g) {a : Nat} (ha : 0x40 < a) (n : Nat) (s : State) : g (setCnt64 a n s) = g s :=
  (hg.of_setHw (Nat.lt_add_right 4 ha) _ _).trans (hg.of_setHw ha _ s)

theorem Blind.of_addCnt64 (hg : Blind g) {a : Nat} (ha : 0x40 < a) (n : Nat) (s : State) : g (addCnt64 a n s) = g s := by
  simp only [addCnt64, hg.of_setCnt64 ha, apply_ite g, ite_self]

theorem Blind.of_setStamp (hg : Blind g) {a : Nat} (ha : 0x40 < a) (t : Stamp) (s : State) : g (setStamp a t s) = g s :=
  (hg.of_setHw (Nat.lt_add_right 8 ha) _ _).trans ((hg.of_setHw (Nat.lt_add_right 4 ha) _ _).trans (hg.of_setHw ha _ s))

theorem View.of_cmdDone (hg : View g) {a b : Nat} (ha : 0x40 < a) {f : State → State} (h : ∀ s, g (f s) = g s) (s : State) :
    g (cmdDone a b f s) = g s := by
  unfold cmdDone
  simp only [apply_ite g, hg.of_setHw ha, h, hg.putRegs, ite_self]

theorem Blind.of_timerSet (hg : Blind g) (kind i n : Nat) (s : State) : g (timerSet kind i n s) = g s := hg.put ..

theorem Blind.of_setStream (hg : Blind g) (n : Nat) (x : Stream) (s : State) : g (setStream n x s) = g s := hg.put ..

theorem Blind.of_sendEvent (hg : Blind g) (cat : Nat) (e : Event) (s : State) : g (sendEvent cat e s) = g s := by
  rw [sendEvent_eq]; exact hg.put ..

theorem Blind.of_raiseAt (hg : Blind g) {a : Nat} (ha : 0x40 < a) (t : Stamp) (q : Byte) (src e : Nat) (s : State) :
    g (raiseAt t q src a e s) = g s := by
  unfold raiseAt
  dsimp only
  split <;> simp only [hg.of_setHw ha, hg.of_sendEvent, hg.put, hg.putLaps]

theorem Blind.of_raiseFrom (hg : Blind g) {a : Nat} (ha : 0x40 < a) (src e : Nat) (s : State) :
    g (raiseFrom src a e s) = g s := hg.of_raiseAt ha ..

theorem Blind.of_raise (hg : Blind g) {a : Nat} (ha : 0x40 < a) (e : Nat) (s : State) : g (raise a e s) = g s :=
  hg.of_raiseAt ha ..

theorem Blind.of_raiseIf (hg : Blind g) {a : Nat} (ha : 0x40 < a) (c : Bool) (e : Nat) (s : State) :
    g (raiseIf c a e s) = g s := by
  simp only [raiseIf, hg.of_raise ha, apply_ite g, ite_self]

end

section
variable {β : Type} {g : State → β}

theorem Blind.of_loss (hg : Blind g) (i n : Nat) (s : State) : g (loss i n s) = g s := by
  simp only [loss, hg.of_raise, hg.of_addCnt64, apply_ite g, ite_self, Nat.reduceLT, lt_add_off]

theorem Blind.of_rill (hg : Blind g) (k n : Nat) (s : State) : g (rill k n s) = g s := by
  simp only [rill, hg.of_addCnt64, Nat.reduceLT, lt_add_off, lt_add_off_off]

theorem Blind.of_rillReturn (hg : Blind g) (k : Nat) (s : State) : g (rillReturn k s) = g s := by
  simp only [rillReturn, hg.of_addCnt64, hg.of_setCnt64, Nat.reduceLT, lt_add_off_off]

theorem Blind.of_freeNext (hg : Blind g) (s : State) : g (freeNext s).2 = g s := hg.put ..

theorem View.of_setLch (hg : View g) (p : Nat) (x : Lch) (s : State) : g (setLch p x s) = g s := hg.putClk ..

theorem Blind.of_setPort (hg : Blind g) (p : Nat) (x : Port) (s : State) : g (setPort p x s) = g s := hg.put ..

theorem Blind.of_setConv (hg : Blind g) (n : Nat) (x : Conv) (s : State) : g (setConv n x s) = g s := hg.put ..

theorem Blind.of_setUnit (hg : Blind g) (u : Nat) (x : Weir) (s : State) : g (setUnit u x s) = g s := hg.put ..

theorem Blind.of_setWatch (hg : Blind g) (w : Nat) (x : Weir) (s : State) : g (setWatch w x s) = g s := hg.put ..

theorem Blind.of_setRegion (hg : Blind g) (r : Nat) (x : Region) (s : State) : g (setRegion r x s) = g s := hg.put ..

theorem Blind.of_setPol (hg : Blind g) (e : Nat) (x : Pol) (s : State) : g (setPol e x s) = g s := hg.put ..

theorem Blind.of_setCsc (hg : Blind g) (p : Nat) (x : Csc) (s : State) : g (setCsc p x s) = g s := hg.put ..

theorem Blind.of_setRch (hg : Blind g) (c : Nat) (x : RChan) (s : State) : g (setRch c x s) = g s := hg.put ..

theorem Blind.of_setDch (hg : Blind g) (c : Nat) (x : DChan) (s : State) : g (setDch c x s) = g s := hg.put ..

theorem View.of_setSes (hg : View g) (n : Nat) (x : Session) (s : State) : g (setSes n x s) = g s := hg.putSlc ..

theorem View.of_setPll (hg : View g) (p : Nat) (x : PllState) (s : State) : g (setPll p x s) = g s := hg.putClk ..

theorem Blind.of_countCmd (hg : Blind g) (status : Nat) (s : State) : g (countCmd status s) = g s :=
  (hg.of_addCnt64 (by split <;> decide) _ _).trans (hg.of_addCnt64 (by decide) _ s)

theorem View.of_skipDead (hg : View g) (n : Nat) (s : State) : g (skipDead n s) = g s := by
  simp only [skipDead, hg.of_addCnt64, hg.of_setSes, Nat.reduceLT]

theorem View.of_answer (hg : View g) (n op status : Nat) (data : List Byte) (s : State) :
    g (answer n op status data s) = g s := by
  simp only [answer, hg.of_skipDead, hg.of_countCmd, hg.of_setSes]

theorem Blind.of_rhActivate (hg : Blind g) (c b row : Nat) (s : State) : g (rhActivate c b row s) = g s := by
  simp only [rhActivate, hg.of_freeNext, hg.of_setDch, hg.of_addCnt64, apply_ite g, ite_self, lt_memA]

theorem Blind.of_countRead (hg : Blind g) (c b : Nat) (s : State) : g (countRead c b s) = g s := by
  simp only [countRead, hg.of_addCnt64, hg.of_loss, apply_ite g, ite_self, lt_memA]

theorem Blind.of_writeBurst (hg : Blind g) (c b : Nat) (data : List Byte) (mask : List Bool) (poison : Bool) (s : State) :
    g (writeBurst c b data mask poison s) = g s := by
  simp only [writeBurst, hg.of_loss, hg.of_addCnt64, hg.of_setDch, hg.put, apply_ite g, ite_self, lt_memA]

theorem Blind.of_giveAnswer (hg : Blind g) (a : Answer) (s : State) : g (giveAnswer a s) = g s := hg.put ..

theorem Blind.of_issueWrite (hg : Blind g) (c : Nat) (q : DQ) (s : State) : g (issueWrite c q s) = g s := by
  simp only [issueWrite, hg.of_loss, hg.of_writeBurst, apply_ite g, ite_self]

theorem Blind.of_chanUse (hg : Blind g) (c : Nat) (s : State) : g (chanUse c s) = g s := hg.put ..

theorem Blind.of_chanWake (hg : Blind g) (c : Nat) (s : State) : g (chanWake c s) = g s := by
  simp only [chanWake, hg.of_setDch, apply_ite g, ite_self]

theorem Blind.of_issueReq (hg : Blind g) (c b : Nat) (q : DQ) (s : State) : g (issueReq c b q s) = g s := by
  simp only [issueReq, hg.of_rhActivate, hg.of_setDch, hg.of_issueWrite, hg.of_rill, hg.of_giveAnswer, hg.of_countRead,
      apply_ite g, ite_self]

theorem Blind.of_settleAll (hg : Blind g) (n c b : Nat) (s : State) : g (settleAll n c b s) = g s := by
  induction n generalizing s with
  | zero => rfl
  | succ n ih =>
    rw [settleAll]
    dsimp only
    split
    · split
      · rfl
      · simp only [ih, hg.of_issueReq, apply_ite g, hg.of_rillReturn, hg.of_setDch, ite_self]
    · rfl

theorem Blind.of_settle (hg : Blind g) (c b : Nat) (s : State) : g (settle c b s) = g s := by
  simp only [settle, hg.of_settleAll, hg.of_chanWake]

theorem Blind.of_blockAccess (hg : Blind g) (c b : Nat) (s : State) : g (blockAccess c b s) = g s := by
  simp only [blockAccess, hg.of_settle, hg.of_chanUse]

theorem Blind.of_dramWrite (hg : Blind g) (a : Nat) (data : List Byte) (poison : Bool) (s : State) :
    g (dramWrite a data poison s) = g s := by
  simp only [dramWrite, hg.of_writeBurst, hg.of_blockAccess, each_keeps g, implies_true]

/-! ### Spout -/

theorem Blind.of_ringWrite (hg : Blind g) (base size pos : Nat) (b : List Byte) (s : State) :
    g (ringWrite base size pos b s) = g s := by
  simp only [ringWrite, hg.of_dramWrite]

theorem Blind.of_mseedClose (hg : Blind g) (full : Bool) (n ch : Nat) (s : State) : g (mseedClose full n ch s) = g s := by
  simp only [mseedClose, hg.of_setStream, apply_ite g, ite_self]

/-! ### Pool -/

theorem Blind.of_blockClose (hg : Blind g) (early : Bool) (e : Nat) (s : State) : g (blockClose early e s) = g s := by
  simp only [blockClose, hg.of_setPol, hg.of_ringWrite, hg.of_addCnt64, hg.of_raise, hg.of_loss, hg.of_raiseIf, apply_ite
      g, ite_self, lt_polA]

theorem Blind.of_blockStart (hg : Blind g) (e : Nat) (s : State) : g (blockStart e s) = g s := hg.put ..

theorem Blind.of_poolSkip (hg : Blind g) (e : Nat) (s : State) : g (poolSkip e s) = g s := by
  simp only [poolSkip, hg.of_raise, hg.of_addHold, lt_polA]

theorem Blind.of_ringDiscard (hg : Blind g) (e : Nat) (s : State) : g (ringDiscard e s) = g s := by
  simp only [ringDiscard, hg.of_setPol, hg.of_loss, hg.of_raise, hg.of_addCnt64, apply_ite g, ite_self, lt_polA]

/-! ### Cascade -/

theorem Blind.of_clearStages (hg : Blind g) (p : Nat) (s : State) : g (clearStages p s) = g s := hg.put ..

theorem Blind.of_cascadeRestart (hg : Blind g) (p : Nat) (s : State) : g (cascadeRestart p s) = g s := by
  simp only [cascadeRestart, hg.of_raise, hg.of_addHold, hg.of_blockClose, hg.of_clearStages, apply_ite g, ite_self, lt_cscA]

theorem Blind.of_cascadeBegin (hg : Blind g) (p : Nat) (s : State) : g (cascadeBegin p s) = g s := hg.put ..

/-! ### Phase -/

theorem Blind.of_mapSlots (hg : Blind g) (p : Nat) (f : SlotRec → SlotRec) (s : State) :
    g (mapSlots p f s) = g s := hg.put ..

theorem Blind.of_trimSlots (hg : Blind g) (p : Nat) (s : State) : g (trimSlots p s) = g s := hg.put ..

theorem Blind.of_boundaryActs (hg : Blind g) (p acts : Nat) (s : State) : g (boundaryActs p acts s) = g s := by
  simp only [boundaryActs, hg.of_mapSlots, hg.of_trimSlots, hg.of_raise, hg.of_cascadeBegin, hg.of_cascadeRestart,
      apply_ite g, ite_self, Nat.reduceLT, lt_add_off]

theorem View.of_atBoundary (hg : View g) (p acts : Nat) (s : State) : g (atBoundary p acts s) = g s := by
  simp only [atBoundary, hg.of_boundaryActs, hg.of_setLch, apply_ite g, ite_self]

theorem View.of_stashShots (hg : View g) (p : Nat) (s : State) : g (stashShots p s) = g s := hg.putClk ..

theorem View.of_poolEnds (hg : View g) (p : Nat) (s : State) : g (poolEnds p s) = g s := by
  unfold poolEnds
  dsimp only
  split <;> simp only [hg.of_blockClose, hg.of_setLch]

/-! ### Budget -/

theorem Blind.of_budgetCheck (hg : Blind g) (s : State) : g (budgetCheck s) = g s := by
  unfold budgetCheck
  refine each_keeps g (fun _ _ => ?_) _
  repeat' split
  all_goals simp only [hg.of_setHw, hg.of_sendEvent, hg.of_raise, apply_ite g, ite_self, Nat.reduceLT]

/-! ### Cistern -/

theorem Blind.of_ledgerFree (hg : Blind g) (r off len : Nat) (s : State) : g (ledgerFree r off len s) = g s := by
  simp only [ledgerFree, hg.of_setCnt64, hg.of_addCnt64, lt_lgrR]

theorem Blind.of_ledgerAlloc (hg : Blind g) (r len : Nat) (s : State) : g (ledgerAlloc r len s) = g s := by
  simp only [ledgerAlloc, hg.of_addCnt64, lt_lgrR]

theorem Blind.of_mapSeg (hg : Blind g) (id : Nat) (f : Seg → Seg) (s : State) : g (mapSeg id f s) = g s := hg.put ..

theorem Blind.of_writeDesc (hg : Blind g) (x : Seg) (s : State) : g (writeDesc x s) = g s := by
  simp only [writeDesc, hg.of_dramWrite]

theorem Blind.of_writeState (hg : Blind g) (slot st : Nat) (s : State) : g (writeState slot st s) = g s := by
  simp only [writeState, hg.of_dramWrite]

theorem Blind.of_freeSeg (hg : Blind g) (x : Seg) (s : State) : g (freeSeg x s) = g s := by
  simp only [freeSeg, hg.of_writeState, hg.put]

theorem Blind.of_overwriteSeg (hg : Blind g) (x : Seg) (s : State) : g (overwriteSeg x s) = g s := by
  simp only [overwriteSeg, hg.of_raise, hg.of_ledgerFree, hg.of_freeSeg, lt_cisR]

theorem Blind.of_clearRange (hg : Blind g) (r a n : Nat) (s : State) : g (clearRange r a n s) = g s := by
  simp only [clearRange, hg.of_overwriteSeg, each_keeps g, implies_true]

theorem Blind.of_setWst (hg : Blind g) (u : UnitId) (x : Weir) (s : State) : g (setWst u x s) = g s := by
  unfold setWst
  split <;> simp only [hg.of_setUnit, hg.of_setWatch]

theorem Blind.of_dropAlloc (hg : Blind g) (r : Nat) (u : UnitId) (s : State) : g (dropAlloc r u s) = g s := hg.put ..

theorem Blind.of_returnAlloc (hg : Blind g) (u : UnitId) (s : State) : g (returnAlloc u s) = g s := by
  simp only [returnAlloc, hg.of_dropAlloc, hg.of_setWst, each_keeps g, implies_true]

theorem Blind.of_segmentOpen (hg : Blind g) (r : Nat) (fires : List Fire) (s : State) : g (segmentOpen r fires s) = g s := by
  unfold segmentOpen
  split
  · rfl
  · split
    · rfl
    · extract_lets m lay steps before lay' need hi wall len s1 s2 cut tag x src s3 s4 opens merged s5
      have h1 : g s1 = g s := by simp only [s1, apply_ite g, hg.of_clearRange, ite_self]
      have h2 : g s2 = g s1 := each_keeps g (fun f t => (hg.of_setWst ..).trans (hg.of_dropAlloc ..)) s1
      have h3 : g s3 = g s2 := hg.put ..
      have h4 : g s4 = g s3 := (hg.of_ledgerAlloc ..).trans (hg.of_writeDesc ..)
      have h5 : g s5 = g s4 := each_keeps g (fun f t => hg.of_setWst ..) s4
      have h6 : g (each fires merged s5) = g s5 := each_keeps g (fun f t => by
        simp only [merged]
        split
        · exact hg.of_raise (lt_add_off (lt_unitAt _)) ..
        · rfl) s5
      rw [apply_ite g, h6, ite_self, h5, h4, h3, h2, h1]

theorem Blind.of_histEmpty (hg : Blind g) (s : State) : g (histEmpty s) = g s := hg.put ..

theorem Blind.of_cisRebuild (hg : Blind g) (s : State) : g (cisRebuild s) = g s := by
  simp only [cisRebuild, hg.of_histEmpty, hg.of_ledgerFree, hg.of_loss, each_keeps g, hg.put, implies_true]

/-! ### History -/

theorem Blind.of_histPlan (hg : Blind g) (s : State) : g (histPlan s) = g s := hg.put ..

theorem Blind.of_histPut (hg : Blind g) (key entry lo hi : Nat) (data : List Byte) (s : State) :
    g (histPut key entry lo hi data s) = g s := by
  unfold histPut
  split <;> simp only [hg.of_dramWrite, hg.of_addCnt64, hg.put, apply_ite g, ite_self, Nat.reduceLT]

theorem Blind.of_lanePut (hg : Blind g) (lane b : Nat) (s : State) : g (lanePut lane b s) = g s := by
  simp only [lanePut, hg.of_histPut]

theorem Blind.of_lanesFlush (hg : Blind g) (s : State) : g (lanesFlush s) = g s := by
  simp only [lanesFlush, hg.of_lanePut, each_keeps g, apply_ite g, ite_self, implies_true]

/-! ### Weir -/

theorem Blind.of_bump (hg : Blind g) (u : UnitId) (off n : Nat) (s : State) : g (bump u off n s) = g s := by
  unfold bump
  split <;> simp only [hg.of_addCnt64, hg.of_setWatch, Nat.reduceLT, lt_add_off_off]

theorem Blind.of_bumpMax (hg : Blind g) (u : UnitId) (len : Nat) (s : State) : g (bumpMax u len s) = g s := by
  unfold bumpMax
  split <;> simp only [hg.of_setHw, hg.of_setCnt64, hg.of_setWatch, apply_ite g, ite_self, lt_unitAt, Nat.reduceLT,
      lt_add_off]

theorem Blind.of_rearm (hg : Blind g) (u : UnitId) (s : State) : g (rearm u s) = g s := by
  unfold rearm
  dsimp only
  repeat' split
  all_goals simp only [hg.of_setWst, hg.of_bumpMax, hg.of_bump, hg.of_setHw, hg.of_setCnt64, lt_unitAt, lt_add_off]

theorem Blind.of_openDead (hg : Blind g) (u : UnitId) (s : State) : g (openDead u s) = g s := by
  simp only [openDead, hg.of_setWst, apply_ite g, ite_self]

theorem Blind.of_endHold (hg : Blind g) (u : UnitId) (s : State) : g (endHold u s) = g s := by
  simp only [endHold, hg.of_setWst, hg.of_rearm, apply_ite g, ite_self]

theorem Blind.of_startHold (hg : Blind g) (u : UnitId) (clk : Nat) (capture : Bool) (s : State) :
    g (startHold u clk capture s) = g s := by
  simp only [startHold, hg.of_setWst]

theorem Blind.of_holdPast (hg : Blind g) (u : UnitId) (clk : Nat) (s : State) : g (holdPast u clk s) = g s := by
  unfold holdPast
  split <;> simp only [hg.of_endHold, apply_ite g, ite_self]

theorem Blind.of_useHold (hg : Blind g) (u : UnitId) (s : State) : g (useHold u s) = g s := by
  unfold useHold
  dsimp only
  split <;> simp only [hg.of_endHold, hg.of_setWst, apply_ite g, ite_self]

theorem Blind.of_askAlloc (hg : Blind g) (u : UnitId) (s : State) : g (askAlloc u s) = g s := by
  simp only [askAlloc, hg.of_setWst]

theorem Blind.of_condMet (hg : Blind g) (clk : Nat) (f : Fire) (place flags chan : Nat) (s : State) :
    g (condMet clk f place flags chan s).2 = g s := by
  unfold condMet
  dsimp only
  repeat' split
  all_goals simp only [hg.of_holdPast, hg.of_bump, hg.of_setWst, hg.of_useHold, hg.of_startHold, hg.of_openDead,
      hg.of_raise, hg.of_rearm, lt_unitAt, lt_add_off]

theorem Blind.of_setAlarm (hg : Blind g) (u : UnitId) (s : State) : g (setAlarm u s) = g s := by
  simp only [setAlarm, hg.of_timerSet, hg.of_raise, hg.of_setHw, hg.put, apply_ite g, ite_self, Nat.reduceLT]

theorem Blind.of_pulsePin (hg : Blind g) (k : Nat) (s : State) : g (pulsePin k s) = g s := by
  simp only [pulsePin, hg.of_timerSet, hg.of_addCnt, hg.putPins, apply_ite g, ite_self, Nat.reduceLT, lt_add_off]

theorem Blind.of_fireEvent (hg : Blind g) (h : Shoot) (s : State) : g (fireEvent h s) = g s := by
  simp only [fireEvent, hg.of_sendEvent]

theorem Blind.of_noteFire (hg : Blind g) (h : Shoot) (s : State) : g (noteFire h s) = g s := by
  unfold noteFire
  split <;> simp only [hg.of_setWst, hg.of_raise, hg.of_setHw, hg.of_setCnt64, lt_unitAt, lt_add_off]

theorem Blind.of_fireAll (hg : Blind g) (l : List Shoot) (s : State) : g (fireAll l s) = g s := by
  unfold fireAll
  dsimp only
  simp only [hg.of_pulsePin, each_keeps g, apply_ite g, ite_self, implies_true]
  split <;> simp only [hg.of_segmentOpen, hg.of_noteFire, hg.of_fireEvent, hg.of_setAlarm, each_keeps g, apply_ite g,
      ite_self, implies_true]

theorem Blind.of_restartUnit (hg : Blind g) (u : Nat) (s : State) : g (restartUnit u s) = g s := hg.put ..

theorem Blind.of_restartLaneUnits (hg : Blind g) (s : State) : g (restartLaneUnits s) = g s := by
  simp only [restartLaneUnits, hg.of_restartUnit, each_keeps g, apply_ite g, ite_self, implies_true]

theorem Blind.of_tinsShift (hg : Blind g) (old new : Nat) (s : State) : g (tinsShift old new s) = g s := by
  simp only [tinsShift, hg.of_setUnit, each_keeps g, apply_ite g, ite_self, implies_true]

theorem Blind.of_watchTake (hg : Blind g) (w : Nat) (t : TapSample) (l : List (Nat × Stamp)) (s : State) :
    g (watchTake w t l s).1 = g s := by
  unfold watchTake
  dsimp only
  split <;> simp only [hg.of_holdPast, hg.of_setWatch, hg.of_condMet]

theorem Blind.of_watchesSettle (hg : Blind g) (p : Nat) (s : State) : g (watchesSettle p s) = g s := by
  simp only [watchesSettle, hg.of_returnAlloc, each_keeps g, apply_ite g, ite_self, implies_true]

theorem Blind.of_watchStep (hg : Blind g) (p : Nat) (s : State) : g (watchStep p s) = g s := by
  unfold watchStep
  split
  · rfl
  · dsimp only
    generalize hx : (if fOver _ _ = true then _ else _ : Bool × State) = x
    have hx : g x.2 = g s := by
      subst hx
      split <;> simp only [hg.of_freeNext, hg.of_setCsc]
    split
    · simp only [hg.of_raise, hg.of_addHold, hg.put, hx, Nat.reduceLT, lt_add_off]
    · rw [hg.of_watchesSettle, hg.of_fireAll]
      refine (foldl_fst_keeps g (fun acc w => ?_) _).trans ((hg.put ..).trans hx)
      dsimp only
      split
      · rfl
      · exact hg.of_watchTake ..

theorem Blind.of_watchesDrain (hg : Blind g) (s : State) : g (watchesDrain s) = g s := by
  simp only [watchesDrain, hg.of_watchStep, each_keeps g, implies_true]

theorem Blind.of_restartWatch (hg : Blind g) (added : Bool) (w : Nat) (s : State) :
    g (restartWatch added w s) = g s := hg.put ..

theorem Blind.of_removeWatch (hg : Blind g) (w : Nat) (s : State) : g (removeWatch w s) = g s := by
  simp only [removeWatch, hg.of_returnAlloc, hg.of_setWatch]

theorem Blind.of_watchesStop (hg : Blind g) (p : Nat) (s : State) : g (watchesStop p s) = g s := by
  simp only [watchesStop, hg.of_raiseIf, hg.of_watchesSettle, Nat.reduceLT]

/-! ### TimeBase -/

theorem Blind.of_setFreq (hg : Blind g) (f : Int) (s : State) : g (setFreq f s) = g s := by
  simp only [setFreq, hg.of_rill, hg.put]

theorem Blind.of_noteValid (hg : Blind g) (s : State) : g (noteValid s) = g s := by
  simp only [noteValid, hg.of_setStamp, hg.putLgr, apply_ite g, ite_self, Nat.reduceLT]

theorem Blind.of_setTbState (hg : Blind g) (x : TbState) (s : State) : g (setTbState x s) = g s := by
  unfold setTbState
  split <;> simp only [hg.of_raise, hg.of_timerSet, hg.of_setFreq, hg.put, Nat.reduceLT]

theorem Blind.of_sourceChanged (hg : Blind g) (s : State) : g (sourceChanged s) = g s := by
  simp only [sourceChanged, hg.of_noteValid, hg.of_setTbState, hg.put, apply_ite g, ite_self]

theorem Blind.of_backupOn (hg : Blind g) (s : State) : g (backupOn s) = g s := by
  simp only [backupOn, hg.of_raise, hg.put, apply_ite g, ite_self, Nat.reduceLT]

theorem Blind.of_utcNews (hg : Blind g) (offset : Int) (l61 l59 : Bool) (s : State) :
    g (utcNews offset l61 l59 s) = g s := by
  simp only [utcNews, hg.of_setHw, hg.put, apply_ite g, ite_self, Nat.reduceLT]

theorem Blind.of_utcFromCfg (hg : Blind g) (s : State) : g (utcFromCfg s) = g s := by
  simp only [utcFromCfg, hg.of_utcNews, apply_ite g, ite_self]

theorem Blind.of_ptpLinkLost (hg : Blind g) (p : Nat) (s : State) : g (ptpLinkLost p s) = g s := by
  simp only [ptpLinkLost, hg.put, apply_ite g, ite_self]

/-! ### Tiu -/

theorem Blind.of_setTiuCh (hg : Blind g) (c : Nat) (x : TiuCh) (s : State) : g (setTiuCh c x s) = g s := hg.put ..

theorem Blind.of_setTiuCtx (hg : Blind g) (m : Nat) (x : Ctx) (s : State) : g (setTiuCtx m x s) = g s := hg.put ..

theorem Blind.of_fifoPush (hg : Blind g) (e : FifoEntry) (s : State) : g (fifoPush e s) = g s := by
  simp only [fifoPush, hg.of_raise, hg.of_addHold, hg.of_rill, hg.put, apply_ite g, ite_self, Nat.reduceLT]

theorem Blind.of_latchStats (hg : Blind g) {a : Nat} (ha : 0x40 < a) (xs : List Int) (s : State) :
    g (latchStats a xs s) = g s := by
  simp only [latchStats, hg.of_setCnt64, ha, lt_add_off]

theorem Blind.of_statBlockEnd (hg : Blind g) (k : Nat) (period : Bool) (s : State) : g (statBlockEnd k period s) = g s := by
  simp only [statBlockEnd, hg.of_latchStats, hg.of_setCnt64, hg.of_setCnt, hg.of_raise, hg.of_setTiuCtx, apply_ite g,
      ite_self, lt_ctxA, Nat.reduceLT]

theorem Blind.of_attempt (hg : Blind g) (k typ source flags count : Nat) (start : Edge) (v : Option Int) (s : State) :
    g (attempt k typ source flags count start v s) = g s := by
  simp only [attempt, hg.of_rill, hg.of_raise, hg.of_fifoPush, hg.of_setTiuCtx, hg.of_statBlockEnd, apply_ite g, ite_self,
      Nat.reduceLT]

theorem Blind.of_intervalEnd (hg : Blind g) (k : Nat) (start : Edge) (stop : Option Edge) (tap : Int) (s : State) :
    g (intervalEnd k start stop tap s) = g s := by
  unfold intervalEnd
  split <;> simp only [hg.of_setTiuCtx, hg.of_attempt]

theorem Blind.of_ctxTimeout (hg : Blind g) (k : Nat) (s : State) : g (ctxTimeout k s) = g s := by
  unfold ctxTimeout
  dsimp only
  split <;> simp only [hg.of_setTiuCtx, hg.of_attempt, hg.of_intervalEnd, apply_ite g, ite_self]

theorem Blind.of_ctxRestart (hg : Blind g) (k : Nat) (s : State) : g (ctxRestart k s) = g s := by
  simp only [ctxRestart, hg.of_ctxTimeout, hg.of_setTiuCtx]

theorem Blind.of_tiuActivate (hg : Blind g) (old : Nat → Word) (c : Nat) (s : State) : g (tiuActivate old c s) = g s := by
  simp only [tiuActivate, hg.of_setTiuCh, apply_ite g, ite_self]

theorem Blind.of_tiuStop (hg : Blind g) (s : State) : g (tiuStop s) = g s := by
  simp only [tiuStop, hg.of_ctxRestart, hg.of_setTiuCh, hg.of_raise, each_keeps g, implies_true, Nat.reduceLT]

/-! ### Launch -/

theorem View.of_flightsDone (hg : View g) (s : State) : g (flightsDone s) = g s := by
  have h : ∀ t, g (raise 0x10 1 t) = g t := hg.of_raiseGlb (by decide)
  simp only [flightsDone, h, hg.of_answer, each_keeps g, hg.putCommits, apply_ite g, ite_self, implies_true]

theorem View.of_flightApplied (hg : View g) (p : Nat) (t : Stamp) (s : State) : g (flightApplied p t s) = g s := by
  simp only [flightApplied, hg.of_flightsDone, hg.putCommits]

theorem Blind.of_launchPin (hg : Blind g) (p : Nat) (high : Bool) (s : State) : g (launchPin p high s) = g s := hg.putPins ..

theorem View.of_slotPin (hg : View g) (p slot : Nat) (s : State) : g (slotPin p slot s) = g s := by
  simp only [slotPin, hg.of_setLch, hg.putPins, apply_ite g, ite_self]

theorem View.of_phsEffect (hg : View g) (p b : Nat) (s : State) : g (phsEffect p b s) = g s := by
  simp only [phsEffect, hg.of_atBoundary, hg.of_setLch, apply_ite g, ite_self]

theorem View.of_phsBoundary (hg : View g) (p : Nat) (s : State) : g (phsBoundary p s) = g s := by
  refine (each_keeps g (fun b t => ?_) _).trans (hg.of_setLch ..)
  rw [hg.of_cmdDone (by omega) (fun u => hg.of_setLch ..), hg.of_phsEffect]

theorem Blind.of_cnvRaise (hg : Blind g) (c slice e : Nat) (s : State) : g (cnvRaise c slice e s) = g s := by
  simp only [cnvRaise, hg.of_raiseFrom, hg.of_setHw, Nat.reduceLT]

theorem Blind.of_fgLateCheck (hg : Blind g) (p : Nat) (s : State) : g (fgLateCheck p s) = g s := by
  simp only [fgLateCheck, hg.of_cnvRaise, hg.put, apply_ite g, ite_self]

theorem View.of_jitterCheck (hg : View g) (p : Nat) (s : State) : g (jitterCheck p s) = g s := by
  simp only [jitterCheck, hg.of_latchStats, hg.of_rill, hg.of_raise, hg.of_setCnt, hg.of_setLch, apply_ite g, ite_self,
      Nat.reduceLT, lt_add_off]

theorem View.of_settleShot (hg : View g) (p : Nat) (t : Shot) (s : State) : g (settleShot p t s).2 = g s := by
  unfold settleShot
  split <;> simp only [hg.of_addCnt64, hg.of_setLch, hg.of_raise, hg.of_setHw, hg.of_addHold, hg.of_jitterCheck, apply_ite
      g, ite_self, lt_lchA, lt_lgrFp]

theorem View.of_ledgerClose (hg : View g) (p : Nat) (s : State) : g (ledgerClose p s) = g s := by
  simp only [ledgerClose, hg.of_setLch, apply_ite g, ite_self]

theorem View.of_closeFirst (hg : View g) (p : Nat) (l : List Shot) (s : State) : g (closeFirst p l s).2 = g s := by
  induction l generalizing s with
  | nil => rfl
  | cons t ts ih =>
    rw [closeFirst]
    split
    · exact hg.of_underActive (hg.of_settleShot ..)
    · exact ih s

theorem View.of_closeWindow (hg : View g) (p : Nat) (s : State) : g (closeWindow p s) = g s := by
  simp only [closeWindow, hg.of_closeFirst, hg.of_ledgerClose, hg.of_setLch]

theorem View.of_closeAllWindows (hg : View g) (p : Nat) (s : State) : g (closeAllWindows p s) = g s := by
  simp only [closeAllWindows, hg.of_closeWindow, hg.of_setLch, each_keeps g, implies_true]

theorem View.of_jitterRestart (hg : View g) (s : State) : g (jitterRestart s) = g s := by
  simp only [jitterRestart, hg.of_setLch, each_keeps g, implies_true]

theorem View.of_alignLeave (hg : View g) (p : Nat) (s : State) : g (alignLeave p s) = g s :=
  (hg.of_setLch ..).trans (hg.putCommits ..)

theorem View.of_overridesInstall (hg : View g) (p : Nat) (s : State) : g (overridesInstall p s) = g s := by
  simp only [overridesInstall, hg.of_stashShots, hg.of_setLch, hg.putRegs, apply_ite g, ite_self]

theorem Blind.of_windowsStop (hg : Blind g) (s : State) : g (windowsStop s) = g s := by
  unfold windowsStop
  refine each_keeps g (fun _ _ => ?_) _
  dsimp only
  repeat' split
  all_goals simp only [hg.of_mapSeg, hg.of_setUnit]

/-! ### Raw -/

theorem Blind.of_rawPush (hg : Blind g) (n lane j count fl : Nat) (s : State) : g (rawPush n lane j count fl s) = g s :=
  (hg.of_setStream ..).trans (hg.of_freeNext ..)

theorem Blind.of_rawRest (hg : Blind g) (k n lane j : Nat) (s : State) : g (rawRest k n lane j s) = g s := by
  induction k generalizing j s with
  | zero => rfl
  | succ k ih =>
    rw [rawRest]
    simp only [apply_ite g, ih, hg.of_rawPush, ite_self]

theorem Blind.of_rawCut (hg : Blind g) (s : State) : g (rawCut s) = g s := by
  simp only [rawCut, hg.of_rawRest, each_keeps g, apply_ite g, ite_self, implies_true]

/-! ### Ports -/

theorem Blind.of_onQueue (hg : Blind g) (p n : Nat) (f : List QItem → List QItem) (s : State) :
    g (onQueue p n f s) = g s := by
  simp only [onQueue, hg.of_setStream, apply_ite g, ite_self]

theorem Blind.of_txAbort (hg : Blind g) (p : Nat) (s : State) : g (txAbort p s) = g s := by
  unfold txAbort
  dsimp only
  split <;> simp only [hg.of_setPort, hg.of_onQueue]

theorem Blind.of_moveStream (hg : Blind g) (n : Nat) (s : State) : g (moveStream n s) = g s := by
  simp only [moveStream, hg.of_raiseIf, hg.of_raise, hg.of_setStream, apply_ite g, ite_self, Nat.reduceLT]

theorem Blind.of_placeStreams (hg : Blind g) (s : State) : g (placeStreams s) = g s := by
  simp only [placeStreams, hg.of_moveStream, each_keeps g, implies_true]

theorem Blind.of_staticAddr (hg : Blind g) (p : Nat) (s : State) : g (staticAddr p s) = g s := by
  simp only [staticAddr, hg.of_raiseIf, hg.of_setPort, apply_ite g, ite_self, lt_ethA]

/-! ### Converter -/

theorem View.of_noteOverride (hg : View g) (o : Override) (s : State) : g (noteOverride o s) = g s :=
  (hg.of_raiseGlb (by decide) _).trans (hg.of_overrideWords ..)

theorem Blind.of_windowStart (hg : Blind g) (c : Nat) (s : State) : g (windowStart c s) = g s := hg.put ..

theorem Blind.of_qcalEnd (hg : Blind g) (c : Nat) (s : State) : g (qcalEnd c s) = g s := hg.put ..

theorem Blind.of_qcalEight (hg : Blind g) (c : Nat) (s : State) : g (qcalEight c s) = g s := by
  unfold qcalEight
  dsimp only
  split <;> simp only [hg.of_setConv, hg.of_windowStart, hg.of_fgLateCheck, hg.of_qcalEnd, hg.of_cnvRaise, apply_ite g,
      ite_self]

theorem Blind.of_qcalBegin (hg : Blind g) (c : Nat) (s : State) : g (qcalBegin c s) = g s := by
  simp only [qcalBegin, hg.of_qcalEight, hg.of_setConv, apply_ite g, ite_self]

theorem Blind.of_qcalRun (hg : Blind g) (l : List Nat) (s : State) : g (qcalRun l s) = g s := by
  simp only [qcalRun, hg.of_qcalBegin, each_keeps g, hg.put, apply_ite g, ite_self, implies_true]

theorem View.of_qcalAgain (hg : View g) (s : State) : g (qcalAgain s) = g s := by
  simp only [qcalAgain, hg.of_qcalRun, hg.of_cmdDone, apply_ite g, ite_self, implies_true, id_eq, Nat.reduceLT]

theorem View.of_qcalFinish (hg : View g) {c : Nat} {f : State → State} (h : ∀ s, g (f s) = g s) (s : State) :
    g (qcalFinish f c s) = g s := by
  have hdone : ∀ t, g (cmdDone 0x20044 0 f t) = g t := hg.of_cmdDone (by decide) h
  unfold qcalFinish
  dsimp only
  simp only [apply_ite g, hg.of_flightsDone, hg.putClk, hdone, hg.of_cnvRaise, ite_self]

theorem View.of_qcalCheck (hg : View g) (c : Nat) (s : State) : g (qcalCheck c s) = g s := by
  simp only [qcalCheck, hg.of_qcalFinish, hg.of_qcalAgain, implies_true, id_eq]

theorem View.of_qcalStart (hg : View g) (l : List Nat) (s : State) : g (qcalStart l s) = g s := by
  simp only [qcalStart, hg.of_qcalCheck, hg.of_qcalRun, apply_ite g, ite_self]

theorem View.of_fgCalCheck (hg : View g) {f : State → State} (h : ∀ s, g (f s) = g s) (s : State) :
    g (fgCalCheck f s) = g s := by
  unfold fgCalCheck
  rw [apply_ite g, hg.of_cmdDone (by decide) h, ite_self]

theorem View.of_fgCalCommand (hg : View g) (s : State) : g (fgCalCommand s) = g s := by
  simp only [fgCalCommand, hg.of_windowStart, hg.of_setConv, hg.of_rill, hg.of_cmdDone, each_keeps g, apply_ite g,
      ite_self, implies_true, id_eq, Nat.reduceLT]

theorem Blind.of_clockTerms (hg : Blind g) (c : Nat) (ks : List Nat) (s : State) : g (clockTerms c ks s) = g s := by
  simp only [clockTerms, hg.of_addCnt64, lt_inputLedger]

theorem Blind.of_clocksRest (hg : Blind g) (c : Nat) (s : State) : g (clocksRest c s) = g s := by
  simp only [clocksRest, hg.of_clockTerms, hg.of_setConv, apply_ite g, ite_self]

theorem View.of_lossCount (hg : View g) (s : State) : g (lossCount s) = g s := by
  simp only [lossCount, hg.of_addCnt64, each_keeps g, hg.putClk, apply_ite g, ite_self, implies_true, lt_inputLedger]

theorem Blind.of_convOff (hg : Blind g) (c : Nat) (s : State) : g (convOff c s) = g s := by
  simp only [convOff, hg.of_clocksRest, hg.of_setConv]

theorem Blind.of_modeCalDone (hg : Blind g) (s : State) : g (modeCalDone s) = g s := by
  simp only [modeCalDone, hg.put, apply_ite g, ite_self]

theorem View.of_powerUpdate (hg : View g) (s : State) : g (powerUpdate s) = g s := by
  simp only [powerUpdate, hg.of_convOff, hg.of_lossCount, hg.of_fgCalCheck, hg.of_fgCalCommand, hg.of_qcalCheck,
      hg.of_setConv, hg.of_modeCalDone, hg.of_qcalStart, each_keeps g, apply_ite g, ite_self, implies_true]

theorem View.of_modeCalibrate (hg : View g) (s : State) : g (modeCalibrate s) = g s := by
  simp only [modeCalibrate, hg.of_setConv, hg.of_qcalStart, each_keeps g, hg.putClk, implies_true]

theorem Blind.of_holdsShift (hg : Blind g) (clocks : Nat) (s : State) : g (holdsShift clocks s) = g s := by
  unfold holdsShift
  refine each_keeps g (fun _ _ => ?_) _
  repeat' split
  all_goals simp only [hg.of_setUnit]

theorem Blind.of_indicesRestart (hg : Blind g) (s : State) : g (indicesRestart s) = g s := by
  simp only [indicesRestart, hg.of_holdsShift, hg.of_poolSkip, hg.of_setPol, hg.of_setStream, hg.of_lanesFlush,
      hg.of_clocksRest, hg.of_setConv, hg.of_tinsShift, hg.of_restartLaneUnits, each_keeps g, hg.put, implies_true]

/-! ### Clock -/

theorem View.of_pllStart (hg : View g) (p : Nat) (s : State) : g (pllStart p s) = g s := by
  simp only [pllStart, hg.of_setPll, apply_ite g, ite_self]

theorem View.of_tiuClockStop (hg : View g) (s : State) : g (tiuClockStop s) = g s := by
  simp only [tiuClockStop, hg.of_backupOn, hg.of_jitterRestart, hg.of_closeAllWindows, hg.of_tiuStop, each_keeps g,
      implies_true]

theorem View.of_timeRelock (hg : View g) (s : State) : g (timeRelock s) = g s := by
  simp only [timeRelock, hg.of_pllStart, hg.of_tiuClockStop, apply_ite g, ite_self]

theorem View.of_warmUpdate (hg : View g) (s : State) : g (warmUpdate s) = g s := by
  simp only [warmUpdate, hg.of_pllStart, hg.of_setPll, apply_ite g, ite_self]

theorem View.of_memGated (hg : View g) (i : Nat) (s : State) : g (memGated i s) = g s := by
  simp only [memGated, hg.of_setDch, hg.of_budgetCheck, hg.of_setPll, each_keeps g, apply_ite g, ite_self, implies_true]

/-! ### Dram -/

theorem View.of_regrade (hg : View g) (s : State) : g (regrade s) = g s := by
  simp only [regrade, hg.of_pllStart, hg.of_memGated, each_keeps g, hg.putClk, apply_ite g, ite_self, implies_true]

/-! ### Runnel -/

theorem Blind.of_mboxPut (hg : Blind g) (off : Nat) (l : List (Byte × Bool)) (s : State) :
    g (mboxPut off l s) = g s := hg.put ..

theorem Blind.of_memWrite (hg : Blind g) (a : Nat) (l : List (Byte × Bool)) (s : State) : g (memWrite a l s) = g s := by
  simp only [memWrite, hg.of_dramWrite, hg.of_mboxPut, each_keeps g, apply_ite g, ite_self, implies_true]

theorem View.of_chainOver (hg : View g) (c : Nat) (st : RState) (s : State) : g (chainOver c st s) = g s := by
  simp only [chainOver, hg.of_setRch, hg.of_cmdDone, apply_ite g, ite_self, implies_true, id_eq, Nat.reduceLT]

theorem View.of_descDone (hg : View g) (c status : Nat) (s : State) : g (descDone c status s) = g s := by
  simp only [descDone, hg.of_memWrite, hg.of_raiseIf, hg.of_sendEvent, hg.of_addCnt, hg.of_setRch, hg.of_loss,
      hg.of_raise, hg.of_chainOver, apply_ite g, ite_self, lt_rnlA]

theorem View.of_rnlStop (hg : View g) (c : Nat) (s : State) : g (rnlStop c s) = g s := by
  unfold rnlStop
  split <;> simp only [hg.of_chainOver, hg.of_setRch]

theorem View.of_rnlStopAll (hg : View g) (s : State) : g (rnlStopAll s) = g s := by
  simp only [rnlStopAll, hg.of_rnlStop, each_keeps g, apply_ite g, ite_self, implies_true]

theorem View.of_rnlProtect (hg : View g) (s : State) : g (rnlProtect s) = g s := by
  simp only [rnlProtect, hg.of_raise, hg.of_descDone, each_keeps g, apply_ite g, ite_self, implies_true, Nat.reduceLT]

/-! ### Commit -/

theorem View.of_fallbackDrop (hg : View g) (q : QCommit) (s : State) : g (fallbackDrop q s).2 = g s := by
  unfold fallbackDrop
  split <;> simp only [hg.of_setLch, each_keeps g, implies_true]

theorem View.of_strobeBefore (hg : View g) (l : List Nat) (s : State) : g (strobeBefore l s) = g s := by
  simp only [strobeBefore, hg.of_watchesDrain, hg.of_ctxRestart, hg.of_stashShots, hg.of_mseedClose, hg.of_setStream,
      each_keeps g, apply_ite g, ite_self, implies_true]

theorem Blind.of_strobeTime (hg : Blind g) (old : Nat → Word) (s : State) : g (strobeTime old s) = g s := by
  simp only [strobeTime, hg.of_sourceChanged, hg.of_utcFromCfg, apply_ite g, ite_self]

theorem Blind.of_captureChange (hg : Blind g) (old : Nat → Word) (u : UnitId) (s : State) :
    g (captureChange old u s) = g s := by
  simp only [captureChange, hg.of_returnAlloc, hg.of_rearm, hg.of_setWst, hg.of_askAlloc, apply_ite g, ite_self]

theorem Blind.of_strobeWeir (hg : Blind g) (l : List Nat) (old : Nat → Word) (s : State) : g (strobeWeir l old s) = g s := by
  simp only [strobeWeir, hg.of_captureChange, hg.of_restartUnit, hg.of_restartWatch, hg.of_removeWatch, each_keeps g,
      apply_ite g, ite_self, implies_true]

theorem Blind.of_strobeReplay (hg : Blind g) (old : Nat → Word) (s : State) : g (strobeReplay old s) = g s := by
  simp only [strobeReplay, hg.of_loss, hg.of_setStream, each_keeps g, hg.put, implies_true]

theorem Blind.of_strobeStream (hg : Blind g) (old : Nat → Word) (n : Nat) (s : State) : g (strobeStream old n s) = g s := by
  unfold strobeStream
  dsimp only
  repeat' split
  all_goals simp only [hg.of_mapSeg, hg.of_setStream]

theorem Blind.of_strobeStreams (hg : Blind g) (l : List Nat) (old : Nat → Word) (s : State) :
    g (strobeStreams l old s) = g s := by
  unfold strobeStreams
  dsimp only
  have h : g (each (touchedStreams l) (strobeStream old) s) = g s := each_keeps g (hg.of_strobeStream old) s
  split
  · exact h
  · refine (each_keeps g (fun n t => ?_) _).trans h
    split <;> simp only [hg.of_setStream]

theorem Blind.of_portModeChange (hg : Blind g) (p : Nat) (s : State) : g (portModeChange p s) = g s := by
  simp only [portModeChange, hg.of_txAbort, hg.of_setPort, hg.of_ptpLinkLost, hg.of_raise, apply_ite g, ite_self, lt_ethA]

theorem Blind.of_strobePorts (hg : Blind g) (l : List Nat) (old : Nat → Word) (s : State) :
    g (strobePorts l old s) = g s := by
  simp only [strobePorts, hg.of_portModeChange, hg.of_setPort, hg.of_staticAddr, hg.of_placeStreams, each_keeps g,
      apply_ite g, ite_self, implies_true]

theorem View.of_discardDram (hg : View g) (id : Nat) (s : State) : g (discardDram id s) = g s := by
  simp only [discardDram, hg.of_loss, hg.of_cisRebuild, hg.of_ringDiscard, hg.of_setStream, hg.of_rnlStopAll, hg.of_raise,
      each_keeps g, hg.putClk, implies_true, Nat.reduceLT]

theorem View.of_strobeDram (hg : View g) (l : List Nat) (q : QCommit) (moves : Bool) (s : State) :
    g (strobeDram l q moves s) = g s := by
  simp only [strobeDram, hg.of_discardDram, hg.of_regrade, hg.putClk, apply_ite g, ite_self]

theorem Blind.of_strobeRings (hg : Blind g) (q : QCommit) (old : Nat → Word) (s : State) :
    g (strobeRings q old s) = g s := by
  simp only [strobeRings, hg.of_ringDiscard, each_keeps g, apply_ite g, ite_self, implies_true]

/-! ### The copies of a port -/

/-- The pending copies. -/
def pendOf (s : State) : SMap (SMap Word) := s.regs.pend

theorem pendView : View pendOf where
  put _ _ _ _ _ _ _ _ _ _ _ _ _ _ _ _ _ _ _ _ := rfl
  putPins _ _ _ _ _ := rfl
  putLgr _ _ _ := rfl
  putLaps _ _ := rfl
  of_setHw _ _ _ := rfl
  putClk _ _ _ _ _ _ _ _ _ _ _ _ _ _ _ _ _ _ _ _ _ _ := rfl
  putSlc _ _ := rfl
  putCommits _ _ _ _ := rfl
  putRegs _ _ _ := rfl
  of_raiseGlb _ s := raise_pend s _ _
  of_overrideWords _ _ _ := rfl
  congrActive _ _ _ h := h
  congrPend _ _ _ _ := rfl

theorem fibreApply_none {p : Nat} {t : Stamp} {s : State} (h : smFind (p + 1) s.regs.pend = none) : fibreApply p t s = s := by
  unfold fibreApply; rw [h]

/-- The pending copy of a port becomes active: what a view sees of it are the active copy and the pending copies. -/
theorem View.of_fibreApply (hg : View g) {p : Nat} {t : Stamp} {s : State} {w : SMap Word}
    (hw : smFind (p + 1) s.regs.pend = some w) : g (fibreApply p t s) = g { s with
      regs := { s.regs with active := groupMerge (p + 1) w s.regs.active, pend := smDel (p + 1) s.regs.pend } } := by
  unfold fibreApply
  split
  case h_1 h => rw [hw] at h; cases h
  rename_i w' hw'
  obtain rfl : w' = w := by rw [hw] at hw'; exact (Option.some.inj hw').symm
  extract_lets old active new s1 engine s2 regs s3 moved s4 s5 prime restart seq x s6 s7 s8 s9
  have h2 : ∀ {γ : Type} {f : State → γ}, View f → f s2 = f s := @fun _ f hf => by
    simp only [s2, s1, apply_ite f, hf.of_poolEnds, hf.of_stashShots, ite_self]
  have h3 : g s3 = g { s2 with regs := { s2.regs with active := active, pend := smDel (p + 1) s2.regs.pend } } :=
    (hg.of_histPlan _).trans (hg.of_tiuActivate ..)
  have hpend : s2.regs.pend = s.regs.pend := h2 pendView
  have h9 : g s9 = g s3 := by
    simp only [s9, s8, s7, s6, s5, s4, apply_ite g, hg.of_slotPin, hg.of_launchPin, hg.of_atBoundary, hg.of_setLch,
        hg.of_blockStart, hg.of_ringDiscard, ite_self]
  rw [hg.of_flightApplied, h9, h3, hpend]
  exact hg.congrPend { s2 with regs := { s2.regs with active } } { s with regs := { s.regs with active } } _
    (hg.congrActive s2 s active (h2 hg))

/-- A view that the copies of a port leave alone where it meets `P`. -/
structure FibreView {β : Type} (P : β → Prop) (g : State → β) : Prop extends View g where
  of_fibreApply : ∀ p t s, P (g s) → g (fibreApply p t s) = g s

theorem each_keeps_of {α β : Type} {P : β → Prop} {g : State → β} {l : List α} {f : α → State → State}
    (h : ∀ x s, P (g s) → g (f x s) = g s) {s : State} (hs : P (g s)) : g (each l f s) = g s := by
  unfold each
  induction l generalizing s with
  | nil => rfl
  | cons x l ih =>
    have hx := h x s hs
    rw [List.foldl_cons, ih (by rw [hx]; exact hs), hx]

/-- A view that sees neither the active copy nor the pending copies sees no copy of a port become active. -/
theorem View.fibreView (hg : View g) (h : ∀ s active pend, g { s with regs := { s.regs with active, pend } } = g s) :
    FibreView (fun _ => True) g where
  toView := hg
  of_fibreApply p t s _ := by
    cases hp : smFind (p + 1) s.regs.pend with
    | none => rw [fibreApply_none hp]
    | some w => rw [hg.of_fibreApply hp, h]

section
variable {P : β → Prop}

theorem FibreView.of_disarmPort (hg : FibreView P g) {p : Nat} {s : State} (h : P (g s)) : g (disarmPort p s) = g s := by
  simp only [disarmPort, hg.of_setLch, hg.of_phsBoundary, hg.of_fibreApply, hg.of_overridesInstall, hg.of_alignLeave,
      hg.of_watchesStop, hg.of_ledgerClose, hg.of_poolEnds, hg.of_slotPin, apply_ite g, ite_self, h]

theorem FibreView.of_overridesApply (hg : FibreView P g) {p : Nat} {s : State} (h : P (g s)) :
    g (overridesApply p s) = g s := by
  simp only [overridesApply, hg.of_overridesInstall, hg.of_disarmPort, apply_ite g, ite_self, h]

theorem FibreView.of_fallbackAgain (hg : FibreView P g) {had : List Override} {s : State} (h : P (g s)) :
    g (fallbackAgain had s) = g s := by
  refine each_keeps_of (fun p t ht => ?_) h
  split
  · split
    · rw [hg.of_noteOverride, hg.of_overridesApply (by rw [hg.of_setLch]; exact ht), hg.of_setLch]
    · rfl
  · rfl

theorem FibreView.of_launchesStop (hg : FibreView P g) {s : State} (h : P (g s)) : g (launchesStop s) = g s := by
  have hs : P (g (windowsStop s)) := by rw [hg.of_windowsStop]; exact h
  refine (each_keeps_of (fun p t ht => ?_) hs).trans (hg.of_windowsStop s)
  simp only [hg.of_setLch, hg.of_phsBoundary, hg.of_fibreApply, hg.of_overridesApply, hg.of_alignLeave, apply_ite g,
      ite_self, ht]

theorem FibreView.of_sampleStopRate (hg : FibreView P g) {s : State} (h : P (g s)) : g (sampleStopRate s) = g s := by
  simp only [sampleStopRate, hg.of_launchesStop, hg.of_rawCut, hg.of_pllStart, hg.put, hg.putClk, apply_ite g, ite_self, h]

theorem FibreView.of_strobeClocks (hg : FibreView P g) {q : QCommit} {old : Nat → Word} {s : State} (h : P (g s)) :
    g (strobeClocks q old s) = g s := by
  simp only [strobeClocks, hg.of_timeRelock, hg.of_sampleStopRate, hg.of_modeCalibrate, hg.of_indicesRestart,
      hg.of_warmUpdate, hg.putClk, apply_ite g, ite_self, h]

theorem FibreView.of_strobeFibres (hg : FibreView P g) {q : QCommit} {s : State} (h : P (g s)) :
    g (strobeFibres q s) = g s := by
  unfold strobeFibres
  extract_lets named wait commits s1
  have h1 : g s1 = g s := by simp only [s1, commits, apply_ite g, hg.putCommits, ite_self]
  exact (each_keeps_of (fun p t ht => hg.of_fibreApply _ _ _ ht) (by rw [h1]; exact h)).trans h1

/-- A strobe up to its event: the words of the commit stand in the register file, and the commit counts. -/
def strobeHead (q : QCommit) (s : State) : State :=
  let s := (fallbackDrop q s).2
  let s := strobeRegs q (strobeBefore (changedWords s (strobeRegs q s)) s)
  raise 0x10 0 (addCnt 0x40 1
    (each ([(0, 84), (1, 80), (2, 81), (3, 82), (4, 83), (5, 84), (9, 108)].filter fun e => q.mask.getLsbD e.1)
      (fun e s => rill e.2 1 s) s))

/-- What follows the event of a strobe is seen by no view that the copies of a port leave alone. -/
theorem FibreView.of_strobe (hg : FibreView P g) {q : QCommit} {s : State} (h : P (g (strobeHead q s))) :
    g (strobe q s) = g (strobeHead q s) := by
  unfold strobe
  extract_lets moves had
  split
  rename_i waiting s1 hdrop
  have hs1 : (fallbackDrop q s).2 = s1 := by rw [hdrop]
  have hhead : strobeHead q s = raise 0x10 0 (addCnt 0x40 1
    (each ([(0, 84), (1, 80), (2, 81), (3, 82), (4, 83), (5, 84), (9, 108)].filter fun e => q.mask.getLsbD e.1)
      (fun e s => rill e.2 1 s) (strobeRegs q (strobeBefore (changedWords s1 (strobeRegs q s1)) s1)))) := by
    unfold strobeHead; rw [hs1]
  rw [hhead] at h ⊢
  extract_lets old l s2 s3 s4 f commits s5 s6 s7 s8 s9 s10 s11 s12
  have h5 : g s5 = g s4 := hg.putCommits ..
  have h6 : g s6 = g s5 := hg.of_fallbackAgain (by rw [h5]; exact h)
  have h7 : g s7 = g s6 := by
    simp only [s7, each_keeps g, hg.of_tiuActivate, apply_ite g, ite_self, implies_true, hg.of_strobeTime]
    exact hg.of_strobeClocks (by rw [h6, h5]; exact h)
  have h8 : g s8 = g s7 := hg.of_strobeDram ..
  have hr : g (strobeRings q old s8) = g s4 := by rw [hg.of_strobeRings, h8, h7, h6, h5]
  have h9 : g s9 = g s4 := (hg.of_strobeFibres (by rw [hr]; exact h)).trans hr
  rw [hg.of_budgetCheck, hg.of_flightsDone, hg.of_rnlProtect, hg.of_powerUpdate, hg.of_strobePorts, hg.of_strobeReplay,
    hg.of_strobeStreams, hg.of_strobeWeir, hg.of_histPlan, h9]
end

end

/-! ### The owned values are such a view -/

theorem owned_timerSet (kind i n : Nat) (s : State) : owned (timerSet kind i n s) = owned s := by rfl

theorem owned_setHw (a : Nat) (w : Word) (s : State) : owned (setHw a w s) = owned s := by rfl

theorem owned_setCnt (a n : Nat) (s : State) : owned (setCnt a n s) = owned s := by rfl

theorem owned_addCnt (a n : Nat) (s : State) : owned (addCnt a n s) = owned s := by rfl

theorem owned_addHold (a n : Nat) (s : State) : owned (addHold a n s) = owned s := by rfl

theorem owned_setCnt64 (a n : Nat) (s : State) : owned (setCnt64 a n s) = owned s := by
  simp only [setCnt64, owned_setHw]

theorem owned_addCnt64 (a n : Nat) (s : State) : owned (addCnt64 a n s) = owned s := by
  simp only [addCnt64, owned_setCnt64, owned_ite, ite_self]

theorem owned_setStamp (a : Nat) (t : Stamp) (s : State) : owned (setStamp a t s) = owned s := by
  simp only [setStamp, owned_setHw]

theorem owned_cmdDone {a b : Nat} {f : State → State} (h : ∀ s, owned (f s) = owned s) (s : State) :
    owned (cmdDone a b f s) = owned s := by
  unfold cmdDone
  simp only [owned_ite, owned_setHw, h, owned_putRegs, ite_self]

theorem owned_setStream (n : Nat) (x : Stream) (s : State) : owned (setStream n x s) = owned s := by rfl

theorem owned_sendEvent (cat : Nat) (e : Event) (s : State) : owned (sendEvent cat e s) = owned s := by
  simp only [sendEvent, owned_setStream, owned_foldl, owned_ite, ite_self, implies_true]

theorem owned_raiseAt (t : Stamp) (q : Byte) (src a e : Nat) (s : State) : owned (raiseAt t q src a e s) = owned s := by
  unfold raiseAt
  dsimp only
  split <;> simp only [owned_setHw, owned_sendEvent, owned_put, owned_putRegs]

theorem owned_raiseFrom (src a e : Nat) (s : State) : owned (raiseFrom src a e s) = owned s := by
  simp only [raiseFrom, owned_raiseAt]

theorem owned_raise (a e : Nat) (s : State) : owned (raise a e s) = owned s := by
  simp only [raise, owned_raiseFrom]

theorem owned_raiseIf (c : Bool) (a e : Nat) (s : State) : owned (raiseIf c a e s) = owned s := by
  simp only [raiseIf, owned_raise, owned_ite, ite_self]

theorem owned_latchStats (a : Nat) (xs : List Int) (s : State) : owned (latchStats a xs s) = owned s := by
  simp only [latchStats, owned_setCnt64]

theorem ownedView : View owned where
  put _ _ _ _ _ _ _ _ _ _ _ _ _ _ _ _ _ _ _ _ := rfl
  putPins _ _ _ _ _ := rfl
  putLgr _ _ _ := rfl
  putLaps _ _ := rfl
  of_setHw _ _ _ := rfl
  putClk _ _ _ _ _ _ _ _ _ _ _ _ _ _ _ _ _ _ _ _ _ _ := rfl
  putSlc _ _ := rfl
  putCommits _ _ _ _ := rfl
  putRegs _ _ _ := rfl
  of_raiseGlb _ s := owned_raise _ _ s
  of_overrideWords _ _ _ := rfl
  congrActive _ _ _ h := h
  congrPend _ _ _ h := h

theorem ownedFibres : FibreView (fun _ => True) owned := ownedView.fibreView fun _ _ _ => rfl

/-! ### Commands -/

/-- A command leaves every owned value as it is. -/
def KeepsOwned (f : State → Host.Outcome State Fault Refusal) : Prop := ∀ s t, f s = .next t → owned t = owned s

theorem keepsOwned_run {f : State → State} (h : ∀ s, owned (f s) = owned s) : KeepsOwned (run f) := by
  intro s t ht
  unfold run at ht
  split at ht
  · cases ht; rfl
  · cases ht; exact h s

theorem keepsOwned_runBoot {f : State → State} (h : ∀ s, owned (f s) = owned s) : KeepsOwned (runBoot f) := by
  intro s t ht
  cases ht; exact h s

/-! ### Ops -/

theorem owned_timerGrid (kind i n : Nat) (s : State) : owned (timerGrid kind i n s) = owned s := by rfl

theorem owned_timerStop (kind i : Nat) (s : State) : owned (timerStop kind i s) = owned s := by rfl

theorem owned_rillIssue (k : Nat) (s : State) : owned (rillIssue k s) = owned s := by
  simp only [rillIssue, owned_addCnt64]

theorem owned_rnlCount (c n : Nat) (s : State) : owned (rnlCount c n s) = owned s := by
  simp only [rnlCount, owned_addCnt64]

theorem owned_draw (n : Nat) (s : State) : owned (draw n s).2 = owned s := by rfl

theorem owned_when {c : Bool} {f : State → State} (h : ∀ s, owned (f s) = owned s) (s : State) :
    owned (when c f s) = owned s := by
  unfold when
  rw [owned_ite, h, ite_self]

theorem owned_hostCmd {n op : Nat} {boot lenOk : Bool} {len : Nat} {f : State → State} (h : ∀ s, owned (f s) = owned s) (s
    : State) :
    owned (hostCmd n op boot lenOk len f s) = owned s := by
  unfold hostCmd
  simp only [owned_ite, ownedView.of_answer, h, ite_self]

theorem owned_needLease {n op : Nat} {f : State → State} (h : ∀ s, owned (f s) = owned s) (s : State) :
    owned (needLease n op f s) = owned s := by
  unfold needLease
  simp only [owned_ite, ownedView.of_answer, h, ite_self]

/-! ### DramOps -/

theorem owned_takeIn (n c : Nat) (s : State) : owned (takeIn n c s) = owned s := by
  induction n generalizing s with
  | zero => rfl
  | succ n ih =>
    rw [takeIn]
    dsimp only
    split
    · rfl
    · simp only [ih, owned_ite, ownedView.of_rillReturn, owned_addCnt, ownedView.of_setDch, ite_self]

theorem owned_schedule (c : Nat) (s : State) : owned (schedule c s) = owned s := by
  unfold schedule
  dsimp only
  repeat' split
  all_goals simp only [owned_takeIn, ownedView.of_setDch, ownedView.of_issueReq]

theorem owned_dramRead (a n : Nat) (s : State) : owned (dramRead a n s).2 = owned s := by
  simp only [dramRead, ownedView.of_blockAccess, ownedView.of_countRead, owned_each, implies_true]

/-! ### Spout -/

theorem owned_windowWrite (n : Nat) (r : Rec) (s : State) : owned (windowWrite n r s) = owned s := by
  unfold windowWrite
  split <;> simp only [ownedView.of_ringWrite, owned_setStream, owned_ite, ite_self]

theorem owned_askHop (p : Nat) (d : List Word) (s : State) : owned (askHop p d s) = owned s := by
  simp only [askHop, ownedView.of_setPort, owned_ite, ite_self]

theorem owned_createRec (n : Nat) (r : Rec) (s : State) : owned (createRec n r s) = owned s := by
  simp only [createRec, owned_setStream, owned_windowWrite, owned_raise, owned_raiseIf, owned_askHop, owned_ite, ite_self]

theorem owned_mseedTake (n ch : Nat) (t : TapSample) (v : Int) (s : State) : owned (mseedTake n ch t v s) = owned s := by
  simp only [mseedTake, ownedView.of_mseedClose, owned_setStream, owned_ite, ite_self]

theorem owned_feedStreams (p : Nat) (t : TapSample) (s : State) : owned (feedStreams p t s) = owned s := by
  simp only [feedStreams, owned_setStream, owned_mseedTake, owned_foldl, owned_ite, ite_self, implies_true]

/-! ### Pool -/

theorem owned_poolTake (e : Nat) (vals : List (Option Int)) (t : Stamp) (q : Byte) (fl : Nat) (s : State) :
    owned (poolTake e vals t q fl s) = owned s := by
  simp only [poolTake, ownedView.of_setPol, ownedView.of_blockClose, owned_ite, ite_self]

theorem owned_poolPoison (e : Nat) (bad : List Nat) (s : State) : owned (poolPoison e bad s) = owned s := by
  simp only [poolPoison, owned_raise, ownedView.of_setPol, owned_ite, ite_self]

theorem owned_poolEvent (e : Nat) (vals : List (Option Int)) (t : Stamp) (q : Byte) (fl : Nat) (s : State) :
    owned (poolEvent e vals t q fl s) = owned s := by
  simp only [poolEvent, ownedView.of_setPol, owned_poolTake, owned_ite, ite_self]

theorem owned_poolTap (e : Nat) (t : TapSample) (done : List Bool) (s : State) : owned (poolTap e t done s) = owned s := by
  simp only [poolTap, owned_poolEvent, owned_ite, ite_self]

theorem owned_poolBins (e slot : Nat) (pwr : Nat → Option Int) (t : Stamp) (q : Byte) (fl : Nat) (s : State) :
    owned (poolBins e slot pwr t q fl s) = owned s := by
  simp only [poolBins, owned_poolEvent, owned_ite, ite_self]

theorem owned_poolTrigger (u : Nat) (t : Int) (f : Nat) (stamp : Stamp) (q : Byte) (s : State) :
    owned (poolTrigger u t f stamp q s) = owned s := by
  simp only [poolTrigger, ownedView.of_setPol, ownedView.of_poolSkip, owned_each, owned_ite, ite_self, implies_true]

theorem owned_ringRelease (e : Nat) (s : State) : owned (ringRelease e s) = owned s := by rfl

/-! ### Cascade -/

theorem owned_setStageReg (p ch k : Nat) (r : StageReg) (s : State) : owned (setStageReg p ch k r s) = owned s := by rfl

theorem owned_stageChannel (c : StageCfg) (j p k : Nat) (s : State) (x : List Int × Nat) :
    owned (stageChannel c j p k s x).1 = owned s := by
  unfold stageChannel
  dsimp only
  split <;> simp only [owned_setStageReg]

theorem owned_stageAll (c : StageCfg) (j p k : Nat) (s : State) (l : List (List Int × Nat)) :
    owned (stageAll c j p k s l).1 = owned s := by
  induction l generalizing s with
  | nil => rfl
  | cons x xs ih => exact (ih _).trans (owned_stageChannel c j p k s x)

theorem owned_nextIndex (p tap : Nat) (s : State) : owned (nextIndex p tap s).2 = owned s := by rfl

theorem owned_emitTap (p : Nat) (t : TapSample) (done : List Bool) (s : State) : owned (emitTap p t done s) = owned s := by
  simp only [emitTap, owned_poolTap, owned_feedStreams, ownedView.of_setCsc]

theorem owned_cascadeFrom (p fuel k : Nat) (vals : List (List Int)) (attr : TapAttr) (s : State) :
    owned (cascadeFrom p fuel k vals attr s) = owned s := by
  induction fuel generalizing k vals attr s with
  | zero => rfl
  | succ fuel ih =>
    rw [cascadeFrom]
    dsimp only
    simp only [owned_ite, ih, owned_addCnt64, ownedView.of_setCsc, owned_stageAll, owned_emitTap, owned_nextIndex,
        owned_raise, owned_addHold, owned_each, implies_true, ite_self]

/-! ### Reservoir -/

theorem owned_otpSet (a : Nat) (b : Byte) (s : State) : owned (otpSet a b s) = owned s := by rfl

theorem owned_otpSetAll (a : Nat) (l : List Byte) (s : State) : owned (otpSetAll a l s) = owned s := by
  simp only [otpSetAll, owned_otpSet, owned_foldl, implies_true]

theorem owned_otpDefer (s : State) : owned (otpDefer s) = owned s := by
  simp only [otpDefer, owned_raise, owned_addCnt, owned_ite, ite_self]

theorem owned_otpRequest (a : Nat) (l : List Byte) (s : State) : owned (otpRequest a l s) = owned s := by
  simp only [otpRequest, owned_otpDefer, owned_putSec]

theorem owned_wearAdd (kind cause gen index : Nat) (s : State) : owned (wearAdd kind cause gen index s) = owned s := by
  simp only [wearAdd, owned_raise, ownedView.of_rill, owned_otpDefer, owned_putLgr, owned_ite, ite_self]

theorem owned_wearCountBad (s : State) : owned (wearCountBad s) = owned s := by
  simp only [wearCountBad, owned_raise, owned_setHw]

theorem keepsOwned_execWearMapWrite (verified : Bool) : KeepsOwned (execWearMapWrite verified) := by
  refine keepsOwned_run fun s => ?_
  split
  · rfl
  · split
    · rfl
    · dsimp only
      split
      · exact (owned_raise ..).trans (owned_otpSetAll ..)
      · exact (owned_wearCountBad _).trans ((owned_otpSetAll ..).trans (ownedView.of_freeNext s))

/-! ### Phase -/

theorem owned_setChan (p k : Nat) (c : Chan) (s : State) : owned (setChan p k c s) = owned s := by rfl

theorem owned_takeSpare (row k : Nat) (s : State) : owned (takeSpare row k s) = owned s := by rfl

theorem owned_retireSpare (k : Nat) (s : State) : owned (retireSpare k s) = owned s := by
  simp only [retireSpare, owned_wearAdd, owned_put, owned_ite, ite_self]

theorem owned_rowFailed (row : Nat) (s : State) : owned (rowFailed row s) = owned s := by rfl

theorem owned_clearRow (row : Nat) (s : State) : owned (clearRow row s) = owned s := by rfl

theorem owned_retireRow (row : Nat) (s : State) : owned (retireRow row s) = owned s := by
  unfold retireRow
  dsimp only
  split <;> simp only [owned_wearAdd, owned_raise, owned_takeSpare, owned_clearRow, ownedView.of_loss, owned_put,
      owned_ite, ite_self]

theorem owned_basinCorrected (s : State) : owned (basinCorrected s) = owned s := by
  simp only [basinCorrected, owned_raise, owned_addCnt64]

theorem owned_basinUncorrectable (s : State) : owned (basinUncorrectable s) = owned s := by
  simp only [basinUncorrectable, owned_raise, owned_addHold]

theorem owned_basinRepair (p : Nat) (e : BasinErr) (s : State) : owned (basinRepair p e s) = owned s := by
  simp only [basinRepair, owned_basinCorrected, owned_setChan, owned_setHw, ownedView.of_loss, owned_raise,
      owned_basinUncorrectable, owned_rowFailed, owned_ite, ite_self]

theorem owned_keepHeader (p : Nat) (l : List Byte) (s : State) : owned (keepHeader p l s) = owned s := by
  simp only [keepHeader, owned_setHw, owned_each, implies_true]

theorem owned_updateChannel (m : Nat → Word) (p : Nat) (t : Shot) (src : BinSrc × Option BinSrc) (k : Nat) (s : State) :
    owned (updateChannel m p t src k s).1 = owned s := by
  unfold updateChannel
  dsimp only
  repeat' split
  all_goals simp only [owned_setChan]

theorem owned_updateChannels (m : Nat → Word) (p : Nat) (t : Shot) (src : BinSrc × Option BinSrc) (n k : Nat) (s : State) :
    owned (updateChannels m p t src n k s).1 = owned s := by
  induction n generalizing k s with
  | zero => rfl
  | succ n ih => exact (ih _ _).trans (owned_updateChannel m p t src k s)

theorem owned_processShot (p : Nat) (t : Shot) (lanes : List (List Int)) (ovr : Bool) (errs : List BasinErr) (s : State) :
    owned (processShot p t lanes ovr errs s) = owned s := by
  simp only [processShot, ownedView.of_boundaryActs, owned_basinRepair, ownedView.of_rill, owned_updateChannels,
      owned_addCnt64, owned_raise, owned_addHold, owned_raiseIf, owned_keepHeader, ownedView.of_setCsc, owned_nextIndex,
      owned_emitTap, owned_poolBins, owned_cascadeFrom, owned_each, owned_ite, ite_self, implies_true]

theorem owned_underWords {p : Nat} {w : Option (SMap Word)} {f : State → State} (h : ∀ s, owned (f s) = owned s) (s :
    State) :
    owned (underWords p w f s) = owned s := by
  cases w with
  | none => exact h s
  | some w => exact h { s with regs := { s.regs with active := _, overrides := _ } }

theorem keepsOwned_execBasinScrub (row : Nat) (found : BasinFound) : KeepsOwned (execBasinScrub row found) := by
  refine keepsOwned_run fun s => ?_
  split <;> simp only [owned_basinCorrected, owned_basinUncorrectable, owned_clearRow, owned_rowFailed, owned_retireSpare,
      owned_ite, ite_self]

theorem keepsOwned_execBasinRowRetire (row : Nat) : KeepsOwned (execBasinRowRetire row) := by
  refine keepsOwned_run fun s => ?_
  simp only [owned_retireRow, owned_ite, ite_self]

/-! ### Cistern -/

theorem owned_rewriteState (id : Nat) (s : State) : owned (rewriteState id s) = owned s := by
  unfold rewriteState
  split <;> simp only [ownedView.of_writeState]

theorem owned_checkShort (r : Nat) (s : State) : owned (checkShort r s) = owned s := by
  unfold checkShort
  refine owned_each (fun _ _ => ?_) _
  repeat' split
  all_goals simp only [owned_raise, ownedView.of_setWst, owned_ite, ite_self]

theorem owned_chainAdvance (g : Seg) (digest : List Byte) (s : State) : owned (chainAdvance g digest s) = owned s := by rfl

theorem owned_markLate (g : Seg) (s : State) : owned (markLate g s) = owned s := by
  simp only [markLate, owned_rewriteState, ownedView.of_mapSeg, ownedView.of_loss, owned_raise, owned_ite, ite_self]

theorem owned_poisonSeen (a n : Nat) (s : State) : owned (poisonSeen a n s) = owned s := by
  simp only [poisonSeen, owned_markLate, owned_each, implies_true]

theorem owned_markChannel (c : Nat) (s : State) : owned (markChannel c s) = owned s := by
  unfold markChannel
  refine owned_each (fun _ _ => ?_) _
  repeat' split
  all_goals simp only [owned_markLate, ownedView.of_mapSeg]

theorem owned_lmsTake (s : State) : owned (lmsTake s) = owned s := by
  simp only [lmsTake, owned_otpSet, owned_raiseIf, owned_putSec]

theorem owned_lmsStart (s : State) : owned (lmsStart s) = owned s := by
  simp only [lmsStart, owned_otpDefer, owned_lmsTake, owned_putSec, owned_ite, ite_self]

theorem owned_lmsSpend (s : State) : owned (lmsSpend s) = owned s := by
  simp only [lmsSpend, owned_addCnt64, owned_raise, owned_lmsStart, owned_putSec, owned_ite, ite_self]

theorem owned_sealTimed (s : State) : owned (sealTimed s) = owned s := by rfl

theorem owned_makeSeal (demand : Bool) (s : State) : owned (makeSeal demand s) = owned s := by
  simp only [makeSeal, ownedView.of_setRegion, owned_setStamp, owned_setCnt64, owned_sealTimed, owned_sendEvent,
      owned_raise, owned_raiseIf, owned_lmsSpend, owned_each, owned_put, owned_ite, ite_self, implies_true]

theorem owned_lifecycleProceed (s : State) : owned (lifecycleProceed s) = owned s := by
  unfold lifecycleProceed
  dsimp only
  repeat' split
  all_goals simp only [owned_otpRequest, ownedView.of_answer]

theorem owned_sealMade (k : SealKind) (s : State) : owned (sealMade k s) = owned s := by
  cases k with
  | cmd => exact owned_cmdDone (f := fun s => { s with cis := { s.cis with nowWait := true } }) (fun _ => rfl) s
  | life => exact owned_lifecycleProceed s
  | interval => rfl
  | host => rfl

theorem owned_sealDo (k : SealKind) (s : State) : owned (sealDo k s) = owned s := by
  simp only [sealDo, owned_sealMade, owned_makeSeal]

theorem owned_sealDue (k : SealKind) (s : State) : owned (sealDue k s) = owned s := by
  simp only [sealDue, owned_sealDo, owned_raise, owned_lmsStart, owned_put, owned_ite, ite_self]

theorem keepsOwned_execSealTimer : KeepsOwned execSealTimer := by
  refine keepsOwned_run fun s => ?_
  simp only [owned_sealTimed, owned_sealDue, owned_ite, ite_self]

theorem keepsOwned_execSealDeferredStart : KeepsOwned execSealDeferredStart := by
  refine keepsOwned_run fun s => ?_
  split <;> simp only [owned_sealDo, owned_put, owned_ite, ite_self]

theorem owned_sealNowCommand (s : State) : owned (sealNowCommand s) = owned s := by
  simp only [sealNowCommand, owned_sealDue, owned_put, owned_ite, ite_self]

theorem keepsOwned_execSealSpacingEnd : KeepsOwned execSealSpacingEnd := by
  refine keepsOwned_run fun s => ?_
  simp only [owned_sealDue, owned_put, owned_ite, ite_self]

theorem owned_queueRead (n : Nat) (q : SegRead) (s : State) : owned (queueRead n q s) = owned s := by
  simp only [queueRead, ownedView.of_mapSeg, owned_setStream, owned_ite, ite_self]

theorem owned_autoQueue (r id len : Nat) (s : State) : owned (autoQueue r id len s) = owned s := by
  simp only [autoQueue, owned_queueRead, owned_raise, owned_setCnt64, owned_addHold, owned_each, owned_ite, ite_self,
      implies_true]

theorem keepsOwned_execPinSuspensionEnd (u : UnitId) : KeepsOwned (execPinSuspensionEnd u) := by
  refine keepsOwned_run fun s => ?_
  simp only [owned_raise, ownedView.of_setWst, owned_ite, ite_self]

theorem keepsOwned_execSegQuery (ses seg : Nat) : KeepsOwned (execSegQuery ses seg) := by
  refine keepsOwned_run (owned_hostCmd fun s => ?_)
  split <;> simp only [ownedView.of_answer]

theorem keepsOwned_execSegPin (ses seg : Nat) : KeepsOwned (execSegPin ses seg) := by
  refine keepsOwned_run (owned_hostCmd (owned_needLease fun s => ?_))
  split <;> simp only [ownedView.of_answer, owned_rewriteState, ownedView.of_mapSeg, owned_checkShort, owned_ite, ite_self]

theorem keepsOwned_execSegUnpin (ses seg : Nat) : KeepsOwned (execSegUnpin ses seg) := by
  refine keepsOwned_run (owned_hostCmd (owned_needLease fun s => ?_))
  split <;> simp only [ownedView.of_answer, owned_rewriteState, ownedView.of_mapSeg]

theorem keepsOwned_execSegRelease (ses seg : Nat) : KeepsOwned (execSegRelease ses seg) := by
  refine keepsOwned_run (owned_hostCmd (owned_needLease fun s => ?_))
  split <;> simp only [ownedView.of_answer, ownedView.of_ledgerFree, ownedView.of_freeSeg, owned_ite, ite_self]

theorem keepsOwned_execSealCmd (ses : Nat) (nowFlag : Bool) (index : Nat) : KeepsOwned (execSealCmd ses nowFlag index) := by
  refine keepsOwned_run fun s => ?_
  simp only [owned_hostCmd, owned_needLease, ownedView.of_answer, owned_sealDue, owned_ite, ite_self, implies_true]

/-! ### History -/

theorem owned_histGet (h : Hist) (entry off n : Nat) (s : State) : owned (histGet h entry off n s).2 = owned s := by
  simp only [histGet, owned_dramRead]

theorem owned_laneAppend (lane a : Nat) (xs : List (BitVec 16)) (zero : Bool) (s : State) :
    owned (laneAppend lane a xs zero s) = owned s := by
  simp only [laneAppend, ownedView.of_lanePut, owned_each, owned_put, owned_ite, ite_self, implies_true]

/-! ### Weir -/

theorem owned_clearAlarm (s : State) : owned (clearAlarm s) = owned s := by
  simp only [clearAlarm, owned_raise, owned_put, owned_ite, ite_self]

theorem owned_armUnit (u : Nat) (s : State) : owned (armUnit u s) = owned s := by
  simp only [armUnit, ownedView.of_restartUnit, ownedView.of_setUnit, ownedView.of_askAlloc, owned_ite, ite_self]

theorem owned_disarmUnit (u : Nat) (s : State) : owned (disarmUnit u s) = owned s := by
  simp only [disarmUnit, ownedView.of_returnAlloc, ownedView.of_setUnit, owned_ite, ite_self]

theorem owned_deviceDisarm (u : Nat) (s : State) : owned (deviceDisarm u s) = owned s := by
  simp only [deviceDisarm, owned_raise, owned_disarmUnit, owned_ite, ite_self]

theorem owned_tinEdge (c : Nat) (t : Stamp) (s : State) : owned (tinEdge c t s) = owned s := by
  simp only [tinEdge, ownedView.of_setUnit, owned_each, owned_ite, ite_self, implies_true]

theorem owned_unitConds (u : Nat) (i : Nat) (xs : List (Nat × Int)) (s : State) :
    owned (unitConds u i xs s).1 = owned s := by
  unfold unitConds
  dsimp only
  repeat' split
  all_goals simp only [ownedView.of_setUnit]

theorem owned_unitShoots (u : Nat) (spc : Nat) (l : List Int) (s : State) : owned (unitShoots u spc l s).2 = owned s := by
  simp only [unitShoots, owned_poolTrigger, ownedView.of_condMet, implies_true, owned_foldl_snd]

theorem keepsOwned_execLaneTriggerCondition (i : Nat) (xs : List (Nat × Int)) :
    KeepsOwned (execLaneTriggerCondition i xs) := by
  refine keepsOwned_run fun s => ?_
  simp only [owned_unitConds, owned_unitShoots, ownedView.of_rill, ownedView.of_fireAll, owned_ite, ite_self,
      implies_true, owned_foldl_snd]

theorem keepsOwned_execWatchCondition (port : Fin 4) : KeepsOwned (execWatchCondition port) := by
  refine keepsOwned_run fun s => ?_
  simp only [ownedView.of_watchStep]

theorem owned_watchesStart (p : Nat) (s : State) : owned (watchesStart p s) = owned s := by
  simp only [watchesStart, ownedView.of_askAlloc, owned_each, owned_ite, ite_self, implies_true]

theorem keepsOwned_execHoldoffExpiry (u : UnitId) : KeepsOwned (execHoldoffExpiry u) := by
  refine keepsOwned_run fun s => ?_
  split <;> simp only [ownedView.of_endHold, owned_ite, ite_self]

theorem keepsOwned_execPostWindowEnd (u : UnitId) : KeepsOwned (execPostWindowEnd u) := by
  refine keepsOwned_run fun s => ?_
  dsimp only
  split <;> simp only [ownedView.of_setWst, ownedView.of_mapSeg, ownedView.of_openDead, ownedView.of_rearm,
      ownedView.of_askAlloc, owned_ite, ite_self]

theorem keepsOwned_execAllocationAnswer (u : UnitId) : KeepsOwned (execAllocationAnswer u) := by
  refine keepsOwned_run fun s => ?_
  dsimp only
  repeat' split
  all_goals simp only [ownedView.of_clearRange, ownedView.of_setRegion, ownedView.of_rearm, ownedView.of_setWst,
      owned_raiseIf]

theorem keepsOwned_execTrigOutPulseEnd (pin : Fin 4) : KeepsOwned (execTrigOutPulseEnd pin) := by
  refine keepsOwned_run fun s => ?_
  simp only [owned_timerStop, owned_putPins, owned_ite, ite_self]

theorem keepsOwned_execAlarmPulseEnd : KeepsOwned execAlarmPulseEnd := by
  refine keepsOwned_run fun s => ?_
  simp only [owned_clearAlarm, owned_ite, ite_self]

theorem keepsOwned_execEvalLaneCheck (port : Fin 4) (lane : Nat) (laneOk spareOk : Bool) :
    KeepsOwned (execEvalLaneCheck port lane laneOk spareOk) := by
  refine keepsOwned_run fun s => ?_
  simp only [owned_wearAdd, owned_raise, ownedView.of_budgetCheck, owned_put, owned_ite, ite_self]

theorem keepsOwned_execWatchStatus (ses first count : Nat) : KeepsOwned (execWatchStatus ses first count) := by
  refine keepsOwned_run (owned_hostCmd fun s => ?_)
  simp only [ownedView.of_answer]

/-! ### TimeBase -/

theorem owned_putSigned32 (a : Nat) (v : Int) (s : State) : owned (putSigned32 a v s) = owned s := by
  simp only [putSigned32, owned_setHw, ownedView.of_freeNext, owned_ite, ite_self]

theorem owned_tbMeasured (th : Int) (s : State) : owned (tbMeasured th s) = owned s := by
  unfold tbMeasured
  split <;> simp only [ownedView.of_setTbState, owned_put, owned_ite, ite_self]

theorem owned_moveTime (d : Int) (s : State) : owned (moveTime d s) = owned s := by
  simp only [moveTime, ownedView.of_rill, owned_put, owned_ite, ite_self]

theorem owned_stepTime (d : Int) (unset : Bool) (s : State) : owned (stepTime d unset s) = owned s := by
  simp only [stepTime, owned_moveTime, owned_setStamp, owned_setCnt64, owned_addCnt, owned_raise, owned_put]

theorem owned_measure (src : Nat) (th : Int) (s : State) : owned (measure src th s) = owned s := by
  simp only [measure, owned_putSigned32, owned_stepTime, ownedView.of_setFreq, ownedView.of_noteValid, owned_tbMeasured,
      owned_timerSet, owned_put, owned_ite, ite_self]

theorem owned_backupOff (s : State) : owned (backupOff s) = owned s := by
  simp only [backupOff, owned_raise, owned_put, owned_ite, ite_self]

theorem keepsOwned_execBackupSteer : KeepsOwned execBackupSteer := by
  refine keepsOwned_run fun s => ?_
  simp only [owned_timerGrid, owned_put, owned_ite, ite_self]

theorem keepsOwned_execHoldoverEntry : KeepsOwned execHoldoverEntry := by
  refine keepsOwned_run fun s => ?_
  simp only [ownedView.of_setTbState, owned_put, owned_ite, ite_self]

theorem keepsOwned_execFreerunEntry : KeepsOwned execFreerunEntry := by
  refine keepsOwned_run fun s => ?_
  simp only [ownedView.of_setTbState, owned_ite, ite_self]

theorem keepsOwned_execPpsOutPulse : KeepsOwned execPpsOutPulse := by
  refine keepsOwned_run fun s => ?_
  simp only [owned_timerSet, owned_putPins, owned_ite, ite_self]

theorem keepsOwned_execPpsOutWidthEnd : KeepsOwned execPpsOutWidthEnd := by
  refine keepsOwned_run fun s => ?_
  simp only [owned_timerStop, owned_putPins, owned_ite, ite_self]

theorem keepsOwned_execLeapApply : KeepsOwned execLeapApply := by
  refine keepsOwned_run fun s => ?_
  simp only [owned_raise, owned_setHw, owned_put, owned_ite, ite_self]

theorem owned_ptpSend (p typ : Nat) (s : State) : owned (ptpSend p typ s) = owned s := by rfl

theorem keepsOwned_execPtpMessage (port : Fin 2) (msg : PtpMsg) : KeepsOwned (execPtpMessage port msg) := by
  refine keepsOwned_run fun s => ?_
  repeat' split
  all_goals simp only [owned_addCnt, ownedView.of_utcNews, owned_setCnt64, owned_ptpSend, owned_measure, owned_setCnt,
      owned_put]

theorem keepsOwned_execPtpSyncTx : KeepsOwned execPtpSyncTx := by
  refine keepsOwned_run fun s => ?_
  simp only [owned_ptpSend, owned_put, owned_ite, ite_self]

theorem keepsOwned_execDelayReqTx : KeepsOwned execDelayReqTx := by
  refine keepsOwned_run fun s => ?_
  simp only [owned_ptpSend, owned_put, owned_ite, ite_self]

theorem keepsOwned_execAnnounceTx : KeepsOwned execAnnounceTx := by
  refine keepsOwned_run fun s => ?_
  simp only [owned_ptpSend, owned_put, owned_ite, ite_self]

theorem owned_takeTime (t at' : Stamp) (s : State) : owned (takeTime t at' s) = owned s := by
  simp only [takeTime, owned_raise, owned_moveTime, ownedView.of_noteValid, ownedView.of_setTbState, owned_stepTime,
      owned_ite, ite_self]

theorem keepsOwned_execTimeSet (ses : Nat) (stamp : Stamp) (atPps : Bool) : KeepsOwned (execTimeSet ses stamp atPps) := by
  refine keepsOwned_run (owned_hostCmd (owned_needLease fun s => ?_))
  simp only [ownedView.of_answer, owned_timerSet, ownedView.of_setSes, owned_takeTime, owned_ite, ite_self]

theorem keepsOwned_execTimeSetTimeout : KeepsOwned execTimeSetTimeout := by
  refine keepsOwned_run fun s => ?_
  simp only [ownedView.of_answer, owned_each, implies_true]

theorem keepsOwned_execTimeGet (ses : Nat) : KeepsOwned (execTimeGet ses) := by
  refine keepsOwned_run (owned_hostCmd fun s => ?_)
  simp only [ownedView.of_answer]

/-! ### Tiu -/

theorem owned_intervalStart (k : Nat) (e : Edge) (s : State) : owned (intervalStart k e s) = owned s := by
  unfold intervalStart
  dsimp only
  split <;> simp only [ownedView.of_intervalEnd, ownedView.of_setTiuCtx]

theorem owned_intervalStop (k : Nat) (e : Edge) (s : State) : owned (intervalStop k e s) = owned s := by
  unfold intervalStop
  dsimp only
  split <;> simp only [ownedView.of_setTiuCtx, ownedView.of_intervalEnd, owned_ite, ite_self]

theorem owned_intervalEdge (k ch : Nat) (rising : Bool) (e : Edge) (s : State) :
    owned (intervalEdge k ch rising e s) = owned s := by
  unfold intervalEdge
  dsimp only
  repeat' split
  all_goals simp only [owned_intervalStop, owned_intervalStart, ownedView.of_setTiuCtx, ownedView.of_intervalEnd]

theorem owned_periodEdge (k : Nat) (stamped : Bool) (e : Edge) (s : State) : owned (periodEdge k stamped e s) = owned s := by
  unfold periodEdge
  dsimp only
  simp only
  split <;> simp only [ownedView.of_setTiuCtx, ownedView.of_attempt, owned_ite, ite_self]

theorem owned_contextsTake (ch : Nat) (rising stamped : Bool) (e : Edge) (s : State) :
    owned (contextsTake ch rising stamped e s) = owned s := by
  simp only [contextsTake, owned_periodEdge, owned_intervalEdge, owned_each, owned_ite, ite_self, implies_true]

theorem owned_retireLine (line : Nat) (s : State) : owned (retireLine line s) = owned s := by
  simp only [retireLine, owned_wearAdd, owned_put]

theorem owned_channelFails (c : Nat) (s : State) : owned (channelFails c s) = owned s := by
  simp only [channelFails, owned_raise, ownedView.of_setTiuCh, owned_deviceDisarm, owned_each, owned_ite, ite_self,
      implies_true]

theorem owned_lineSwap (c : Nat) (s : State) : owned (lineSwap c s) = owned s := by
  unfold lineSwap
  dsimp only
  split <;> simp only [owned_retireLine, owned_channelFails, owned_setHw, owned_raise, ownedView.of_setTiuCh, owned_put]

theorem owned_calibrate (c n1 n2 : Nat) (s : State) : owned (calibrate c n1 n2 s) = owned s := by
  simp only [calibrate, owned_setHw, ownedView.of_setTiuCh, owned_raise, owned_lineSwap, owned_ite, ite_self]

theorem keepsOwned_execTiuRearm (ch : Fin 12) (n1 n2 : Nat) : KeepsOwned (execTiuRearm ch n1 n2) := by
  refine keepsOwned_run fun s => ?_
  simp only [owned_calibrate, owned_ite, ite_self]

theorem keepsOwned_execTiuPeriodicCal (ch : Fin 12) (n1 n2 : Nat) : KeepsOwned (execTiuPeriodicCal ch n1 n2) := by
  refine keepsOwned_run fun s => ?_
  simp only [owned_calibrate, owned_ite, ite_self]

theorem keepsOwned_execSpareLineCal (line : Fin 2) (n1 n2 : Nat) : KeepsOwned (execSpareLineCal line n1 n2) := by
  refine keepsOwned_run fun s => ?_
  simp only [owned_timerGrid, owned_raise, owned_retireLine, owned_put, owned_ite, ite_self]

theorem owned_ppsStamp (e : Edge) (s : State) : owned (ppsStamp e s) = owned s := by
  unfold ppsStamp
  dsimp only
  repeat' split
  all_goals simp only [owned_putSigned32, ownedView.of_rill, owned_measure, owned_takeTime, ownedView.of_answer,
      ownedView.of_noteValid, owned_tbMeasured, owned_raise, owned_each, owned_put, implies_true]

theorem owned_monitorStamp (p : Nat) (e : Edge) (s : State) : owned (monitorStamp p e s) = owned s := by
  simp only [monitorStamp, ownedView.of_rill, ownedView.of_setLch, owned_raise, owned_addHold, owned_ite, ite_self]

theorem owned_edgeStamp (ch c k : Nat) (rising : Bool) (s : State) : owned (edgeStamp ch c k rising s) = owned s := by
  simp only [edgeStamp, owned_contextsTake, owned_addHold, ownedView.of_setTiuCh, owned_timerSet, owned_addCnt,
      ownedView.of_fifoPush, owned_monitorStamp, owned_ppsStamp, owned_tinEdge, ownedView.of_rill, owned_ite, ite_self]

theorem keepsOwned_execTiuEdgeStamp (ch : Fin 12) (c k : Nat) (rising : Bool) :
    KeepsOwned (execTiuEdgeStamp ch c k rising) := by
  refine keepsOwned_run fun s => ?_
  simp only [owned_edgeStamp]

theorem keepsOwned_execPpsInEdge (c k : Nat) : KeepsOwned (execPpsInEdge c k) := by
  refine keepsOwned_run fun s => ?_
  simp only [owned_edgeStamp]

theorem keepsOwned_execMeasurementTimeout (ctx : Fin 4) : KeepsOwned (execMeasurementTimeout ctx) := by
  refine keepsOwned_run fun s => ?_
  split <;> simp only [ownedView.of_ctxTimeout, owned_ite, ite_self]

/-! ### Launch -/

theorem owned_phsStart (p b : Nat) (s : State) : owned (phsStart p b s) = owned s := by
  simp only [phsStart, ownedView.of_setLch, ownedView.of_phsBoundary, owned_ite, ite_self]

theorem keepsOwned_execMonitorWindowClose (port : Fin 4) : KeepsOwned (execMonitorWindowClose port) := by
  refine keepsOwned_run fun s => ?_
  split <;> simp only [ownedView.of_closeWindow, owned_ite, ite_self]

theorem owned_gridNext (p : Nat) (s : State) : owned (gridNext p s) = owned s := by
  unfold gridNext
  dsimp only
  repeat' split
  all_goals simp only [ownedView.of_setLch, ownedView.of_fgLateCheck]

theorem owned_launchAt (p tick : Nat) (s : State) : owned (launchAt p tick s) = owned s := by
  unfold launchAt
  dsimp only
  repeat' split
  all_goals simp only [ownedView.of_phsBoundary, ownedFibres.of_fibreApply, ownedView.of_settleShot, ownedView.of_setLch,
      ownedView.of_launchPin, ownedView.of_rill, owned_setStamp, owned_setCnt64]

theorem owned_withheld (p : Nat) (s : State) : owned (withheld p s) = owned s := by
  simp only [withheld, owned_raise, owned_addCnt64]

theorem owned_alignReach (p tick : Nat) (s : State) : owned (alignReach p tick s) = owned s := by rfl

theorem owned_launchMade (p tick : Nat) (s : State) : owned (launchMade p tick s) = owned s := by
  simp only [launchMade, ownedFibres.of_overridesApply, owned_gridNext, owned_launchAt, owned_ite, ite_self]

theorem keepsOwned_execLaunch (port : Fin 4) : KeepsOwned (execLaunch port) := by
  refine keepsOwned_run fun s => ?_
  dsimp only
  split <;> simp only [ownedView.of_setLch, owned_alignReach, owned_gridNext, owned_withheld, owned_launchMade, owned_ite,
      ite_self]

theorem owned_gridStart (p tick : Nat) (s : State) : owned (gridStart p tick s) = owned s := by
  simp only [gridStart, ownedView.of_setLch, owned_gridNext, owned_launchAt, ownedView.of_slotPin, ownedView.of_fgLateCheck]

theorem owned_firstLaunch (p : Nat) (s : State) : owned (firstLaunch p s) = owned s := by
  simp only [firstLaunch, ownedFibres.of_overridesApply, ownedView.of_setLch, owned_alignReach, owned_raise,
      owned_gridStart, owned_ite, ite_self]

theorem keepsOwned_execFirstLaunch (port : Fin 4) : KeepsOwned (execFirstLaunch port) := by
  refine keepsOwned_run fun s => ?_
  simp only [owned_firstLaunch, owned_ite, ite_self]

theorem keepsOwned_execSlotCodeUpdate (port : Fin 4) : KeepsOwned (execSlotCodeUpdate port) := by
  refine keepsOwned_run fun s => ?_
  simp only [ownedView.of_slotPin, owned_ite, ite_self]

theorem keepsOwned_execLaunchPulseEnd (port : Fin 4) : KeepsOwned (execLaunchPulseEnd port) := by
  refine keepsOwned_run fun s => ?_
  simp only [ownedView.of_launchPin, owned_ite, ite_self]

theorem keepsOwned_execFibreGroupApply (port : Fin 4) : KeepsOwned (execFibreGroupApply port) := by
  refine keepsOwned_run fun s => ?_
  dsimp only
  repeat' split
  all_goals simp only [ownedFibres.of_fibreApply, ownedFibres.of_overridesApply]

theorem owned_alignStart (p tick : Nat) (s : State) : owned (alignStart p tick s) = owned s := by
  simp only [alignStart, ownedFibres.of_overridesApply, owned_raiseIf, owned_gridStart, owned_ite, ite_self]

theorem keepsOwned_execAlignedCommonInstant : KeepsOwned execAlignedCommonInstant := by
  refine keepsOwned_run fun s => ?_
  split <;> simp only [owned_alignStart, owned_each, owned_putCommits, implies_true]

theorem owned_armPort (p : Nat) (s : State) : owned (armPort p s) = owned s := by
  simp only [armPort, ownedView.of_setLch, owned_watchesStart, ownedView.of_atBoundary, owned_ite, ite_self]

theorem owned_launchesFresh (s : State) : owned (launchesFresh s) = owned s := by
  simp only [launchesFresh, ownedView.of_atBoundary, ownedView.of_setLch, owned_each, owned_ite, ite_self, implies_true]

/-! ### Ports -/

theorem owned_startItem (p n deficit : Nat) (b : Bool) (t : Tx) (d : List Word) (s : State) :
    owned (startItem p n deficit b t d s) = owned s := by
  unfold startItem
  dsimp only
  simp only [ownedView.of_rill]
  split <;> simp only [ownedView.of_freeNext, ownedView.of_setPort, owned_setStream, ownedView.of_onQueue, owned_rnlCount,
      owned_ite, ite_self]

theorem keepsOwned_execFrameTxStart (port' : Fin 2) : KeepsOwned (execFrameTxStart port') := by
  refine keepsOwned_run fun s => ?_
  dsimp only
  repeat' split
  all_goals simp only [ownedView.of_rill, ownedView.of_setPort, owned_startItem]

theorem owned_delivered (p : Nat) (t : Tx) (s : State) : owned (delivered p t s) = owned s := by
  unfold delivered
  split <;> simp only [ownedView.of_onQueue, owned_setStream, owned_raise]

theorem keepsOwned_execFrameTxEnd (port' : Fin 2) : KeepsOwned (execFrameTxEnd port') := by
  refine keepsOwned_run fun s => ?_
  dsimp only
  split <;> simp only [ownedView.of_setPort, ownedView.of_rill, owned_delivered, owned_addCnt64]

theorem owned_portGoesDown (p : Nat) (s : State) : owned (portGoesDown p s) = owned s := by
  simp only [portGoesDown, ownedView.of_txAbort, ownedView.of_setPort, ownedView.of_budgetCheck, ownedView.of_ptpLinkLost,
      ownedView.of_placeStreams, owned_raise, owned_ite, ite_self]

theorem keepsOwned_execLinkFault (port' : Fin 2) : KeepsOwned (execLinkFault port') := by
  refine keepsOwned_run fun s => ?_
  simp only [ownedView.of_txAbort, ownedView.of_setPort, owned_ite, ite_self]

theorem keepsOwned_execFaultClear (port' : Fin 2) : KeepsOwned (execFaultClear port') := by
  refine keepsOwned_run fun s => ?_
  simp only [owned_portGoesDown, owned_raise, ownedView.of_setPort, owned_ite, ite_self]

theorem keepsOwned_execLinkHoldExpiry (port' : Fin 2) : KeepsOwned (execLinkHoldExpiry port') := by
  refine keepsOwned_run fun s => ?_
  simp only [owned_portGoesDown, owned_ite, ite_self]

theorem keepsOwned_execSerdesPllUnlock (port' : Fin 2) : KeepsOwned (execSerdesPllUnlock port') := by
  refine keepsOwned_run fun s => ?_
  simp only [owned_portGoesDown, ownedView.of_setPort]

theorem keepsOwned_execLinkUp (port' : Fin 2) : KeepsOwned (execLinkUp port') := by
  refine keepsOwned_run fun s => ?_
  simp only [ownedView.of_setPort, ownedView.of_budgetCheck, ownedView.of_placeStreams, ownedView.of_staticAddr,
      owned_raise, owned_ite, ite_self]

theorem keepsOwned_execStreamReturn (n : Nat) : KeepsOwned (execStreamReturn n) := by
  refine keepsOwned_run fun s => ?_
  simp only [owned_raise, owned_setStream, owned_ite, ite_self]

theorem keepsOwned_execDhcpLeaseExpiry (port' : Fin 2) : KeepsOwned (execDhcpLeaseExpiry port') := by
  refine keepsOwned_run fun s => ?_
  simp only [owned_raise, ownedView.of_setPort, owned_ite, ite_self]

theorem keepsOwned_execDhcpRenewal (port' : Fin 2) (addr pre gw : Nat) : KeepsOwned (execDhcpRenewal port' addr pre gw) := by
  refine keepsOwned_run fun s => ?_
  simp only [owned_raiseIf, ownedView.of_setPort, owned_ite, ite_self]

theorem keepsOwned_execDadComplete (port' : Fin 2) (addr gw : Nat) (ok : Bool) :
    KeepsOwned (execDadComplete port' addr gw ok) := by
  refine keepsOwned_run fun s => ?_
  simp only [owned_raise, ownedView.of_setPort, owned_raiseIf, owned_ite, ite_self]

theorem keepsOwned_execNextHopRetry (port' : Fin 2) : KeepsOwned (execNextHopRetry port') := by
  refine keepsOwned_run fun s => ?_
  simp only [ownedView.of_setPort, owned_ite, ite_self]

theorem owned_pfcSend (p : Nat) (xoff : Bool) (s : State) : owned (pfcSend p xoff s) = owned s := by
  simp only [pfcSend, ownedView.of_setPort, owned_addCnt, owned_ite, ite_self]

theorem keepsOwned_execXonSend (port' : Fin 2) : KeepsOwned (execXonSend port') := by
  refine keepsOwned_run fun s => ?_
  simp only [owned_pfcSend, owned_ite, ite_self]

theorem keepsOwned_execPfcPauseExpiry (port' : Fin 2) (prio : Fin 8) : KeepsOwned (execPfcPauseExpiry port' prio) := by
  refine keepsOwned_run fun s => ?_
  simp only [ownedView.of_setPort]

/-! ### Converter -/

theorem owned_loadCoef (c slice : Nat) (m : SliceMeas) (s : State) : owned (loadCoef c slice m s) = owned s := by
  simp only [loadCoef, owned_setHw]

theorem owned_shotsSub (c q : Nat) (s : State) : owned (shotsSub c q s) = owned s := by
  unfold shotsSub
  dsimp only
  split <;> simp only [ownedView.of_setLch]

theorem owned_substitute (c q into : Nat) (quick : Bool) (s : State) : owned (substitute c q into quick s).2 = owned s := by
  simp only [substitute, owned_shotsSub, owned_setHw, owned_addCnt64, owned_setCnt64, ownedView.of_setConv]

theorem owned_laneFallback (c slice p : Nat) (s : State) : owned (laneFallback c slice p s) = owned s := by
  unfold laneFallback
  dsimp only
  split <;> simp only [ownedView.of_setLch, ownedView.of_cnvRaise, ownedView.of_noteOverride,
      ownedFibres.of_overridesApply, owned_ite, ite_self]

theorem owned_qcalCommand (s : State) : owned (qcalCommand s) = owned s := by
  simp only [qcalCommand, ownedView.of_qcalAgain, ownedView.of_rill, ownedView.of_qcalCheck]

theorem owned_convFail (c slice : Nat) (s : State) : owned (convFail c slice s) = owned s := by
  unfold convFail
  dsimp only
  simp only [ownedView.of_fgCalCheck, ownedView.of_fgCalCommand, ownedView.of_qcalCheck, implies_true]
  split <;> simp only [ownedView.of_clocksRest, ownedView.of_setConv, ownedView.of_cnvRaise, owned_deviceDisarm,
      owned_laneFallback, owned_each, owned_ite, ite_self, implies_true]

theorem owned_retireSlice (c slice cause : Nat) (s : State) : owned (retireSlice c slice cause s) = owned s := by
  simp only [retireSlice, ownedView.of_setConv, ownedView.of_cnvRaise, owned_setHw, owned_wearAdd, owned_convFail,
      owned_ite, ite_self]

theorem owned_spareGone (c : Nat) (s : State) : owned (spareGone c s) = owned s := by
  unfold spareGone
  dsimp only
  split <;> simp only [ownedView.of_setConv, owned_retireSlice, ownedView.of_fgLateCheck, owned_each, implies_true]

theorem owned_replaceFaulty (c f into : Nat) (quick : Bool) (s : State) :
    owned (replaceFaulty c f into quick s) = owned s := by
  simp only [replaceFaulty, owned_spareGone, owned_retireSlice, owned_substitute]

theorem owned_spareEnd (c sp : Nat) (m : SliceMeas) (quick : Bool) (s : State) :
    owned (spareEnd c sp m quick s) = owned s := by
  unfold spareEnd
  dsimp only
  repeat' split
  all_goals simp only [owned_loadCoef, owned_replaceFaulty, owned_substitute, ownedView.of_setConv, owned_spareGone,
      owned_retireSlice]

theorem keepsOwned_execRotationPeriodEnd (c : Fin 16) (m : SliceMeas) : KeepsOwned (execRotationPeriodEnd c m) := by
  refine keepsOwned_run fun s => ?_
  dsimp only
  split <;> simp only [owned_spareEnd, ownedView.of_setConv, owned_ite, ite_self]

theorem keepsOwned_execQcalStepEnd (c : Fin 16) (m : SliceMeas) : KeepsOwned (execQcalStepEnd c m) := by
  refine keepsOwned_run fun s => ?_
  dsimp only
  split <;> simp only [owned_spareEnd, ownedView.of_qcalCheck, ownedView.of_qcalEight, ownedView.of_setConv,
      ownedView.of_qcalEnd, owned_ite, ite_self]

theorem owned_iscFail (c q : Nat) (m : Option SliceMeas) (start : Stamp) (s : State) :
    owned (iscFail c q m start s) = owned s := by
  unfold iscFail
  dsimp only
  repeat' split
  all_goals simp only [owned_raiseAt, owned_setHw, owned_replaceFaulty, owned_loadCoef, ownedView.of_setConv,
      owned_retireSlice]

theorem keepsOwned_execIscBlockEnd (c : Fin 16) (stats : List PosStat) (start : Stamp) (m : Option SliceMeas) :
    KeepsOwned (execIscBlockEnd c stats start m) := by
  refine keepsOwned_run fun s => ?_
  simp only [owned_iscFail, ownedView.of_qcalCheck, ownedView.of_qcalEight, owned_each, owned_ite, ite_self, implies_true]

theorem keepsOwned_execFgWindowStart (c : Fin 16) : KeepsOwned (execFgWindowStart c) := by
  refine keepsOwned_run fun s => ?_
  dsimp only
  split <;> simp only [ownedView.of_windowStart, ownedView.of_setConv, owned_ite, ite_self]

theorem keepsOwned_execFgWindowEnd (c : Fin 16) (ms : List SliceMeas) : KeepsOwned (execFgWindowEnd c ms) := by
  refine keepsOwned_run fun s => ?_
  simp only [owned_loadCoef, ownedView.of_setConv, owned_addCnt, owned_retireSlice, ownedView.of_qcalCheck,
      ownedView.of_qcalEnd, ownedView.of_fgCalCheck, ownedView.of_fgCalCommand, owned_each, owned_ite, ite_self,
      implies_true]

theorem owned_laneTake (lane : Nat) (s : State) : owned (laneTake lane s) = owned s := by
  simp only [laneTake, ownedView.of_rill, owned_laneAppend, ownedView.of_setConv, owned_each, owned_ite, ite_self,
      implies_true]

theorem keepsOwned_execInputLedgerNotice (c : Fin 16) (codes : List (List Int)) :
    KeepsOwned (execInputLedgerNotice c codes) := by
  refine keepsOwned_run fun s => ?_
  simp only [ownedView.of_rill, ownedView.of_clockTerms, ownedView.of_setConv, owned_laneTake, owned_addHold,
      ownedView.of_cnvRaise, owned_ite, ite_self]

/-! ### Clock -/

theorem owned_pllNoRef (p : Nat) (s : State) : owned (pllNoRef p s) = owned s := by
  simp only [pllNoRef, ownedView.of_setPll, owned_ite, ite_self]

theorem owned_pllDrives (p : Nat) (s : State) : owned (pllDrives p s) = owned s := by
  simp only [pllDrives, ownedView.of_setPll, owned_raiseIf, owned_put]

theorem owned_unlocked (p e : Nat) (s : State) : owned (unlocked p e s) = owned s := by
  simp only [unlocked, owned_raise, owned_addCnt]

theorem owned_sampleStop (s : State) : owned (sampleStop s) = owned s := by
  simp only [sampleStop, ownedFibres.of_launchesStop, ownedView.of_rawCut, owned_put, owned_ite, ite_self]

theorem owned_sampleStart (s : State) : owned (sampleStart s) = owned s := by
  simp only [sampleStart, ownedView.of_lossCount, ownedView.of_indicesRestart, ownedView.of_modeCalDone,
      ownedView.of_modeCalibrate, ownedView.of_qcalStart, ownedView.of_flightsDone, owned_put, owned_ite, ite_self]

theorem keepsOwned_execSampleClockResume : KeepsOwned execSampleClockResume := by
  refine keepsOwned_run fun s => ?_
  simp only [ownedView.of_restartLaneUnits, owned_launchesFresh, owned_firstLaunch, owned_each, owned_put, owned_ite,
      ite_self, implies_true]

theorem keepsOwned_execSamplePllUnlock : KeepsOwned execSamplePllUnlock := by
  refine keepsOwned_run fun s => ?_
  split <;> simp only [owned_unlocked, ownedView.of_pllStart, owned_sampleStop]

theorem keepsOwned_execTimePllUnlock : KeepsOwned execTimePllUnlock := by
  refine keepsOwned_run fun s => ?_
  split <;> simp only [owned_unlocked, ownedView.of_pllStart, ownedView.of_tiuClockStop]

theorem keepsOwned_execTiuClockReturn : KeepsOwned execTiuClockReturn := by
  refine keepsOwned_run fun s => ?_
  simp only [owned_backupOff, owned_ite, ite_self]

theorem owned_refSLost (s : State) : owned (refSLost s) = owned s := by
  simp only [refSLost, owned_sampleStop, ownedView.of_tiuClockStop, owned_raise, owned_pllNoRef, owned_put, owned_ite,
      ite_self]

theorem owned_refSBack (s : State) : owned (refSBack s) = owned s := by
  simp only [refSBack, ownedView.of_pllStart, owned_put, owned_ite, ite_self]

theorem keepsOwned_execRefclkSLoss : KeepsOwned execRefclkSLoss := by
  refine keepsOwned_run fun s => ?_
  simp only [owned_refSLost]

theorem owned_coreDrives (s : State) : owned (coreDrives s) = owned s := by
  simp only [coreDrives, owned_timerStop, owned_pllDrives, owned_sampleStart, ownedView.of_warmUpdate, owned_raiseIf,
      owned_put]

theorem keepsOwned_execCorePllUnlock (standby : Bool) : KeepsOwned (execCorePllUnlock standby) := by
  refine keepsOwned_run fun s => ?_
  dsimp only
  repeat' split
  all_goals simp only [ownedView.of_pllStart, owned_addCnt, owned_sampleStop, owned_timerSet, owned_unlocked, owned_put]

theorem keepsOwned_execCoreRelockTimeout : KeepsOwned execCoreRelockTimeout := by
  refine keepsOwned_run fun s => ?_
  dsimp only
  repeat' split
  all_goals simp only [owned_timerSet, owned_timerStop, owned_raise, owned_wearAdd, ownedView.of_setPll, owned_coreDrives,
      ownedView.of_pllStart, owned_put]

theorem keepsOwned_execCorePllRetry (lockedA lockedB : Bool) : KeepsOwned (execCorePllRetry lockedA lockedB) := by
  refine keepsOwned_run fun s => ?_
  simp only [owned_timerSet, ownedView.of_setPll, owned_ite, ite_self]

theorem keepsOwned_execMemPllUnlock (i : Fin 3) : KeepsOwned (execMemPllUnlock i) := by
  refine keepsOwned_run fun s => ?_
  split <;> simp only [ownedView.of_memGated, owned_unlocked, ownedView.of_setPll]

theorem owned_retrainStart (c : Nat) (relock : Bool) (s : State) : owned (retrainStart c relock s) = owned s := by rfl

theorem owned_setupDone (s : State) : owned (setupDone s) = owned s := by
  simp only [setupDone, ownedView.of_flightsDone, owned_put, owned_ite, ite_self]

theorem owned_memBack (i : Nat) (s : State) : owned (memBack i s) = owned s := by
  simp only [memBack, owned_pllDrives, owned_retrainStart, ownedView.of_budgetCheck, owned_setupDone, owned_each,
      owned_put, owned_ite, ite_self, implies_true]

theorem keepsOwned_execMemPllRelock (i : Fin 3) : KeepsOwned (execMemPllRelock i) := by
  refine keepsOwned_run fun s => ?_
  split <;> simp only [owned_memBack, owned_ite, ite_self]

theorem owned_refCLost (s : State) : owned (refCLost s) = owned s := by
  simp only [refCLost, owned_sampleStop, owned_raise, owned_pllNoRef, ownedView.of_memGated, owned_each, owned_put,
      owned_ite, ite_self, implies_true]

theorem owned_refCBack (s : State) : owned (refCBack s) = owned s := by
  simp only [refCBack, owned_timerSet, ownedView.of_pllStart, owned_each, owned_put, owned_ite, ite_self, implies_true]

theorem keepsOwned_execRefclkCLoss : KeepsOwned execRefclkCLoss := by
  refine keepsOwned_run fun s => ?_
  simp only [owned_refCLost]

theorem keepsOwned_execRefclkCReturn : KeepsOwned execRefclkCReturn := by
  refine keepsOwned_run fun s => ?_
  simp only [owned_refCBack]

theorem keepsOwned_execRefCountCheck (r : Ref) (count : Nat) : KeepsOwned (execRefCountCheck r count) := by
  refine keepsOwned_run fun s => ?_
  dsimp only
  split <;> simp only [owned_refSBack, owned_refCBack, owned_timerSet, owned_raise, owned_refSLost, owned_pllNoRef,
      owned_refCLost, owned_each, owned_put, owned_ite, ite_self, implies_true]

theorem keepsOwned_execRefclkCCrosscheck (count : Nat) : KeepsOwned (execRefclkCCrosscheck count) := by
  refine keepsOwned_run fun s => ?_
  simp only [owned_timerGrid, owned_refCBack, owned_refCLost, owned_raise, owned_ite, ite_self]

theorem keepsOwned_execAonTrim (hz : Nat) : KeepsOwned (execAonTrim hz) := by
  refine keepsOwned_run fun s => ?_
  simp only [owned_timerGrid, owned_setHw, owned_put, owned_ite, ite_self]

theorem keepsOwned_execPllLockDetect (p : Fin 7) : KeepsOwned (execPllLockDetect p) := by
  refine keepsOwned_run fun s => ?_
  simp only [owned_timerSet, ownedView.of_setPll, owned_ite, ite_self]

theorem keepsOwned_execSettleTimerExpiry (p : Fin 7) : KeepsOwned (execSettleTimerExpiry p) := by
  refine keepsOwned_run fun s => ?_
  repeat' split
  all_goals simp only [owned_sampleStart, owned_pllDrives, owned_coreDrives, ownedView.of_setPll, owned_memBack]

/-! ### Seal -/

theorem owned_scanStart (scheduled : Bool) (s : State) : owned (scanStart scheduled s) = owned s := by
  simp only [scanStart, owned_raiseIf, owned_putSealing, owned_ite, ite_self]

theorem keepsOwned_execSealScanStart : KeepsOwned execSealScanStart := by
  refine keepsOwned_run fun s => ?_
  dsimp only
  repeat' split
  all_goals simp only [owned_timerGrid, owned_scanStart, owned_putSealing]

theorem owned_sealMarks (s : State) : owned (sealMarks s) = owned s := by
  simp only [sealMarks, owned_put, owned_ite, ite_self]

theorem owned_scanJudge (result : Word) (s : State) : owned (scanJudge result s) = owned s := by
  simp only [scanJudge, owned_raise, owned_addCnt, owned_sealMarks, owned_putSealing, owned_ite, ite_self]

theorem keepsOwned_execSealScanComplete : KeepsOwned execSealScanComplete := by
  refine keepsOwned_run fun s => ?_
  split
  · rfl
  · dsimp only
    generalize hu : scanJudge _ _ = u
    have hu : owned u = owned s := by
      subst hu
      rw [owned_scanJudge, owned_addCnt64, owned_setHw, owned_putSealing]
    generalize hv : (if bit (hw u 0x54) 0 = true then cmdDone 0x54 0 (scanStart false) u else u) = v
    have hv : owned v = owned u := by
      subst hv
      rw [owned_ite, owned_cmdDone (owned_scanStart false), ite_self]
    split
    · rw [owned_scanStart, owned_putSealing, hv, hu]
    · rw [hv, hu]

theorem owned_noteHeld (s : State) : owned (noteHeld s) = owned s := by
  unfold noteHeld
  split <;> simp only [owned_raise, owned_putCommits, owned_ite, ite_self]

/-! ### Power -/

theorem owned_setLog (i : Nat) (e : LogEntry) (s : State) : owned (setLog i e s) = owned s := by rfl

theorem owned_windowEvent (code i : Nat) (s : State) : owned (windowEvent code i s) = owned s := by
  simp only [windowEvent, owned_sendEvent]

theorem owned_railNow (rail : Nat) (samples : List Int) (s : State) : owned (railNow rail samples s) = owned s := by
  unfold railNow
  split <;> simp only [owned_putPwr]

theorem owned_supplyMarks (start : Stamp) (s : State) : owned (supplyMarks start s) = owned s := by
  simp only [supplyMarks, ownedView.of_setLch, owned_each, owned_put, implies_true]

theorem owned_deferWaiting (s : State) : owned (deferWaiting s) = owned s := by
  simp only [deferWaiting, owned_raise, owned_addCnt, owned_ite, ite_self]

theorem keepsOwned_execWindowOpen (rail : Fin 9) (samples : List Int) : KeepsOwned (execWindowOpen rail samples) := by
  refine keepsOwned_run fun s => ?_
  simp only [owned_railNow, owned_deferWaiting, owned_addCnt64, owned_supplyMarks, owned_setLog, owned_noteHeld,
      owned_scanStart, owned_windowEvent, owned_raise, ownedView.of_rill, owned_putPwr, owned_ite, ite_self]

theorem owned_railJoin (rail : Nat) (samples : List Int) (s : State) : owned (railJoin rail samples s) = owned s := by
  unfold railJoin
  split <;> simp only [owned_setLog, owned_putPwr, owned_ite, ite_self]

theorem keepsOwned_execRailJoinsWindow (rail : Fin 9) (samples : List Int) :
    KeepsOwned (execRailJoinsWindow rail samples) := by
  refine keepsOwned_run fun s => ?_
  simp only [owned_railJoin, owned_railNow]

theorem owned_windowQcalEnd (s : State) : owned (windowQcalEnd s) = owned s := by
  simp only [windowQcalEnd, owned_setLog, owned_raise, owned_each, owned_putPwr, implies_true]

theorem keepsOwned_execWindowClose (rails : List (List Int)) (longest : Nat) :
    KeepsOwned (execWindowClose rails longest) := by
  refine keepsOwned_run fun s => ?_
  dsimp only
  split <;> simp only [owned_railJoin, owned_railNow, owned_setLog, owned_windowEvent, owned_raise, ownedView.of_rill,
      owned_windowQcalEnd, ownedView.of_qcalStart, owned_each, owned_putPwr, owned_ite, ite_self, implies_true]

theorem keepsOwned_execWindowQcalDone : KeepsOwned execWindowQcalDone := by
  refine keepsOwned_run fun s => ?_
  simp only [owned_windowQcalEnd, owned_ite, ite_self]

theorem keepsOwned_execCommitHoldEnd : KeepsOwned execCommitHoldEnd := by
  refine keepsOwned_run fun s => ?_
  split
  · split
    · exact owned_raise ..
    · rfl
  · rfl

theorem owned_thermalWatch (sensor : Nat) (v : Int) (s : State) : owned (thermalWatch sensor v s) = owned s := by rfl

theorem owned_thermalSets (sensor : Fin 8) (value : BitVec 16) (s : State) :
    owned (thermalSets sensor value s) = owned s := by
  unfold thermalSets
  dsimp only
  rw [owned_ite, owned_raise, ite_self, owned_raiseIf, owned_raiseIf]
  exact (owned_setHw _ _ _).trans (owned_setHw _ _ s)

theorem keepsOwned_execThermalReading (sensor : Fin 8) (value : BitVec 16) :
    KeepsOwned (execThermalReading sensor value) := by
  refine keepsOwned_runBoot fun s => ?_
  simp only [owned_thermalWatch, owned_thermalSets, ownedView.of_rill, owned_put, owned_ite, ite_self]

/-! ### Acquire -/

theorem owned_armTargets (t : BitVec 16) (s : State) : owned (armTargets t s) = owned s := by
  simp only [armTargets, owned_armPort, owned_armUnit, ownedView.of_powerUpdate, ownedView.of_rill, owned_each, owned_put,
      owned_ite, ite_self, implies_true]

theorem keepsOwned_execArm (ses : Nat) (targets : BitVec 16) (atTime : Option Stamp) :
    KeepsOwned (execArm ses targets atTime) := by
  refine keepsOwned_run (owned_hostCmd (owned_needLease fun s => ?_))
  repeat' split
  all_goals simp only [ownedView.of_answer, owned_armTargets, owned_put]

theorem keepsOwned_execArmAtTime : KeepsOwned execArmAtTime := by
  refine keepsOwned_run fun s => ?_
  simp only [owned_armTargets, owned_each, owned_put, implies_true]

theorem owned_disarmTargets (t : BitVec 16) (s : State) : owned (disarmTargets t s) = owned s := by
  simp only [disarmTargets, ownedFibres.of_disarmPort, ownedView.of_rill, owned_disarmUnit, owned_each, owned_put,
      owned_ite, ite_self, implies_true]

theorem keepsOwned_execDisarm (ses : Nat) (targets : BitVec 16) : KeepsOwned (execDisarm ses targets) := by
  refine keepsOwned_run (owned_hostCmd (owned_needLease fun s => ?_))
  simp only [ownedView.of_answer, owned_disarmTargets]

theorem owned_disarmAll (s : State) : owned (disarmAll s) = owned s := by
  simp only [disarmAll, owned_disarmTargets]

theorem keepsOwned_execDisarmAll (ses : Nat) : KeepsOwned (execDisarmAll ses) := by
  refine keepsOwned_run (owned_hostCmd fun s => ?_)
  simp only [ownedView.of_answer, owned_disarmAll]

theorem keepsOwned_execAcqState (ses : Nat) : KeepsOwned (execAcqState ses) := by
  refine keepsOwned_run (owned_hostCmd fun s => ?_)
  simp only [ownedView.of_answer]

theorem owned_noteHalt (s : State) : owned (noteHalt s) = owned s := by
  simp only [noteHalt, owned_raise, owned_setStamp]

theorem owned_haltStreams (s : State) : owned (haltStreams s) = owned s := by
  simp only [haltStreams, owned_noteHalt, owned_put]

theorem owned_setHalt (n : Nat) (halt : Bool) (s : State) : owned (setHalt n halt s) = owned s := by
  simp only [setHalt, owned_put, owned_ite, ite_self]

theorem keepsOwned_execHaltStreams (ses : Nat) : KeepsOwned (execHaltStreams ses) := by
  refine keepsOwned_run (owned_hostCmd fun s => ?_)
  simp only [ownedView.of_answer, owned_haltStreams]

theorem owned_haltOne (n : Nat) (s : State) : owned (haltOne n s) = owned s := by
  simp only [haltOne, owned_noteHalt, owned_setHalt]

theorem keepsOwned_execHaltStream (ses stream : Nat) : KeepsOwned (execHaltStream ses stream) := by
  refine keepsOwned_run (owned_hostCmd fun s => ?_)
  simp only [ownedView.of_answer, owned_haltOne]

theorem keepsOwned_execStreamResume (ses stream : Nat) : KeepsOwned (execStreamResume ses stream) := by
  refine keepsOwned_run (owned_hostCmd (owned_needLease fun s => ?_))
  simp only [ownedView.of_answer, owned_raiseIf, owned_setHalt, owned_ite, ite_self]

theorem owned_resumeAll (s : State) : owned (resumeAll s) = owned s := by
  simp only [resumeAll, owned_raiseIf, owned_put]

theorem keepsOwned_execResumeAll (ses : Nat) : KeepsOwned (execResumeAll ses) := by
  refine keepsOwned_run (owned_hostCmd (owned_needLease fun s => ?_))
  simp only [ownedView.of_answer, owned_resumeAll, owned_ite, ite_self]

theorem owned_oldestHeld (x : Stream) (s : State) : owned (oldestHeld x s).2 = owned s := by
  unfold oldestHeld
  split <;> simp only [ownedView.of_freeNext]

theorem keepsOwned_execReplay (ses stream' first count : Nat) : KeepsOwned (execReplay ses stream' first count) := by
  refine keepsOwned_run (owned_hostCmd fun s => ?_)
  simp only [ownedView.of_answer, owned_oldestHeld, owned_setStream, owned_ite, ite_self]

theorem keepsOwned_execStreamStatus (ses first count : Nat) : KeepsOwned (execStreamStatus ses first count) := by
  refine keepsOwned_run (owned_hostCmd fun s => ?_)
  simp only [ownedView.of_answer]

/-! ### Dram -/

theorem keepsOwned_execWriteComplete (ch : Fin 9) : KeepsOwned (execWriteComplete ch) := by
  refine keepsOwned_run fun s => ?_
  dsimp only
  repeat' split
  all_goals simp only [ownedView.of_setDch, ownedView.of_rill, ownedView.of_giveAnswer]

theorem owned_refreshIssue (c r : Nat) (s : State) : owned (refreshIssue c r s) = owned s := by
  simp only [refreshIssue, owned_raiseIf, ownedView.of_setDch]

theorem keepsOwned_execRefreshDue (ch : Fin 9) (rank : Fin 2) : KeepsOwned (execRefreshDue ch rank) := by
  refine keepsOwned_run fun s => ?_
  simp only [ownedView.of_setDch, owned_refreshIssue, owned_ite, ite_self]

theorem keepsOwned_execPostponedRefresh (ch : Fin 9) (rank : Fin 2) : KeepsOwned (execPostponedRefresh ch rank) := by
  refine keepsOwned_run fun s => ?_
  simp only [owned_refreshIssue, owned_each, owned_ite, ite_self, implies_true]

theorem keepsOwned_execMprTempRead (ch : Fin 9) (rank : Fin 2) (status : BitVec 2) :
    KeepsOwned (execMprTempRead ch rank status) := by
  refine keepsOwned_run fun s => ?_
  simp only [ownedView.of_setDch, owned_ite, ite_self]

theorem keepsOwned_execZqcs (ch : Fin 9) : KeepsOwned (execZqcs ch) := by
  refine keepsOwned_run fun s => ?_
  simp only [ownedView.of_setDch, owned_ite, ite_self]

theorem keepsOwned_execPageIdleClose (ch : Fin 9) (bank : Nat) : KeepsOwned (execPageIdleClose ch bank) := by
  refine keepsOwned_run fun s => ?_
  simp only [ownedView.of_setDch, owned_ite, ite_self]

theorem keepsOwned_execPowerDownEntry (ch : Fin 9) (rank : Fin 2) : KeepsOwned (execPowerDownEntry ch rank) := by
  refine keepsOwned_run fun s => ?_
  simp only [ownedView.of_setDch, owned_ite, ite_self]

theorem keepsOwned_execSelfRefreshEntry (ch : Fin 9) : KeepsOwned (execSelfRefreshEntry ch) := by
  refine keepsOwned_run fun s => ?_
  simp only [ownedView.of_setDch, owned_ite, ite_self]

theorem keepsOwned_execScrubWake (ch : Fin 9) : KeepsOwned (execScrubWake ch) := by
  refine keepsOwned_run fun s => ?_
  simp only [ownedView.of_chanWake, owned_ite, ite_self]

theorem keepsOwned_execTrefwTableClear (ch : Fin 9) : KeepsOwned (execTrefwTableClear ch) := by
  refine keepsOwned_run fun s => ?_
  simp only [ownedView.of_setDch, owned_ite, ite_self]

theorem owned_repairRow (c b cause : Nat) (s : State) : owned (repairRow c b cause s) = owned s := by
  simp only [repairRow, owned_addHold, ownedView.of_setDch, owned_wearAdd, owned_raise, owned_ite, ite_self]

theorem owned_noteCorrected (c b : Nat) (s : State) : owned (noteCorrected c b s) = owned s := by
  simp only [noteCorrected, ownedView.of_setDch, owned_repairRow, owned_ite, ite_self]

theorem owned_lastError (c b device : Nat) (bad scrub : Bool) (s : State) :
    owned (lastError c b device bad scrub s) = owned s := by
  simp only [lastError, owned_setHw]

theorem owned_demandRead (c : Nat) (q : DQ) (err : List Byte) (s : State) : owned (demandRead c q err s).2 = owned s := by
  unfold demandRead
  dsimp only
  repeat' split
  all_goals simp only [owned_lastError, owned_addCnt64, owned_noteCorrected, owned_raise, ownedView.of_freeNext,
      owned_repairRow, ownedView.of_setDch, ownedView.of_loss]

theorem keepsOwned_execChannelRequest (ch : Fin 9) (req : DramReq) : KeepsOwned (execChannelRequest ch req) := by
  refine keepsOwned_run fun s => ?_
  simp only [owned_demandRead, ownedView.of_chanWake, ownedView.of_setDch, owned_rillIssue, owned_schedule,
      ownedView.of_rill, owned_ite, ite_self]

theorem owned_scrubBurst (c b : Nat) (err : List Nat) (s : State) : owned (scrubBurst c b err s) = owned s := by
  unfold scrubBurst
  dsimp only
  repeat' split
  all_goals simp only [ownedView.of_countRead, ownedView.of_setDch, owned_lastError, owned_addCnt64, owned_noteCorrected,
      ownedView.of_writeBurst, owned_raise, ownedView.of_freeNext, ownedView.of_loss, owned_poisonSeen, owned_repairRow]

theorem keepsOwned_execPatrolScrubRead (ch : Fin 9) (err : List Byte) : KeepsOwned (execPatrolScrubRead ch err) := by
  refine keepsOwned_run fun s => ?_
  simp only [ownedView.of_setDch, owned_scrubBurst, ownedView.of_settle, owned_setHw, owned_addCnt, owned_ite, ite_self]

theorem owned_rehome (c d : Nat) (s : State) : owned (rehome c d s) = owned s := by
  simp only [rehome, ownedView.of_setDch]

theorem owned_takeIndex (c d : Nat) (s : State) : owned (takeIndex c d s) = owned s := by rfl

theorem owned_migrateStart (c : Nat) (s : State) : owned (migrateStart c s) = owned s := by rfl

theorem owned_migrateAbort (s : State) : owned (migrateAbort s) = owned s := by
  simp only [migrateAbort, ownedView.of_setDch, owned_raise, owned_wearAdd, owned_put]

theorem owned_channelDies (c : Nat) (s : State) : owned (channelDies c s) = owned s := by
  simp only [channelDies, owned_markChannel, ownedView.of_setDch, owned_wearAdd, owned_raise, owned_rehome,
      owned_takeIndex, ownedView.of_budgetCheck, owned_put, owned_ite, ite_self]

theorem owned_migrateBurst (s : State) : owned (migrateBurst s) = owned s := by
  simp only [migrateBurst, ownedView.of_chanUse, ownedView.of_chanWake, ownedView.of_blockAccess, ownedView.of_setDch,
      ownedView.of_countRead, ownedView.of_loss, owned_raise, owned_each, owned_put, owned_ite, ite_self, implies_true]

theorem keepsOwned_execMigrationCutover : KeepsOwned execMigrationCutover := by
  refine keepsOwned_run fun s => ?_
  simp only [owned_rehome, owned_takeIndex, ownedView.of_setDch, owned_raise, owned_wearAdd, owned_put, owned_ite, ite_self]

theorem keepsOwned_execMigrate (ses source : Nat) : KeepsOwned (execMigrate ses source) := by
  refine keepsOwned_run (owned_hostCmd (owned_needLease fun s => ?_))
  simp only [ownedView.of_answer, owned_migrateStart, owned_ite, ite_self]

theorem owned_channelFaults (c : Nat) (s : State) : owned (channelFaults c s) = owned s := by
  simp only [channelFaults, ownedView.of_setDch, owned_raise, owned_migrateAbort, owned_ite, ite_self]

theorem keepsOwned_execAlert (ch : Fin 9) : KeepsOwned (execAlert ch) := by
  refine keepsOwned_run fun s => ?_
  simp only [owned_addHold, owned_channelFaults, ownedView.of_setDch, owned_ite, ite_self]

theorem owned_replayRetry (c : Nat) (s : State) : owned (replayRetry c s) = owned s := by
  simp only [replayRetry, owned_raise, owned_addCnt64, ownedView.of_setDch]

theorem keepsOwned_execAlertNHigh (ch : Fin 9) : KeepsOwned (execAlertNHigh ch) := by
  refine keepsOwned_run fun s => ?_
  simp only [owned_replayRetry, owned_ite, ite_self]

theorem owned_gradeDrop (s : State) : owned (gradeDrop s) = owned s := by
  simp only [gradeDrop, ownedView.of_noteOverride, ownedView.of_regrade, owned_raise, owned_putRegs]

theorem owned_retrainCommand (c : Nat) (s : State) : owned (retrainCommand c s) = owned s := by
  simp only [retrainCommand, owned_retrainStart, owned_cmdDone, owned_ite, ite_self, implies_true, id_eq]

theorem owned_retrainPassed (c : Nat) (s : State) : owned (retrainPassed c s) = owned s := by
  simp only [retrainPassed, ownedView.of_setDch, owned_raise, owned_replayRetry, owned_migrateStart, owned_put, owned_ite,
      ite_self]

theorem owned_retrainFailed (c : Nat) (s : State) : owned (retrainFailed c s) = owned s := by
  simp only [retrainFailed, owned_migrateAbort, ownedView.of_budgetCheck, owned_gradeDrop, ownedView.of_setDch,
      owned_channelDies, owned_ite, ite_self]

theorem keepsOwned_execRetrainComplete (ch : Fin 9) (passed : Bool) : KeepsOwned (execRetrainComplete ch passed) := by
  refine keepsOwned_run fun s => ?_
  simp only [owned_retrainPassed, owned_retrainFailed, owned_cmdDone, owned_retrainCommand, owned_setupDone, owned_ite,
      ite_self, implies_true]

theorem owned_newDramCommand (c : Nat) (s : State) : owned (newDramCommand c s) = owned s := by
  simp only [newDramCommand, owned_wearAdd, ownedView.of_setDch, owned_cmdDone, owned_ite, ite_self, implies_true, id_eq]

/-! ### Runnel -/

theorem owned_memRead (a n : Nat) (s : State) : owned (memRead a n s).2 = owned s := by
  unfold memRead
  split <;> simp only [owned_dramRead]

theorem owned_tiuTake (n : Nat) (s : State) : owned (tiuTake n s).2 = owned s := by rfl

theorem owned_readoutTake (e fuel n : Nat) (s : State) : owned (readoutTake e fuel n s).2 = owned s := by
  induction fuel generalizing n s with
  | zero => rfl
  | succ fuel ih =>
    rw [readoutTake]
    split
    · rfl
    · dsimp only
      split
      · rfl
      · simp only [ih, owned_ringRelease, ownedView.of_setPol, owned_memRead]

theorem owned_srcRead (x : RChan) (n : Nat) (s : State) : owned (srcRead x n s).2 = owned s := by
  unfold srcRead
  dsimp only
  repeat' split
  all_goals simp only [owned_tiuTake, owned_readoutTake, owned_memRead]

theorem owned_dstWrite (x : RChan) (l : List (Byte × Bool)) (s : State) : owned (dstWrite x l s) = owned s := by
  simp only [dstWrite, ownedView.of_memWrite, owned_each, owned_ite, ite_self, implies_true]

theorem owned_hostBurst (c : Nat) (s : State) : owned (hostBurst c s) = owned s := by
  simp only [hostBurst, owned_srcRead, owned_dstWrite, owned_rnlCount, ownedView.of_setRch]

theorem keepsOwned_execRunnelBurst : KeepsOwned execRunnelBurst := by
  refine keepsOwned_run fun s => ?_
  split <;> simp only [ownedView.of_setRch, owned_addCnt64, owned_addCnt, owned_rnlCount, owned_migrateBurst,
      owned_hostBurst, owned_each, owned_put, owned_ite, ite_self, implies_true]

theorem owned_descFetch (c a : Nat) (s : State) : owned (descFetch c a s).2.2 = owned s := by
  unfold descFetch
  dsimp only
  repeat' split
  all_goals simp only [owned_memRead]

theorem owned_descLoad (c a : Nat) (d : Desc) (s : State) : owned (descLoad c a d s) = owned s := by rfl

theorem keepsOwned_execRunnelDescFetch (ch : Fin 32) : KeepsOwned (execRunnelDescFetch ch) := by
  refine keepsOwned_run fun s => ?_
  simp only [owned_descFetch, owned_descLoad, ownedView.of_descDone, owned_ite, ite_self]

theorem keepsOwned_execRunnelDescComplete (ch : Fin 32) : KeepsOwned (execRunnelDescComplete ch) := by
  refine keepsOwned_run fun s => ?_
  simp only [ownedView.of_descDone, owned_ite, ite_self]

theorem keepsOwned_execFifoTimeout (ch : Fin 32) : KeepsOwned (execFifoTimeout ch) := by
  refine keepsOwned_run fun s => ?_
  simp only [owned_raise, ownedView.of_descDone, owned_ite, ite_self]

theorem keepsOwned_execRunnelStopEffect (ch : Fin 32) : KeepsOwned (execRunnelStopEffect ch) := by
  refine keepsOwned_run fun s => ?_
  dsimp only
  repeat' split
  all_goals simp only [ownedView.of_descDone, ownedView.of_chainOver, owned_raise, ownedView.of_setRch]

theorem owned_rnlStopSession (n : Nat) (s : State) : owned (rnlStopSession n s) = owned s := by
  simp only [rnlStopSession, ownedView.of_rnlStop, owned_each, owned_ite, ite_self, implies_true]

theorem keepsOwned_execRnlStart (ses ch desc : Nat) : KeepsOwned (execRnlStart ses ch desc) := by
  refine keepsOwned_run (owned_hostCmd (owned_needLease fun s => ?_))
  simp only [ownedView.of_answer, owned_descFetch, owned_descLoad, ownedView.of_setRch, owned_ite, ite_self]

theorem keepsOwned_execRnlStop (ses : Nat) (mask : BitVec 8) : KeepsOwned (execRnlStop ses mask) := by
  refine keepsOwned_run (owned_hostCmd (owned_needLease fun s => ?_))
  simp only [ownedView.of_answer, ownedView.of_rnlStop, owned_each, implies_true]

theorem keepsOwned_execMboxWrite (ses ch offset : Nat) (data : List Byte) :
    KeepsOwned (execMboxWrite ses ch offset data) := by
  refine keepsOwned_run (owned_hostCmd (owned_needLease fun s => ?_))
  simp only [ownedView.of_answer, ownedView.of_mboxPut]

theorem keepsOwned_execMboxRead (ses ch offset bytes : Nat) : KeepsOwned (execMboxRead ses ch offset bytes) := by
  refine keepsOwned_run (owned_hostCmd fun s => ?_)
  simp only [ownedView.of_answer]

/-! ### Ledger -/

theorem owned_snapTake (s : State) : owned (snapTake s) = owned s := by rfl

theorem owned_snapCommand (s : State) : owned (snapCommand s) = owned s := by
  simp only [snapCommand, owned_snapTake, owned_putLgr, owned_ite, ite_self]

theorem owned_snapNext (s : State) : owned (snapNext s) = owned s := by
  simp only [snapNext, owned_snapCommand, owned_ite, ite_self]

theorem keepsOwned_execLedgerSnapshot (ses : Nat) : KeepsOwned (execLedgerSnapshot ses) := by
  refine keepsOwned_run (owned_hostCmd fun s => ?_)
  simp only [ownedView.of_answer, owned_snapTake, ownedView.of_setSes, owned_putLgr, owned_ite, ite_self]

theorem keepsOwned_execSnapshotComplete : KeepsOwned execSnapshotComplete := by
  refine keepsOwned_run fun s => ?_
  split <;> simp only [owned_raise, owned_setCnt64, owned_sendEvent, ownedView.of_answer, owned_cmdDone, owned_snapNext,
      owned_each, owned_putLgr, owned_ite, ite_self, implies_true, id_eq]

theorem keepsOwned_execLedgerRead (ses snap offset bytes : Nat) : KeepsOwned (execLedgerRead ses snap offset bytes) := by
  refine keepsOwned_run (owned_hostCmd fun s => ?_)
  split <;> simp only [ownedView.of_answer]

theorem keepsOwned_execReservoirRead (ses : Nat) : KeepsOwned (execReservoirRead ses) := by
  refine keepsOwned_run (owned_hostCmd fun s => ?_)
  simp only [ownedView.of_answer]

theorem owned_lifeProgram (n : Nat) (s : State) : owned (lifeProgram n s) = owned s := by
  simp only [lifeProgram, owned_raise, owned_otpSet]

theorem owned_lifeDefer (b : Nat) (s : State) : owned (lifeDefer b s) = owned s := by
  simp only [lifeDefer, owned_otpDefer, owned_putPwr, owned_ite, ite_self]

theorem keepsOwned_execLifeHourBit : KeepsOwned execLifeHourBit := by
  refine keepsOwned_run fun s => ?_
  split
  · rfl
  · split
    · exact owned_lifeDefer 0 s
    · dsimp only
      split
      · exact (owned_lifeProgram ..).trans (owned_putLgr (s := s) ..)
      · exact owned_putLgr (s := s) ..

theorem keepsOwned_execStressMinute : KeepsOwned execStressMinute := by
  refine keepsOwned_run fun s => ?_
  dsimp only
  split
  · rfl
  · generalize hu : rill 175 1 _ = u
    have hu : owned u = owned s := by
      subst hu
      exact (ownedView.of_rill ..).trans (owned_putLgr (s := s) ..)
    split
    · exact hu
    · split
      · exact (owned_lifeDefer 1 u).trans hu
      · split
        · exact (owned_lifeProgram ..).trans ((owned_putLgr (s := u) ..).trans hu)
        · exact (owned_putLgr (s := u) ..).trans hu

theorem keepsOwned_execEventFoldTimer (addr src : Nat) : KeepsOwned (execEventFoldTimer addr src) := by
  refine keepsOwned_run fun s => ?_
  dsimp only
  split <;> simp only [owned_sendEvent, owned_put, owned_ite, ite_self]

/-! ### Records -/

theorem owned_rawCreate (n : Nat) (s : State) : owned (rawCreate n s) = owned s := by
  unfold rawCreate
  split <;> simp only [ownedView.of_freeNext, owned_createRec, owned_setStream]

theorem owned_poolCreate (n : Nat) (s : State) : owned (poolCreate n s) = owned s := by
  unfold poolCreate
  dsimp only
  split <;> simp only [owned_memRead, owned_ringRelease, ownedView.of_setPol, owned_createRec, owned_ite, ite_self]

theorem owned_readsSkip (n : Nat) (s : State) : owned (readsSkip n s) = owned s := by
  unfold readsSkip
  dsimp only
  split <;> simp only [owned_setStream, ownedView.of_mapSeg]

theorem owned_segmentCreate (n : Nat) (s : State) : owned (segmentCreate n s) = owned s := by
  unfold segmentCreate
  dsimp only
  repeat' split
  all_goals simp only [owned_readsSkip, owned_memRead, owned_poisonSeen, owned_setStream, owned_createRec]

theorem owned_ledgerCreate (n : Nat) (s : State) : owned (ledgerCreate n s) = owned s := by
  unfold ledgerCreate
  dsimp only
  repeat' split
  all_goals simp only [owned_setStream, owned_createRec, owned_snapNext]

theorem owned_createReady (n : Nat) (s : State) : owned (createReady n s) = owned s := by
  simp only [createReady, owned_createRec, owned_setStream, owned_each, implies_true]

theorem keepsOwned_execRecordCreate (n : Nat) : KeepsOwned (execRecordCreate n) := by
  refine keepsOwned_run fun s => ?_
  dsimp only
  repeat' split
  all_goals simp only [owned_createRec, owned_setStream, owned_rawCreate, owned_when, owned_poolCreate,
      owned_segmentCreate, owned_ledgerCreate, implies_true]

theorem keepsOwned_execEventLingerExpiry (n : Nat) : KeepsOwned (execEventLingerExpiry n) := by
  refine keepsOwned_run fun s => ?_
  simp only [owned_createReady, owned_setStream, owned_ite, ite_self]

theorem keepsOwned_execLedgerStreamPeriod (n : Nat) : KeepsOwned (execLedgerStreamPeriod n) := by
  refine keepsOwned_run fun s => ?_
  simp only [owned_setStream, owned_snapTake, owned_raise, owned_addHold, owned_ite, ite_self]

theorem keepsOwned_execSegRead (ses stream' seg offset bytes : Nat) :
    KeepsOwned (execSegRead ses stream' seg offset bytes) := by
  refine keepsOwned_run (owned_hostCmd fun s => ?_)
  split <;> simp only [ownedView.of_answer, owned_queueRead, owned_ite, ite_self]

theorem owned_readsNext (n : Nat) (s : State) : owned (readsNext n s) = owned s := by
  unfold readsNext
  dsimp only
  repeat' split
  all_goals simp only [ownedView.of_mapSeg, owned_setStream]

theorem keepsOwned_execSegmentReadEnd (n : Nat) : KeepsOwned (execSegmentReadEnd n) := by
  refine keepsOwned_run fun s => ?_
  split <;> simp only [owned_readsNext, owned_ite, ite_self]

theorem keepsOwned_execPoolRawRecordEnd (e : Fin 4) (samples : List Int) (poolBad : List Nat) :
    KeepsOwned (execPoolRawRecordEnd e samples poolBad) := by
  refine keepsOwned_run fun s => ?_
  dsimp only
  split <;> simp only [ownedView.of_setPol, ownedView.of_poolSkip, owned_poolPoison, owned_poolTake, owned_ite, ite_self]

/-! ### Session -/

theorem owned_reloadShadows (s : State) : owned (reloadShadows s) = owned s := by rfl

theorem owned_leaseTo (by' : Nat) (n : Option Nat) (s : State) : owned (leaseTo by' n s) = { owned s with lease := n } := by
  unfold leaseTo
  split
  · rename_i h
    subst h; rfl
  · rw [owned_raiseFrom]; rfl

theorem owned_leaseLost (n : Nat) (s : State) : owned (leaseLost n s) = { owned s with lease := none } := by
  rw [leaseLost, owned_leaseTo, owned_raise, owned_reloadShadows]

theorem owned_closeSession (n : Nat) (late : Bool) (s : State) :
    ∃ l m, owned (closeSession n late s) = { owned s with lease := l, latch := m } := by
  unfold closeSession
  split
  · exact ⟨_, _, rfl⟩
  · dsimp only
    have hl : owned (if s.slc.lease = some n then leaseLost n s else s) =
        { owned s with lease := if s.slc.lease = some n then none else s.slc.lease } := by
      split
      · exact owned_leaseLost n s
      · rfl
    generalize (if s.slc.lease = some n then leaseLost n s else s) = u at hl ⊢
    have hu : owned (setSes n {} (rnlStopSession n u)) = owned u := by rw [ownedView.of_setSes, owned_rnlStopSession]
    generalize setSes n {} (rnlStopSession n u) = v at hu ⊢
    refine ⟨if s.slc.lease = some n then none else s.slc.lease,
      v.regs.latch.filter fun e => decide (e.1 / 2 ^ 32 ≠ n), ?_⟩
    rw [owned_ite, owned_raiseFrom, ite_self, owned_raiseFrom]
    exact congrArg (fun o : Owned => { o with latch := v.regs.latch.filter fun e => decide (e.1 / 2 ^ 32 ≠ n) }) (hu.trans
        hl)

theorem owned_closeAfter (n : Nat) (s : State) : owned (closeAfter n s) = owned s := by rfl

/-! ### Security -/

theorem owned_attestReport (n : Nat) (nonce : List Byte) (s : State) : owned (attestReport n nonce s) = owned s := by
  simp only [attestReport, owned_raise, owned_setHw, ownedView.of_answer, owned_lmsSpend, owned_ite, ite_self]

theorem owned_attestsWaiting (s : State) : owned (attestsWaiting s) = owned s := by
  unfold attestsWaiting
  refine owned_each (fun _ _ => ?_) _
  repeat' split
  all_goals simp only [owned_attestReport]

theorem keepsOwned_execLmsEpochReady : KeepsOwned execLmsEpochReady := by
  refine keepsOwned_run fun s => ?_
  simp only [owned_lmsTake, owned_attestsWaiting, owned_raise, owned_putSec, owned_ite, ite_self]

theorem owned_lockViolation (a : Nat) (s : State) : owned (lockViolation a s) = owned s := by
  simp only [lockViolation, owned_raise, owned_setHw, owned_addCnt]

theorem keepsOwned_execRootInstall (ses slot : Nat) (ecdsa lms : List Byte) :
    KeepsOwned (execRootInstall ses slot ecdsa lms) := by
  refine keepsOwned_run (owned_hostCmd fun s => ?_)
  simp only [ownedView.of_answer, owned_lockViolation, owned_raise, owned_otpRequest, owned_ite, ite_self]

theorem keepsOwned_execLifecycleAdvance (ses target : Nat) (confirm : Word) :
    KeepsOwned (execLifecycleAdvance ses target confirm) := by
  refine keepsOwned_run (owned_hostCmd (owned_needLease fun s => ?_))
  simp only [ownedView.of_answer, owned_sealDue, ownedView.of_setSes, owned_putSlc, owned_ite, ite_self]

theorem keepsOwned_execEcho (ses : Nat) (data : List Byte) : KeepsOwned (execEcho ses data) := by
  refine keepsOwned_run (owned_hostCmd fun s => ?_)
  simp only [ownedView.of_answer]

/-! ### Commit -/

theorem keepsOwned_execSealQuery (ses : Nat) (mask : BitVec 16) : KeepsOwned (execSealQuery ses mask) := by
  refine keepsOwned_run (owned_hostCmd fun s => ?_)
  simp only [ownedView.of_answer]

theorem owned_commitRefuse (n st : Nat) (data : List Byte) (s : State) : owned (commitRefuse n st data s) = owned s := by
  simp only [commitRefuse, ownedView.of_answer, owned_raise]

theorem owned_commitAccept (n : Nat) (mask : BitVec 16) (aligned : Bool) (stamp : Option Stamp) (expected : Word) (image :
    SMap Word)
    (adopt : Bool) (s : State) :
    ∃ l, owned (commitAccept n mask aligned stamp expected image adopt s) = { owned s with queue := l } := by
  unfold commitAccept
  split
  · exact ⟨_, owned_commitRefuse ..⟩
  · dsimp only
    rw [owned_noteHeld, ownedView.of_setSes]
    exact ⟨_, rfl⟩

theorem owned_commitCheck (n : Nat) (mask : BitVec 16) (aligned : Bool) (stamp : Option Stamp) (expected : Word) (s :
    State) :
    ∃ l, owned (commitCheck n mask aligned stamp expected s) = { owned s with queue := l } := by
  unfold commitCheck
  extract_lets before image old new adopt
  clear_value before image old new adopt
  split
  · exact ⟨_, owned_commitRefuse ..⟩
  · split
    · exact ⟨_, owned_commitRefuse ..⟩
    · split
      · exact ⟨_, owned_commitRefuse ..⟩
      · split
        · exact ⟨_, owned_commitRefuse ..⟩
        · exact owned_commitAccept ..

/-- What a strobe makes of the owned values (R45): the captured words enter the committed image, or the scanned image is
adopted whole, and the reference becomes the commit's seal. -/
def Owned.struck (q : QCommit) (o : Owned) : Owned :=
  { o with committed := if q.adopt then q.image else maskMerge q.mask q.image o.committed,
           ref := if q.mask = 0 ∧ !q.adopt then o.ref else q.sealW }

theorem owned_strobeRegs (q : QCommit) (s : State) : owned (strobeRegs q s) = (owned s).struck q := by
  unfold strobeRegs Owned.struck
  dsimp only
  split <;> rfl

theorem owned_strobe (q : QCommit) (s : State) : owned (strobe q s) = (owned s).struck q := by
  rw [ownedFibres.of_strobe trivial]
  simp only [strobeHead, owned_raise, owned_addCnt, owned_each, ownedView.of_rill, implies_true, owned_strobeRegs,
      ownedView.of_strobeBefore, ownedView.of_fallbackDrop]

/-! ### Registers -/

theorem owned_latchFrom (n a : Nat) (s : State) : ∃ m, owned (latchFrom n a s) = { owned s with latch := m } := ⟨_, rfl⟩

theorem owned_readWord (n : Nat) (active : Bool) (a : Nat) (s : State) :
    ∃ m, owned (readWord n active a s).2 = { owned s with latch := m } := by
  unfold readWord
  split
  · exact ⟨_, rfl⟩
  · split <;> exact ⟨_, rfl⟩

theorem owned_readWords (n : Nat) (active : Bool) (l : List Nat) (s : State) :
    ∃ m, owned (readWords n active l s).2 = { owned s with latch := m } := by
  induction l generalizing s with
  | nil => exact ⟨_, rfl⟩
  | cons a l ih =>
    obtain ⟨m, hm⟩ := owned_readWord n active a s
    obtain ⟨m', hm'⟩ := ih (readWord n active a s).2
    exact ⟨m', by rw [readWords]; dsimp only; rw [hm', hm]⟩

theorem owned_regReadAll (n op : Nat) (active : Bool) (l : List Nat) (s : State) :
    ∃ m, owned (regReadAll n op active l s) = { owned s with latch := m } := by
  unfold regReadAll
  split
  · exact ⟨_, ownedView.of_answer ..⟩
  · obtain ⟨m, hm⟩ := owned_readWords n active l s
    exact ⟨m, (ownedView.of_answer ..).trans hm⟩

theorem owned_polStart (e : Nat) (s : State) : owned (polStart e s) = owned s := by
  simp only [polStart, owned_cmdDone, ownedView.of_blockStart, owned_ite, ite_self, implies_true, id_eq]

theorem owned_polClose (e : Nat) (s : State) : owned (polClose e s) = owned s := by
  simp only [polClose, owned_cmdDone, ownedView.of_blockClose, implies_true, id_eq]

theorem owned_forceUnit (u : Nat) (s : State) : owned (forceUnit u s) = owned s := by
  simp only [forceUnit, ownedView.of_setUnit, owned_cmdDone, ownedView.of_rill, owned_ite, ite_self, implies_true, id_eq]

theorem owned_cmdAction (a b : Nat) (s : State) : owned (cmdAction a b s) = owned s := by
  unfold cmdAction
  split <;> simp only [owned_scanStart, owned_cmdDone, owned_reloadShadows, owned_qcalCommand, ownedView.of_fgCalCommand,
      owned_phsStart, owned_polStart, owned_polClose, owned_forceUnit, owned_clearAlarm, owned_sealNowCommand,
      owned_retrainCommand, owned_newDramCommand, ownedView.of_rnlStop, owned_resumeAll, owned_snapCommand, owned_ite,
      ite_self, implies_true, id_eq]

theorem owned_cmdStart (c : Nat × Nat) (s : State) : owned (cmdStart c s) = owned s := by
  simp only [cmdStart, owned_cmdAction, owned_setHw, owned_putRegs, owned_ite, ite_self]

theorem owned_writeWord (e : Nat × Word) (s : State) : owned (writeWord e s) = owned s := by
  unfold writeWord
  split <;> simp only [owned_cmdStart, owned_otpRequest, owned_each, owned_putRegs, owned_ite, ite_self, implies_true]

theorem owned_regWriteAll (n op : Nat) (l : List (Nat × Word)) (s : State) : owned (regWriteAll n op l s) = owned s := by
  unfold regWriteAll
  dsimp only
  repeat' split
  all_goals simp only [ownedView.of_answer, owned_lockViolation, owned_writeWord, owned_each, implies_true]

theorem keepsOwned_execRegWrite (ses addr : Nat) (value : Word) : KeepsOwned (execRegWrite ses addr value) := by
  refine keepsOwned_run (owned_hostCmd fun s => ?_)
  simp only [owned_regWriteAll]

theorem keepsOwned_execRegWriteBlock (ses addr : Nat) (values : List Word) :
    KeepsOwned (execRegWriteBlock ses addr values) := by
  refine keepsOwned_run (owned_hostCmd fun s => ?_)
  simp only [owned_regWriteAll]

theorem keepsOwned_execStsClear (ses addr : Nat) (seq : BitVec 8) (mask : BitVec 24) :
    KeepsOwned (execStsClear ses addr seq mask) := by
  refine keepsOwned_run (owned_hostCmd fun s => ?_)
  simp only [ownedView.of_answer, owned_setHw, owned_putRegs, owned_ite, ite_self]

theorem owned_bitWrite (n a : Nat) (v : Word) (s : State) : owned (bitWrite n a v s) = owned s := by
  simp only [bitWrite, owned_hostCmd, owned_regWriteAll, implies_true]

theorem keepsOwned_execSealRescan (ses : Nat) : KeepsOwned (execSealRescan ses) := by
  refine keepsOwned_run fun s => ?_
  simp only [owned_bitWrite]

theorem keepsOwned_execReloadShadows (ses : Nat) : KeepsOwned (execReloadShadows ses) := by
  refine keepsOwned_run fun s => ?_
  simp only [owned_bitWrite]

theorem keepsOwned_execMemSpareWrite (ses : Nat) (value : Word) : KeepsOwned (execMemSpareWrite ses value) := by
  refine keepsOwned_run fun s => ?_
  simp only [owned_bitWrite]

theorem keepsOwned_execQcal (ses : Nat) : KeepsOwned (execQcal ses) := by
  refine keepsOwned_run fun s => ?_
  simp only [owned_bitWrite]

theorem keepsOwned_execFgCal (ses : Nat) : KeepsOwned (execFgCal ses) := by
  refine keepsOwned_run fun s => ?_
  simp only [owned_bitWrite]

theorem keepsOwned_execZeroStrain (ses : Nat) (port : Fin 4) : KeepsOwned (execZeroStrain ses port) := by
  refine keepsOwned_run fun s => ?_
  simp only [owned_bitWrite]

theorem keepsOwned_execReprime (ses : Nat) (port : Fin 4) : KeepsOwned (execReprime ses port) := by
  refine keepsOwned_run fun s => ?_
  simp only [owned_bitWrite]

theorem keepsOwned_execPoolStart (ses : Nat) (engine : Fin 4) : KeepsOwned (execPoolStart ses engine) := by
  refine keepsOwned_run fun s => ?_
  simp only [owned_bitWrite]

theorem keepsOwned_execPoolClose (ses : Nat) (engine : Fin 4) : KeepsOwned (execPoolClose ses engine) := by
  refine keepsOwned_run fun s => ?_
  simp only [owned_bitWrite]

theorem keepsOwned_execForceTrigger (ses : Nat) (units : BitVec 8) : KeepsOwned (execForceTrigger ses units) := by
  refine keepsOwned_run fun s => ?_
  simp only [owned_bitWrite]

theorem keepsOwned_execAlarmAck (ses : Nat) : KeepsOwned (execAlarmAck ses) := by
  refine keepsOwned_run fun s => ?_
  simp only [owned_bitWrite]

theorem keepsOwned_execSealNow (ses : Nat) : KeepsOwned (execSealNow ses) := by
  refine keepsOwned_run fun s => ?_
  simp only [owned_bitWrite]

theorem keepsOwned_execResumeAllBit (ses : Nat) : KeepsOwned (execResumeAllBit ses) := by
  refine keepsOwned_run fun s => ?_
  simp only [owned_bitWrite]

theorem keepsOwned_execRetrain (ses : Nat) (ch : Fin 9) : KeepsOwned (execRetrain ses ch) := by
  refine keepsOwned_run fun s => ?_
  simp only [owned_bitWrite]

theorem keepsOwned_execNewDram (ses : Nat) (ch : Fin 9) : KeepsOwned (execNewDram ses ch) := by
  refine keepsOwned_run fun s => ?_
  simp only [owned_bitWrite]

theorem keepsOwned_execRnlCmdStop (ses : Nat) (mask : BitVec 8) : KeepsOwned (execRnlCmdStop ses mask) := by
  refine keepsOwned_run fun s => ?_
  simp only [owned_bitWrite]

theorem keepsOwned_execSnap (ses : Nat) : KeepsOwned (execSnap ses) := by
  refine keepsOwned_run fun s => ?_
  simp only [owned_bitWrite]

/-! ### Sluice -/

theorem owned_sendReply (p : Nat) (dst : Peer) (bytes : List Byte) (s : State) :
    owned (sendReply p dst bytes s) = owned s := by rfl

theorem owned_malformed (s : State) : owned (malformed s) = owned s := by
  simp only [malformed, owned_addHold]

theorem owned_authFail (n : Nat) (s : State) : owned (authFail n s) = owned s := by
  simp only [authFail, owned_raiseFrom, owned_addHold]

theorem owned_windowDrop (s : State) : owned (windowDrop s) = owned s := by
  simp only [windowDrop, owned_addHold]

theorem owned_countDup (k : Nat) (s : State) : owned (countDup k s) = owned s := by
  simp only [countDup, owned_addCnt64]

theorem owned_countOld (k : Nat) (s : State) : owned (countOld k s) = owned s := by
  simp only [countOld, owned_addCnt64]

theorem owned_keepAliveMark (n p : Nat) (s : State) : owned (keepAliveMark n p s) = owned s := by rfl

theorem owned_acceptPkt (n p : Nat) (src : Peer) (seq : Nat) (cmds : List QCmd) (s : State) :
    owned (acceptPkt n p src seq cmds s) = owned s := by
  simp only [acceptPkt, ownedView.of_skipDead, ownedView.of_setSes]

theorem owned_noteDup (n p : Nat) (src : Peer) (seq : Nat) (s : State) : owned (noteDup n p src seq s) = owned s := by rfl

theorem owned_bySeq (n p : Nat) (src : Peer) (seq : Nat) (cmds : List QCmd) (s : State) :
    owned (bySeq n p src seq cmds s) = owned s := by
  unfold bySeq
  dsimp only
  repeat' split
  all_goals simp only [owned_acceptPkt, owned_windowDrop, owned_countOld, owned_sendReply, owned_countDup, owned_noteDup]

theorem owned_ordinary (n p : Nat) (src : Peer) (b body : List Byte) (s : State) :
    owned (ordinary n p src b body s) = owned s := by
  unfold ordinary
  split <;> simp only [owned_keepAliveMark, owned_malformed, owned_bySeq]

theorem owned_fastDo (c : QCmd) (s : State) : owned (fastDo c s).2 = owned s := by
  unfold fastDo
  split <;> split <;> simp only [owned_haltStreams, owned_haltOne, owned_disarmAll]

theorem owned_fastBySeq (n p : Nat) (src : Peer) (seq : Nat) (c : QCmd) (s : State) :
    owned (fastBySeq n p src seq c s) = owned s := by
  simp only [fastBySeq, owned_fastDo, ownedView.of_setSes, owned_raiseFrom, owned_addCnt, ownedView.of_countCmd,
      owned_sendReply, owned_countDup, owned_windowDrop, owned_ite, ite_self]

theorem owned_fastPacket (p : Nat) (src : Peer) (b : List Byte) (s : State) : owned (fastPacket p src b s) = owned s := by
  unfold fastPacket
  dsimp only
  repeat' split
  all_goals simp only [owned_authFail, owned_keepAliveMark, owned_malformed, owned_fastBySeq]

theorem owned_openAnswer (o : Opening) (status : Nat) (data : List Byte) (s : State) :
    owned (openAnswer o status data s) = owned s := by
  simp only [openAnswer, ownedView.of_countCmd, owned_sendReply, owned_raiseIf]

theorem owned_openArrives (o : Opening) (s : State) : owned (openArrives o s) = owned s := by
  unfold openArrives
  dsimp only
  split <;> simp only [owned_countDup, owned_sendReply, owned_openAnswer, owned_putSlc, owned_ite, ite_self]

theorem owned_zeroPacket (p : Nat) (src : Peer) (b : List Byte) (s : State) : owned (zeroPacket p src b s) = owned s := by
  unfold zeroPacket
  split <;> simp only [owned_malformed, owned_openArrives, owned_putSlc, owned_ite, ite_self]

theorem owned_sessionPacket (p : Nat) (src : Peer) (b : List Byte) (s : State) :
    owned (sessionPacket p src b s) = owned s := by
  unfold sessionPacket
  dsimp only
  repeat' split
  all_goals simp only [owned_authFail, owned_ordinary]

theorem owned_packetIn (p : Nat) (src : Peer) (b : List Byte) (s : State) : owned (packetIn p src b s) = owned s := by
  simp only [packetIn, owned_malformed, owned_fastPacket, owned_zeroPacket, owned_sessionPacket, owned_ite, ite_self]

theorem keepsOwned_execSluicePacket (p : Fin 2) (src : Peer) (bytes : List Byte) :
    KeepsOwned (execSluicePacket p src bytes) := by
  refine keepsOwned_run fun s => ?_
  simp only [owned_packetIn]

theorem keepsOwned_execFastPathPacket (p : Fin 2) (src : Peer) (bytes : List Byte) :
    KeepsOwned (execFastPathPacket p src bytes) := by
  refine keepsOwned_run fun s => ?_
  simp only [owned_packetIn]

theorem owned_replyOut (n : Nat) (x : Session) (k : Pkt) (rest : List Pkt) (s : State) :
    owned (replyOut n x k rest s) = owned s := by
  simp only [replyOut, ownedView.of_setSes, owned_countDup, owned_sendReply, owned_each, implies_true]

theorem owned_openSession (o : Opening) (n slot : Nat) (s : State) : owned (openSession o n slot s) = owned s := by
  simp only [openSession, owned_draw, owned_openAnswer, owned_raiseFrom, ownedView.of_setSes, owned_put]

theorem owned_openDecide (o : Opening) (s : State) : owned (openDecide o s) = owned s := by
  unfold openDecide
  repeat' split
  all_goals simp only [owned_openAnswer, owned_countDup, owned_sendReply, owned_openSession]

theorem owned_takeOpening {b : Bool} {f : Opening → State → State} (h : ∀ o s, owned (f o s) = owned s) (s : State) :
    owned (takeOpening b f s) = owned s := by
  unfold takeOpening
  split
  · rfl
  · rw [h, owned_putSlc]

theorem keepsOwned_execSessionOpen : KeepsOwned execSessionOpen := by
  refine keepsOwned_run fun s => ?_
  simp only [owned_takeOpening, owned_openDecide, implies_true]

theorem owned_bootDecide (o : Opening) (s : State) : owned (bootDecide o s) = owned s := by
  unfold bootDecide
  dsimp only
  repeat' split
  all_goals simp only [owned_openAnswer, owned_raiseFrom, ownedView.of_setSes]

theorem keepsOwned_execBootstrapOpen : KeepsOwned execBootstrapOpen := by
  refine keepsOwned_run fun s => ?_
  simp only [owned_takeOpening, owned_bootDecide, implies_true]

theorem owned_identityZero (o : Opening) (s : State) : owned (identityZero o s) = owned s := by
  simp only [identityZero, ownedView.of_countCmd, owned_sendReply]

theorem keepsOwned_execIdentityGet (ses : Nat) : KeepsOwned (execIdentityGet ses) := by
  refine keepsOwned_run fun s => ?_
  repeat' split
  all_goals simp only [owned_identityZero, owned_hostCmd, ownedView.of_answer, owned_putSlc, implies_true]

theorem keepsOwned_execSessionClose (ses : Nat) : KeepsOwned (execSessionClose ses) := by
  refine keepsOwned_run (owned_hostCmd fun s => ?_)
  simp only [ownedView.of_answer, owned_closeAfter]

theorem keepsOwned_execKeepalive (ses : Nat) : KeepsOwned (execKeepalive ses) := by
  refine keepsOwned_run (owned_hostCmd fun s => ?_)
  simp only [ownedView.of_answer, ownedView.of_setSes]

theorem keepsOwned_execSessionInfo (ses : Nat) : KeepsOwned (execSessionInfo ses) := by
  refine keepsOwned_run (owned_hostCmd fun s => ?_)
  simp only [ownedView.of_answer]

/-! ### Rx -/

theorem owned_rxDrop (p : Nat) (s : State) : owned (rxDrop p s) = owned s := by
  simp only [rxDrop, owned_addCnt64]

theorem owned_learn (p ip mac : Nat) (s : State) : owned (learn p ip mac s) = owned s := by
  simp only [learn, ownedView.of_setPort, owned_ite, ite_self]

theorem owned_sendOwn (p : Nat) (kind : FrameKind) (dst : Nat) (bytes : List Byte) (s : State) :
    owned (sendOwn p kind dst bytes s) = owned s := by rfl

theorem owned_rxArp (p : Nat) (f : RxFrame) (s : State) : owned (rxArp p f s) = owned s := by
  simp only [rxArp, owned_learn, owned_sendOwn, owned_ite, ite_self]

theorem owned_rxNdp (p : Nat) (f : RxFrame) (s : State) : owned (rxNdp p f s) = owned s := by
  simp only [rxNdp, owned_learn, owned_sendOwn, owned_ite, ite_self]

theorem owned_rxEcho (p : Nat) (f : RxFrame) (s : State) : owned (rxEcho p f s) = owned s := by
  simp only [rxEcho, owned_sendOwn, ownedView.of_setPort, owned_ite, ite_self]

theorem owned_rxHandle (p : Nat) (f : RxFrame) (s : State) : owned (rxHandle p f s) = owned s := by
  unfold rxHandle
  repeat' split
  all_goals simp only [owned_packetIn, owned_rxArp, owned_rxNdp, owned_rxEcho, ownedView.of_rill, owned_rxDrop]

theorem owned_rxReserved (p : Nat) (f : RxFrame) (s : State) : owned (rxReserved p f s) = owned s := by
  simp only [rxReserved, owned_raiseFrom, owned_addHold, owned_rxDrop, ownedView.of_setPort, owned_addCnt, owned_rxHandle,
      ownedView.of_rill, owned_addCnt64, owned_ite, ite_self]

theorem owned_rxBulk (p : Nat) (f : RxFrame) (s : State) : owned (rxBulk p f s) = owned s := by
  simp only [rxBulk, owned_raise, owned_rxDrop, ownedView.of_setPort, owned_pfcSend, owned_rxHandle, ownedView.of_rill,
      owned_addCnt64, owned_ite, ite_self]

theorem owned_rxPause (p : Nat) (f : RxFrame) (s : State) : owned (rxPause p f s) = owned s := by
  simp only [rxPause, ownedView.of_setPort, owned_addCnt64]

theorem keepsOwned_execEthFrameRx (port' : Fin 2) (f : RxFrame) : KeepsOwned (execEthFrameRx port' f) := by
  refine keepsOwned_run fun s => ?_
  simp only [owned_rxDrop, owned_rxPause, owned_rxReserved, owned_rxBulk, owned_ite, ite_self]

/-! ### Boot -/

theorem owned_bootSlice (c slice : Nat) (s : State) : owned (bootSlice c slice s) = owned s := by
  simp only [bootSlice, owned_setHw, ownedView.of_setConv, ownedView.of_cnvRaise, owned_ite, ite_self]

theorem owned_bootLine (line : Nat) (s : State) : owned (bootLine line s) = owned s := by
  unfold bootLine
  dsimp only
  repeat' split
  all_goals simp only [ownedView.of_setTiuCh, owned_put]

theorem owned_bootRow (row : Nat) (s : State) : owned (bootRow row s) = owned s := by
  unfold bootRow
  split <;> simp only [owned_takeSpare, owned_put, owned_ite, ite_self]

theorem owned_bootLane (p : Nat) (s : State) : owned (bootLane p s) = owned s := by rfl

theorem owned_bootCore (b : Bool) (s : State) : owned (bootCore b s) = owned s := by
  simp only [bootCore, ownedView.of_setPll, owned_put, owned_ite, ite_self]

theorem owned_bootApply (w : Nat) (s : State) : owned (bootApply w s) = owned s := by
  unfold bootApply
  split <;> simp only [owned_bootSlice, owned_bootLine, owned_bootRow, owned_bootCore, owned_bootLane, owned_put,
      owned_ite, ite_self]

theorem owned_bootRepairs (c : Nat) (s : State) : owned (bootRepairs c s) = owned s := by
  unfold bootRepairs
  dsimp only
  split <;> simp only [ownedView.of_setDch, owned_wearAdd]

theorem owned_otpFill (a n : Nat) (s : State) : owned (otpFill a n s) = owned s := by
  simp only [otpFill, owned_otpRequest, owned_ite, ite_self]

theorem owned_lifeResume (s : State) : owned (lifeResume s) = owned s := by
  simp only [lifeResume, owned_otpFill, owned_otpRequest, owned_each, owned_ite, ite_self, implies_true]

theorem keepsOwned_execResetRelease : KeepsOwned execResetRelease := by
  refine keepsOwned_runBoot fun s => ?_
  split
  · rfl
  · rw [owned_raiseIf, owned_each owned_bootApply, owned_lifeResume, owned_each fun _ => owned_wearCountBad, owned_raise,
      owned_setHw]
    rfl

theorem owned_discovered (a : Nat) (w : Word) (s : State) :
    owned (discovered a w s) = { owned s with committed := imagePut a w (owned s).committed } := rfl

theorem owned_trained (found : List TrainResult) (bad : List Nat) (spare : Option Nat) (s : State) :
    ∃ m, owned (trained found bad spare s) = { owned s with committed := m } := by
  unfold trained
  extract_lets good active chans dram s1 s2 s3 s4 s5
  have h1 : owned s1 = owned s := owned_each (fun c t => by simp only [owned_ite, ownedView.of_setDch, ite_self]) s
  have h2 : owned s2 = owned s1 := by
    refine (owned_each owned_bootRepairs _).trans ?_
    split
    · exact owned_bootRepairs ..
    · rfl
  have h5 : owned s5 = owned s := by
    rw [← h1, ← h2]
    simp only [s5, s4, s3, owned_raiseIf, owned_each, owned_raise, implies_true]
  rw [owned_discovered, owned_discovered, h5]
  exact ⟨_, rfl⟩

theorem owned_fillChannels (s : State) : owned (fillChannels s) = owned s := by
  simp only [fillChannels, ownedView.of_setDch, owned_each, owned_ite, ite_self, implies_true]

theorem owned_refillEnd (s : State) : owned (refillEnd s) = owned s := by
  simp only [refillEnd, ownedView.of_setDch, ownedView.of_budgetCheck, ownedView.of_flightsDone, ownedView.of_rnlProtect,
      owned_each, owned_putRegs, owned_ite, ite_self, implies_true]

theorem keepsOwned_execDramFillDone (ms : Nat) : KeepsOwned (execDramFillDone ms) := by
  refine keepsOwned_runBoot fun s => ?_
  simp only [owned_rnlCount, owned_fillChannels, owned_setHw, owned_refillEnd, ownedView.of_histEmpty, owned_put,
      owned_ite, ite_self]

theorem owned_epochDraw (s : State) : ∃ e, owned (epochDraw s) = { owned s with epoch := e } := by
  unfold epochDraw
  dsimp only
  rw [owned_setCnt64]
  split <;> exact ⟨_, rfl⟩

/-! ### Capture -/

theorem owned_tapHistory (p shot : Nat) (t : TapSample) (s : State) : owned (tapHistory p shot t s) = owned s := by
  simp only [tapHistory, ownedView.of_histPut, owned_each, owned_put, owned_ite, ite_self, implies_true]

theorem owned_shotHistory (p : Nat) (t : Shot) (taps : List TapSample) (s : State) :
    owned (shotHistory p t taps s) = owned s := by
  simp only [shotHistory, owned_tapHistory, ownedView.of_histPut, owned_each, owned_put, owned_ite, ite_self, implies_true]

theorem keepsOwned_execChannelUpdate (port : Fin 4) (lanes : List (List Int)) (ovr : Bool) (errs : List BasinErr) (poolBad
    : List Nat) :
    KeepsOwned (execChannelUpdate port lanes ovr errs poolBad) := by
  refine keepsOwned_run fun s => ?_
  dsimp only
  split <;> simp only [owned_underWords, owned_poolPoison, owned_processShot, owned_shotHistory, ownedView.of_blockClose,
      ownedView.of_setLch, owned_ite, ite_self, implies_true]

theorem owned_blockFound (lane b : Nat) (s : State) : owned (blockFound lane b s).2 = owned s := by
  unfold blockFound
  dsimp only
  repeat' split
  all_goals simp only [owned_histGet]

theorem owned_blocksFound (lane n b : Nat) (s : State) : owned (blocksFound lane n b s).2 = owned s := by
  induction n generalizing b s with
  | zero => rfl
  | succ n ih => exact (ih _ _).trans (owned_blockFound lane b s)

theorem owned_samplesFound (g : Seg) (lane : Nat) (a : Int) (n : Nat) (s : State) :
    owned (samplesFound g lane a n s).2 = owned s := by
  simp only [samplesFound, owned_blocksFound]

theorem owned_entryCopy (key entry off n : Nat) (s : State) : owned (entryCopy key entry off n s).2 = owned s := by
  unfold entryCopy
  dsimp only
  repeat' split
  all_goals simp only [owned_histGet]

theorem owned_copyAll {α : Type} {f : α → State → Copy × State} (h : ∀ x s, owned (f x s).2 = owned s) (l : List α)
    (s : State) :
    owned (copyAll f l s).2 = owned s := by
  induction l generalizing s with
  | nil => rfl
  | cons x l ih => exact (ih _).trans (h x s)

theorem owned_laneSection (g : Seg) (lane : Nat) (s : State) : owned (laneSection g lane s).2 = owned s := by
  simp only [laneSection, owned_samplesFound]

theorem owned_shotLane (g : Seg) (k : ShotMark) (lane : Nat) (s : State) : owned (shotLane g k lane s).2 = owned s := by
  simp only [shotLane, owned_samplesFound]

theorem owned_shotUnit (g : Seg) (i : Nat) (s : State) : owned (shotUnit g i s).2 = owned s := by
  unfold shotUnit
  split
  · rfl
  · dsimp only
    generalize hx : (if nbit g.flags 8 = true then _ else _ : Copy × State) = x
    have hx : owned x.2 = owned s := by
      subst hx
      split
      · refine (owned_copyAll (fun lane t => ?_) _ _).trans (owned_entryCopy ..)
        split
        · exact owned_shotLane ..
        · rfl
      · exact owned_entryCopy ..
    split
    · exact (owned_copyAll (fun code t => owned_entryCopy ..) _ _).trans hx
    · exact hx

theorem owned_tapUnit (g : Seg) (k : TapMark) (s : State) : owned (tapUnit g k s).2 = owned s := by
  simp only [tapUnit, owned_entryCopy]

theorem owned_segData (g : Seg) (s : State) : owned (segData g s).2 = owned s := by
  unfold segData
  dsimp only
  repeat' split
  all_goals simp only [owned_copyAll, owned_laneSection, owned_shotUnit, owned_tapUnit, implies_true]

theorem owned_segWrite (n a : Nat) (l : List (Byte × Bool)) (s : State) : owned (segWrite n a l s) = owned s := by
  induction n generalizing a l s with
  | zero => rfl
  | succ n ih => exact (ih _ _ _).trans (ownedView.of_dramWrite _ _ _ s)

theorem keepsOwned_execSegmentClose (seg : Nat) : KeepsOwned (execSegmentClose seg) := by
  refine keepsOwned_run fun s => ?_
  split <;> simp only [owned_segData, owned_rnlCount, owned_segWrite, ownedView.of_dramWrite, ownedView.of_mapSeg,
      ownedView.of_writeDesc, owned_chainAdvance, ownedView.of_loss, owned_raise, owned_addCnt64, owned_raiseIf,
      owned_autoQueue, owned_checkShort, owned_ite, ite_self]

/-! ### The commands that own a value -/

theorem owned_of_run {P : Owned → Prop} {f : State → State} {s t : State} (ht : run f s = .next t) (h : P (owned s))
    (hf : P (owned (f s))) : P (owned t) := by
  unfold run at ht
  split at ht <;> cases ht
  · exact h
  · exact hf

theorem owned_of_ite {P : Owned → Prop} {c : Prop} [Decidable c] {a b : State} (ha : P (owned a)) (hb : P (owned b)) :
    P (owned (if c then a else b)) := by
  split
  · exact ha
  · exact hb

theorem owned_of_each {P : Owned → Prop} {α : Type} {l : List α} {f : α → State → State}
    (hf : ∀ x u, P (owned u) → P (owned (f x u))) {s : State} (h : P (owned s)) : P (owned (each l f s)) := by
  unfold each
  induction l generalizing s with
  | nil => exact h
  | cons x l ih => exact ih (hf x s h)

theorem owned_of_hostCmd {P : Owned → Prop} {n op : Nat} {boot lenOk : Bool} {len : Nat} {f : State → State} {s : State}
    (h : P (owned s)) (hf : P (owned (f s))) : P (owned (hostCmd n op boot lenOk len f s)) := by
  unfold hostCmd
  refine owned_of_ite (owned_of_ite (owned_of_ite ?_ hf) ?_) h <;> rwa [ownedView.of_answer]

theorem owned_of_needLease {P : Owned → Prop} {n op : Nat} {f : State → State} {s : State}
    (h : P (owned s)) (hf : P (owned (f s))) : P (owned (needLease n op f s)) := by
  unfold needLease
  exact owned_of_ite hf (by rwa [ownedView.of_answer])

section
variable {s t : State}

theorem execCommitStrobe_owned (h : execCommitStrobe s = .next t) :
    ∃ c l r, owned t = { owned s with committed := c, queue := l, ref := r } := by
  refine owned_of_run (P := fun o => ∃ c l r, o = { owned s with committed := c, queue := l, ref := r }) h
    ⟨_, _, _, rfl⟩ ?_
  split
  · exact ⟨_, _, _, rfl⟩
  · split
    · rw [owned_noteHeld, owned_strobe]; exact ⟨_, _, _, rfl⟩
    · rw [owned_noteHeld]; exact ⟨_, _, _, rfl⟩

theorem execTrainingComplete_owned {found : List TrainResult} (h : execTrainingComplete found s = .next t) :
    ∃ m, owned t = { owned s with committed := m } := by
  cases h
  show ∃ m, owned (ite _ _ _) = _
  split
  · split
    · exact ⟨_, rfl⟩
    · exact owned_trained ..
  · exact ⟨_, rfl⟩

theorem execCommit_owned {n : Nat} {mask : BitVec 16} {al : Bool} {st : Option Stamp} {w : Word}
    (h : execCommit n mask al st w s = .next t) : ∃ l, owned t = { owned s with queue := l } := by
  let P : Owned → Prop := fun o => ∃ l, o = { owned s with queue := l }
  have h0 : P (owned s) := ⟨_, rfl⟩
  have hr : ∀ st, P (owned (commitRefuse n st [] s)) := fun st => ⟨_, owned_commitRefuse ..⟩
  exact owned_of_run (P := P) h h0
    (owned_of_ite h0 (owned_of_ite (hr _) (owned_of_ite (hr _) (owned_of_ite (hr _) (owned_commitCheck ..)))))

theorem execReady_owned (h : execReady s = .next t) : ∃ r e, owned t = { owned s with ref := r, epoch := e } := by
  cases h
  show ∃ r e, owned (ite _ _ _) = _
  split
  · dsimp only
    obtain ⟨e, he⟩ := owned_epochDraw { s with
      boot := .up, pins := { s.pins with ready := true }, sealing := { s.sealing with ref := sealOf s.regs.committed } }
    refine ⟨sealOf s.regs.committed, e, ?_⟩
    exact (ownedView.of_powerUpdate _).trans ((owned_each (fun p => fun s => ownedView.of_setPort ..) _).trans he)
  · exact ⟨_, _, rfl⟩

theorem execSluiceReply_owned {n : Nat} (h : execSluiceReply n s = .next t) :
    ∃ l m, owned t = { owned s with lease := l, latch := m } := by
  let P : Owned → Prop := fun o => ∃ l m, o = { owned s with lease := l, latch := m }
  have hc : ∀ u, owned u = owned s → P (owned (closeSession n false u)) := fun u hu => by
    obtain ⟨l, m, hc⟩ := owned_closeSession n false u
    exact ⟨l, m, by rw [hc, hu]⟩
  have h0 : ∀ u, owned u = owned s → P (owned u) := fun u hu => ⟨_, _, hu⟩
  refine owned_of_run (P := P) h (h0 s rfl) ?_
  dsimp only
  split
  · have hu : owned (if (ses s n).kind = .free then s else setSes n { ses s n with loose := [] } s) = owned s := by
      rw [owned_ite, ownedView.of_setSes, ite_self]
    split
    · exact hc _ hu
    · exact h0 _ hu
  · split
    · exact h0 s rfl
    · split
      · exact hc _ (owned_replyOut ..)
      · exact h0 _ (owned_replyOut ..)

theorem execKeepaliveExpiry_owned {n : Nat} (h : execKeepaliveExpiry n s = .next t) :
    ∃ l m, owned t = { owned s with lease := l, latch := m } := by
  refine owned_of_run (P := fun o => ∃ l m, o = { owned s with lease := l, latch := m }) h ⟨_, _, rfl⟩ ?_
  split
  · exact ⟨_, _, rfl⟩
  · split
    · exact owned_closeSession ..
    · exact ⟨_, _, rfl⟩

theorem execLeaseTake_owned {n : Nat} (h : execLeaseTake n s = .next t) : ∃ l, owned t = { owned s with lease := l } := by
  let P : Owned → Prop := fun o => ∃ l, o = { owned s with lease := l }
  have h0 : P (owned s) := ⟨_, rfl⟩
  refine owned_of_run (P := P) h h0 (owned_of_hostCmd h0 ?_)
  split
  · exact ⟨_, (ownedView.of_answer ..).trans (owned_leaseTo ..)⟩
  · exact ⟨_, ownedView.of_answer ..⟩

theorem execLeaseHandover_owned {n m : Nat} (h : execLeaseHandover n m s = .next t) :
    ∃ l, owned t = { owned s with lease := l } := by
  let P : Owned → Prop := fun o => ∃ l, o = { owned s with lease := l }
  have h0 : P (owned s) := ⟨_, rfl⟩
  refine owned_of_run (P := P) h h0 (owned_of_hostCmd h0 (owned_of_needLease h0 ?_))
  split
  · exact ⟨_, (ownedView.of_answer ..).trans (owned_leaseTo ..)⟩
  · exact ⟨_, ownedView.of_answer ..⟩

theorem execLeaseRelease_owned {n : Nat} (h : execLeaseRelease n s = .next t) :
    ∃ l, owned t = { owned s with lease := l } := by
  let P : Owned → Prop := fun o => ∃ l, o = { owned s with lease := l }
  have h0 : P (owned s) := ⟨_, rfl⟩
  exact owned_of_run (P := P) h h0 (owned_of_hostCmd h0
    (owned_of_needLease h0 ⟨_, (ownedView.of_answer ..).trans (owned_leaseLost ..)⟩))

theorem execRootRevoke_owned {n slot : Nat} (h : execRootRevoke n slot s = .next t) :
    ∃ l m, owned t = { owned s with lease := l, latch := m } := by
  let P : Owned → Prop := fun o => ∃ l m, o = { owned s with lease := l, latch := m }
  have h0 : ∀ u, owned u = owned s → P (owned u) := fun u hu => ⟨_, _, hu⟩
  refine owned_of_run (P := P) h (h0 s rfl) (owned_of_hostCmd (h0 s rfl) (owned_of_needLease (h0 s rfl) ?_))
  dsimp only
  split
  · exact h0 _ (ownedView.of_answer ..)
  · split
    · exact h0 _ (ownedView.of_answer ..)
    · split
      · exact h0 _ (ownedView.of_answer ..)
      · generalize hu : answer n 0x0A02 stOK [] _ = u
        have hu : owned u = owned s := by
          subst hu
          rw [ownedView.of_answer, owned_raise, owned_otpRequest, owned_ite, owned_closeAfter, ite_self]
        refine owned_of_each (fun n v hv => ?_) (h0 u hu)
        obtain ⟨l, m, hv⟩ := hv
        obtain ⟨l', m', hc⟩ := owned_closeSession n false v
        exact ⟨l', m', by rw [hc, hv]⟩

theorem execGmacKeySet_owned {n slot : Nat} {clear : Bool} {key : List Byte} (h : execGmacKeySet n slot clear key s = .next t) :
    ∃ g, owned t = { owned s with gmac := g } := by
  let P : Owned → Prop := fun o => ∃ g, o = { owned s with gmac := g }
  have h0 : P (owned s) := ⟨_, rfl⟩
  refine owned_of_run (P := P) h h0 (owned_of_hostCmd h0 (owned_of_needLease h0
    (owned_of_ite ⟨_, ownedView.of_answer ..⟩ ?_)))
  exact ⟨_, (ownedView.of_answer ..).trans (owned_raise ..)⟩

theorem execNoiseTestFail_owned (h : execNoiseTestFail s = .next t) : ∃ b, owned t = { owned s with rngOk := b } :=
  owned_of_run (P := fun o => ∃ b, o = { owned s with rngOk := b }) h ⟨_, rfl⟩ ⟨_, owned_raise ..⟩

theorem execNoiseTestPass_owned (h : execNoiseTestPass s = .next t) : ∃ b, owned t = { owned s with rngOk := b } := by
  let P : Owned → Prop := fun o => ∃ b, o = { owned s with rngOk := b }
  have h0 : P (owned s) := ⟨_, rfl⟩
  exact owned_of_run (P := P) h h0 (owned_of_ite h0 ⟨true, rfl⟩)

theorem execAttest_owned {n : Nat} {nonce : List Byte} (h : execAttest n nonce s = .next t) :
    ∃ k, owned t = { owned s with tokens := k } := by
  let P : Owned → Prop := fun o => ∃ k, o = { owned s with tokens := k }
  have h0 : P (owned s) := ⟨_, rfl⟩
  refine owned_of_run (P := P) h h0 (owned_of_hostCmd h0 (owned_of_ite ⟨_, ownedView.of_answer ..⟩ (owned_of_ite ?_ ?_)))
  · exact ⟨s.sec.tokens - 1, owned_attestReport ..⟩
  · exact ⟨s.sec.tokens - 1, (owned_lmsStart _).trans (ownedView.of_setSes ..)⟩

theorem execAttestTokenRefill_owned (h : execAttestTokenRefill s = .next t) :
    ∃ k, owned t = { owned s with tokens := k } := by
  let P : Owned → Prop := fun o => ∃ k, o = { owned s with tokens := k }
  have h0 : P (owned s) := ⟨_, rfl⟩
  exact owned_of_run (P := P) h h0 (owned_of_ite h0 ⟨Nat.min 16 (s.sec.tokens + 1), ownedView.of_rill ..⟩)

theorem execHaltNFall_owned (h : execHaltNFall s = .next t) : ∃ b, owned t = { owned s with haltN := b } := by
  let P : Owned → Prop := fun o => ∃ b, o = { owned s with haltN := b }
  have h0 : P (owned s) := ⟨_, rfl⟩
  exact owned_of_run (P := P) h h0 (owned_of_ite
    ⟨false, (owned_raise ..).trans ((owned_disarmAll _).trans (owned_haltStreams _))⟩ h0)

theorem execHaltNRise_owned (h : execHaltNRise s = .next t) : ∃ b, owned t = { owned s with haltN := b } := by
  let P : Owned → Prop := fun o => ∃ b, o = { owned s with haltN := b }
  have h0 : P (owned s) := ⟨_, rfl⟩
  exact owned_of_run (P := P) h h0 (owned_of_ite h0 ⟨true, owned_raise ..⟩)

theorem execRegRead_owned {n a : Nat} {active : Bool} (h : execRegRead n a active s = .next t) :
    ∃ m, owned t = { owned s with latch := m } := by
  let P : Owned → Prop := fun o => ∃ m, o = { owned s with latch := m }
  have h0 : P (owned s) := ⟨_, rfl⟩
  exact owned_of_run (P := P) h h0 (owned_of_hostCmd h0 (owned_regReadAll ..))

theorem execRegReadBlock_owned {n a k : Nat} {active : Bool} (h : execRegReadBlock n a k active s = .next t) :
    ∃ m, owned t = { owned s with latch := m } := by
  let P : Owned → Prop := fun o => ∃ m, o = { owned s with latch := m }
  have h0 : P (owned s) := ⟨_, rfl⟩
  exact owned_of_run (P := P) h h0 (owned_of_hostCmd h0 (owned_regReadAll ..))

end

/-! ### The whole table -/

/-- The commands that own a value of `Owned`: every other command leaves all of them alone. -/
def isOwner : Instr → Bool
  | .commit _ _ _ _ _ | .commitStrobe | .resetNAssert | .trainingComplete _ | .resetMonitorTrip _ | .thermalReset
  | .otpProgram _ | .ready | .sluiceReply _ | .keepaliveExpiry _ | .leaseTake _ | .leaseHandover _ _
  | .leaseRelease _ | .rootRevoke _ _ | .gmacKeySet _ _ _ _ | .noiseTestFail | .noiseTestPass | .attest _ _
  | .attestTokenRefill | .haltNFall | .haltNRise | .regRead _ _ _ | .regReadBlock _ _ _ _ => true
  | _ => false

/-- Whatever command owns none of the values leaves them as they are, in whatever state it runs. -/
theorem exec_keepsOwned (c : Instr) (h : isOwner c = false) : KeepsOwned (exec c) := by
  cases c with
  | sluicePacket port src bytes => exact keepsOwned_execSluicePacket port src bytes
  | fastPathPacket port src bytes => exact keepsOwned_execFastPathPacket port src bytes
  | sluiceReply ses => cases h
  | sessionOpen => exact keepsOwned_execSessionOpen
  | bootstrapOpen => exact keepsOwned_execBootstrapOpen
  | sessionClose ses => exact keepsOwned_execSessionClose ses
  | keepalive ses => exact keepsOwned_execKeepalive ses
  | sessionInfo ses => exact keepsOwned_execSessionInfo ses
  | identityGet ses => exact keepsOwned_execIdentityGet ses
  | keepaliveExpiry ses => cases h
  | leaseTake ses => cases h
  | leaseHandover ses target => cases h
  | leaseRelease ses => cases h
  | regRead ses addr active => cases h
  | regReadBlock ses addr count active => cases h
  | regWrite ses addr value => exact keepsOwned_execRegWrite ses addr value
  | regWriteBlock ses addr values => exact keepsOwned_execRegWriteBlock ses addr values
  | stsClear ses addr seq mask => exact keepsOwned_execStsClear ses addr seq mask
  | commit ses mask aligned stamp expected => cases h
  | sealQuery ses mask => exact keepsOwned_execSealQuery ses mask
  | commitStrobe => cases h
  | fibreGroupApply port => exact keepsOwned_execFibreGroupApply port
  | alignedCommonInstant => exact keepsOwned_execAlignedCommonInstant
  | commitHoldEnd => exact keepsOwned_execCommitHoldEnd
  | sealScanStart => exact keepsOwned_execSealScanStart
  | sealScanComplete => exact keepsOwned_execSealScanComplete
  | sealRescan ses => exact keepsOwned_execSealRescan ses
  | reloadShadows ses => exact keepsOwned_execReloadShadows ses
  | memSpareWrite ses value => exact keepsOwned_execMemSpareWrite ses value
  | resetNAssert => cases h
  | resetRelease => exact keepsOwned_execResetRelease
  | trainingComplete found => cases h
  | dramFillDone ms => exact keepsOwned_execDramFillDone ms
  | ready => cases h
  | resetMonitorTrip rails => cases h
  | windowOpen rail samples => exact keepsOwned_execWindowOpen rail samples
  | railJoinsWindow rail samples => exact keepsOwned_execRailJoinsWindow rail samples
  | windowClose rails longest => exact keepsOwned_execWindowClose rails longest
  | windowQcalDone => exact keepsOwned_execWindowQcalDone
  | thermalReading sensor value => exact keepsOwned_execThermalReading sensor value
  | thermalReset => cases h
  | refCountCheck ref count => exact keepsOwned_execRefCountCheck ref count
  | refclkCCrosscheck count => exact keepsOwned_execRefclkCCrosscheck count
  | aonTrim hz => exact keepsOwned_execAonTrim hz
  | pllLockDetect pll => exact keepsOwned_execPllLockDetect pll
  | settleTimerExpiry pll => exact keepsOwned_execSettleTimerExpiry pll
  | samplePllUnlock => exact keepsOwned_execSamplePllUnlock
  | refclkSLoss => exact keepsOwned_execRefclkSLoss
  | sampleClockResume => exact keepsOwned_execSampleClockResume
  | timePllUnlock => exact keepsOwned_execTimePllUnlock
  | tiuClockReturn => exact keepsOwned_execTiuClockReturn
  | backupSteer => exact keepsOwned_execBackupSteer
  | corePllUnlock standby => exact keepsOwned_execCorePllUnlock standby
  | coreRelockTimeout => exact keepsOwned_execCoreRelockTimeout
  | corePllRetry lockedA lockedB => exact keepsOwned_execCorePllRetry lockedA lockedB
  | refclkCLoss => exact keepsOwned_execRefclkCLoss
  | refclkCReturn => exact keepsOwned_execRefclkCReturn
  | memPllUnlock pll => exact keepsOwned_execMemPllUnlock pll
  | memPllRelock pll => exact keepsOwned_execMemPllRelock pll
  | serdesPllUnlock port => exact keepsOwned_execSerdesPllUnlock port
  | ppsInEdge c k => exact keepsOwned_execPpsInEdge c k
  | holdoverEntry => exact keepsOwned_execHoldoverEntry
  | freerunEntry => exact keepsOwned_execFreerunEntry
  | ppsOutPulse => exact keepsOwned_execPpsOutPulse
  | ppsOutWidthEnd => exact keepsOwned_execPpsOutWidthEnd
  | leapApply => exact keepsOwned_execLeapApply
  | ptpMessage port msg => exact keepsOwned_execPtpMessage port msg
  | ptpSyncTx => exact keepsOwned_execPtpSyncTx
  | timeSet ses stamp atPps => exact keepsOwned_execTimeSet ses stamp atPps
  | timeSetTimeout => exact keepsOwned_execTimeSetTimeout
  | timeGet ses => exact keepsOwned_execTimeGet ses
  | rotationPeriodEnd conv m => exact keepsOwned_execRotationPeriodEnd conv m
  | qcal ses => exact keepsOwned_execQcal ses
  | qcalStepEnd conv m => exact keepsOwned_execQcalStepEnd conv m
  | iscBlockEnd conv stats start spare => exact keepsOwned_execIscBlockEnd conv stats start spare
  | fgWindowStart conv => exact keepsOwned_execFgWindowStart conv
  | fgWindowEnd conv ms => exact keepsOwned_execFgWindowEnd conv ms
  | fgCal ses => exact keepsOwned_execFgCal ses
  | launch port => exact keepsOwned_execLaunch port
  | slotCodeUpdate port => exact keepsOwned_execSlotCodeUpdate port
  | firstLaunch port => exact keepsOwned_execFirstLaunch port
  | monitorWindowClose port => exact keepsOwned_execMonitorWindowClose port
  | tiuEdgeStamp ch c k rising => exact keepsOwned_execTiuEdgeStamp ch c k rising
  | measurementTimeout ctx => exact keepsOwned_execMeasurementTimeout ctx
  | tiuRearm ch n1 n2 => exact keepsOwned_execTiuRearm ch n1 n2
  | tiuPeriodicCal ch n1 n2 => exact keepsOwned_execTiuPeriodicCal ch n1 n2
  | spareLineCal line n1 n2 => exact keepsOwned_execSpareLineCal line n1 n2
  | channelUpdate port lanes ovr errs poolBad => exact keepsOwned_execChannelUpdate port lanes ovr errs poolBad
  | zeroStrain ses port => exact keepsOwned_execZeroStrain ses port
  | reprime ses port => exact keepsOwned_execReprime ses port
  | basinScrub row found => exact keepsOwned_execBasinScrub row found
  | basinRowRetire row => exact keepsOwned_execBasinRowRetire row
  | poolStart ses engine => exact keepsOwned_execPoolStart ses engine
  | poolClose ses engine => exact keepsOwned_execPoolClose ses engine
  | laneTriggerCondition index xs => exact keepsOwned_execLaneTriggerCondition index xs
  | forceTrigger ses units => exact keepsOwned_execForceTrigger ses units
  | watchCondition port => exact keepsOwned_execWatchCondition port
  | holdoffExpiry u => exact keepsOwned_execHoldoffExpiry u
  | postWindowEnd u => exact keepsOwned_execPostWindowEnd u
  | allocationAnswer u => exact keepsOwned_execAllocationAnswer u
  | trigOutPulseEnd pin => exact keepsOwned_execTrigOutPulseEnd pin
  | alarmAck ses => exact keepsOwned_execAlarmAck ses
  | alarmPulseEnd => exact keepsOwned_execAlarmPulseEnd
  | evalLaneCheck port lane laneOk spareOk => exact keepsOwned_execEvalLaneCheck port lane laneOk spareOk
  | segmentClose seg => exact keepsOwned_execSegmentClose seg
  | pinSuspensionEnd u => exact keepsOwned_execPinSuspensionEnd u
  | segmentReadEnd stream => exact keepsOwned_execSegmentReadEnd stream
  | sealTimer => exact keepsOwned_execSealTimer
  | sealDeferredStart => exact keepsOwned_execSealDeferredStart
  | sealNow ses => exact keepsOwned_execSealNow ses
  | arm ses targets atTime => exact keepsOwned_execArm ses targets atTime
  | disarm ses targets => exact keepsOwned_execDisarm ses targets
  | disarmAll ses => exact keepsOwned_execDisarmAll ses
  | acqState ses => exact keepsOwned_execAcqState ses
  | watchStatus ses first count => exact keepsOwned_execWatchStatus ses first count
  | segQuery ses seg => exact keepsOwned_execSegQuery ses seg
  | segPin ses seg => exact keepsOwned_execSegPin ses seg
  | segUnpin ses seg => exact keepsOwned_execSegUnpin ses seg
  | segRelease ses seg => exact keepsOwned_execSegRelease ses seg
  | segRead ses stream seg offset bytes => exact keepsOwned_execSegRead ses stream seg offset bytes
  | sealCmd ses now index => exact keepsOwned_execSealCmd ses now index
  | haltStreams ses => exact keepsOwned_execHaltStreams ses
  | haltStream ses stream => exact keepsOwned_execHaltStream ses stream
  | streamResume ses stream => exact keepsOwned_execStreamResume ses stream
  | resumeAll ses => exact keepsOwned_execResumeAll ses
  | resumeAllBit ses => exact keepsOwned_execResumeAllBit ses
  | haltNFall => cases h
  | haltNRise => cases h
  | replay ses stream first count => exact keepsOwned_execReplay ses stream first count
  | streamStatus ses first count => exact keepsOwned_execStreamStatus ses first count
  | recordCreate stream => exact keepsOwned_execRecordCreate stream
  | eventLingerExpiry stream => exact keepsOwned_execEventLingerExpiry stream
  | ledgerStreamPeriod stream => exact keepsOwned_execLedgerStreamPeriod stream
  | frameTxStart port => exact keepsOwned_execFrameTxStart port
  | frameTxEnd port => exact keepsOwned_execFrameTxEnd port
  | ethFrameRx port frame => exact keepsOwned_execEthFrameRx port frame
  | xonSend port => exact keepsOwned_execXonSend port
  | linkUp port => exact keepsOwned_execLinkUp port
  | linkFault port => exact keepsOwned_execLinkFault port
  | faultClear port => exact keepsOwned_execFaultClear port
  | linkHoldExpiry port => exact keepsOwned_execLinkHoldExpiry port
  | streamReturn stream => exact keepsOwned_execStreamReturn stream
  | dhcpLeaseExpiry port => exact keepsOwned_execDhcpLeaseExpiry port
  | dadComplete port addr gw ok => exact keepsOwned_execDadComplete port addr gw ok
  | nextHopRetry port => exact keepsOwned_execNextHopRetry port
  | channelRequest ch req => exact keepsOwned_execChannelRequest ch req
  | writeComplete ch => exact keepsOwned_execWriteComplete ch
  | trefwTableClear ch => exact keepsOwned_execTrefwTableClear ch
  | refreshDue ch rank => exact keepsOwned_execRefreshDue ch rank
  | postponedRefresh ch rank => exact keepsOwned_execPostponedRefresh ch rank
  | mprTempRead ch rank status => exact keepsOwned_execMprTempRead ch rank status
  | zqcs ch => exact keepsOwned_execZqcs ch
  | pageIdleClose ch bank => exact keepsOwned_execPageIdleClose ch bank
  | powerDownEntry ch rank => exact keepsOwned_execPowerDownEntry ch rank
  | selfRefreshEntry ch => exact keepsOwned_execSelfRefreshEntry ch
  | scrubWake ch => exact keepsOwned_execScrubWake ch
  | patrolScrubRead ch err => exact keepsOwned_execPatrolScrubRead ch err
  | alert ch => exact keepsOwned_execAlert ch
  | retrain ses ch => exact keepsOwned_execRetrain ses ch
  | retrainComplete ch passed => exact keepsOwned_execRetrainComplete ch passed
  | newDram ses ch => exact keepsOwned_execNewDram ses ch
  | migrate ses source => exact keepsOwned_execMigrate ses source
  | migrationCutover => exact keepsOwned_execMigrationCutover
  | runnelDescFetch ch => exact keepsOwned_execRunnelDescFetch ch
  | runnelBurst => exact keepsOwned_execRunnelBurst
  | runnelDescComplete ch => exact keepsOwned_execRunnelDescComplete ch
  | fifoTimeout ch => exact keepsOwned_execFifoTimeout ch
  | rnlStart ses ch desc => exact keepsOwned_execRnlStart ses ch desc
  | rnlStop ses mask => exact keepsOwned_execRnlStop ses mask
  | rnlCmdStop ses mask => exact keepsOwned_execRnlCmdStop ses mask
  | runnelStopEffect ch => exact keepsOwned_execRunnelStopEffect ch
  | mboxWrite ses ch offset data => exact keepsOwned_execMboxWrite ses ch offset data
  | mboxRead ses ch offset bytes => exact keepsOwned_execMboxRead ses ch offset bytes
  | reservoirRead ses => exact keepsOwned_execReservoirRead ses
  | ledgerSnapshot ses => exact keepsOwned_execLedgerSnapshot ses
  | snap ses => exact keepsOwned_execSnap ses
  | snapshotComplete => exact keepsOwned_execSnapshotComplete
  | ledgerRead ses snap offset bytes => exact keepsOwned_execLedgerRead ses snap offset bytes
  | eventFoldTimer addr src => exact keepsOwned_execEventFoldTimer addr src
  | wearMapWrite verified => exact keepsOwned_execWearMapWrite verified
  | lifeHourBit => exact keepsOwned_execLifeHourBit
  | stressMinute => exact keepsOwned_execStressMinute
  | attest ses nonce => cases h
  | attestTokenRefill => cases h
  | lmsEpochReady => exact keepsOwned_execLmsEpochReady
  | noiseTestFail => cases h
  | otpProgram failedBits => cases h
  | rootInstall ses slot ecdsa lms => exact keepsOwned_execRootInstall ses slot ecdsa lms
  | rootRevoke ses slot => cases h
  | gmacKeySet ses slot clear key => cases h
  | lifecycleAdvance ses target confirm => exact keepsOwned_execLifecycleAdvance ses target confirm
  | echo ses data => exact keepsOwned_execEcho ses data
  | inputLedgerNotice conv codes => exact keepsOwned_execInputLedgerNotice conv codes
  | launchPulseEnd port => exact keepsOwned_execLaunchPulseEnd port
  | armAtTime => exact keepsOwned_execArmAtTime
  | poolRawRecordEnd engine samples poolBad => exact keepsOwned_execPoolRawRecordEnd engine samples poolBad
  | noiseTestPass => cases h
  | alertNHigh ch => exact keepsOwned_execAlertNHigh ch
  | pfcPauseExpiry port prio => exact keepsOwned_execPfcPauseExpiry port prio
  | dhcpRenewal port addr pre gw => exact keepsOwned_execDhcpRenewal port addr pre gw
  | delayReqTx => exact keepsOwned_execDelayReqTx
  | announceTx => exact keepsOwned_execAnnounceTx
  | sealSpacingEnd => exact keepsOwned_execSealSpacingEnd

/-- Settles O18: a command that owns none of the values keeps them all, and each owner's own lemma says which of them it may
change; a reset, and the programming of an OTP object that ends in one, may change any. -/
theorem configurationOwners : Obligations.ConfigurationOwners := by
  intro c s t h
  have plain (hc : isOwner c = false) := owned_eq_iff.mp (exec_keepsOwned c hc s t h)
  cases c
  case commitStrobe =>
    obtain ⟨_, _, _, ho⟩ := execCommitStrobe_owned h
    simp only [owned, Owned.mk.injEq] at ho
    simp only [ho, and_self]
  case trainingComplete =>
    obtain ⟨_, ho⟩ := execTrainingComplete_owned h
    simp only [owned, Owned.mk.injEq] at ho
    simp only [ho, and_self]
  case commit =>
    obtain ⟨_, ho⟩ := execCommit_owned h
    simp only [owned, Owned.mk.injEq] at ho
    simp only [ho, and_self]
  case ready =>
    obtain ⟨_, _, ho⟩ := execReady_owned h
    simp only [owned, Owned.mk.injEq] at ho
    simp only [ho, and_self]
  case sluiceReply =>
    obtain ⟨_, _, ho⟩ := execSluiceReply_owned h
    simp only [owned, Owned.mk.injEq] at ho
    simp only [ho, and_self]
  case keepaliveExpiry =>
    obtain ⟨_, _, ho⟩ := execKeepaliveExpiry_owned h
    simp only [owned, Owned.mk.injEq] at ho
    simp only [ho, and_self]
  case leaseTake =>
    obtain ⟨_, ho⟩ := execLeaseTake_owned h
    simp only [owned, Owned.mk.injEq] at ho
    simp only [ho, and_self]
  case leaseHandover =>
    obtain ⟨_, ho⟩ := execLeaseHandover_owned h
    simp only [owned, Owned.mk.injEq] at ho
    simp only [ho, and_self]
  case leaseRelease =>
    obtain ⟨_, ho⟩ := execLeaseRelease_owned h
    simp only [owned, Owned.mk.injEq] at ho
    simp only [ho, and_self]
  case rootRevoke =>
    obtain ⟨_, _, ho⟩ := execRootRevoke_owned h
    simp only [owned, Owned.mk.injEq] at ho
    simp only [ho, and_self]
  case gmacKeySet =>
    obtain ⟨_, ho⟩ := execGmacKeySet_owned h
    simp only [owned, Owned.mk.injEq] at ho
    simp only [ho, and_self]
  case noiseTestFail =>
    obtain ⟨_, ho⟩ := execNoiseTestFail_owned h
    simp only [owned, Owned.mk.injEq] at ho
    simp only [ho, and_self]
  case noiseTestPass =>
    obtain ⟨_, ho⟩ := execNoiseTestPass_owned h
    simp only [owned, Owned.mk.injEq] at ho
    simp only [ho, and_self]
  case attest =>
    obtain ⟨_, ho⟩ := execAttest_owned h
    simp only [owned, Owned.mk.injEq] at ho
    simp only [ho, and_self]
  case attestTokenRefill =>
    obtain ⟨_, ho⟩ := execAttestTokenRefill_owned h
    simp only [owned, Owned.mk.injEq] at ho
    simp only [ho, and_self]
  case haltNFall =>
    obtain ⟨_, ho⟩ := execHaltNFall_owned h
    simp only [owned, Owned.mk.injEq] at ho
    simp only [ho, and_self]
  case haltNRise =>
    obtain ⟨_, ho⟩ := execHaltNRise_owned h
    simp only [owned, Owned.mk.injEq] at ho
    simp only [ho, and_self]
  case regRead =>
    obtain ⟨_, ho⟩ := execRegRead_owned h
    simp only [owned, Owned.mk.injEq] at ho
    simp only [ho, and_self]
  case regReadBlock =>
    obtain ⟨_, ho⟩ := execRegReadBlock_owned h
    simp only [owned, Owned.mk.injEq] at ho
    simp only [ho, and_self]
  case' resetNAssert | resetMonitorTrip | thermalReset | otpProgram => simp only [and_self]
  all_goals exact plain rfl

end Sys2Proof.Machine
end

section
/-! REASONING. The reply of a register command: what a write of words comes to, with the lease and without it. -/

namespace Sys2Proof.Machine

/-! ### A command and its reply -/

/-- The command ledger and the session of a reply are all that a host command changes whose body is a reply. -/
theorem hostCmd_answers {s : State} {n op len st : Nat} {boot : Bool} {l : List Byte} {body : State → State}
    (h : HostTurn s n op len boot) (hb : body s = answer n op st l s) :
    ∃ t, run (hostCmd n op boot true len body) s = .next t ∧ Replied n op st l s t ∧ OnlyReplies n s t := by
  refine ⟨answer n op st l s, ?_, answer_replied rfl rfl, answer_onlyReplies n op st l s⟩
  rw [run_of_live h.1, hostCmd_at_turn h, hb, ← answer_pending s n op st l, ← answer_boot s n op st l]

/-- A row whose body changes nothing changes nothing. -/
theorem run_of_same {f : State → State} {s : State} (h : f s = s) : run f s = .next s := by
  unfold run
  split
  · rfl
  · rw [h]

/-- The state `u` that a row of `s` comes to, the queue of commands and the boot stage put back. -/
def restored (s u : State) : State := { u with pending := s.pending, boot := s.boot }

theorem run_eq_restored {f : State → State} {s : State} (h : s.boot ≠ .held) : run f s = .next (restored s (f s)) :=
  run_of_live h

section
variable (s u : State)

@[simp] theorem restored_commits : (restored s u).commits = u.commits := by rfl
@[simp] theorem restored_sealing : (restored s u).sealing = u.sealing := by rfl
@[simp] theorem restored_pins : (restored s u).pins = u.pins := by rfl
@[simp] theorem restored_cnt : (restored s u).cnt = u.cnt := by rfl
@[simp] theorem restored_spt : (restored s u).spt = u.spt := by rfl
@[simp] theorem restored_sec : (restored s u).sec = u.sec := by rfl
@[simp] theorem restored_cnv : (restored s u).cnv = u.cnv := by rfl
@[simp] theorem restored_lch : (restored s u).lch = u.lch := by rfl
@[simp] theorem restored_cis : (restored s u).cis = u.cis := by rfl
@[simp] theorem restored_dram : (restored s u).dram = u.dram := by rfl
@[simp] theorem restored_rnl : (restored s u).rnl = u.rnl := by rfl
@[simp] theorem restored_lgr : (restored s u).lgr = u.lgr := by rfl
@[simp] theorem restored_slc : (restored s u).slc = u.slc := by rfl
@[simp] theorem restored_regs : (restored s u).regs = u.regs := by rfl
@[simp] theorem restored_ports : (restored s u).ports = u.ports := by rfl
@[simp] theorem hw_restored (a : Nat) : hw (restored s u) a = hw u a := by rfl
@[simp] theorem cnt64_restored (a : Nat) : cnt64 (restored s u) a = cnt64 u a := by rfl
@[simp] theorem ses_restored (n : Nat) : ses (restored s u) n = ses u n := by rfl

end

/-- The state after a command of `s` that has changed to `u` and replies. -/
def answered (s u : State) (n op st : Nat) (l : List Byte) : State := restored s (answer n op st l u)

section
variable (s u : State) (n op st : Nat) (l : List Byte)

@[simp] theorem answered_commits : (answered s u n op st l).commits = u.commits := by simp [answered]
@[simp] theorem answered_sealing : (answered s u n op st l).sealing = u.sealing := by simp [answered]
@[simp] theorem answered_pins : (answered s u n op st l).pins = u.pins := by simp [answered]
@[simp] theorem answered_cnt : (answered s u n op st l).cnt = u.cnt := by simp [answered]
@[simp] theorem answered_spt : (answered s u n op st l).spt = u.spt := by simp [answered]
@[simp] theorem answered_sec : (answered s u n op st l).sec = u.sec := by simp [answered]
@[simp] theorem answered_cnv : (answered s u n op st l).cnv = u.cnv := by simp [answered]
@[simp] theorem answered_lch : (answered s u n op st l).lch = u.lch := by simp [answered]
@[simp] theorem answered_cis : (answered s u n op st l).cis = u.cis := by simp [answered]
@[simp] theorem answered_dram : (answered s u n op st l).dram = u.dram := by simp [answered]
@[simp] theorem answered_rnl : (answered s u n op st l).rnl = u.rnl := by simp [answered]
@[simp] theorem answered_lgr : (answered s u n op st l).lgr = u.lgr := by simp [answered]
@[simp] theorem answered_lease : (answered s u n op st l).slc.lease = u.slc.lease := by simp [answered]
@[simp] theorem answered_shadow : (answered s u n op st l).regs.shadow = u.regs.shadow := by simp [answered]
@[simp] theorem answered_active : (answered s u n op st l).regs.active = u.regs.active := by simp [answered]
@[simp] theorem answered_committed : (answered s u n op st l).regs.committed = u.regs.committed := by simp [answered]
@[simp] theorem answered_laps : (answered s u n op st l).regs.laps = u.regs.laps := by simp [answered]

end

theorem hw_answered {s u : State} {n op st a : Nat} {l : List Byte} (ha : offLedger a) :
    hw (answered s u n op st l) a = hw u a := hw_answer_off ha u

/-- A command that leaves the sessions alone until it replies has replied. -/
theorem replied_answered {s u : State} {n op st : Nat} {l : List Byte} (h : u.slc.sessions = s.slc.sessions) :
    Replied n op st l s (answered s u n op st l) := by
  have hs : ses u n = ses s n := by simp [ses, h]
  exact answer_replied (s := s) (u := u) (by rw [hs]) (by rw [hs])

/-- A host command whose body is a change to `u` and a reply. -/
theorem hostCmd_replies {s u : State} {n op len st : Nat} {boot : Bool} {l : List Byte} {body : State → State}
    (h : HostTurn s n op len boot) (hb : body s = answer n op st l u) :
    run (hostCmd n op boot true len body) s = .next (answered s u n op st l) := by
  rw [run_eq_restored h.1, hostCmd_at_turn h, hb, answered]

/-! ### Register words -/

theorem badWord_eq_false {a : Nat} {k : Cls} (h4 : a % 4 = 0) (hk : clsOf a = some k) : badWord a = false := by
  simp [badWord, h4, hk]

theorem startsOf_of_ne_cmd {e : Nat × Word} (h : clsOf e.1 ≠ some .cmd) : startsOf e = [] := if_neg h

/-- Only a once or an id word can be locked. -/
theorem wouldLock_eq_false {s : State} {e : Nat × Word} (ho : clsOf e.1 ≠ some .once) (hi : clsOf e.1 ≠ some .id) :
    wouldLock s e = false := by
  unfold wouldLock; split <;> simp_all

theorem writeWord_cfg {a : Nat} (h : clsOf a = some .cfg) (v : Word) (s : State) : writeWord (a, v) s =
    { s with regs := { s.regs with shadow := imagePut a (v &&& maskOf a) s.regs.shadow } } := by
  simp [writeWord, h]

theorem writeWord_cmd {a : Nat} (h : clsOf a = some .cmd) (v : Word) (s : State) :
    writeWord (a, v) s = each (startsOf (a, v)) cmdStart s := by simp [writeWord, h]

/-- A write that every check of R29 passes writes its words in order and answers OK. -/
theorem regWriteAll_passes {n op : Nat} {l : List (Nat × Word)} {s : State} (hb : ∀ e ∈ l, badWord e.1 = false)
    (ho : s.slc.lease = some n ∨ ∀ e ∈ l, wouldChange s e = false) (hl : ∀ e ∈ l, wouldLock s e = false)
    (hq : ∀ c ∈ l.flatMap startsOf, c ∉ s.regs.cmdQueued ∧ startState s c = false) :
    regWriteAll n op l s = answer n op stOK [] (each l writeWord s) := by
  have hown : ¬ (s.slc.lease ≠ some n ∧ l.any (wouldChange s) = true) := by
    rintro ⟨hn, hc⟩
    obtain ⟨e, he, hc⟩ := List.any_eq_true.mp hc
    rcases ho with ho | ho
    · exact hn ho
    · simp [ho e he] at hc
  have hbusy : ((l.flatMap startsOf).any fun c => decide (c ∈ s.regs.cmdQueued)) = false :=
    List.any_eq_false.mpr fun c hc => by simpa using (hq c hc).1
  have hstate : (l.flatMap startsOf).any (startState s) = false :=
    List.any_eq_false.mpr fun c hc => by simpa using (hq c hc).2
  have hlock : l.find? (wouldLock s) = none := List.find?_eq_none.mpr fun e he => by simp [hl e he]
  have hbad : (l.find? fun e => badWord e.1) = none := List.find?_eq_none.mpr fun e he => by simp [hb e he]
  simp only [regWriteAll, hbad, if_neg hown, hlock, hbusy, hstate, Bool.false_eq_true, if_false]

/-- Without the lease a write that would change a word is refused (R40). -/
theorem regWriteAll_notOwner {n op : Nat} {l : List (Nat × Word)} {s : State} (hb : ∀ e ∈ l, badWord e.1 = false)
    (hn : s.slc.lease ≠ some n) (hc : ∃ e ∈ l, wouldChange s e = true) :
    regWriteAll n op l s = answer n op stNotOwner [] s := by
  have hbad : (l.find? fun e => badWord e.1) = none := List.find?_eq_none.mpr fun e he => by simp [hb e he]
  simp only [regWriteAll, hbad]
  rw [if_pos ⟨hn, List.any_eq_true.mpr hc⟩]

/-- A write of cfg words by the lease holder writes them in order. -/
theorem regWriteAll_cfg {n op : Nat} {l : List (Nat × Word)} {s : State} (hl : s.slc.lease = some n)
    (h : ∀ e ∈ l, e.1 % 4 = 0 ∧ clsOf e.1 = some .cfg) :
    regWriteAll n op l s = answer n op stOK [] (each l writeWord s) :=
  regWriteAll_passes (fun e he => badWord_eq_false (h e he).1 (h e he).2) (.inl hl)
    (fun e he => wouldLock_eq_false (by simp [h e he]) (by simp [h e he])) fun c hc => by
      obtain ⟨e, he, hce⟩ := List.mem_flatMap.mp hc
      simp [startsOf_of_ne_cmd (e := e) (by simp [h e he])] at hce

/-- A value for a sts or cnt word is discarded, whoever writes it. -/
theorem regWriteAll_discards {n op a : Nat} {v : Word} {s : State} {k : Cls} (h4 : a % 4 = 0) (hk : clsOf a = some k)
    (h : k = .sts ∨ k = .cnt) : regWriteAll n op [(a, v)] s = answer n op stOK [] s := by
  rw [regWriteAll_passes]
  · rcases h with rfl | rfl <;> simp [each, writeWord, hk]
  · simpa using badWord_eq_false h4 hk
  · rcases h with rfl | rfl <;> simp [wouldChange, hk]
  · rcases h with rfl | rfl <;> simp [wouldLock, hk]
  · rcases h with rfl | rfl <;> simp [startsOf, hk]

end Sys2Proof.Machine
end

section
/-! SETTLES. Writes of register words and clears of sts words. -/

namespace Sys2Proof.Machine

/-! ### REG_WRITE and REG_WRITE_BLOCK -/

theorem regWrite_cfg {s : State} {n a : Nat} {v : Word} (h : HostTurn s n 0x0101 4 false) (hl : s.slc.lease = some n)
    (h4 : a % 4 = 0) (hk : clsOf a = some .cfg) :
    ∃ t, exec (.regWrite n a v) s = .next t ∧ Replied n 0x0101 stOK [] s t ∧ imageGet t.regs.shadow a = v &&& maskOf a ∧
      (∀ b, b ≠ a → imageGet t.regs.shadow b = imageGet s.regs.shadow b) ∧ t.regs.active = s.regs.active ∧
      t.regs.committed = s.regs.committed ∧ (∀ b, offLedger b → hw t b = hw s b) := by
  have hw1 : regWriteAll n 0x0101 [(a, v)] s = answer n 0x0101 stOK []
      { s with regs := { s.regs with shadow := imagePut a (v &&& maskOf a) s.regs.shadow } } := by
    rw [regWriteAll_cfg hl (by simpa using ⟨h4, hk⟩)]
    exact congrArg _ (writeWord_cfg hk v s)
  exact ⟨_, hostCmd_replies h hw1, replied_answered rfl, by simp, fun b hb => by simp [hb], by simp, by simp,
    fun b hb => hw_answered hb⟩

theorem regWriteBlock_cfg {s : State} {n a : Nat} {v w : Word} (h : HostTurn s n 0x0103 4 false) (hl : s.slc.lease = some n)
    (h4 : a % 4 = 0) (hk : clsOf a = some .cfg) (hk' : clsOf (a + 4) = some .cfg) :
    ∃ t, exec (.regWriteBlock n a [v, w]) s = .next t ∧ Replied n 0x0103 stOK [] s t ∧
      imageGet t.regs.shadow a = v &&& maskOf a ∧ imageGet t.regs.shadow (a + 4) = w &&& maskOf (a + 4) ∧
      t.regs.active = s.regs.active := by
  have hw1 : regWriteAll n 0x0103 [(a, v), (a + 4, w)] s = answer n 0x0103 stOK [] { s with regs := { s.regs with
      shadow := imagePut (a + 4) (w &&& maskOf (a + 4)) (imagePut a (v &&& maskOf a) s.regs.shadow) } } := by
    rw [regWriteAll_cfg hl (by simp [hk, hk']; omega)]
    exact congrArg _ (by simp only [each, List.foldl_cons, List.foldl_nil, writeWord_cfg hk, writeWord_cfg hk'])
  exact ⟨_, hostCmd_replies h hw1, replied_answered rfl, by simp, by simp, by simp⟩

/-- Settles O27, from what each class of word does with a value. -/
theorem registerWrites : Obligations.RegisterWrites := by
  unfold Obligations.RegisterWrites
  refine ⟨fun s n a v h hl h4 hk => regWrite_cfg h hl h4 hk, fun s n a v h hn h4 hk hv => ?_,
    fun s n a v k h h4 hk hc => hostCmd_answers h (regWriteAll_discards h4 hk hc),
    fun s n a v w h hl h4 hk hk' => regWriteBlock_cfg h hl h4 hk hk'⟩
  exact hostCmd_answers h (regWriteAll_notOwner (by simpa using badWord_eq_false h4 hk) hn
    ⟨(a, v), by simp, by simpa [wouldChange, hk] using hv⟩)

/-! ### STS_CLEAR -/

/-- The state after the clear of a sts register. -/
def stsCleared (a : Nat) (m : BitVec 24) (s : State) : State :=
  let s := setHw a ((hw s a &&& ~~~(m.setWidth 32)) ||| stsStays s a) s
  { s with regs := { s.regs with laps := smDel a s.regs.laps } }

theorem stsClear_clears {s : State} {n a : Nat} {q : BitVec 8} {m : BitVec 24} (h : HostTurn s n 0x0104 4 false)
    (h4 : a % 4 = 0) (hk : clsOf a = some .sts) (hq : fld (hw s a) 24 8 = q.toNat)
    (hb : bit (hw s a) 23 = false ∨ m.getLsbD 23 = true) (ha : offLedger a) :
    ∃ t, exec (.stsClear n a q m) s = .next t ∧ Replied n 0x0104 stOK [] s t ∧
      hw t a = (hw s a &&& ~~~(m.setWidth 32)) ||| stsStays s a ∧ (∀ b, offLedger b → b ≠ a → hw t b = hw s b) ∧
      smGet 0 a t.regs.laps = 0 ∧ t.regs.active = s.regs.active ∧ t.slc.lease = s.slc.lease := by
  have hbody : (fun s => if badWord a ∨ clsOf a ≠ some .sts then answer n 0x0104 stBusError (le 4 a) s
      else if fld (hw s a) 24 8 = q.toNat ∧ (!bit (hw s a) 23 ∨ m.getLsbD 23) then answer n 0x0104 stOK [] (stsCleared a m s)
      else answer n 0x0104 stStaleClear (wordBytes (hw s a)) s) s = answer n 0x0104 stOK [] (stsCleared a m s) := by
    have hok : ¬ (badWord a = true ∨ clsOf a ≠ some .sts) := by simp [badWord_eq_false h4 hk, hk]
    exact (if_neg hok).trans (if_pos ⟨hq, by simpa using hb⟩)
  exact ⟨_, hostCmd_replies h hbody, replied_answered rfl, (hw_answered ha).trans (hw_setHw_same ..),
    fun b hb hne => (hw_answered hb).trans (hw_setHw_ne _ hne _), by simp [stsCleared], by simp [stsCleared], by simp [stsCleared]⟩

/-- Settles O28. -/
theorem statusClears : Obligations.StatusClears := by
  unfold Obligations.StatusClears
  refine ⟨fun s n a q m h h4 hk hq hb ha => stsClear_clears h h4 hk hq hb ha, fun s n a q m h h4 hk hq => ?_⟩
  exact hostCmd_answers h (by simp [badWord_eq_false h4 hk, hk, hq])

end Sys2Proof.Machine
end

section
/-! REASONING. Bits of the cmd and sts words, and the write of one cmd bit (R33, R37). -/

namespace Sys2Proof.Machine

/-! ### Bits of a word -/

theorem bit_wd {v b : Nat} (h : b < 32) : bit (wd v) b = v.testBit b := by
  unfold bit wd; rw [BitVec.getLsbD_ofNat, decide_eq_true h, Bool.true_and]

theorem testBit_setBit (v b i : Nat) : (setBit v b).testBit i = (v.testBit i || decide (b = i)) := by
  unfold setBit; rw [Nat.testBit_or, Nat.one_shiftLeft, Nat.testBit_two_pow]

theorem testBit_clrBit (v b : Nat) : (clrBit v b).testBit b = false := by
  unfold clrBit
  split
  case isTrue hb =>
    have hle : 2 ^ b ≤ v := Nat.ge_two_pow_of_testBit hb
    have hd : v / 2 ^ b = (v - 2 ^ b) / 2 ^ b + 1 := by
      rw [← Nat.add_div_right _ (by positivity), Nat.sub_add_cancel hle]
    rw [Nat.testBit_eq_decide_div_mod_eq] at hb ⊢
    simp only [decide_eq_true_eq, decide_eq_false_iff_not] at hb ⊢
    omega
  case isFalse hb => simpa using hb

theorem bit_wd_setBit {v b : Nat} (h : b < 32) : bit (wd (setBit v b)) b = true := by
  rw [bit_wd h, testBit_setBit]; simp

theorem bit_wd_clrBit {v b : Nat} (h : b < 32) : bit (wd (clrBit v b)) b = false := by rw [bit_wd h, testBit_clrBit]

/-- The count above the event bits of a sts word does not reach them. -/
theorem testBit_add_seq {i : Nat} (hi : i < 24) (x y : Nat) : (x + 2 ^ 24 * y).testBit i = x.testBit i := by
  have hx := Nat.testBit_mod_two_pow x 24 i
  have hxy := Nat.testBit_mod_two_pow (x + 2 ^ 24 * y) 24 i
  rw [Nat.add_mul_mod_self_left, hx] at hxy
  simpa [hi] using hxy.symm

theorem testBit_fld_low {i : Nat} (hi : i < 24) (w : Word) : (fld w 0 24).testBit i = bit w i := by
  unfold fld
  rw [Nat.shiftRight_zero, Nat.testBit_mod_two_pow, decide_eq_true hi, Bool.true_and]
  rfl

/-- The bits of a sts word after an event: those before it, LAPPED after 255 laps, and that of the event. -/
theorem bit_afterEvent_eq {i : Nat} (hi : i < 24) (s : State) (a e : Nat) : bit (afterEvent s a e) i =
    (bit (hw s a) i || (if 256 ≤ smGet 0 a s.regs.laps + 1 then 0x800000 else 0).testBit i || decide (e = i)) := by
  unfold afterEvent
  rw [bit_wd (by omega), testBit_add_seq hi, testBit_setBit, Nat.testBit_or, testBit_fld_low hi]

/-- An event keeps the bits that are set. -/
theorem bit_afterEvent_of_bit {s : State} {a e i : Nat} (hi : i < 24) (h : bit (hw s a) i = true) :
    bit (afterEvent s a e) i = true := by
  rw [bit_afterEvent_eq hi, h, Bool.true_or, Bool.true_or]

/-- An event keeps the bits of its own register that are set, and every other register. -/
theorem bit_hw_raise_of_bit {s : State} {a b e i : Nat} (hi : i < 24) (h : bit (hw s a) i = true) :
    bit (hw (raise b e s) a) i = true := by
  by_cases hab : a = b
  · subst hab; rw [hw_raise_same]; exact bit_afterEvent_of_bit hi h
  · rw [hw_raise_ne e hab]; exact h

/-- An event is seen between any two states that read its register alike. -/
theorem Raised.congr {a e : Nat} {s u v t : State} (h : Raised a e u v) (hs : hw u a = hw s a) (ht : hw t a = hw v a) :
    Raised a e s t := by
  unfold Raised at *; rw [ht, ← hs]; exact h

/-! ### Counts -/

/-- A 64-bit count after an addition to it. -/
theorem cnt64_addCnt64_same (a n : Nat) (s : State) : cnt64 (addCnt64 a n s) a = (cnt64 s a + n) % 2 ^ 64 := by
  unfold addCnt64
  split
  case isTrue h =>
    have hl := (hw s a).isLt
    have hh := (hw s (a + 4)).isLt
    unfold cnt64
    omega
  case isFalse h =>
    have hm : (cnt64 s a + n) % 2 ^ 64 < 2 ^ 64 := Nat.mod_lt _ (by decide)
    generalize (cnt64 s a + n) % 2 ^ 64 = m at hm
    have hlow : hw (setCnt64 a m s) a = wd m := by
      unfold setCnt64; rw [hw_setHw_ne _ (by omega), hw_setHw_same]
    have hhigh : hw (setCnt64 a m s) (a + 4) = wd (m / 2 ^ 32) := hw_setHw_same ..
    rw [cnt64, hlow, hhigh, wd, wd, BitVec.toNat_ofNat, BitVec.toNat_ofNat]
    omega

/-! ### One cmd bit -/

/-- The state in which a cmd bit that is written reads 1. -/
abbrev started (a b : Nat) (s : State) : State := setHw a (wd (setBit (hw s a).toNat b)) s

theorem cmdDone_of_not_queued {a b : Nat} {again : State → State} {s : State} (h : (a, b) ∉ s.regs.cmdQueued) :
    cmdDone a b again s = setHw a (wd (clrBit (hw s a).toNat b)) s := if_neg h

/-- The lease holder's write of one bit that is clear and has no start waiting starts its action (R29, R37). -/
theorem regWriteAll_bit {s : State} {n a b : Nat} {v : Word} (hl : s.slc.lease = some n) (h4 : a % 4 = 0)
    (hk : clsOf a = some .cmd) (hs : startsOf (a, v) = [(a, b)]) (hc : bit (hw s a) b = false)
    (hq : (a, b) ∉ s.regs.cmdQueued) (hst : startState s (a, b) = false) :
    regWriteAll n 0x0101 [(a, v)] s = answer n 0x0101 stOK [] (cmdAction a b (started a b s)) := by
  rw [regWriteAll_passes (by simpa using badWord_eq_false h4 hk) (.inl hl)
    (by simpa using wouldLock_eq_false (e := (a, v)) (by simp [hk]) (by simp [hk])) (by simpa [hs] using ⟨hq, hst⟩)]
  simp [each, writeWord_cmd hk, hs, cmdStart, hc]

/-- A start is refused with STATE for RESUME_ALL and NEW_DRAM alone. -/
theorem startState_eq_false {s : State} {a b : Nat} (h : (a, b) ≠ (0xB0044, 0)) (h' : ∀ n < 9, (a, b) ≠ (memA n 0x44, 1)) :
    startState s (a, b) = false := by
  unfold startState
  rw [decide_eq_false h, Bool.false_and, Bool.false_or, List.any_eq_false]
  intro n hn
  simp [h' n (List.mem_range.mp hn)]

/-- The row of one cmd bit of the lease holder: the state it leaves, and its reply. -/
theorem bitWrite_runs {s : State} {n a b : Nat} {v : Word} (h : HostTurn s n 0x0101 4 false) (hl : s.slc.lease = some n)
    (h4 : a % 4 = 0) (hk : clsOf a = some .cmd) (hs : startsOf (a, v) = [(a, b)]) (hc : bit (hw s a) b = false)
    (hq : (a, b) ∉ s.regs.cmdQueued) (hst : startState s (a, b) = false) :
    run (bitWrite n a v) s = .next (answered s (cmdAction a b (started a b s)) n 0x0101 stOK []) :=
  hostCmd_replies h (regWriteAll_bit hl h4 hk hs hc hq hst)

/-- Without the lease a write that starts something is refused. -/
theorem bitWrite_notOwner {s : State} {n a : Nat} {v : Word} (h : HostTurn s n 0x0101 4 false) (hn : s.slc.lease ≠ some n)
    (h4 : a % 4 = 0) (hk : clsOf a = some .cmd) (hv : v &&& maskOf a ≠ 0) :
    ∃ t, run (bitWrite n a v) s = .next t ∧ Replied n 0x0101 stNotOwner [] s t ∧ OnlyReplies n s t :=
  hostCmd_answers h (regWriteAll_notOwner (by simpa using badWord_eq_false h4 hk) hn
    ⟨(a, v), by simp, by simpa [wouldChange, hk] using hv⟩)

end Sys2Proof.Machine
end

section
/-! SETTLES. RELOAD_SHADOWS, SEAL_RESCAN and the seal scans (R37, R50 to R52, R58). -/

namespace Sys2Proof.Machine

/-! ### GLB_CMD -/

theorem clsOf_glbCmd : clsOf 0x54 = some .cmd := by decide +kernel

theorem startsOf_sealRescan : startsOf (0x54, 1) = [(0x54, 0)] := by decide +kernel

theorem startsOf_reloadShadows : startsOf (0x54, 2) = [(0x54, 1)] := by decide +kernel

theorem startState_glbCmd (s : State) (b : Nat) : startState s (0x54, b) = false :=
  startState_eq_false (by simp) fun m _ => by simp [memA]; omega

theorem cmdAction_reloadShadows {s : State} (hq : (0x54, 1) ∉ s.regs.cmdQueued) : cmdAction 0x54 1 s =
    setHw 0x54 (wd (clrBit (hw s 0x54).toNat 1)) (reloadShadows s) :=
  cmdDone_of_not_queued (s := reloadShadows s) hq

theorem reloadShadows_holder {s : State} {n : Nat} (h : HostTurn s n 0x0101 4 false) (hl : s.slc.lease = some n)
    (hc : bit (hw s 0x54) 1 = false) (hq : (0x54, 1) ∉ s.regs.cmdQueued) :
    ∃ t, exec (.reloadShadows n) s = .next t ∧ t.regs.shadow = s.regs.committed ∧ t.slc.lease = s.slc.lease ∧
      t.commits = s.commits ∧ t.regs.active = s.regs.active ∧ t.regs.committed = s.regs.committed ∧
      Replied n 0x0101 stOK [] s t := by
  refine ⟨_, bitWrite_runs h hl (by decide) clsOf_glbCmd startsOf_reloadShadows hc hq (startState_glbCmd s 1), ?_⟩
  rw [cmdAction_reloadShadows (s := started 0x54 1 s) hq]
  exact ⟨by simp [reloadShadows], by simp [reloadShadows], by simp [reloadShadows], by simp [reloadShadows],
    by simp [reloadShadows], replied_answered (by simp [reloadShadows])⟩

/-- Settles O29. -/
theorem reloadShadows_settled : Obligations.ReloadShadows := by
  unfold Obligations.ReloadShadows
  exact ⟨fun s n h hl hc hq => reloadShadows_holder h hl hc hq,
    fun s n h hn => bitWrite_notOwner h hn (by decide) clsOf_glbCmd (by decide +kernel)⟩

/-! ### Seal scans -/

theorem scanStart_up {s : State} (h : s.boot = .up) (scheduled : Bool) : scanStart scheduled s =
    raiseIf (!scheduled) 0x2C 2 { s with sealing := { s.sealing with scan := some { scheduled, restarted := false } } } :=
  if_neg (not_not_intro h)

theorem scanStart_not_up {s : State} (h : s.boot ≠ .up) (scheduled : Bool) : scanStart scheduled s = s := if_pos h

/-- SEAL_RESCAN starts an unscheduled scan and counts its event. -/
theorem cmdAction_sealRescan {s : State} (h : s.boot = .up) : cmdAction 0x54 0 s =
    raise 0x2C 2 { s with sealing := { s.sealing with scan := some { scheduled := false, restarted := false } } } :=
  scanStart_up h false

theorem raised_sealRescan {s : State} (h : s.boot = .up) : Raised 0x2C 2 s (cmdAction 0x54 0 s) := by
  rw [cmdAction_sealRescan h]
  exact (raised_raise { s with sealing := { s.sealing with scan := some { scheduled := false, restarted := false } } }
    (by decide)).congr (by rfl) rfl

theorem hw_sealRescan_ne {s : State} (h : s.boot = .up) {a : Nat} (ha : a ≠ 0x2C) : hw (cmdAction 0x54 0 s) a = hw s a := by
  rw [cmdAction_sealRescan h, hw_raise_ne _ ha]; rfl

theorem sealRescan_holder {s : State} {n : Nat} (h : HostTurn s n 0x0101 4 false) (hl : s.slc.lease = some n)
    (hup : s.boot = .up) (hc : bit (hw s 0x54) 0 = false) (hq : (0x54, 0) ∉ s.regs.cmdQueued) :
    ∃ t, exec (.sealRescan n) s = .next t ∧ t.sealing.scan = some { scheduled := false, restarted := false } ∧
      bit (hw t 0x54) 0 = true ∧ Raised 0x2C 2 s t ∧ t.sealing.ref = s.sealing.ref ∧ Replied n 0x0101 stOK [] s t := by
  refine ⟨_, bitWrite_runs h hl (by decide) clsOf_glbCmd startsOf_sealRescan hc hq (startState_glbCmd s 0), ?_⟩
  have hup' : (started 0x54 0 s).boot = .up := hup
  refine ⟨?_, ?_, (raised_sealRescan hup').congr (hw_setHw_ne _ (by decide) s) (hw_answered (by decide)), ?_,
    replied_answered ?_⟩
  · simp [cmdAction_sealRescan hup']
  · rw [hw_answered (by decide), hw_sealRescan_ne hup' (by decide), hw_setHw_same]
    exact bit_wd_setBit (by decide)
  · simp [cmdAction_sealRescan hup']
  · simp [cmdAction_sealRescan hup']

theorem sealScanStart_idle {s : State} (hup : s.boot = .up) (hd : timerDue s tmScan 0 = true) (hs : s.sealing.scan = none) :
    exec .sealScanStart s = .next { s with
      sealing := { s.sealing with scan := some { scheduled := true, restarted := false } },
      timers := (timerGrid tmScan 0 msTicks s).timers } := by
  show execSealScanStart s = _
  unfold execSealScanStart
  rw [run_of_live (by simp [hup]), if_neg (by simp [hup, hd])]
  simp only [timerGrid, hs]
  rw [scanStart_up (by exact hup)]
  rfl

theorem sealScanStart_waits {s : State} (hup : s.boot = .up) (hd : timerDue s tmScan 0 = true)
    (hs : s.sealing.scan = some { scheduled := false, restarted := false }) :
    exec .sealScanStart s = .next { s with
      sealing := { s.sealing with waiting := true }, timers := (timerGrid tmScan 0 msTicks s).timers } := by
  show execSealScanStart s = _
  unfold execSealScanStart
  rw [run_of_live (by simp [hup]), if_neg (by simp [hup, hd])]
  simp only [timerGrid, hs]
  rfl

theorem sealScanStart_not_due {s : State} (h : s.boot ≠ .up ∨ timerDue s tmScan 0 = false) :
    exec .sealScanStart s = .next s := by
  show execSealScanStart s = _
  unfold execSealScanStart
  exact run_of_same (if_pos (by simpa using h))

/-! ### The end of a scan -/

/-- The state in which the seal of a completed scan stands and the scan counts. -/
def scanned (s : State) : State :=
  addCnt64 0x20 1 (setHw 0x1C (sealOf (scanImage s)) { s with sealing := { s.sealing with scan := none, last := scanImage s } })

/-- What follows the judgement of a scan: a queued rescan starts again or its bit clears, and a scheduled scan that waited
starts. -/
def scanNext (s : State) : State :=
  let s := if bit (hw s 0x54) 0 then cmdDone 0x54 0 (scanStart false) s else s
  if s.sealing.waiting ∧ s.sealing.scan = none then scanStart true { s with sealing := { s.sealing with waiting := false } } else s

theorem sealScanComplete_eq {s : State} {x : Scan} (hb : s.boot ≠ .held) (hx : s.sealing.scan = some x) :
    exec .sealScanComplete s = .next (restored s (scanNext (scanJudge (sealOf (scanImage s)) (scanned s)))) := by
  show execSealScanComplete s = _
  unfold execSealScanComplete
  rw [run_eq_restored hb]
  simp only [hx]
  rfl

/-! What a start of a scan keeps. -/

theorem scanStart_sealing (b : Bool) (s : State) :
    (scanStart b s).sealing = { s.sealing with scan := (scanStart b s).sealing.scan } := by
  unfold scanStart; split <;> simp

theorem hw_scanStart_ne (b : Bool) {a : Nat} (ha : a ≠ 0x2C) (s : State) : hw (scanStart b s) a = hw s a := by
  unfold scanStart
  split
  · rfl
  · cases b
    · exact hw_raise_ne 2 ha _
    · rfl

theorem bit_hw_scanStart {b : Bool} {a i : Nat} {s : State} (hi : i < 24) (h : bit (hw s a) i = true) :
    bit (hw (scanStart b s) a) i = true := by
  unfold scanStart
  split
  · exact h
  · cases b
    · exact bit_hw_raise_of_bit hi h
    · exact h

/-! What follows a judgement keeps it. -/

/-- The step of the waiting rescan. -/
def scanAgain (s : State) : State := if bit (hw s 0x54) 0 then cmdDone 0x54 0 (scanStart false) s else s

theorem scanAgain_sealing (s : State) : (scanAgain s).sealing = { s.sealing with scan := (scanAgain s).sealing.scan } := by
  unfold scanAgain cmdDone
  split
  · split
    · rw [scanStart_sealing]
    · rfl
  · rfl

theorem hw_scanAgain_ne {a : Nat} (ha : a ≠ 0x2C) (hc : a ≠ 0x54) (s : State) : hw (scanAgain s) a = hw s a := by
  unfold scanAgain cmdDone
  split
  · split
    · rw [hw_scanStart_ne _ ha]; rfl
    · exact hw_setHw_ne _ hc s
  · rfl

theorem bit_hw_scanAgain {a i : Nat} {s : State} (hi : i < 24) (hc : a ≠ 0x54) (h : bit (hw s a) i = true) :
    bit (hw (scanAgain s) a) i = true := by
  unfold scanAgain cmdDone
  split
  · split
    · exact bit_hw_scanStart hi h
    · rw [hw_setHw_ne _ hc]; exact h
  · exact h

theorem scanNext_eq (s : State) : scanNext s =
    if (scanAgain s).sealing.waiting ∧ (scanAgain s).sealing.scan = none then
      scanStart true { scanAgain s with sealing := { (scanAgain s).sealing with waiting := false } } else scanAgain s := by rfl

theorem scanNext_sealing (s : State) : (scanNext s).sealing =
    { s.sealing with scan := (scanNext s).sealing.scan, waiting := (scanNext s).sealing.waiting } := by
  rw [scanNext_eq]
  split
  · rw [scanStart_sealing, scanAgain_sealing]
  · rw [scanAgain_sealing]

theorem hw_scanNext_ne {a : Nat} (ha : a ≠ 0x2C) (hc : a ≠ 0x54) (s : State) : hw (scanNext s) a = hw s a := by
  rw [scanNext_eq]
  split
  · rw [hw_scanStart_ne _ ha]; exact hw_scanAgain_ne ha hc s
  · exact hw_scanAgain_ne ha hc s

theorem bit_hw_scanNext {a i : Nat} {s : State} (hi : i < 24) (hc : a ≠ 0x54) (h : bit (hw s a) i = true) :
    bit (hw (scanNext s) a) i = true := by
  rw [scanNext_eq]
  split
  · exact bit_hw_scanStart hi (bit_hw_scanAgain hi hc h)
  · exact bit_hw_scanAgain hi hc h

/-! The judgement. -/

theorem sealMarks_eq (s : State) : sealMarks s = { s with cis := (sealMarks s).cis } := by
  unfold sealMarks; split <;> rfl

theorem hw_sealMarks (s : State) (a : Nat) : hw (sealMarks s) a = hw s a := by rw [sealMarks_eq]; rfl

theorem scanJudge_mismatch {w : Word} {s : State} (h : w ≠ s.sealing.ref) : scanJudge w s =
    raise 0x2C 0 (addCnt 0x28 1 (sealMarks { s with sealing := { s.sealing with mismatch := true } })) := if_pos h

theorem scanJudge_sealing_mismatch {w : Word} {s : State} (h : w ≠ s.sealing.ref) :
    (scanJudge w s).sealing = { s.sealing with mismatch := true } := by
  rw [scanJudge_mismatch h, sealMarks_eq]; simp

theorem scanJudge_sealing_match {w : Word} {s : State} (h : w = s.sealing.ref) :
    (scanJudge w s).sealing = { s.sealing with mismatch := false } := by
  unfold scanJudge
  rw [if_neg (not_not_intro h)]
  split
  case isTrue => simp
  case isFalse hm => rw [← Bool.eq_false_iff.mpr hm]

theorem hw_scanJudge_ne {w : Word} {a : Nat} (ha : a ≠ 0x2C) (hc : a ≠ 0x28) (s : State) :
    hw (scanJudge w s) a = hw s a := by
  unfold scanJudge
  split
  · rw [hw_raise_ne _ ha, addCnt, hw_setHw_ne _ hc, hw_sealMarks]; rfl
  · split
    · rw [hw_raise_ne _ ha]; rfl
    · rfl

theorem hw_scanJudge_misses {w : Word} {s : State} (h : w ≠ s.sealing.ref) : hw (scanJudge w s) 0x28 = hw s 0x28 + 1 := by
  rw [scanJudge_mismatch h, hw_raise_ne _ (by decide), addCnt, hw_setHw_same, hw_sealMarks]; rfl

theorem hw_scanJudge_match {w : Word} {s : State} (h : w = s.sealing.ref) : hw (scanJudge w s) 0x28 = hw s 0x28 := by
  unfold scanJudge
  rw [if_neg (not_not_intro h)]
  split
  · rw [hw_raise_ne _ (by decide)]; rfl
  · rfl

theorem bit_hw_scanJudge {w : Word} {s : State} (h : w ≠ s.sealing.ref) : bit (hw (scanJudge w s) 0x2C) 0 = true := by
  rw [scanJudge_mismatch h]; exact (raised_raise _ (by decide)).1

/-! The seal and the count. -/

theorem scanned_sealing (s : State) : (scanned s).sealing = { s.sealing with scan := none, last := scanImage s } := by
  simp [scanned]

theorem hw_scanned_ne {a : Nat} (h1 : a ≠ 0x1C) (h2 : a ≠ 0x20) (h3 : a ≠ 0x24) (s : State) : hw (scanned s) a = hw s a := by
  unfold scanned; rw [hw_addCnt64_ne 1 h2 h3, hw_setHw_ne _ h1]; rfl

theorem hw_scanned_seal (s : State) : hw (scanned s) 0x1C = sealOf (scanImage s) := by
  unfold scanned; rw [hw_addCnt64_ne 1 (by decide) (by decide), hw_setHw_same]

theorem cnt64_scanned (s : State) : cnt64 (scanned s) 0x20 = (cnt64 s 0x20 + 1) % 2 ^ 64 := by
  unfold scanned
  rw [cnt64_addCnt64_same, cnt64, hw_setHw_ne _ (by decide), hw_setHw_ne _ (by decide)]
  rfl

/-- The completed scan: its seal stands, it counts, and its result is judged against the reference. -/
theorem sealScanComplete_judges {s : State} {x : Scan} (hb : s.boot ≠ .held) (hx : s.sealing.scan = some x) :
    ∃ t, exec .sealScanComplete s = .next t ∧
    t.sealing.last = scanImage s ∧ hw t 0x1C = sealOf (scanImage s) ∧ cnt64 t 0x20 = (cnt64 s 0x20 + 1) % 2 ^ 64 ∧
    t.sealing.ref = s.sealing.ref ∧
    (sealOf (scanImage s) ≠ s.sealing.ref → t.sealing.mismatch = true ∧ hw t 0x28 = hw s 0x28 + 1 ∧ bit (hw t 0x2C) 0 = true) ∧
    (sealOf (scanImage s) = s.sealing.ref → t.sealing.mismatch = false ∧ hw t 0x28 = hw s 0x28) := by
  have href : (scanned s).sealing.ref = s.sealing.ref := by rw [scanned_sealing]
  have h28 : hw (scanned s) 0x28 = hw s 0x28 := hw_scanned_ne (by decide) (by decide) (by decide) s
  refine ⟨_, sealScanComplete_eq hb hx, ?_⟩
  rw [restored_sealing, hw_restored, hw_restored, hw_restored, cnt64_restored, ← href, ← h28, ← cnt64_scanned,
    ← hw_scanned_seal, scanNext_sealing]
  generalize hsealed : hw (scanned s) 0x1C = w
  have hne : ∀ a, a ≠ 0x2C → a ≠ 0x54 → a ≠ 0x28 → hw (scanNext (scanJudge w (scanned s))) a = hw (scanned s) a :=
    fun a h1 h2 h3 => by rw [hw_scanNext_ne h1 h2, hw_scanJudge_ne h1 h3]
  have hcnt : cnt64 (scanNext (scanJudge w (scanned s))) 0x20 = cnt64 (scanned s) 0x20 := by
    rw [cnt64, hne _ (by decide) (by decide) (by decide), hne _ (by decide) (by decide) (by decide), cnt64]
  have h28 : hw (scanNext (scanJudge w (scanned s))) 0x28 = hw (scanJudge w (scanned s)) 0x28 :=
    hw_scanNext_ne (by decide) (by decide) _
  by_cases hm : w = (scanned s).sealing.ref
  · rw [scanJudge_sealing_match hm, hne 0x1C (by decide) (by decide) (by decide), h28, hw_scanJudge_match hm]
    exact ⟨by rw [scanned_sealing], hsealed, hcnt, rfl, fun h => absurd hm h, fun _ => ⟨rfl, rfl⟩⟩
  · rw [scanJudge_sealing_mismatch hm, hne 0x1C (by decide) (by decide) (by decide), h28, hw_scanJudge_misses hm]
    exact ⟨by rw [scanned_sealing], hsealed, hcnt, rfl,
      fun _ => ⟨rfl, rfl, bit_hw_scanNext (by decide) (by decide) (bit_hw_scanJudge hm)⟩, fun h => absurd h hm⟩

theorem sealQuery_answers {s : State} {n : Nat} {mask : BitVec 16} (h : HostTurn s n 0x0106 4 true) :
    ∃ t, exec (.sealQuery n mask) s = .next t ∧ Replied n 0x0106 stOK (wordBytes (sealOf (candidate s mask))) s t ∧
      OnlyReplies n s t ∧ t.sealing = s.sealing := by
  obtain ⟨t, ht, hr, ho⟩ := hostCmd_answers (body := fun s =>
    answer n 0x0106 stOK (wordBytes (sealOf (candidate s mask))) s) h rfl
  exact ⟨t, ht, hr, ho, by rw [ho.1]⟩

/-- Settles O30: the starts, the end and the query of seal scans, each by what it does to the sealing state. -/
theorem sealScans : Obligations.Seal := by
  unfold Obligations.Seal
  exact ⟨⟨fun s n h hl hup hc hq => sealRescan_holder h hl hup hc hq,
      fun s hup hd => ⟨sealScanStart_idle hup hd, sealScanStart_waits hup hd⟩, fun s h => sealScanStart_not_due h,
      fun s x hb hx => sealScanComplete_judges hb hx⟩,
    fun s n mask h => sealQuery_answers h⟩

end Sys2Proof.Machine
end

section
/-! SETTLES. The lease and the keepalive of a session (R41, R382, R385, R396). -/

namespace Sys2Proof.Machine

/-! ### Events from a source of their own -/

@[simp] theorem hw_raiseFrom_same (r a e : Nat) (s : State) : hw (raiseFrom r a e s) a = afterEvent s a e := by simp [raiseFrom]

@[simp] theorem hw_raiseFrom_ne (r e : Nat) {a b : Nat} (h : b ≠ a) (s : State) : hw (raiseFrom r a e s) b = hw s b := by
  simp [raiseFrom, h]

theorem raised_raiseFrom (r : Nat) {a e : Nat} (s : State) (h : e < 24) : Raised a e s (raiseFrom r a e s) :=
  (raised_raise s h).congr rfl (by simp)

/-! ### The lease moves -/

theorem leaseTo_moves {n : Nat} {l : Option Nat} {s : State} (h : s.slc.lease ≠ l) :
    leaseTo n l s = raiseFrom n 0xC0040 8 { s with slc := { s.slc with lease := l } } := if_neg h

/-- What a move of the lease leaves: the new holder, its event, and nothing of the sessions or the shadows changed. -/
theorem leaseTo_moved {n : Nat} {l : Option Nat} {s : State} (h : s.slc.lease ≠ l) :
    (leaseTo n l s).slc.lease = l ∧ Raised 0xC0040 8 s (leaseTo n l s) ∧
      (leaseTo n l s).slc.sessions = s.slc.sessions ∧ (leaseTo n l s).regs.shadow = s.regs.shadow ∧
      ∀ a, a ≠ 0xC0040 → hw (leaseTo n l s) a = hw s a := by
  rw [leaseTo_moves h]
  exact ⟨by simp, (raised_raiseFrom n _ (by decide)).congr (by rfl) rfl, by simp, by simp,
    fun a ha => (hw_raiseFrom_ne n 8 ha _).trans (by rfl)⟩

/-- The shadows hold the committed image, and SHADOWS_RELOADED is raised: what a lost lease does before it is free. -/
abbrev shadowsLost (s : State) : State := raise 0x10 4 (reloadShadows s)

/-- What a lost lease leaves. -/
theorem leaseLost_leaves {n m : Nat} {s : State} (h : s.slc.lease = some m) :
    (leaseLost n s).slc.lease = none ∧ (leaseLost n s).regs.shadow = s.regs.committed ∧ Raised 0xC0040 8 s (leaseLost n s) ∧
      Raised 0x10 4 s (leaseLost n s) ∧ (leaseLost n s).slc.sessions = s.slc.sessions := by
  have hl : (shadowsLost s).slc.lease ≠ none := by simp [reloadShadows, h]
  obtain ⟨hlease, hev, hses, hshadow, hhw⟩ := leaseTo_moved (n := n) hl
  refine ⟨hlease, hshadow.trans (by simp [reloadShadows]), hev.congr (hw_raise_ne 4 (by decide) _) rfl,
    (raised_raise (reloadShadows s) (by decide)).congr (by rfl) (hhw 0x10 (by decide)), hses.trans (by simp [reloadShadows])⟩

theorem leaseLost_active (n : Nat) (s : State) : (leaseLost n s).regs.active = s.regs.active := by
  unfold leaseLost leaseTo; split <;> simp [reloadShadows]
theorem leaseLost_dram (n : Nat) (s : State) : (leaseLost n s).dram = s.dram := by
  unfold leaseLost leaseTo; split <;> simp [reloadShadows]
theorem leaseLost_ports (n : Nat) (s : State) : (leaseLost n s).ports = s.ports := by
  unfold leaseLost leaseTo; split <;> simp [reloadShadows]

/-! ### The rows of the lease -/

theorem leaseTake_free {s : State} {n : Nat} (h : HostTurn s n 0x0010 0 false) (hl : s.slc.lease = none) :
    ∃ t, exec (.leaseTake n) s = .next t ∧ t.slc.lease = some n ∧ Raised 0xC0040 8 s t ∧ Replied n 0x0010 stOK [] s t ∧
      t.regs.shadow = s.regs.shadow := by
  obtain ⟨hlease, hev, hses, hshadow, -⟩ := leaseTo_moved (n := n) (l := some n) (s := s) (by simp [hl])
  refine ⟨_, hostCmd_replies (u := leaseTo n (some n) s) (st := stOK) (l := []) h (by simp only [hl]), ?_⟩
  exact ⟨by simpa using hlease, hev.congr rfl (hw_answered (by decide)), replied_answered hses, by simpa using hshadow⟩

theorem leaseTake_held {s : State} {n m : Nat} (h : HostTurn s n 0x0010 0 false) (hl : s.slc.lease = some m) :
    ∃ t, exec (.leaseTake n) s = .next t ∧ Replied n 0x0010 (if m = n then stOK else stBusy) [] s t ∧ OnlyReplies n s t :=
  hostCmd_answers h (by simp only [hl])

theorem leaseHandover_holder {s : State} {n m : Nat} (h : HostTurn s n 0x0011 0 false) (hl : s.slc.lease = some n)
    (hm : m ≠ n) (ha : (ses s m).kind = .active) :
    ∃ t, exec (.leaseHandover n m) s = .next t ∧ t.slc.lease = some m ∧ Raised 0xC0040 8 s t ∧
      Replied n 0x0011 stOK [] s t ∧ t.regs.shadow = s.regs.shadow := by
  obtain ⟨hlease, hev, hses, hshadow, -⟩ := leaseTo_moved (n := n) (l := some m) (s := s) (by simp [hl, hm.symm])
  refine ⟨_, hostCmd_replies (u := leaseTo n (some m) s) h ((if_pos hl).trans (if_pos ha)), ?_⟩
  exact ⟨by simpa using hlease, hev.congr rfl (hw_answered (by decide)), replied_answered hses, by simpa using hshadow⟩

theorem leaseRelease_holder {s : State} {n : Nat} (h : HostTurn s n 0x0012 0 false) (hl : s.slc.lease = some n) :
    ∃ t, exec (.leaseRelease n) s = .next t ∧ t.slc.lease = none ∧ t.regs.shadow = s.regs.committed ∧
      Raised 0xC0040 8 s t ∧ Raised 0x10 4 s t ∧ Replied n 0x0012 stOK [] s t := by
  obtain ⟨hlease, hshadow, hev, hev', hses⟩ := leaseLost_leaves (n := n) hl
  refine ⟨_, hostCmd_replies (u := leaseLost n s) h (if_pos hl), ?_⟩
  exact ⟨by simpa using hlease, by simpa using hshadow, hev.congr rfl (hw_answered (by decide)),
    hev'.congr rfl (hw_answered (by decide)), replied_answered hses⟩

/-- A command that needs the lease is refused without it. -/
theorem hostCmd_notOwner {s : State} {n op len : Nat} {boot : Bool} {body : State → State} (h : HostTurn s n op len boot)
    (hn : s.slc.lease ≠ some n) : ∃ t, run (hostCmd n op boot true len (needLease n op body)) s = .next t ∧
      Replied n op stNotOwner [] s t ∧ OnlyReplies n s t :=
  hostCmd_answers h (if_neg hn)

/-! ### The end of a session -/

theorem rnlStop_running {c : Nat} {s : State} (h : (rch s c).state = .moving ∨ (rch s c).state = .fetch) :
    rnlStop c s = setRch c { rch s c with stop := true } s := by
  unfold rnlStop; rcases h with h | h <;> simp [h]

/-- A loop whose turns change the Runnel engine alone changes it alone. -/
theorem each_rnl {α : Type} {l : List α} {f : α → State → State} (h : ∀ x s, ∃ r, f x s = { s with rnl := r }) (s : State) :
    ∃ r, each l f s = { s with rnl := r } := by
  induction l generalizing s with
  | nil => exact ⟨s.rnl, rfl⟩
  | cons x l ih =>
    obtain ⟨r, hr⟩ := h x s
    obtain ⟨r', hr'⟩ := ih (f x s)
    exact ⟨r', hr'.trans (by rw [hr])⟩

/-- The stops of a session change the Runnel engine alone. -/
theorem rnlStopSession_rnl (n : Nat) (s : State) : ∃ r, rnlStopSession n s = { s with rnl := r } := by
  refine each_rnl (fun c t => ?_) s
  split
  case isTrue h => exact ⟨_, rnlStop_running h.2⟩
  case isFalse => exact ⟨t.rnl, rfl⟩

/-- The state of a session's close before its events: its lease lost, its channels stopped, its slot free, its latches and
snapshot waits dropped. -/
def sessionDropped (n : Nat) (s : State) : State :=
  let s := if s.slc.lease = some n then leaseLost n s else s
  let s := setSes n {} (rnlStopSession n s)
  let s := { s with regs := { s.regs with latch := s.regs.latch.filter fun (k, _) => decide (k / 2 ^ 32 ≠ n) } }
  { s with lgr := { s.lgr with snapWait := s.lgr.snapWait.filter fun (m, _) => decide (m ≠ n) } }

theorem closeSession_late {n : Nat} {s : State} (h : (ses s n).kind ≠ .free) :
    closeSession n true s = raiseFrom n 0xC0040 2 (raiseFrom n 0xC0040 1 (sessionDropped n s)) := by
  unfold closeSession sessionDropped
  simp only [if_neg h, if_true]

/-- What the close of a session leaves. -/
theorem sessionDropped_leaves (n : Nat) (s : State) :
    (ses (sessionDropped n s) n).kind = .free ∧ (∀ m, m ≠ n → ses (sessionDropped n s) m = ses s m) ∧
      (s.slc.lease = some n → (sessionDropped n s).slc.lease = none ∧ (sessionDropped n s).regs.shadow = s.regs.committed) ∧
      (s.slc.lease ≠ some n → (sessionDropped n s).slc.lease = s.slc.lease ∧
        (sessionDropped n s).regs.shadow = s.regs.shadow) ∧
      (sessionDropped n s).regs.active = s.regs.active ∧ (sessionDropped n s).dram = s.dram ∧
      (sessionDropped n s).ports = s.ports := by
  unfold sessionDropped
  generalize hu : (if s.slc.lease = some n then leaseLost n s else s) = u
  obtain ⟨r, hr⟩ := rnlStopSession_rnl n u
  dsimp only
  rw [hr]
  have hses : ∀ m, m ≠ n → ses (setSes n {} { u with rnl := r }) m = ses u m := fun m hm => ses_setSes_ne {} hm _
  by_cases hl : s.slc.lease = some n
  · rw [if_pos hl] at hu
    subst hu
    obtain ⟨hlease, hshadow, -, -, hsess⟩ := leaseLost_leaves (n := n) hl
    refine ⟨by simp [ses, setSes], fun m hm => ?_, fun _ => ⟨hlease, hshadow⟩, fun h => absurd hl h, leaseLost_active n s,
      leaseLost_dram n s, leaseLost_ports n s⟩
    exact (hses m hm).trans (by simp [ses, hsess])
  · rw [if_neg hl] at hu
    subst hu
    exact ⟨by simp [ses, setSes], hses, fun h => absurd h hl, fun _ => ⟨rfl, rfl⟩, rfl, rfl, rfl⟩

theorem ses_raiseFrom (r a e n : Nat) (s : State) : ses (raiseFrom r a e s) n = ses s n := by simp [ses]

/-- The keepalive time of an open session has run out and no life-cycle advance of it runs. -/
theorem keepaliveExpiry_closes {s : State} {n : Nat} (hb : s.boot ≠ .held) (hk : (ses s n).kind ≠ .free)
    (hw : ∀ g, (ses s n).wait ≠ some (.lifecycle g)) (h0 : keepaliveLeft s n = 0) :
    exec (.keepaliveExpiry n) s =
      .next (restored s (raiseFrom n 0xC0040 2 (raiseFrom n 0xC0040 1 (sessionDropped n s)))) := by
  show execKeepaliveExpiry n s = _
  unfold execKeepaliveExpiry
  rw [run_eq_restored hb, ← closeSession_late hk]
  split
  case h_1 g hg => exact absurd hg (hw g)
  case h_2 => rw [if_pos h0]

theorem keepaliveExpiry_early {s : State} {n : Nat} (hw : ∀ g, (ses s n).wait ≠ some (.lifecycle g))
    (h0 : keepaliveLeft s n ≠ 0) : exec (.keepaliveExpiry n) s = .next s := by
  show execKeepaliveExpiry n s = _
  unfold execKeepaliveExpiry
  refine run_of_same ?_
  split
  case h_1 g hg => exact absurd hg (hw g)
  case h_2 => exact if_neg h0

theorem keepaliveExpiry_leaves {s : State} {n : Nat} (hb : s.boot ≠ .held) (hk : (ses s n).kind ≠ .free)
    (hw1 : ∀ g, (ses s n).wait ≠ some (.lifecycle g)) (h0 : keepaliveLeft s n = 0) :
    ∃ t, exec (.keepaliveExpiry n) s = .next t ∧ (ses t n).kind = .free ∧ (∀ m, m ≠ n → ses t m = ses s m) ∧
      bit (hw t 0xC0040) 1 = true ∧ bit (hw t 0xC0040) 2 = true ∧
      (s.slc.lease = some n → t.slc.lease = none ∧ t.regs.shadow = s.regs.committed) ∧
      (s.slc.lease ≠ some n → t.slc.lease = s.slc.lease ∧ t.regs.shadow = s.regs.shadow) ∧
      t.regs.active = s.regs.active ∧ t.dram = s.dram ∧ t.ports = s.ports := by
  obtain ⟨hfree, hses, hheld, hother, hactive, hdram, hports⟩ := sessionDropped_leaves n s
  refine ⟨_, keepaliveExpiry_closes hb hk hw1 h0, ?_⟩
  simp only [ses_restored, hw_restored, restored_slc, restored_regs, restored_dram, restored_ports, ses_raiseFrom,
    raiseFrom_slc, raiseFrom_shadow, raiseFrom_active, raiseFrom_dram, raiseFrom_ports, hw_raiseFrom_same]
  exact ⟨hfree, hses, bit_afterEvent_of_bit (by decide) (by rw [hw_raiseFrom_same]; exact bit_afterEvent _ _ (by decide)),
    bit_afterEvent _ _ (by decide), hheld, hother, hactive, hdram, hports⟩

/-- Settles O25. -/
theorem lease : Obligations.Lease := by
  unfold Obligations.Lease
  exact ⟨⟨fun s n h hl => leaseTake_free h hl, fun s n m h hl => leaseTake_held h hl,
    fun s n m h hl hm ha => leaseHandover_holder h hl hm ha, fun s n h hl => leaseRelease_holder h hl,
    fun s n m h hn => hostCmd_notOwner h hn, fun s n h hn => hostCmd_notOwner h hn⟩,
    fun s n hb hk hw => ⟨keepaliveExpiry_early hw, keepaliveExpiry_leaves hb hk hw⟩⟩

end Sys2Proof.Machine
end

section
/-! SETTLES. RESUME_ALL, SEAL_NOW and SNAP (R37, R272, R359, R404, R405). -/

namespace Sys2Proof.Machine

/-! ### RESUME_ALL -/

theorem clsOf_sptCmd : clsOf 0xB0044 = some .cmd := by decide +kernel
theorem startsOf_sptCmd : startsOf (0xB0044, 1) = [(0xB0044, 0)] := by decide +kernel

theorem startState_resumeAll {s : State} (h : s.pins.haltN = true) : startState s (0xB0044, 0) = false := by
  unfold startState
  rw [h, Bool.not_true, Bool.and_false, Bool.false_or, List.any_eq_false]
  intro m _
  simp

theorem cmdAction_resumeAll {s : State} (hq : (0xB0044, 0) ∉ s.regs.cmdQueued) : cmdAction 0xB0044 0 s =
    setHw 0xB0044 (wd (clrBit (hw (resumeAll s) 0xB0044).toNat 0)) (resumeAll s) :=
  cmdDone_of_not_queued (s := resumeAll s) (by unfold resumeAll; simpa using hq)

theorem resumeAll_streams (s : State) : (resumeAll s).spt.haltAll = false ∧ (resumeAll s).spt.haltEx = [] := by
  unfold resumeAll; simp

theorem resumeAll_runs {s : State} {n : Nat} (h : HostTurn s n 0x0101 4 false) (hl : s.slc.lease = some n)
    (hc : bit (hw s 0xB0044) 0 = false) (hq : (0xB0044, 0) ∉ s.regs.cmdQueued) (hp : s.pins.haltN = true) :
    ∃ t, exec (.resumeAllBit n) s = .next t ∧ (∀ k, streamHalted t k = false) ∧ bit (hw t 0xB0044) 0 = false ∧
      Replied n 0x0101 stOK [] s t := by
  refine ⟨_, bitWrite_runs h hl (by decide) clsOf_sptCmd startsOf_sptCmd hc hq (startState_resumeAll hp), ?_⟩
  rw [cmdAction_resumeAll (s := started 0xB0044 0 s) hq]
  obtain ⟨hall, hex⟩ := resumeAll_streams (started 0xB0044 0 s)
  refine ⟨fun k => ?_, ?_, replied_answered (by simp [resumeAll])⟩
  · simp [streamHalted, hall, hex]
  · rw [hw_answered (by decide), hw_setHw_same]; exact bit_wd_clrBit (by decide)

/-! ### SEAL_NOW -/

theorem clsOf_cisCmd : clsOf 0x70044 = some .cmd := by decide +kernel
theorem startsOf_cisCmd : startsOf (0x70044, 1) = [(0x70044, 0)] := by decide +kernel

theorem startState_sealNow (s : State) : startState s (0x70044, 0) = false :=
  startState_eq_false (by simp) fun m _ => by simp

theorem sealNow_early {s : State} {n : Nat} (h : HostTurn s n 0x0101 4 false) (hl : s.slc.lease = some n)
    (hc : bit (hw s 0x70044) 0 = false) (hq : (0x70044, 0) ∉ s.regs.cmdQueued) (he : sealSpaced s = false) :
    ∃ t, exec (.sealNow n) s = .next t ∧ t.cis = { s.cis with nowWait := true } ∧ bit (hw t 0x70044) 0 = true ∧
      Replied n 0x0101 stOK [] s t := by
  refine ⟨_, bitWrite_runs h hl (by decide) clsOf_cisCmd startsOf_cisCmd hc hq (startState_sealNow s), ?_⟩
  have hact : cmdAction 0x70044 0 (started 0x70044 0 s) =
      { started 0x70044 0 s with cis := { s.cis with nowWait := true } } :=
    if_neg (by rw [show sealSpaced (started 0x70044 0 s) = sealSpaced s by rfl, he]; simp)
  rw [hact]
  refine ⟨by simp, ?_, replied_answered (by simp)⟩
  rw [hw_answered (by decide), show hw { started 0x70044 0 s with cis := { s.cis with nowWait := true } } 0x70044
    = hw (started 0x70044 0 s) 0x70044 by rfl, hw_setHw_same]
  exact bit_wd_setBit (by decide)

/-! What the next epoch and the spending of a leaf leave alone. -/

theorem otpDefer_keeps (s : State) : (otpDefer s).cis = s.cis ∧ (otpDefer s).slc = s.slc ∧
    (otpDefer s).regs.cmdQueued = s.regs.cmdQueued := by
  unfold otpDefer; split <;> simp

theorem lmsTake_keeps (s : State) : (lmsTake s).cis = s.cis ∧ (lmsTake s).slc = s.slc ∧
    (lmsTake s).regs.cmdQueued = s.regs.cmdQueued := by
  unfold lmsTake; simp [otpSet]

theorem lmsStart_keeps (s : State) : (lmsStart s).cis = s.cis ∧ (lmsStart s).slc = s.slc ∧
    (lmsStart s).regs.cmdQueued = s.regs.cmdQueued := by
  unfold lmsStart
  split
  · simp
  · dsimp only
    split
    · exact otpDefer_keeps _
    · exact lmsTake_keeps _

theorem lmsSpend_keeps (s : State) : (lmsSpend s).cis = s.cis ∧ (lmsSpend s).slc = s.slc ∧
    (lmsSpend s).regs.cmdQueued = s.regs.cmdQueued := by
  unfold lmsSpend
  dsimp only
  split
  · split
    · simp
    · obtain ⟨hcis, hslc, hcmd⟩ := lmsStart_keeps (addCnt64 0xE0050 1 { s with sec := { s.sec with lmsLeft := s.sec.lmsLeft - 1 } })
      exact ⟨hcis.trans (by simp), hslc.trans (by simp), hcmd.trans (by simp)⟩
  · simp

/-- A seal is made: it takes the next number and the second after it begins. -/
theorem makeSeal_makes (demand : Bool) (s : State) : (makeSeal demand s).cis.sealNo = s.cis.sealNo + 1 ∧
    (makeSeal demand s).cis.sealAt = some s.cnt.ticks ∧ (makeSeal demand s).slc = s.slc ∧
    (makeSeal demand s).regs.cmdQueued = s.regs.cmdQueued := by
  unfold makeSeal
  extract_lets rs ecdsaOnly no signed lms record t s1 s2 s3 s4 s5 s6 s7
  have h1 : s1.cnt = s.cnt ∧ s1.slc = s.slc ∧ s1.regs = s.regs :=
    ⟨each_keeps (·.cnt) (fun _ _ => by rfl) s, each_keeps (·.slc) (fun _ _ => by rfl) s, each_keeps (·.regs) (fun _ _ => by rfl) s⟩
  obtain ⟨hcnt, hslc, hregs⟩ := h1
  have h7 : s7.cis.sealNo = s.cis.sealNo + 1 ∧ s7.cis.sealAt = some s.cnt.ticks ∧ s7.slc = s.slc ∧
      s7.regs.cmdQueued = s.regs.cmdQueued := by
    simp [s7, s6, s5, s4, s3, s2, sealTimed, no, hcnt, hslc, hregs]
  split
  · exact h7
  · obtain ⟨hcis, hslc', hcmd⟩ := lmsSpend_keeps s7
    rw [hcis, hslc', hcmd]
    exact h7

theorem sealNow_makes {s : State} {n : Nat} (h : HostTurn s n 0x0101 4 false) (hl : s.slc.lease = some n)
    (hc : bit (hw s 0x70044) 0 = false) (hq : (0x70044, 0) ∉ s.regs.cmdQueued) (he : sealSpaced s = true)
    (hleaf : lmsExhausted s = true ∨ (0 < s.sec.lmsLeft ∧ s.cis.sealWait = [] ∧ s.sec.lmsGen = false)) :
    ∃ t, exec (.sealNow n) s = .next t ∧ t.cis.sealNo = s.cis.sealNo + 1 ∧ t.cis.sealAt = some s.cnt.ticks ∧
      Replied n 0x0101 stOK [] s t := by
  refine ⟨_, bitWrite_runs h hl (by decide) clsOf_cisCmd startsOf_cisCmd hc hq (startState_sealNow s), ?_⟩
  obtain ⟨hno, hat, hslc, hcmd⟩ := makeSeal_makes true (started 0x70044 0 s)
  have hq' : (0x70044, 0) ∉ (makeSeal true (started 0x70044 0 s)).regs.cmdQueued := by rw [hcmd]; exact hq
  have hact : cmdAction 0x70044 0 (started 0x70044 0 s) = sealMade .cmd (makeSeal true (started 0x70044 0 s)) :=
    (if_pos he).trans (if_pos (by rw [show lmsExhausted (started 0x70044 0 s) = lmsExhausted s by rfl]; simpa using hleaf))
  rw [hact, sealMade, cmdDone_of_not_queued hq']
  exact ⟨by simpa using hno, by simpa using hat, replied_answered (by simp [hslc])⟩

/-! ### SNAP -/

theorem clsOf_lgrCmd : clsOf 0xD0044 = some .cmd := by decide +kernel
theorem startsOf_lgrCmd : startsOf (0xD0044, 1) = [(0xD0044, 0)] := by decide +kernel

theorem startState_snap (s : State) : startState s (0xD0044, 0) = false :=
  startState_eq_false (by simp) fun m _ => by simp

theorem snapFreeze_no (s : State) : (snapFreeze s).no = s.lgr.snapNo + 1 := by rfl

theorem snapTake_lgr (s : State) : (snapTake s).lgr = { s.lgr with snapNo := s.lgr.snapNo + 1, snaps := snapFreeze s :: snapKeep s } := by rfl

/-- SNAP with a free buffer: the next image is the command's, and nothing but the snapshots changes. -/
theorem snapCommand_takes {s : State} (h : snapRoom s = true) : snapCommand s = { s with lgr := { s.lgr with
    snapNo := s.lgr.snapNo + 1, snaps := snapFreeze s :: snapKeep s, snapCmd := some (s.lgr.snapNo + 1) } } := if_pos h

theorem snap_takes {s : State} {n : Nat} (h : HostTurn s n 0x0101 4 false) (hl : s.slc.lease = some n)
    (hc : bit (hw s 0xD0044) 0 = false) (hq : (0xD0044, 0) ∉ s.regs.cmdQueued) (hr : snapRoom s = true) :
    ∃ t, exec (.snap n) s = .next t ∧ t.lgr.snapNo = s.lgr.snapNo + 1 ∧ t.lgr.snapCmd = some (s.lgr.snapNo + 1) ∧
      (t.lgr.snaps.head?.map (·.no)) = some (s.lgr.snapNo + 1) ∧ bit (hw t 0xD0044) 0 = true ∧ Replied n 0x0101 stOK [] s t := by
  refine ⟨_, bitWrite_runs h hl (by decide) clsOf_lgrCmd startsOf_lgrCmd hc hq (startState_snap s), ?_⟩
  have hact : cmdAction 0xD0044 0 (started 0xD0044 0 s) = snapCommand (started 0xD0044 0 s) := by rfl
  have hhw : hw (snapCommand (started 0xD0044 0 s)) 0xD0044 = hw (started 0xD0044 0 s) 0xD0044 := by
    rw [snapCommand_takes (s := started 0xD0044 0 s) hr]; rfl
  rw [hact, answered_lgr, hw_answered (by decide), hhw, hw_setHw_same, snapCommand_takes (s := started 0xD0044 0 s) hr]
  exact ⟨rfl, rfl, by simp [snapFreeze_no], bit_wd_setBit (by decide), replied_answered (by simp)⟩

/-- Settles O36. -/
theorem streamAndLedgerBits : Obligations.StreamAndLedgerBits := by
  unfold Obligations.StreamAndLedgerBits
  exact ⟨fun s n h hl hc hq hp => resumeAll_runs h hl hc hq hp, fun s n h hl hc hq he => sealNow_early h hl hc hq he,
    fun s n h hl hc hq he hleaf => sealNow_makes h hl hc hq he hleaf, fun s n h hl hc hq hr => snap_takes h hl hc hq hr⟩

end Sys2Proof.Machine
end

section
/-! SETTLES. MEM_SPARE, RETRAIN, NEW_DRAM and STOP of RNL_CMD (R37, R280, R305, R312, R333). -/

namespace Sys2Proof.Machine

/-! ### MEM_SPARE -/

theorem clsOf_memSpare : clsOf 0x80808 = some .once := by decide +kernel
theorem maskOf_memSpare : maskOf 0x80808 = 15 := by decide +kernel

theorem otpDefer_sec (s : State) : (otpDefer s).sec = s.sec := by unfold otpDefer; split <;> simp

/-- The write of a once word asks the OTP for the inverted value. -/
theorem writeWord_once {a : Nat} {v : Word} {s : State} (h : clsOf a = some .once) (hv : v &&& maskOf a ≠ readHw s a) :
    writeWord (a, v) s = otpRequest 0x28 [BitVec.ofNat 8 (15 - (v &&& maskOf a).toNat % 16)] s := by
  simp [writeWord, h, hv]

/-- A request of one byte that is not zero is one object on the list. -/
theorem otpRequest_one {a : Nat} {b : Byte} {s : State} (h : b ≠ 0) :
    otpRequest a [b] s = otpDefer { s with sec := { s.sec with otpQueue := s.sec.otpQueue ++ [[(a, b)]] } } := by
  have hb : ¬ b = 0#8 := h
  simp [otpRequest, hb]

/-- The inverted value of MEM_SPARE has a bit to program unless all four are 1. -/
theorem memSpare_inverted_ne_zero {v : Word} (h : v &&& maskOf 0x80808 ≠ 15) :
    BitVec.ofNat 8 (15 - (v &&& maskOf 0x80808).toNat % 16) ≠ 0 := by
  rw [maskOf_memSpare] at h ⊢
  have hlt : (v &&& 15).toNat ≤ 15 := by rw [BitVec.toNat_and]; exact Nat.and_le_right
  have hne : (v &&& 15).toNat ≠ 15 := fun he => h (BitVec.eq_of_toNat_eq he)
  generalize (v &&& 15).toNat = x at hlt hne
  intro h0
  have hz : (15 - x % 16) % 2 ^ 8 = 0 := congrArg BitVec.toNat h0
  omega

theorem memSpare_write {s : State} {n : Nat} {v : Word} (h : HostTurn s n 0x0101 4 false) (hl : s.slc.lease = some n)
    (hc : lifecycle s = 1) (hr : readHw s 0x80808 = 15) (hv : v &&& maskOf 0x80808 ≠ 15) :
    ∃ t, exec (.memSpareWrite n v) s = .next t ∧
      t.sec.otpQueue = s.sec.otpQueue ++ [[(0x28, BitVec.ofNat 8 (15 - (v &&& maskOf 0x80808).toNat % 16))]] ∧
      Replied n 0x0101 stOK [] s t := by
  have hlock : wouldLock s (0x80808, v) = false := by simp [wouldLock, clsOf_memSpare, onceLocked, hr, hc]
  have hw1 : regWriteAll n 0x0101 [(0x80808, v)] s = answer n 0x0101 stOK []
      (otpRequest 0x28 [BitVec.ofNat 8 (15 - (v &&& maskOf 0x80808).toNat % 16)] s) := by
    rw [regWriteAll_passes (by simpa using badWord_eq_false (by decide) clsOf_memSpare) (.inl hl) (by simpa using hlock)
      (by simp [startsOf, clsOf_memSpare])]
    exact congrArg _ (writeWord_once clsOf_memSpare (by rw [hr]; exact hv))
  refine ⟨_, hostCmd_replies h hw1, ?_⟩
  rw [otpRequest_one (memSpare_inverted_ne_zero hv)]
  exact ⟨by rw [answered_sec, otpDefer_sec], replied_answered (congrArg _ (otpDefer_keeps _).2.1)⟩

/-! ### RETRAIN and NEW_DRAM -/

theorem clsOf_memCmd (c : Fin 9) : clsOf (memA c 0x44) = some .cmd := by revert c; decide +kernel
theorem startsOf_retrain (c : Fin 9) : startsOf (memA c 0x44, 1) = [(memA c 0x44, 0)] := by revert c; decide +kernel
theorem startsOf_newDram (c : Fin 9) : startsOf (memA c 0x44, 2) = [(memA c 0x44, 1)] := by revert c; decide +kernel

theorem memCmd_aligned (c : Fin 9) : memA c 0x44 % 4 = 0 := by unfold memA; omega

theorem offLedger_memCmd (c : Fin 9) : offLedger (memA c 0x44) := by unfold memA offLedger; omega

/-- The channel that a MEM_n_CMD address names. -/
theorem memCmd_channel (c : Fin 9) : memA c 0x44 / 0x10000 = 8 ∧ (memA c 0x44 - 0x80000) / 0x1000 = c.val := by
  unfold memA; omega

theorem cmdAction_retrain (c : Fin 9) (s : State) : cmdAction (memA c 0x44) 0 s = retrainCommand c s := by
  obtain ⟨hblock, hchan⟩ := memCmd_channel c
  simp only [cmdAction, hblock, hchan]

theorem cmdAction_newDram (c : Fin 9) (s : State) : cmdAction (memA c 0x44) 1 s = newDramCommand c s := by
  obtain ⟨hblock, hchan⟩ := memCmd_channel c
  simp only [cmdAction, hblock, hchan]

theorem startState_retrain (c : Fin 9) (s : State) : startState s (memA c 0x44, 0) = false :=
  startState_eq_false (by unfold memA; simp; omega) fun m _ => by simp

theorem startState_newDram {c : Fin 9} {s : State} (h : chanActive s c = false) :
    startState s (memA c 0x44, 1) = false := by
  unfold startState
  rw [decide_eq_false (by simp), Bool.false_and, Bool.false_or, List.any_eq_false]
  intro m _
  by_cases hm : m = c.val
  · simp [hm, h]
  · have : memA c 0x44 ≠ memA m 0x44 := by unfold memA; omega
    simp [this]

theorem retrain_starts {s : State} {n : Nat} {c : Fin 9} (h : HostTurn s n 0x0101 4 false) (hl : s.slc.lease = some n)
    (hc : bit (hw s (memA c 0x44)) 0 = false) (hq : (memA c 0x44, 0) ∉ s.regs.cmdQueued)
    (hs : (dch s c).code = 1 ∨ (dch s c).code = 2) :
    ∃ t, exec (.retrain n c) s = .next t ∧ (dch t c).code = 7 ∧ (∀ d, d ≠ c.val → dch t d = dch s d) ∧
      Replied n 0x0101 stOK [] s t := by
  refine ⟨_, bitWrite_runs h hl (memCmd_aligned c) (clsOf_memCmd c) (startsOf_retrain c) hc hq (startState_retrain c s), ?_⟩
  have hact : retrainCommand c (started (memA c 0x44) 0 s) =
      setDch c { dch s c with code := 7, relock := false, selfRef := false } (started (memA c 0x44) 0 s) := if_pos hs
  rw [cmdAction_retrain, hact]
  exact ⟨by simp [dch, setDch], fun d hd => by simp [dch, setDch, hd], replied_answered (by simp)⟩

/-- A wear entry leaves the DRAM, the sessions and the queued starts alone. -/
theorem wearAdd_keeps (kind cause gen index : Nat) (s : State) : (wearAdd kind cause gen index s).dram = s.dram ∧
    (wearAdd kind cause gen index s).slc = s.slc ∧ (wearAdd kind cause gen index s).regs.cmdQueued = s.regs.cmdQueued := by
  unfold wearAdd otpDefer
  split
  · simp
  · split <;> simp

theorem newDram_renews {s : State} {n : Nat} {c : Fin 9} (h : HostTurn s n 0x0101 4 false) (hl : s.slc.lease = some n)
    (hc : bit (hw s (memA c 0x44)) 1 = false) (hq : (memA c 0x44, 1) ∉ s.regs.cmdQueued)
    (ha : chanActive s c = false) (hg : (dch s c).gen < 7) :
    ∃ t, exec (.newDram n c) s = .next t ∧ (dch t c).gen = (dch s c).gen + 1 ∧
      (dch t c).pprUsed = 0 ∧ (dch t c).hppr = [] ∧ (dch t c).cells = (dch s c).cells ∧ Replied n 0x0101 stOK [] s t := by
  refine ⟨_, bitWrite_runs h hl (memCmd_aligned c) (clsOf_memCmd c) (startsOf_newDram c) hc hq (startState_newDram ha), ?_⟩
  generalize hu : setDch c { dch s c with gen := (dch s c).gen + 1, pprUsed := 0, hppr := [] } (started (memA c 0x44) 1 s) = u
  have hact : newDramCommand c (started (memA c 0x44) 1 s) =
      cmdDone (memA c 0x44) 1 id (wearAdd 6 1 ((dch s c).gen + 1) c u) := by
    rw [← hu]; exact congrArg (cmdDone _ _ _) (if_pos hg)
  obtain ⟨hdram, hslc, hcmd⟩ := wearAdd_keeps 6 1 ((dch s c).gen + 1) c u
  have hq' : (memA c 0x44, 1) ∉ (wearAdd 6 1 ((dch s c).gen + 1) c u).regs.cmdQueued := by rw [hcmd, ← hu]; exact hq
  rw [cmdAction_newDram, hact, cmdDone_of_not_queued hq']
  have hd : ∀ w, dch (answered s (setHw (memA c 0x44) w (wearAdd 6 1 ((dch s c).gen + 1) c u)) n 0x0101 stOK []) c =
      { dch s c with gen := (dch s c).gen + 1, pprUsed := 0, hppr := [] } := fun w => by
    rw [dch, answered_dram, setHw_dram, hdram, ← hu]; exact dch_setDch_same ..
  rw [hd]
  exact ⟨rfl, rfl, rfl, rfl, replied_answered (by rw [setHw_slc, hslc, ← hu]; rfl)⟩

/-! ### STOP of RNL_CMD -/

theorem clsOf_rnlCmd : clsOf 0x91044 = some .cmd := by decide +kernel
theorem startsOf_rnlStop (b : Fin 8) : startsOf (0x91044, (BitVec.ofNat 8 (2 ^ b.val)).setWidth 32) = [(0x91044, b.val)] := by
  revert b; decide +kernel

theorem startState_rnlStop (b : Nat) (s : State) : startState s (0x91044, b) = false :=
  startState_eq_false (by simp) fun m hm => by unfold memA; simp; omega

theorem cmdAction_rnlStop (b : Nat) (s : State) : cmdAction 0x91044 b s = rnlStop (24 + b) s := by
  unfold cmdAction; rfl

theorem rnlCmdStop_marks {s : State} {n : Nat} {b : Fin 8} (h : HostTurn s n 0x0101 4 false) (hl : s.slc.lease = some n)
    (hc : bit (hw s 0x91044) b = false) (hq : (0x91044, b.val) ∉ s.regs.cmdQueued) (hm : (rch s (24 + b)).state = .moving) :
    ∃ t, exec (.rnlCmdStop n (BitVec.ofNat 8 (2 ^ b.val))) s = .next t ∧
      (rch t (24 + b)).stop = true ∧ (rch t (24 + b)).state = .moving ∧ Replied n 0x0101 stOK [] s t := by
  refine ⟨_, bitWrite_runs h hl (by decide) clsOf_rnlCmd (startsOf_rnlStop b) hc hq (startState_rnlStop b s), ?_⟩
  rw [cmdAction_rnlStop, rnlStop_running (s := started 0x91044 b s) (.inl hm)]
  have hr : ∀ x, rch (answered s (setRch (24 + b.val) x (started 0x91044 b s)) n 0x0101 stOK []) (24 + b) = x := fun x => by
    rw [rch, answered_rnl]; exact rch_setRch_same ..
  rw [hr]
  exact ⟨rfl, hm, replied_answered (by simp)⟩

/-- Settles O35. -/
theorem memoryBits : Obligations.MemoryBits := by
  unfold Obligations.MemoryBits
  exact ⟨fun s n v h hl hc hr hv => memSpare_write h hl hc hr hv, fun s n c h hl hc hq hs => retrain_starts h hl hc hq hs,
    fun s n c h hl hc hq ha hg => newDram_renews h hl hc hq ha hg, fun s n b h hl hc hq hm => rnlCmdStop_marks h hl hc hq hm⟩

end Sys2Proof.Machine
end

section
/-! SETTLES. QCAL, FG_CAL, ZERO_STRAIN and REPRIME (R37, R127, R135, R188). -/

namespace Sys2Proof.Machine

/-! ### Loops that reach one of their turns -/

/-- A loop over a list that holds `c` ends in `P` where the turn of `c` brings `P` about from `Q`, the other turns keep `Q`, and
every turn keeps `P`. -/
theorem each_reaches {α : Type} {P Q : State → Prop} {f : α → State → State} {c : α} {l : List α} (hc : c ∈ l)
    (hQ : ∀ d s, d ≠ c → Q s → Q (f d s)) (hset : ∀ s, Q s → P (f c s)) (hP : ∀ d s, P s → P (f d s)) {s : State} (h : Q s) :
    P (each l f s) := by
  have hkeep : ∀ (l : List α) (s : State), P s → P (each l f s) := fun l => by
    induction l with
    | nil => exact fun s h => h
    | cons d l ih => exact fun s h => ih (f d s) (hP d s h)
  induction l generalizing s with
  | nil => simp at hc
  | cons d l ih =>
    by_cases hd : d = c
    · subst hd; exact hkeep l _ (hset s h)
    · exact ih (by simpa [Ne.symm hd] using hc) (hQ d s hd h)

/-! ### What the calibration of other converters leaves -/

/-- A converter, whether a quick calibration is open, the sessions, the cmd word of the converters and its queued starts. -/
def calView (c : Nat) (s : State) : Conv × Bool × SMap Session × Word × List (Nat × Nat) :=
  (conv s c, s.cnv.qcalOpen, s.slc.sessions, hw s 0x20044, s.regs.cmdQueued)

theorem calView_setConv {c d : Nat} (h : c ≠ d) (x : Conv) (s : State) : calView c (setConv d x s) = calView c s := by
  unfold calView; rw [conv_setConv_ne x h]; rfl

theorem calView_cnvRaise (c d slice e : Nat) (s : State) : calView c (cnvRaise d slice e s) = calView c s := by
  unfold calView cnvRaise
  rw [hw_raiseFrom_ne _ _ (by decide), hw_setHw_ne _ (by decide)]
  simp [conv]

theorem calView_windowStart {c d : Nat} (h : c ≠ d) (s : State) : calView c (windowStart d s) = calView c s :=
  calView_setConv h _ s

theorem calView_qcalEnd {c d : Nat} (h : c ≠ d) (s : State) : calView c (qcalEnd d s) = calView c s := calView_setConv h _ s

theorem calView_fgLateCheck (c p : Nat) (s : State) : calView c (fgLateCheck p s) = calView c s := by
  unfold fgLateCheck
  dsimp only
  split
  · rw [calView_cnvRaise]; rfl
  · split <;> rfl

theorem calView_qcalEight {c d : Nat} (h : c ≠ d) (s : State) : calView c (qcalEight d s) = calView c s := by
  have hset := calView_setConv h { conv s d with qcal := some 0, qcalWin := true } s
  unfold qcalEight
  dsimp only
  split
  · rw [calView_windowStart h, hset]
  · split
    · rw [calView_windowStart h, hset]
    · split
      · exact hset
      · rw [calView_qcalEnd h]
        split
        · rw [calView_cnvRaise, calView_fgLateCheck, hset]
        · rw [calView_fgLateCheck, hset]

theorem calView_qcalBegin {c d : Nat} (h : c ≠ d) (s : State) : calView c (qcalBegin d s) = calView c s := by
  unfold qcalBegin
  dsimp only
  split
  · rfl
  · split
    · exact calView_qcalEight h s
    · exact calView_setConv h _ s

/-! ### QCAL -/

/-- A converter that a quick calibration takes through its steps: powered, in service and not on eight slices. -/
def Steps (x : Conv) : Prop := x.on = true ∧ x.failed = false ∧ onEight x = false

/-- A converter at the first step of its quick calibration. -/
def stepping (x : Conv) (now : Nat) : Conv := { x with qcal := some 0, qcalWin := false, spareOk := false, stepStart := now }

theorem Steps.stepping {x : Conv} (h : Steps x) (now : Nat) : Steps (stepping x now) := h

theorem qcalBegin_steps {c : Nat} {s : State} (h : Steps (conv s c)) :
    qcalBegin c s = setConv c (stepping (conv s c) s.cnt.smp) s := by
  obtain ⟨hon, hfailed, height⟩ := h
  simp [qcalBegin, hon, hfailed, height, stepping]

theorem calView_qcalBegin_steps {c : Nat} {s : State} (h : Steps (conv s c)) :
    calView c (qcalBegin c s) = (stepping (conv s c) s.cnt.smp, (calView c s).2) := by
  rw [qcalBegin_steps h]; unfold calView; rw [conv_setConv_same]; rfl

/-- What the start of a quick calibration on any converter leaves of one that goes through its steps. -/
theorem qcalBegin_keeps {c : Nat} (d : Nat) {s : State} (h : Steps (conv s c)) :
    (calView c (qcalBegin d s)).2 = (calView c s).2 ∧ Steps (conv (qcalBegin d s) c) ∧
      (d = c ∨ (conv s c).qcal = some 0 → (conv (qcalBegin d s) c).qcal = some 0) := by
  by_cases hd : d = c
  · subst hd
    have hv := calView_qcalBegin_steps h
    have hx : conv (qcalBegin d s) d = stepping (conv s d) s.cnt.smp := congrArg (·.1) hv
    exact ⟨congrArg (·.2) hv, hx ▸ h.stepping _, fun _ => by rw [hx]; rfl⟩
  · have hv := calView_qcalBegin (Ne.symm hd) s
    have hx : conv (qcalBegin d s) c = conv s c := congrArg (·.1) hv
    exact ⟨congrArg (·.2) hv, hx ▸ h, fun hq => by rw [hx]; exact hq.resolve_left hd⟩

/-- A quick calibration of some converters takes each that goes through its steps to the first. -/
theorem qcalRun_steps {c : Nat} {l : List Nat} {s : State} (hc : c ∈ l) (h : Steps (conv s c)) :
    (conv (qcalRun l s) c).qcal = some 0 ∧ (calView c (qcalRun l s)).2 = (true, (calView c s).2.2) := by
  have hmem : c ∈ l.filter fun c => (conv s c).on := List.mem_filter.mpr ⟨hc, h.1⟩
  unfold qcalRun
  rw [if_neg (List.ne_nil_of_mem hmem)]
  have hend := each_reaches (f := qcalBegin) (Q := fun t => Steps (conv t c) ∧ (calView c t).2 = (true, (calView c s).2.2))
    (P := fun t => (Steps (conv t c) ∧ (calView c t).2 = (true, (calView c s).2.2)) ∧ (conv t c).qcal = some 0) hmem
    (fun d t _ ⟨hs, hv⟩ => have ⟨hv', hs', _⟩ := qcalBegin_keeps d hs; ⟨hs', hv'.trans hv⟩)
    (fun t ⟨hs, hv⟩ => have ⟨hv', hs', hq'⟩ := qcalBegin_keeps c hs; ⟨⟨hs', hv'.trans hv⟩, hq' (.inl rfl)⟩)
    (fun d t ⟨⟨hs, hv⟩, hq⟩ => have ⟨hv', hs', hq'⟩ := qcalBegin_keeps d hs; ⟨⟨hs', hv'.trans hv⟩, hq' (.inr hq)⟩)
    (s := { s with cnv := { s.cnv with qcalOpen := true } }) ⟨h, rfl⟩
  exact ⟨hend.2, hend.1.2⟩

theorem hw_rill_ne {k n a : Nat} (h : a < 0xD3000) (s : State) : hw (rill k n s) a = hw s a := by
  unfold rill; rw [hw_addCnt64_ne n (by omega) (by omega), hw_addCnt64_ne n (by omega) (by omega)]

theorem calView_rill (c k n : Nat) (s : State) : calView c (rill k n s) = calView c s := by
  unfold calView; rw [hw_rill_ne (by decide)]; simp [conv]

theorem qcalFinish_open {again : State → State} {c d : Nat} {s : State} (hc : c < 16) (h : (conv s c).qcal ≠ none) :
    qcalFinish again d s = s := by
  have hall : ((List.range 16).all fun k => (conv s k).qcal.isNone) = false :=
    List.all_eq_false.mpr ⟨c, List.mem_range.mpr hc, by simpa using h⟩
  unfold qcalFinish
  rw [hall, Bool.and_false]
  rfl

/-- QCAL takes a powered converter that goes through its steps to the first, and is under way after it. -/
theorem qcalCommand_steps {c : Nat} {s : State} (hc : c < 16) (h : Steps (conv s c)) :
    (conv (qcalCommand s) c).qcal = some 0 ∧ (calView c (qcalCommand s)).2 = (true, (calView c s).2.2) := by
  have hv := calView_rill c 86 1 s
  have hconv : conv (rill 86 1 s) c = conv s c := congrArg (·.1) hv
  have hmem : c ∈ poweredConvs (rill 86 1 s) := by
    unfold poweredConvs
    exact List.mem_filter.mpr ⟨List.mem_range.mpr hc, by rw [hconv]; exact h.1⟩
  obtain ⟨hq, hrest⟩ := qcalRun_steps (s := rill 86 1 s) hmem (by rw [hconv]; exact h)
  have hopen : (qcalRun (poweredConvs (rill 86 1 s)) (rill 86 1 s)).cnv.qcalOpen = true := congrArg (·.1) hrest
  have hagain : qcalAgain (rill 86 1 s) = qcalRun (poweredConvs (rill 86 1 s)) (rill 86 1 s) := if_pos hopen
  have hcmd : qcalCommand s = qcalRun (poweredConvs (rill 86 1 s)) (rill 86 1 s) := by
    unfold qcalCommand qcalCheck
    rw [hagain]
    exact qcalFinish_open hc (by rw [hq]; simp)
  rw [hcmd, ← hv]
  exact ⟨hq, hrest⟩

theorem clsOf_cnvCmd : clsOf 0x20044 = some .cmd := by decide +kernel
theorem startsOf_qcal : startsOf (0x20044, 1) = [(0x20044, 0)] := by decide +kernel
theorem startsOf_fgCal : startsOf (0x20044, 2) = [(0x20044, 1)] := by decide +kernel
theorem startState_cnvCmd (b : Nat) (s : State) : startState s (0x20044, b) = false :=
  startState_eq_false (by simp) fun m _ => by unfold memA; simp; omega

theorem qcal_starts {s : State} {n c : Nat} (h : HostTurn s n 0x0101 4 false) (hl : s.slc.lease = some n)
    (hc : bit (hw s 0x20044) 0 = false) (hq : (0x20044, 0) ∉ s.regs.cmdQueued) (h16 : c < 16) (hon : (conv s c).on = true)
    (hf : (conv s c).failed = false) (h8 : onEight (conv s c) = false) :
    ∃ t, exec (.qcal n) s = .next t ∧ (conv t c).qcal = some 0 ∧ t.cnv.qcalOpen = true ∧ bit (hw t 0x20044) 0 = true ∧
      Replied n 0x0101 stOK [] s t := by
  refine ⟨_, bitWrite_runs h hl (by decide) clsOf_cnvCmd startsOf_qcal hc hq (startState_cnvCmd 0 s), ?_⟩
  have hact : cmdAction 0x20044 0 (started 0x20044 0 s) = qcalCommand (started 0x20044 0 s) := by rfl
  rw [hact]
  obtain ⟨hqcal, hrest⟩ := qcalCommand_steps (s := started 0x20044 0 s) h16 ⟨hon, hf, h8⟩
  generalize qcalCommand (started 0x20044 0 s) = u at hqcal hrest
  have hopen : u.cnv.qcalOpen = true := congrArg (·.1) hrest
  have hses : u.slc.sessions = s.slc.sessions := congrArg (·.2.1) hrest
  have hhw : hw u 0x20044 = hw (started 0x20044 0 s) 0x20044 := congrArg (·.2.2.1) hrest
  refine ⟨?_, by simpa using hopen, ?_, replied_answered hses⟩
  · rw [conv, answered_cnv]; exact hqcal
  · rw [hw_answered (by decide), hhw, hw_setHw_same]; exact bit_wd_setBit (by decide)

/-! ### FG_CAL -/

/-- One turn of FG_CAL: the converter asks for a window of the command's, and it opens. -/
theorem fgCal_turn (c d : Nat) (s : State) :
    (calView c (windowStart d (setConv d { conv s d with fgWant := true } s))).2 = (calView c s).2 ∧
    (d ≠ c → conv (windowStart d (setConv d { conv s d with fgWant := true } s)) c = conv s c) ∧
    (d = c → (conv (windowStart d (setConv d { conv s d with fgWant := true } s)) c).inWindow = true ∧
      (conv (windowStart d (setConv d { conv s d with fgWant := true } s)) c).fgWant = true) := by
  refine ⟨by rfl, fun hd => ?_, fun hd => ?_⟩
  · unfold windowStart; rw [conv_setConv_ne _ (Ne.symm hd), conv_setConv_ne _ (Ne.symm hd)]
  · subst hd; unfold windowStart; simp

/-- FG_CAL opens a window on every converter of a DIRECT lane that is on eight slices, and is under way after it. -/
theorem fgCalCommand_opens {c : Nat} {s : State} (hc : c ∈ (directLanes (cfg s)).flatMap (convsOf (cfg s)))
    (h8 : onEight (conv s c) = true) : (conv (fgCalCommand s) c).inWindow = true ∧
      (conv (fgCalCommand s) c).fgWant = true ∧ (calView c (fgCalCommand s)).2 = (calView c s).2 := by
  have hmem : c ∈ ((directLanes (cfg s)).flatMap (convsOf (cfg s))).filter fun c => onEight (conv s c) :=
    List.mem_filter.mpr ⟨hc, h8⟩
  unfold fgCalCommand
  dsimp only
  rw [if_neg (List.ne_nil_of_mem hmem), ← calView_rill c 86 1 s]
  have hend := each_reaches (f := fun d t => windowStart d (setConv d { conv t d with fgWant := true } t))
    (Q := fun t => (calView c t).2 = (calView c (rill 86 1 s)).2)
    (P := fun t => ((conv t c).inWindow = true ∧ (conv t c).fgWant = true) ∧ (calView c t).2 = (calView c (rill 86 1 s)).2)
    hmem (fun d t _ hv => (fgCal_turn c d t).1.trans hv)
    (fun t hv => ⟨(fgCal_turn c c t).2.2 rfl, (fgCal_turn c c t).1.trans hv⟩)
    (fun d t ⟨hw, hv⟩ => by
      obtain ⟨hv', hne, heq⟩ := fgCal_turn c d t
      refine ⟨?_, hv'.trans hv⟩
      by_cases hd : d = c
      · exact heq hd
      · rw [hne hd]; exact hw)
    (s := rill 86 1 s) rfl
  exact ⟨hend.1.1, hend.1.2, hend.2⟩

theorem fgCal_opens {s : State} {n c : Nat} (h : HostTurn s n 0x0101 4 false) (hl : s.slc.lease = some n)
    (hc : bit (hw s 0x20044) 1 = false) (hq : (0x20044, 1) ∉ s.regs.cmdQueued)
    (hd : c ∈ (directLanes (cfg s)).flatMap (convsOf (cfg s))) (h8 : onEight (conv s c) = true) :
    ∃ t, exec (.fgCal n) s = .next t ∧ (conv t c).inWindow = true ∧ (conv t c).fgWant = true ∧ bit (hw t 0x20044) 1 = true ∧
      Replied n 0x0101 stOK [] s t := by
  refine ⟨_, bitWrite_runs h hl (by decide) clsOf_cnvCmd startsOf_fgCal hc hq (startState_cnvCmd 1 s), ?_⟩
  have hact : cmdAction 0x20044 1 (started 0x20044 1 s) = fgCalCommand (started 0x20044 1 s) := by rfl
  rw [hact]
  obtain ⟨hwin, hwant, hrest⟩ := fgCalCommand_opens (s := started 0x20044 1 s) hd h8
  generalize fgCalCommand (started 0x20044 1 s) = u at hwin hwant hrest
  have hses : u.slc.sessions = s.slc.sessions := congrArg (·.2.1) hrest
  have hhw : hw u 0x20044 = hw (started 0x20044 1 s) 0x20044 := congrArg (·.2.2.1) hrest
  refine ⟨?_, ?_, ?_, replied_answered hses⟩
  · rw [conv, answered_cnv]; exact hwin
  · rw [conv, answered_cnv]; exact hwant
  · rw [hw_answered (by decide), hhw, hw_setHw_same]; exact bit_wd_setBit (by decide)

/-! ### PHS_n_CMD -/

/-- The launch generators, the sessions and the queued starts. -/
def phsView (s : State) : SMap Lch × SMap Session × List (Nat × Nat) := (s.lch, s.slc.sessions, s.regs.cmdQueued)

theorem phsView_blind : Blind phsView where
  put _ _ _ _ _ _ _ _ _ _ _ _ _ _ _ _ _ _ _ _ := rfl
  putPins _ _ _ _ _ := rfl
  putLgr _ _ _ := rfl
  putLaps _ _ := rfl
  of_setHw _ _ _ := rfl

/-- The acts of a port's boundary are noted in its launch generator, or done without a trace in it. -/
theorem atBoundary_leaves (p acts : Nat) (s : State) : ∃ a, phsView (atBoundary p acts s) =
    phsView (setLch p { lch s p with acts := a } s) ∨ phsView (atBoundary p acts s) = phsView s := by
  unfold atBoundary
  dsimp only
  split
  · exact ⟨0, .inr (phsView_blind.of_boundaryActs p acts s)⟩
  · exact ⟨_, .inl rfl⟩

/-- What a boundary leaves of its port's launch generator, and beside it. -/
theorem atBoundary_lch (p acts : Nat) (s : State) : (∃ a, lch (atBoundary p acts s) p = { lch s p with acts := a }) ∧
    (atBoundary p acts s).slc.sessions = s.slc.sessions ∧ (atBoundary p acts s).regs.cmdQueued = s.regs.cmdQueued := by
  obtain ⟨a, h | h⟩ := atBoundary_leaves p acts s
  · have hl : (atBoundary p acts s).lch = (setLch p { lch s p with acts := a } s).lch := congrArg (·.1) h
    refine ⟨⟨a, ?_⟩, congrArg (·.2.1) h, congrArg (·.2.2) h⟩
    rw [lch, hl]; exact lch_setLch_same ..
  · have hl : (atBoundary p acts s).lch = s.lch := congrArg (·.1) h
    refine ⟨⟨(lch s p).acts, ?_⟩, congrArg (·.2.1) h, congrArg (·.2.2) h⟩
    rw [lch, hl]; rfl

/-- ZERO_STRAIN marks the next shot, REPRIME primes every slot; neither touches what waits for the boundary. -/
theorem phsEffect_lch (p b : Nat) (s : State) : (lch (phsEffect p b s) p).cmds = (lch s p).cmds ∧
    (b = 0 → (lch (phsEffect p b s) p).zeroed = true) ∧ (b ≠ 0 → (lch (phsEffect p b s) p).prime = 15) ∧
    (phsEffect p b s).slc.sessions = s.slc.sessions ∧ (phsEffect p b s).regs.cmdQueued = s.regs.cmdQueued := by
  unfold phsEffect
  dsimp only
  split
  case isTrue hb =>
    obtain ⟨⟨a, hl⟩, hses, hcmd⟩ := atBoundary_lch p 8 (setLch p { lch s p with zeroed := true } s)
    rw [hl]
    exact ⟨by simp, fun _ => by simp, fun h => absurd hb h, hses, hcmd⟩
  case isFalse hb =>
    obtain ⟨⟨a, hl⟩, hses, hcmd⟩ := atBoundary_lch p 3 (setLch p { lch s p with prime := 15 } s)
    rw [hl]
    exact ⟨by simp, fun h => absurd h hb, fun _ => by simp, hses, hcmd⟩

/-- The address of PHS_n_CMD. -/
abbrev phsCmd (p : Nat) : Nat := 0x40084 + 0x1000 * p

theorem launching_setLch {p : Nat} {x : Lch} {s : State} (h : x.armed = (lch s p).armed) :
    launching (setLch p x s) p = launching s p := by simp [launching, h]

/-- On a port that launches a start of PHS_n_CMD waits for the shot boundary. -/
theorem phsStart_launching {p b : Nat} {s : State} (h : launching s p = true) :
    phsStart p b s = setLch p { lch s p with cmds := (lch s p).cmds ++ [b] } s := by
  unfold phsStart
  dsimp only
  rw [launching_setLch (by rfl), if_pos h]

/-- The shot boundary with one bit waiting. -/
theorem phsBoundary_one {p b : Nat} {s : State} (hc : (lch s p).cmds = [b]) (hq : (phsCmd p, b) ∉ s.regs.cmdQueued) :
    ∃ w, phsBoundary p s = setHw (phsCmd p) w (phsEffect p b (setLch p { lch s p with cmds := [] } s)) := by
  obtain ⟨-, -, -, -, hcmd⟩ := phsEffect_lch p b (setLch p { lch s p with cmds := [] } s)
  unfold phsBoundary
  dsimp only
  rw [hc]
  exact ⟨_, cmdDone_of_not_queued (by rw [hcmd]; exact hq)⟩

/-- On a port that makes no launch a start of PHS_n_CMD takes effect at once. -/
theorem phsStart_at_rest {p b : Nat} {s : State} (h : launching s p = false) (hc : (lch s p).cmds = [])
    (hq : (phsCmd p, b) ∉ s.regs.cmdQueued) : (lch (phsStart p b s) p).cmds = [] ∧
      (b = 0 → (lch (phsStart p b s) p).zeroed = true) ∧ (b ≠ 0 → (lch (phsStart p b s) p).prime = 15) ∧
      (phsStart p b s).slc.sessions = s.slc.sessions := by
  generalize hu : setLch p { lch s p with cmds := (lch s p).cmds ++ [b] } s = u
  have hstart : phsStart p b s = phsBoundary p u := by
    unfold phsStart
    dsimp only
    rw [launching_setLch (by rfl), h, hu]
    rfl
  have hucmds : (lch u p).cmds = [b] := by rw [← hu, lch_setLch_same, hc]; rfl
  obtain ⟨w, hw⟩ := phsBoundary_one (b := b) hucmds (by rw [← hu]; exact hq)
  obtain ⟨hcmds, hzero, hprime, hses, -⟩ := phsEffect_lch p b (setLch p { lch u p with cmds := [] } u)
  have hl : ∀ x : State, lch (setHw (phsCmd p) w x) p = lch x p := fun x => by simp [lch]
  rw [hstart, hw, hl]
  exact ⟨by rw [hcmds, lch_setLch_same], hzero, hprime, hses.trans (by rw [← hu]; rfl)⟩

theorem clsOf_phsCmd (p : Fin 4) : clsOf (phsCmd p) = some .cmd := by revert p; decide +kernel
theorem startsOf_zeroStrain (p : Fin 4) : startsOf (phsCmd p, 1) = [(phsCmd p, 0)] := by revert p; decide +kernel
theorem startsOf_reprime (p : Fin 4) : startsOf (phsCmd p, 2) = [(phsCmd p, 1)] := by revert p; decide +kernel
theorem startState_phsCmd (p : Fin 4) (b : Nat) (s : State) : startState s (phsCmd p, b) = false :=
  startState_eq_false (by unfold phsCmd; simp; omega) fun m _ => by unfold memA phsCmd; simp; omega

theorem cmdAction_phs (p : Fin 4) (b : Nat) (s : State) : cmdAction (phsCmd p) b s = phsStart p b s := by
  have hblock : phsCmd p / 0x10000 = 4 := by unfold phsCmd; omega
  have hport : (phsCmd p - 0x40000) / 0x1000 = p.val := by unfold phsCmd; omega
  simp only [cmdAction, hblock, hport]

section
variable {s : State} {n : Nat} {p : Fin 4} {b : Nat} {v : Word}

/-- A start of PHS_n_CMD on a port that launches. -/
theorem phsBit_launching (h : HostTurn s n 0x0101 4 false) (hl : s.slc.lease = some n)
    (hs : startsOf (phsCmd p, v) = [(phsCmd p, b)]) (hb : b < 32) (hc : bit (hw s (phsCmd p)) b = false)
    (hq : (phsCmd p, b) ∉ s.regs.cmdQueued) (hg : launching s p = true) :
    ∃ t, run (bitWrite n (phsCmd p) v) s = .next t ∧ (lch t p).cmds = (lch s p).cmds ++ [b] ∧
      bit (hw t (phsCmd p)) b = true ∧ Replied n 0x0101 stOK [] s t := by
  refine ⟨_, bitWrite_runs h hl (by unfold phsCmd; omega) (clsOf_phsCmd p) hs hc hq (startState_phsCmd p b s), ?_⟩
  rw [cmdAction_phs, phsStart_launching (s := started (phsCmd p) b s) hg]
  refine ⟨?_, ?_, replied_answered rfl⟩
  · rw [lch, answered_lch]; exact congrArg (·.cmds) (lch_setLch_same ..)
  · rw [hw_answered (by unfold offLedger phsCmd; omega)]
    exact (congrArg (bit · b) (hw_setHw_same ..)).trans (bit_wd_setBit hb)

/-- A start of PHS_n_CMD on a port that makes no launch. -/
theorem phsBit_at_rest (h : HostTurn s n 0x0101 4 false) (hl : s.slc.lease = some n)
    (hs : startsOf (phsCmd p, v) = [(phsCmd p, b)]) (hc : bit (hw s (phsCmd p)) b = false)
    (hq : (phsCmd p, b) ∉ s.regs.cmdQueued) (hg : launching s p = false) (hcmds : (lch s p).cmds = []) :
    ∃ t, run (bitWrite n (phsCmd p) v) s = .next t ∧ (lch t p).cmds = [] ∧ (b = 0 → (lch t p).zeroed = true) ∧
      (b ≠ 0 → (lch t p).prime = 15) ∧ Replied n 0x0101 stOK [] s t := by
  refine ⟨_, bitWrite_runs h hl (by unfold phsCmd; omega) (clsOf_phsCmd p) hs hc hq (startState_phsCmd p b s), ?_⟩
  rw [cmdAction_phs]
  obtain ⟨hc', hzero, hprime, hses⟩ := phsStart_at_rest (s := started (phsCmd p) b s) hg hcmds hq
  generalize phsStart p b (started (phsCmd p) b s) = u at *
  have hlch : lch (answered s u n 0x0101 stOK []) p = lch u p := by rw [lch, answered_lch]; rfl
  rw [hlch]
  exact ⟨hc', hzero, hprime, replied_answered hses⟩

end

/-- Settles O33: the calibration commands converter by converter, the phase commands by what a port's boundary does. -/
theorem converterAndPhaseBits : Obligations.ConverterAndPhaseBits := by
  unfold Obligations.ConverterAndPhaseBits
  refine ⟨⟨fun s n c h hl hc hq h16 hon hf h8 => qcal_starts h hl hc hq h16 hon hf h8,
    fun s n c h hl hc hq hd h8 => fgCal_opens h hl hc hq hd h8⟩,
    fun s n p h hl hc hq hg => phsBit_launching h hl (startsOf_zeroStrain p) (by decide) hc hq hg,
    fun s n p h hl hc hq hg hcmds => ?_,
    fun s n p h hl hc hq hg => phsBit_launching h hl (startsOf_reprime p) (by decide) hc hq hg,
    fun s n p h hl hc hq hg hcmds => ?_⟩
  · obtain ⟨t, ht, hc', hzero, -, hr⟩ := phsBit_at_rest h hl (startsOf_zeroStrain p) hc hq hg hcmds
    exact ⟨t, ht, hzero rfl, hc', hr⟩
  · obtain ⟨t, ht, hc', -, hprime, hr⟩ := phsBit_at_rest h hl (startsOf_reprime p) hc hq hg hcmds
    exact ⟨t, ht, hprime (by decide), hc', hr⟩

end Sys2Proof.Machine
end

section
/-!
REASONING. COMMIT_STROBE and what follows it (O32, R44 to R47): what a strobe leaves of the image, of the shadow and of its
counter, what it makes active, and when a commit waits.
-/

namespace Sys2Proof.Machine

/-! ### Two more views -/

/-- An event leaves the bits of the others as they are. -/
theorem bit_afterEvent_ne {s : State} {a e i : Nat} (hi : i < 23) (he : e ≠ i) :
    bit (afterEvent s a e) i = bit (hw s a) i := by
  have hlap : (if 256 ≤ smGet 0 a s.regs.laps + 1 then 0x800000 else 0).testBit i = false := by
    split
    · exact (Nat.testBit_two_pow (n := 23)).trans (decide_eq_false (by omega))
    · exact Nat.zero_testBit i
  rw [bit_afterEvent_eq (by omega), hlap, decide_eq_false he, Bool.or_false, Bool.or_false]

/-- The shadow, COMMIT_SEQ and STROBED. -/
def strobeView (s : State) : SMap Word × Word × Bool := (s.regs.shadow, hw s 0x40, bit (hw s 0x10) 0)

theorem strobeView_eq {s t : State} (hshadow : t.regs.shadow = s.regs.shadow) (hseq : hw t 0x40 = hw s 0x40)
    (hstr : bit (hw t 0x10) 0 = bit (hw s 0x10) 0) : strobeView t = strobeView s := by
  unfold strobeView; rw [hshadow, hseq, hstr]

theorem strobeView_setHw {a : Nat} (ha : a ≠ 0x40) (ha' : a ≠ 0x10) (w : Word) (s : State) :
    strobeView (setHw a w s) = strobeView s :=
  strobeView_eq rfl (hw_setHw_ne w ha.symm s) (by rw [hw_setHw_ne w ha'.symm])

theorem strobeView_view : View strobeView where
  put _ _ _ _ _ _ _ _ _ _ _ _ _ _ _ _ _ _ _ _ := rfl
  putPins _ _ _ _ _ := rfl
  putLgr _ _ _ := rfl
  putLaps _ _ := rfl
  of_setHw h := strobeView_setHw (by omega) (by omega)
  putClk _ _ _ _ _ _ _ _ _ _ _ _ _ _ _ _ _ _ _ _ _ _ := rfl
  putSlc _ _ := rfl
  putCommits _ _ _ _ := rfl
  putRegs _ _ _ := rfl
  of_raiseGlb he s := strobeView_eq (raise_shadow ..) (hw_raise_ne _ (by decide) s)
    (by rw [hw_raise_same]; exact bit_afterEvent_ne (by decide) he)
  of_overrideWords _ _ _ := (strobeView_setHw (by decide) (by decide) ..).trans (strobeView_setHw (by decide) (by decide) ..)
  congrActive _ _ _ h := h
  congrPend _ _ _ h := h

theorem strobeView_fibres : FibreView (fun _ => True) strobeView := strobeView_view.fibreView fun _ _ _ => rfl

/-- The active copy and the pending copies. -/
def copyView (s : State) : SMap Word × SMap (SMap Word) := (s.regs.active, s.regs.pend)

theorem copyView_view : View copyView where
  put _ _ _ _ _ _ _ _ _ _ _ _ _ _ _ _ _ _ _ _ := rfl
  putPins _ _ _ _ _ := rfl
  putLgr _ _ _ := rfl
  putLaps _ _ := rfl
  of_setHw _ _ _ := rfl
  putClk _ _ _ _ _ _ _ _ _ _ _ _ _ _ _ _ _ _ _ _ _ _ := rfl
  putSlc _ _ := rfl
  putCommits _ _ _ _ := rfl
  putRegs _ _ _ := rfl
  of_raiseGlb _ s := Prod.ext (raise_active s _ _) (raise_pend s _ _)
  of_overrideWords _ _ _ := rfl
  congrActive _ _ _ h := Prod.ext rfl (congrArg (·.2) h)
  congrPend _ _ _ h := Prod.ext (congrArg (·.1) h) rfl

/-- Where no copy is pending, the copies of a port change nothing. -/
theorem copyView_fibres : FibreView (·.2 = []) copyView where
  toView := copyView_view
  of_fibreApply p t s h := by
    have hp : s.regs.pend = [] := h
    rw [fibreApply_none (by rw [hp]; rfl)]

theorem View.of_noteHeld {β : Type} {g : State → β} (hg : View g) (s : State) : g (noteHeld s) = g s := by
  unfold noteHeld
  split
  · rfl
  · simp only [apply_ite g, hg.of_raiseGlb (show 6 ≠ 0 by decide), hg.putCommits, ite_self]

/-! ### A strobe -/

theorem strobeRegs_shadow {q : QCommit} (ha : q.adopt = false) (s : State) :
    (strobeRegs q s).regs.shadow = s.regs.shadow := by unfold strobeRegs; simp [ha]

theorem strobeRegs_active {q : QCommit} (ha : q.adopt = false) (s : State) :
    (strobeRegs q s).regs.active = maskMerge (strobeMask q (qMoves q s)) q.image s.regs.active := by
  unfold strobeRegs; simp [ha]

theorem strobeRegs_pend {q : QCommit} (ha : q.adopt = false) (s : State) :
    (strobeRegs q s).regs.pend = strobePend q (qMoves q s) s := by unfold strobeRegs; simp [ha]

theorem strobeRegs_hw (q : QCommit) (s : State) : (strobeRegs q s).regs.hw = s.regs.hw := by
  unfold strobeRegs; dsimp only; split <;> rfl

/-- The state to which a strobe lays the words of its commit. -/
def strobeBase (q : QCommit) (s : State) : State :=
  strobeBefore (changedWords (fallbackDrop q s).2 (strobeRegs q (fallbackDrop q s).2)) (fallbackDrop q s).2

theorem View.of_strobeBase {β : Type} {g : State → β} (hg : View g) (q : QCommit) (s : State) :
    g (strobeBase q s) = g s := (hg.of_strobeBefore ..).trans (hg.of_fallbackDrop ..)

/-- The state whose STROBED event ends the head of a strobe: the words laid and the ports' ledger ticks counted. -/
def strobeLaid (q : QCommit) (s : State) : State :=
  each ([(0, 84), (1, 80), (2, 81), (3, 82), (4, 83), (5, 84), (9, 108)].filter fun e => q.mask.getLsbD e.1)
    (fun e s => rill e.2 1 s) (strobeRegs q (strobeBase q s))

theorem strobeHead_eq (q : QCommit) (s : State) : strobeHead q s = raise 0x10 0 (addCnt 0x40 1 (strobeLaid q s)) := by rfl

theorem View.of_strobeLaid {β : Type} {g : State → β} (hg : View g) (q : QCommit) (s : State) :
    g (strobeLaid q s) = g (strobeRegs q (strobeBase q s)) := each_keeps g (fun _ _ => hg.of_rill ..) _

/-- A strobe counts in COMMIT_SEQ, sets STROBED and leaves the shadow. -/
theorem strobe_strobeView {q : QCommit} (ha : q.adopt = false) (s : State) :
    strobeView (strobe q s) = (s.regs.shadow, hw s 0x40 + 1, true) := by
  have hbase : strobeView (strobeBase q s) = strobeView s := strobeView_view.of_strobeBase q s
  have hlaid : strobeView (strobeLaid q s) = strobeView s := by
    rw [strobeView_view.of_strobeLaid, ← hbase]
    exact strobeView_eq (strobeRegs_shadow ha _) (hw_congr (strobeRegs_hw ..) _) (by rw [hw_congr (strobeRegs_hw ..)])
  rw [strobeView_fibres.of_strobe trivial, strobeHead_eq]
  have hshadow : (strobeLaid q s).regs.shadow = s.regs.shadow := congrArg (·.1) hlaid
  have hseq : hw (strobeLaid q s) 0x40 = hw s 0x40 := congrArg (·.2.1) hlaid
  unfold strobeView
  rw [raise_shadow, hw_raise_ne _ (by decide), hw_raise_same, bit_afterEvent _ _ (by decide), ← hseq, ← hshadow, addCnt,
    hw_setHw_same]
  rfl

/-- The groups of a mask without a fibre group and without the DRAM. -/
theorem getLsbD_of_plain {m : BitVec 16} (h : m &&& 0x9E = 0) {i : Nat} (hi : i = 1 ∨ i = 2 ∨ i = 3 ∨ i = 4 ∨ i = 7) :
    m.getLsbD i = false := by
  have hbit := congrArg (·.getLsbD i) h
  rcases hi with rfl | rfl | rfl | rfl | rfl <;> simpa using hbit

/-- A commit that names no fibre group and moves no DRAM is active from its strobe on where no copy is pending. -/
theorem strobe_copyView {q : QCommit} {s : State} (ha : q.adopt = false) (hm : q.mask &&& 0x9E = 0) (hp : s.regs.pend = []) :
    copyView (strobe q s) = (maskMerge (q.mask &&& 0x03E1) q.image s.regs.active, []) := by
  have hbase : copyView (strobeBase q s) = copyView s := copyView_view.of_strobeBase q s
  have hactive : (strobeBase q s).regs.active = s.regs.active := congrArg (·.1) hbase
  have hpend : (strobeBase q s).regs.pend = [] := (congrArg (·.2) hbase).trans hp
  have hmoves : qMoves q (strobeBase q s) = false := by
    unfold qMoves; rw [getLsbD_of_plain hm (by simp), Bool.and_false, Bool.false_and]
  have hhead : copyView (strobeHead q s) = (maskMerge (q.mask &&& 0x03E1) q.image s.regs.active, []) := by
    calc copyView (strobeHead q s) = copyView (strobeLaid q s) := by
          rw [strobeHead_eq]; exact Prod.ext (raise_active ..) (raise_pend ..)
      _ = copyView (strobeRegs q (strobeBase q s)) := copyView_view.of_strobeLaid q s
      _ = _ := by
          unfold copyView
          rw [strobeRegs_active ha, strobeRegs_pend ha, hmoves, hactive]
          refine Prod.ext ?_ ?_
          · have hall : strobeMask q false = q.mask &&& 0x03E1 := by
              simp only [strobeMask, ha, Bool.false_eq_true, if_false]; exact BitVec.and_allOnes
            rw [hall]
          · have hnone : ([1, 2, 3, 4] : List Nat).filter (fun g => q.mask.getLsbD g) = [] := by
              simp only [List.filter_eq_nil_iff, List.mem_cons, List.not_mem_nil, or_false]
              intro g hg
              rw [getLsbD_of_plain hm (by omega)]
              decide
            simp [strobePend, hnone, hpend]
  rw [copyView_fibres.of_strobe (by rw [hhead]), hhead]

/-! ### The command -/

theorem commitStrobe_runs {s : State} {q : QCommit} {qs : List QCommit} (hb : s.boot ≠ .held) (hq : s.commits.queue = q :: qs)
    (hdue : strobeDue q s = true) : exec .commitStrobe s =
      .next (restored s (noteHeld (strobe q { s with commits := { s.commits with queue := qs } }))) := by
  show execCommitStrobe s = _
  unfold execCommitStrobe
  rw [run_eq_restored hb, hq]
  dsimp only
  rw [if_pos hdue]

theorem commitStrobe_strikes {s : State} {q : QCommit} {qs : List QCommit} (hb : s.boot ≠ .held)
    (hq : s.commits.queue = q :: qs) (hdue : strobeDue q s = true) (ha : q.adopt = false) (hm : q.mask ≠ 0) :
    ∃ t, exec .commitStrobe s = .next t ∧ t.commits.queue = qs ∧
      t.regs.committed = maskMerge q.mask q.image s.regs.committed ∧ t.sealing.ref = q.sealW ∧ hw t 0x40 = hw s 0x40 + 1 ∧
      bit (hw t 0x10) 0 = true ∧ t.regs.shadow = s.regs.shadow ∧ t.slc.lease = s.slc.lease := by
  refine ⟨_, commitStrobe_runs hb hq hdue, ?_⟩
  generalize hu : ({ s with commits := { s.commits with queue := qs } } : State) = u
  have hown : owned (noteHeld (strobe q u)) = (owned u).struck q := (owned_noteHeld _).trans (owned_strobe q u)
  have hview : strobeView (noteHeld (strobe q u)) = (u.regs.shadow, hw u 0x40 + 1, true) :=
    (strobeView_view.of_noteHeld _).trans (strobe_strobeView ha u)
  generalize noteHeld (strobe q u) = t at hown hview
  have hqueue : t.commits.queue = u.commits.queue := congrArg Owned.queue hown
  have hcom : t.regs.committed = ((owned u).struck q).committed := congrArg Owned.committed hown
  have href : t.sealing.ref = ((owned u).struck q).ref := congrArg Owned.ref hown
  have hlease : t.slc.lease = u.slc.lease := congrArg Owned.lease hown
  have hshadow : t.regs.shadow = u.regs.shadow := congrArg (·.1) hview
  have hseq : hw t 0x40 = hw u 0x40 + 1 := congrArg (·.2.1) hview
  have hstr : bit (hw t 0x10) 0 = true := congrArg (·.2.2) hview
  simp only [restored_commits, restored_regs, restored_sealing, restored_slc, hw_restored]
  subst hu
  have hmerged : ((owned s).struck q).committed = maskMerge q.mask q.image s.regs.committed := if_neg (by simp [ha])
  exact ⟨hqueue, hcom.trans hmerged, href.trans (if_neg fun h => hm h.1), hseq, hstr, hshadow, hlease⟩

theorem commitStrobe_plain {s : State} {q : QCommit} {qs : List QCommit} (hb : s.boot ≠ .held)
    (hq : s.commits.queue = q :: qs) (hdue : strobeDue q s = true) (ha : q.adopt = false) (hm : q.mask &&& 0x9E = 0)
    (hp : s.regs.pend = []) : ∃ t, exec .commitStrobe s = .next t ∧
      t.regs.active = maskMerge (q.mask &&& 0x03E1) q.image s.regs.active := by
  refine ⟨_, commitStrobe_runs hb hq hdue, ?_⟩
  generalize hu : ({ s with commits := { s.commits with queue := qs } } : State) = u
  have hregs : u.regs = s.regs := by rw [← hu]
  have hcopy := (copyView_view.of_noteHeld (strobe q u)).trans (strobe_copyView ha hm (by rw [hregs]; exact hp))
  generalize noteHeld (strobe q u) = t at hcopy
  have hactive : t.regs.active = maskMerge (q.mask &&& 0x03E1) q.image u.regs.active := congrArg (·.1) hcopy
  rw [restored_regs, hactive, hregs]

/-- A commit whose stamp is still to come stays. -/
theorem commitStrobe_waits {s : State} {q : QCommit} {qs : List QCommit} {u : Stamp}
    (hq : s.commits.queue = q :: qs) (hs : q.stamp = some u) (hn : now s < u) : exec .commitStrobe s = .next s := by
  have hlate : decide (u ≤ now s) = false := decide_eq_false (Nat.not_le.mpr hn)
  have hdue : strobeDue q s = false := by unfold strobeDue; rw [hs]; simp [hlate]
  have hheld : noteHeld s = s := by unfold noteHeld; rw [hq]; simp [hs, hlate]
  show execCommitStrobe s = _
  refine run_of_same ?_
  rw [hq]
  simp [hdue, hheld]

/-- The pending copy of a port that makes no launch becomes active at once. -/
theorem fibreGroupApply_at_rest {s : State} {p : Fin 4} {w : SMap Word} (hb : s.boot ≠ .held) (hl : launching s p = false)
    (hf : (lch s p).fallback = []) (hw : smFind (p + 1) s.regs.pend = some w) :
    ∃ t, exec (.fibreGroupApply p) s = .next t ∧
      t.regs.active = groupMerge (p + 1) w s.regs.active ∧ t.regs.pend = smDel (p + 1) s.regs.pend ∧
      t.regs.committed = s.regs.committed ∧ t.regs.shadow = s.regs.shadow := by
  have hrun : exec (.fibreGroupApply p) s = .next (restored s (fibreApply p (now s) s)) := by
    show execFibreGroupApply p s = _
    unfold execFibreGroupApply
    rw [run_eq_restored hb]
    simp [hl, overridesApply, hf]
  have hcopy := copyView_view.of_fibreApply (t := now s) hw
  have hown := ownedFibres.of_fibreApply p (now s) s trivial
  have hview := strobeView_fibres.of_fibreApply p (now s) s trivial
  refine ⟨_, hrun, ?_⟩
  rw [restored_regs]
  exact ⟨congrArg (·.1) hcopy, congrArg (·.2) hcopy, congrArg Owned.committed hown, congrArg (·.1) hview⟩

end Sys2Proof.Machine
end

section
/-!
REASONING. ALIGNED_COMMON_INSTANT (O32, R46, R47): each port of the set launches slot 0 at the common instant. What one port's
launch reads and leaves is said through `portView`, which sees a part of the port's own launch generator, the other generators
whole, whether the sample clock stands still, and the aligned sets.
-/

namespace Sys2Proof.Machine

/-- What the launch of a port leaves beside its own launch generator. -/
def besidesPort (p : Nat) (s : State) : (Nat → Lch) × Bool × List AlignSet :=
  (fun q => if q = p then {} else lch s q, s.clk.stopped, s.commits.align)

/-- A part of a port's launch generator, and what its launch leaves beside it. -/
def portView {β : Type} (f : Lch → β) (p : Nat) (s : State) : β × (Nat → Lch) × Bool × List AlignSet :=
  (f (lch s p), besidesPort p s)

/-- The next index and the next slot of a launch generator: what the boundary before a launch leaves of it. -/
def launchNext (x : Lch) : Nat × Nat := (x.nextIndex, x.next)

/-- The next index of a launch generator and the tick of its last launch of slot 0. -/
def launchMark (x : Lch) : Nat × Option Nat := (x.nextIndex, smFind 0 x.lastTick)

theorem portView_blind {β : Type} (f : Lch → β) (p : Nat) : Blind (portView f p) where
  put _ _ _ _ _ _ _ _ _ _ _ _ _ _ _ _ _ _ _ _ := rfl
  putPins _ _ _ _ _ := rfl
  putLgr _ _ _ := rfl
  putLaps _ _ := rfl
  of_setHw _ _ _ := rfl

section
variable {β : Type} {f : Lch → β} {p : Nat}

theorem besidesPort_setLch (p : Nat) (x : Lch) (s : State) : besidesPort p (setLch p x s) = besidesPort p s := by
  have hq : (fun q => if q = p then {} else lch (setLch p x s) q) = fun q => if q = p then {} else lch s q := by
    funext q
    by_cases h : q = p
    · rw [if_pos h, if_pos h]
    · rw [if_neg h, if_neg h, lch_setLch_ne x h]
  exact congrArg (·, s.clk.stopped, s.commits.align) hq

theorem portView_setLch (x : Lch) (s : State) : portView f p (setLch p x s) = (f x, besidesPort p s) := by
  unfold portView; rw [lch_setLch_same, besidesPort_setLch]

/-- An update of the generator outside the part seen. -/
theorem portView_setLch_of {x : Lch} {s : State} (h : f x = f (lch s p)) : portView f p (setLch p x s) = portView f p s := by
  rw [portView_setLch, h]; rfl

/-- An update of the generator, outside the part seen, from what it was in a state seen alike. -/
theorem portView_setLch_at {x : Lch} {s u : State} (hx : f x = f (lch s p)) (hu : portView f p u = portView f p s) :
    portView f p (setLch p x u) = portView f p s := by
  rw [portView_setLch, hx]; exact congrArg ((f (lch s p), ·.2)) hu

theorem portView_putRegs (active pend cmdQueued) (s : State) :
    portView f p { s with regs := { s.regs with active, pend, cmdQueued } } = portView f p s := rfl

theorem portView_putFlight (flight) (s : State) :
    portView f p { s with commits := { s.commits with flight } } = portView f p s := rfl

theorem portView_setSes (n : Nat) (x : Session) (s : State) : portView f p (setSes n x s) = portView f p s := rfl

theorem portView_raise (a e : Nat) (s : State) : portView f p (raise a e s) = portView f p s := by
  simp [portView, besidesPort, lch]

theorem portView_answer (n op status : Nat) (data : List Byte) (s : State) :
    portView f p (answer n op status data s) = portView f p s := by
  have hb := portView_blind f p
  simp only [answer, skipDead, hb.of_addCnt64, portView_setSes, hb.of_countCmd, Nat.reduceLT]

theorem portView_flightApplied (q : Nat) (t : Stamp) (s : State) :
    portView f p (flightApplied q t s) = portView f p s := by
  refine (each_keeps _ (fun x u => ?_) _).trans rfl
  dsimp only
  split
  · rw [portView_answer, portView_raise]
  · rw [portView_raise]

end

section
variable {p : Nat}

/-! ### The boundary of a port -/

theorem portView_slotPin (slot : Nat) (s : State) : portView launchNext p (slotPin p slot s) = portView launchNext p s := by
  unfold slotPin
  dsimp only
  split
  · rfl
  · rw [portView_setLch_of (by rfl)]; exact (portView_blind launchNext p).putPins ..

theorem portView_stashShots (s : State) : portView launchNext p (stashShots p s) = portView launchNext p s :=
  portView_setLch_of (by rfl)

theorem portView_poolEnds (s : State) : portView launchNext p (poolEnds p s) = portView launchNext p s := by
  unfold poolEnds
  dsimp only
  split
  · exact (portView_blind launchNext p).of_blockClose ..
  · exact portView_setLch_of (by rfl)

theorem portView_atBoundary (acts : Nat) (s : State) : portView launchNext p (atBoundary p acts s) = portView launchNext p s := by
  unfold atBoundary
  dsimp only
  split
  · exact (portView_blind launchNext p).of_boundaryActs ..
  · exact portView_setLch_of (by rfl)

/-- The pending copy of a port becomes active without a change of its grid. -/
theorem portView_fibreApply (t : Stamp) (s : State) : portView launchNext p (fibreApply p t s) = portView launchNext p s := by
  have hb := portView_blind launchNext p
  unfold fibreApply
  split
  · rfl
  · extract_lets old active new s1 engine s2 regs s3 moved s4 s5 prime restart seq x s6 s7 s8 s9
    have h2 : portView launchNext p s2 = portView launchNext p s := by
      simp only [s2, s1, apply_ite (portView launchNext p), portView_poolEnds, portView_stashShots, ite_self]
    have h3 : portView launchNext p s3 = portView launchNext p s2 := (hb.of_histPlan _).trans (hb.of_tiuActivate ..)
    have h5 : portView launchNext p s5 = portView launchNext p s3 := by
      simp only [s5, s4, apply_ite (portView launchNext p), hb.of_blockStart, hb.of_ringDiscard, ite_self]
    have h6 : portView launchNext p s6 = portView launchNext p s5 := portView_setLch_of (by rfl)
    have h9 : portView launchNext p s9 = portView launchNext p s6 := by
      simp only [s9, s8, s7, apply_ite (portView launchNext p), portView_slotPin, hb.of_launchPin, portView_atBoundary, ite_self]
    rw [portView_flightApplied, h9, h6, h5, h3, h2]

theorem portView_phsEffect (b : Nat) (s : State) : portView launchNext p (phsEffect p b s) = portView launchNext p s := by
  unfold phsEffect
  dsimp only
  split <;> rw [portView_atBoundary, portView_setLch_of (by rfl)]

/-- The bits of PHS_n_CMD that wait for a port's boundary take effect without a change of its grid. -/
theorem portView_phsBoundary (s : State) : portView launchNext p (phsBoundary p s) = portView launchNext p s := by
  refine (each_keeps _ (fun b u => ?_) _).trans (portView_setLch_of (by rfl))
  unfold cmdDone
  dsimp only
  split
  · rw [portView_setLch_of (by rfl)]; exact portView_phsEffect b u
  · rw [(portView_blind launchNext p).of_setHw (by omega), portView_phsEffect]

theorem portView_jitterCheck (s : State) : portView launchNext p (jitterCheck p s) = portView launchNext p s := by
  have hb := portView_blind launchNext p
  unfold jitterCheck
  dsimp only
  split
  · rfl
  · rw [hb.of_rill, hb.of_raise (by decide), hb.of_setCnt (by omega)]
    exact portView_setLch_at (by rfl) (hb.of_latchStats (by omega) ..)

theorem portView_settleShot (t : Shot) (s : State) : portView launchNext p (settleShot p t s).2 = portView launchNext p s := by
  have hb := portView_blind launchNext p
  unfold settleShot
  extract_lets m s1 x sMiss
  have h1 : portView launchNext p s1 = portView launchNext p s := hb.of_addCnt64 (by simp) ..
  rw [← h1]
  split
  · simp only [hb.of_setHw (lt_lchA ..)]
    exact portView_setLch_at (by rfl) ((hb.of_raise (lt_lchA ..) ..).trans (hb.of_addCnt64 (lt_lgrFp ..) ..))
  · extract_lets d a ok used fl s2 s3 s4
    have h2 : portView launchNext p s2 = portView launchNext p s1 :=
      portView_setLch_at (by rfl) (hb.of_addCnt64 (lt_lgrFp ..) ..)
    have h3 : portView launchNext p s3 = portView launchNext p s2 := by
      simp only [s3, apply_ite (portView launchNext p), hb.of_raise (lt_lchA ..), hb.of_addHold (lt_lchA ..), ite_self]
    exact (portView_jitterCheck _).trans (((hb.of_setHw (by simp) ..).trans (hb.of_setHw (by simp) ..)).trans (h3.trans h2))

/-! ### The launch -/

/-- A launch of slot 0 at a tick takes the next index and marks the tick. -/
theorem portView_launchAt {tick : Nat} {s : State} (hnext : (lch s p).next = 0) :
    portView launchMark p (launchAt p tick s) = (((lch s p).nextIndex + 1, some tick), besidesPort p s) := by
  have hb := portView_blind launchMark p
  unfold launchAt
  extract_lets t0 s1 m x slot P last gap prime long fl watched mid win shot
  have h1 : portView launchNext p s1 = portView launchNext p s := by
    simp only [s1, apply_ite (portView launchNext p), portView_phsBoundary, portView_fibreApply, ite_self]
  have hslot : slot = 0 := (congrArg (·.1.2) h1).trans hnext
  have hshot : portView launchNext p (if watched then (shot, s1) else settleShot p shot s1).2 = portView launchNext p s := by
    rw [← h1]
    split
    · rfl
    · exact portView_settleShot ..
  generalize (if watched then (shot, s1) else settleShot p shot s1) = settled at hshot
  obtain ⟨shot', s2⟩ := settled
  dsimp only at hshot ⊢
  have hindex : (lch s2 p).nextIndex = (lch s p).nextIndex := congrArg (·.1.1) hshot
  have hrest : besidesPort p s2 = besidesPort p s := congrArg (·.2) hshot
  rw [hb.of_launchPin, hb.of_rill, hb.of_setStamp (by simp), hb.of_setCnt64 (by simp), portView_setLch, hrest]
  unfold launchMark
  rw [hslot, smFind_smIns_same, hindex]

/-- The grid moves on without a new mark. -/
theorem portView_gridNext (s : State) : portView launchMark p (gridNext p s) = portView launchMark p s := by
  unfold gridNext
  extract_lets m x c0 grid s1 y due tail
  have h1 : portView launchMark p s1 = portView launchMark p s :=
    ((portView_blind launchMark p).of_fgLateCheck ..).trans (portView_setLch_of (by rfl))
  split
  · exact portView_setLch_of (by rfl)
  · rw [← h1]
    split
    · exact portView_setLch_of (by rfl)
    · split <;> exact portView_setLch_of (by rfl)

/-- A grid starts with a launch of slot 0. -/
theorem portView_gridStart (tick : Nat) (s : State) :
    portView launchMark p (gridStart p tick s) = (((lch s p).nextIndex + 1, some tick), besidesPort p s) := by
  unfold gridStart
  extract_lets x s1
  have hb := portView_blind launchNext p
  have h2 : portView launchNext p (slotPin p 0 (fgLateCheck p s1)) = (((lch s p).nextIndex, 0), besidesPort p s) := by
    rw [portView_slotPin, hb.of_fgLateCheck]; exact portView_setLch ..
  rw [portView_gridNext, portView_launchAt (congrArg (·.1.2) h2)]
  generalize slotPin p 0 (fgLateCheck p s1) = u at h2
  have hindex : (lch u p).nextIndex = (lch s p).nextIndex := congrArg (·.1.1) h2
  have hrest : besidesPort p u = besidesPort p s := congrArg (·.2) h2
  rw [hindex, hrest]

/-- A port that launches and whose boundary no override waits for makes one launch at the common instant. -/
theorem portView_alignStart {tick : Nat} {s : State} (hl : launching s p = true) (hf : (lch s p).fallback = []) :
    portView launchMark p (alignStart p tick s) = (((lch s p).nextIndex + 1, some tick), besidesPort p s) := by
  have hov : overridesApply p s = s := if_pos hf
  unfold alignStart
  dsimp only
  rw [hov, if_pos hl, (portView_blind launchMark p).of_raiseIf (by simp), portView_gridStart]

/-- What the launch of one port at the common instant leaves of another port. -/
theorem lch_of_besidesPort {q : Nat} {s t : State} (h : besidesPort p t = besidesPort p s) (hq : q ≠ p) : lch t q = lch s q := by
  have hlch := congrFun (congrArg (·.1) h) q
  unfold besidesPort at hlch
  simpa [hq] using hlch

end

/-! ### The ports of a set -/

/-- What a port of an aligned set has to be for its launch at the common instant. -/
def ReadyToAlign (s : State) (p : Nat) : Prop := (lch s p).armed = true ∧ (lch s p).fallback = []

/-- The launches of a set of ports at the common instant, by induction on the set: the launch of one port leaves the others. -/
theorem each_alignStart {tick : Nat} {l : List Nat} (hl : l.Nodup) {s : State} (hclk : s.clk.stopped = false)
    (hready : ∀ p ∈ l, ReadyToAlign s p) :
    (each l (fun p s => alignStart p tick s) s).commits.align = s.commits.align ∧
    (∀ q ∉ l, lch (each l (fun p s => alignStart p tick s) s) q = lch s q) ∧
    ∀ p ∈ l, launchMark (lch (each l (fun p s => alignStart p tick s) s) p) = ((lch s p).nextIndex + 1, some tick) := by
  induction l generalizing s with
  | nil => exact ⟨rfl, fun _ _ => rfl, fun _ h => absurd h List.not_mem_nil⟩
  | cons p ps ih =>
    obtain ⟨hp, hps⟩ := List.nodup_cons.mp hl
    obtain ⟨harmed, hfall⟩ := hready p List.mem_cons_self
    have hone := portView_alignStart (tick := tick) (by unfold launching; rw [harmed, hclk]; rfl) hfall
    have hrest : besidesPort p (alignStart p tick s) = besidesPort p s := congrArg (·.2) hone
    have hmark : launchMark (lch (alignStart p tick s) p) = ((lch s p).nextIndex + 1, some tick) := congrArg (·.1) hone
    have hother : ∀ q, q ≠ p → lch (alignStart p tick s) q = lch s q := fun q hq => lch_of_besidesPort hrest hq
    have hne : ∀ q ∈ ps, q ≠ p := fun q hq h => hp (h ▸ hq)
    obtain ⟨halign, hout, hin⟩ := ih hps (s := alignStart p tick s) ((congrArg (·.2.1) hrest).trans hclk) fun q hq => by
      unfold ReadyToAlign
      rw [hother q (hne q hq)]
      exact hready q (List.mem_cons_of_mem p hq)
    refine ⟨halign.trans (congrArg (·.2.2) hrest), fun q hq => ?_, fun q hq => ?_⟩
    · obtain ⟨hqp, hqs⟩ := not_or.mp (mt List.mem_cons.mpr hq)
      exact (hout q hqs).trans (hother q hqp)
    · rcases List.mem_cons.mp hq with rfl | hqs
      · exact (congrArg launchMark (hout q hp)).trans hmark
      · rw [← hother q (hne q hqs)]; exact hin q hqs

theorem alignedCommonInstant_none {s : State}
    (h : s.commits.align.find? (fun a => alignFull a && tickCome s (roundUp 8 a.latest)) = none) :
    exec .alignedCommonInstant s = .next s := by
  show execAlignedCommonInstant s = _
  exact run_of_same (by rw [h])

theorem alignedCommonInstant_launches {s : State} {a : AlignSet} (hb : s.boot ≠ .held)
    (h : s.commits.align.find? (fun a => alignFull a && tickCome s (roundUp 8 a.latest)) = some a) (hn : a.ports.Nodup)
    (hclk : s.clk.stopped = false) (hready : ∀ p ∈ a.ports, ReadyToAlign s p) :
    ∃ t, exec .alignedCommonInstant s = .next t ∧ t.commits.align = s.commits.align.filter (fun b => decide (b.id ≠ a.id)) ∧
      ∀ p ∈ a.ports, (lch t p).nextIndex = (lch s p).nextIndex + 1 ∧ smFind 0 (lch t p).lastTick = some (roundUp 8 a.latest) := by
  have hrun : exec .alignedCommonInstant s = .next (restored s (each a.ports (fun p s => alignStart p (roundUp 8 a.latest) s)
      { s with commits := { s.commits with align := s.commits.align.filter fun b => b.id ≠ a.id } })) := by
    show execAlignedCommonInstant s = _
    unfold execAlignedCommonInstant
    rw [run_eq_restored hb, h]
  obtain ⟨halign, -, hlaunch⟩ := each_alignStart (tick := roundUp 8 a.latest) hn
    (s := { s with commits := { s.commits with align := s.commits.align.filter fun b => b.id ≠ a.id } }) hclk hready
  refine ⟨_, hrun, halign, fun p hp => ?_⟩
  rw [lch, restored_lch]
  exact Prod.mk.inj (hlaunch p hp)

/-- Settles O32: the strobe through the views of what it writes, the common instant by induction on the ports of the set. -/
theorem commitStrobes : Obligations.CommitStrobes := by
  unfold Obligations.CommitStrobes
  exact ⟨⟨fun s q qs hb hq hdue ha hm => commitStrobe_strikes hb hq hdue ha hm,
    fun s q qs hb hq hdue ha _ hplain hp => commitStrobe_plain hb hq hdue ha hplain hp,
    fun s q qs u _ hq hs hn => commitStrobe_waits hq hs hn⟩,
    fun s p w hb hl hf hw => fibreGroupApply_at_rest hb hl hf hw,
    fun s _ h => alignedCommonInstant_none h,
    fun s a hb h hn hclk hready => alignedCommonInstant_launches hb h hn hclk hready⟩

end Sys2Proof.Machine
end

section
/-!
PROOFS. Who may change which block of state (O19). `Blocks` is a set of blocks, `outside B` reads off a state every block that
is not in `B`. For each operation of the model one lemma says that it leaves the blocks outside `B` alone, where `B`
holds the blocks that the operation writes; the lemma of an operation cites those of the operations it calls. They stand in
the order of the model's files. The lemma of a command (`keeps_…`) follows in the same way, and the table `mayChange` of all
commands closes the proof. The stage of boot is one of the blocks, for the proof that a device in reset stays wiped (O7).
-/

namespace Sys2Proof.Machine

/-! ### Sets of blocks -/

/-- A set of blocks of state: device time, the TIU but for its channels, the channels of the TIU, the supplies, PTP, the arms
that wait, the mailboxes, the next segment identifier, the map of Basin rows, the evaluation lanes, the channel map, and the
stage of boot. -/
structure Blocks where
  tb      : Bool := false
  tiu     : Bool := false
  chs     : Bool := false
  pwr     : Bool := false
  ptp     : Bool := false
  arms    : Bool := false
  mbox    : Bool := false
  nextSeg : Bool := false
  rowMap  : Bool := false
  lanes   : Bool := false
  chmap   : Bool := false
  boot    : Bool := false

/-- The values of the blocks. -/
structure BlockVals where
  tb      : TbSt
  tiu     : TiuSt
  chs     : SMap TiuCh
  pwr     : PwrSt
  ptp     : PtpSt
  arms    : List (BitVec 16 × Stamp)
  mbox    : SMap Byte
  nextSeg : Nat
  rowMap  : SMap Nat
  lanes   : SMap (Nat × Nat)
  chmap   : List Nat × Nat
  boot    : Boot

/-- The blocks of a state outside a set; a block of the set reads as at reset. -/
def outside (B : Blocks) (s : State) : BlockVals where
  tb := if B.tb then {} else s.tb
  tiu := if B.tiu then {} else { s.tiu with chs := [] }
  chs := if B.chs then [] else s.tiu.chs
  pwr := if B.pwr then {} else s.pwr
  ptp := if B.ptp then {} else s.ptp
  arms := if B.arms then [] else s.arms
  mbox := if B.mbox then [] else s.rnl.mbox
  nextSeg := if B.nextSeg then 0 else s.cis.nextSeg
  rowMap := if B.rowMap then [] else s.basin.rowMap
  lanes := if B.lanes then [] else s.weir.lanes
  chmap := if B.chmap then ([], 0) else (s.dram.chmap, s.dram.nActive)
  boot := if B.boot then .held else s.boot

/-- Two states agree outside a set where each block is in the set or the same in both. -/
theorem outside_eq_iff {B : Blocks} {s t : State} : outside B t = outside B s ↔
    (B.tb = false → t.tb = s.tb) ∧ (B.tiu = false → t.tiu = { s.tiu with chs := t.tiu.chs }) ∧
    (B.chs = false → t.tiu.chs = s.tiu.chs) ∧ (B.pwr = false → t.pwr = s.pwr) ∧ (B.ptp = false → t.ptp = s.ptp) ∧
    (B.arms = false → t.arms = s.arms) ∧ (B.mbox = false → t.rnl.mbox = s.rnl.mbox) ∧
    (B.nextSeg = false → t.cis.nextSeg = s.cis.nextSeg) ∧ (B.rowMap = false → t.basin.rowMap = s.basin.rowMap) ∧
    (B.lanes = false → t.weir.lanes = s.weir.lanes) ∧
    (B.chmap = false → t.dram.chmap = s.dram.chmap ∧ t.dram.nActive = s.dram.nActive) ∧
    (B.boot = false → t.boot = s.boot) := by
  have besides {α : Type} {b : Bool} {d x y : α} : (if b then d else x) = (if b then d else y) ↔ (b = false → x = y) := by
    cases b <;> simp
  simp only [outside, BlockVals.mk.injEq, besides, Prod.mk.injEq, TiuSt.ext_iff, true_and]

variable {B : Blocks}

/-! ### Updates of the state

An update of parts that hold no block, or of a block of the set, leaves the blocks outside. -/

section
variable (s : State) (pending : List Instr) (regs : Regs) (commits : CommitSt) (sealing : SealSt) (folds : SMap Fold)
  (pins : Pins) (clk : ClkSt) (cnt : Counts) (slc : SlcSt) (spt : SptSt) (ports : SMap Port) (lgr : LgrSt) (sec : SecSt)
  (cnv : CnvSt) (lch : SMap Lch) (csc : SMap Csc) (pol : SMap Pol) (timers : SMap Nat)

theorem outside_put : outside B { s with
    pending, regs, commits, sealing, folds, pins, clk, cnt, slc, spt, ports, lgr, sec, cnv, lch, csc, pol, timers }
    = outside B s := by rfl

theorem outside_putCis (segs regions sealNo seals sealPrev sealAt sealWait nowWait hist shots taps) : outside B { s with
    cis := { s.cis with segs, regions, sealNo, seals, sealPrev, sealAt, sealWait, nowWait, hist, shots, taps },
    pending, regs, commits, sealing, folds, pins, clk, cnt, slc, spt, ports, lgr, sec, cnv, lch, csc, pol, timers }
    = outside B s := by rfl

theorem outside_putBasin (chans used zeroed lost repair badSpares) : outside B { s with
    basin := { s.basin with chans, used, zeroed, lost, repair, badSpares },
    pending, regs, commits, sealing, folds, pins, clk, cnt, slc, spt, ports, lgr, sec, cnv, lch, csc, pol, timers }
    = outside B s := by rfl

theorem outside_putWeir (units watches alarm alarmSrc degraded tapLog) : outside B { s with
    weir := { s.weir with units, watches, alarm, alarmSrc, degraded, tapLog },
    pending, regs, commits, sealing, folds, pins, clk, cnt, slc, spt, ports, lgr, sec, cnv, lch, csc, pol, timers }
    = outside B s := by rfl

theorem outside_putDram (chans grade spare grain phase source target ptr kept copyAt regrade filling setup answers) :
    outside B { s with
    dram := { s.dram with
      chans, grade, spare, grain, phase, source, target, ptr, kept, copyAt, regrade, filling, setup, answers },
    pending, regs, commits, sealing, folds, pins, clk, cnt, slc, spt, ports, lgr, sec, cnv, lch, csc, pol, timers }
    = outside B s := by rfl

theorem outside_putRnl (chans last mboxBad tiuOff) : outside B { s with
    rnl := { s.rnl with chans, last, mboxBad, tiuOff },
    pending, regs, commits, sealing, folds, pins, clk, cnt, slc, spt, ports, lgr, sec, cnv, lch, csc, pol, timers }
    = outside B s := by rfl
end

theorem outside_putTb (h : B.tb = true) (s : State) (tb) : outside B { s with tb } = outside B s := by simp [outside, h]

theorem outside_putTiu (h : B.tiu = true) (s : State) (ctxs fifo lost retired spareOf spareFails spareCal) :
    outside B { s with tiu := { s.tiu with ctxs, fifo, lost, retired, spareOf, spareFails, spareCal } } = outside B s := by
  simp [outside, h]

theorem outside_putChs (h : B.chs = true) (s : State) (chs) : outside B { s with tiu := { s.tiu with chs } } = outside B s := by
  simp [outside, h]

theorem outside_putPwr (h : B.pwr = true) (s : State) (pwr lgr commits) :
    outside B { s with pwr, lgr, commits } = outside B s := by
  simp [outside, h]

theorem outside_putPtp (h : B.ptp = true) (s : State) (ptp) : outside B { s with ptp } = outside B s := by simp [outside, h]

theorem outside_putArms (h : B.arms = true) (s : State) (arms) : outside B { s with arms } = outside B s := by simp [outside, h]

theorem outside_putRowMap (h : B.rowMap = true) (s : State) (rowMap used) :
    outside B { s with basin := { s.basin with rowMap, used } } = outside B s := by simp [outside, h]

theorem outside_putLanes (h : B.lanes = true) (s : State) (lanes) :
    outside B { s with weir := { s.weir with lanes } } = outside B s := by simp [outside, h]

theorem outside_putChmap (h : B.chmap = true) (s : State) (nActive chmap spare grain filling) :
    outside B { s with dram := { s.dram with nActive, chmap, spare, grain, filling } } = outside B s := by simp [outside, h]

theorem outside_putBoot (h : B.boot = true) (s : State) (boot pins sec sealing regs) :
    outside B { s with boot, pins, sec, sealing, regs } = outside B s := by simp [outside, h]

/-! ### Choices and loops -/

theorem outside_ite {c : Prop} [Decidable c] (a b : State) :
    outside B (if c then a else b) = if c then outside B a else outside B b := apply_ite ..

theorem outside_each {α : Type} {l : List α} {f : α → State → State} (h : ∀ x s, outside B (f x s) = outside B s)
    (s : State) : outside B (each l f s) = outside B s := each_keeps (outside B) h s

theorem outside_foldl {α : Type} {l : List α} {f : State → α → State} (h : ∀ s x, outside B (f s x) = outside B s)
    (s : State) : outside B (l.foldl f s) = outside B s := foldl_keeps (outside B) h s

theorem outside_foldl_snd {α β : Type} {l : List α} {f : β × State → α → β × State}
    (h : ∀ a x, outside B (f a x).2 = outside B a.2) (a : β × State) : outside B (l.foldl f a).2 = outside B a.2 :=
  foldl_snd_keeps (outside B) h a

theorem outside_foldl_fst {α β : Type} {l : List α} {f : State × β → α → State × β}
    (h : ∀ a x, outside B (f a x).1 = outside B a.1) (a : State × β) : outside B (l.foldl f a).1 = outside B a.1 :=
  foldl_fst_keeps (outside B) h a

/-! ### Commands -/

/-- The queue and the boot stage put back after an operation. -/
theorem outside_putBack {s t : State} (h : outside B t = outside B s) (pending : List Instr) :
    outside B { t with pending, boot := s.boot } = outside B s := by
  exact congrArg (fun v : BlockVals => { v with boot := if B.boot then .held else s.boot }) h

/-- A command leaves every block outside a set as it is. -/
def Keeps (B : Blocks) (f : State → Host.Outcome State Fault Refusal) : Prop :=
  ∀ s t, f s = .next t → outside B t = outside B s

/-- An ordinary command keeps what its effect keeps; it never moves the stage of boot. -/
theorem keeps_run {f : State → State} (h : ∀ s, outside B (f s) = outside B s) : Keeps B (run f) := by
  intro s t ht
  unfold run at ht
  split at ht <;> cases ht
  · rfl
  · exact outside_putBack (h s) _

theorem keeps_runBoot {f : State → State} (h : ∀ s, outside B (f s) = outside B s) : Keeps B (runBoot f) := by
  intro s t ht
  cases ht; exact h s

/-! ### Ops -/

theorem outside_timerSet (kind i n : Nat) (s : State) : outside B (timerSet kind i n s) = outside B s := by rfl

theorem outside_timerGrid (kind i n : Nat) (s : State) : outside B (timerGrid kind i n s) = outside B s := by rfl

theorem outside_timerStop (kind i : Nat) (s : State) : outside B (timerStop kind i s) = outside B s := by rfl

theorem outside_setHw (a : Nat) (w : Word) (s : State) : outside B (setHw a w s) = outside B s := by rfl

theorem outside_setCnt (a n : Nat) (s : State) : outside B (setCnt a n s) = outside B s := by rfl

theorem outside_addCnt (a n : Nat) (s : State) : outside B (addCnt a n s) = outside B s := by rfl

theorem outside_addHold (a n : Nat) (s : State) : outside B (addHold a n s) = outside B s := by rfl

theorem outside_setCnt64 (a n : Nat) (s : State) : outside B (setCnt64 a n s) = outside B s := by
  simp only [setCnt64, outside_setHw]

theorem outside_addCnt64 (a n : Nat) (s : State) : outside B (addCnt64 a n s) = outside B s := by
  simp only [addCnt64, outside_setCnt64, outside_ite, ite_self]

theorem outside_setStamp (a : Nat) (t : Stamp) (s : State) : outside B (setStamp a t s) = outside B s := by
  simp only [setStamp, outside_setHw]

theorem outside_cmdDone {a b : Nat} {f : State → State} (h : ∀ s, outside B (f s) = outside B s) (s : State) :
    outside B (cmdDone a b f s) = outside B s := by
  simp only [cmdDone, outside_ite, outside_setHw, h, outside_put, ite_self]

theorem outside_setStream (n : Nat) (x : Stream) (s : State) : outside B (setStream n x s) = outside B s := by rfl

theorem outside_sendEvent (cat : Nat) (e : Event) (s : State) : outside B (sendEvent cat e s) = outside B s := by
  simp only [sendEvent, outside_setStream, outside_foldl, outside_ite, ite_self, implies_true]

theorem outside_raiseAt (t : Stamp) (q : Byte) (src a e : Nat) (s : State) :
    outside B (raiseAt t q src a e s) = outside B s := by
  unfold raiseAt
  dsimp only
  split <;> simp only [outside_setHw, outside_sendEvent, outside_put]

theorem outside_raiseFrom (src a e : Nat) (s : State) : outside B (raiseFrom src a e s) = outside B s := by
  simp only [raiseFrom, outside_raiseAt]

theorem outside_raise (a e : Nat) (s : State) : outside B (raise a e s) = outside B s := by
  simp only [raise, outside_raiseFrom]

theorem outside_raiseIf (c : Bool) (a e : Nat) (s : State) : outside B (raiseIf c a e s) = outside B s := by
  simp only [raiseIf, outside_raise, outside_ite, ite_self]

theorem outside_loss (i n : Nat) (s : State) : outside B (loss i n s) = outside B s := by
  simp only [loss, outside_raise, outside_addCnt64, outside_ite, ite_self]

theorem outside_rill (k n : Nat) (s : State) : outside B (rill k n s) = outside B s := by
  simp only [rill, outside_addCnt64]

theorem outside_rillIssue (k : Nat) (s : State) : outside B (rillIssue k s) = outside B s := by
  simp only [rillIssue, outside_addCnt64]

theorem outside_rillReturn (k : Nat) (s : State) : outside B (rillReturn k s) = outside B s := by
  simp only [rillReturn, outside_addCnt64, outside_setCnt64]

theorem outside_rnlCount (c n : Nat) (s : State) : outside B (rnlCount c n s) = outside B s := by
  simp only [rnlCount, outside_addCnt64]

theorem outside_freeNext (s : State) : outside B (freeNext s).2 = outside B s := by rfl

theorem outside_draw (n : Nat) (s : State) : outside B (draw n s).2 = outside B s := by rfl

theorem outside_setLch (p : Nat) (x : Lch) (s : State) : outside B (setLch p x s) = outside B s := by rfl

theorem outside_setPort (p : Nat) (x : Port) (s : State) : outside B (setPort p x s) = outside B s := by rfl

theorem outside_setConv (n : Nat) (x : Conv) (s : State) : outside B (setConv n x s) = outside B s := by rfl

theorem outside_setUnit (u : Nat) (x : Weir) (s : State) : outside B (setUnit u x s) = outside B s := by rfl

theorem outside_setWatch (w : Nat) (x : Weir) (s : State) : outside B (setWatch w x s) = outside B s := by rfl

theorem outside_setRegion (r : Nat) (x : Region) (s : State) : outside B (setRegion r x s) = outside B s := by rfl

theorem outside_setPol (e : Nat) (x : Pol) (s : State) : outside B (setPol e x s) = outside B s := by rfl

theorem outside_setCsc (p : Nat) (x : Csc) (s : State) : outside B (setCsc p x s) = outside B s := by rfl

theorem outside_setRch (c : Nat) (x : RChan) (s : State) : outside B (setRch c x s) = outside B s := by rfl

theorem outside_setDch (c : Nat) (x : DChan) (s : State) : outside B (setDch c x s) = outside B s := by rfl

theorem outside_setSes (n : Nat) (x : Session) (s : State) : outside B (setSes n x s) = outside B s := by rfl

theorem outside_setPll (p : Nat) (x : PllState) (s : State) : outside B (setPll p x s) = outside B s := by rfl

theorem outside_when {c : Bool} {f : State → State} (h : ∀ s, outside B (f s) = outside B s) (s : State) :
    outside B (when c f s) = outside B s := by
  unfold when
  rw [outside_ite, h, ite_self]

theorem outside_countCmd (status : Nat) (s : State) : outside B (countCmd status s) = outside B s := by
  simp only [countCmd, outside_addCnt64]

theorem outside_skipDead (n : Nat) (s : State) : outside B (skipDead n s) = outside B s := by
  simp only [skipDead, outside_addCnt64, outside_setSes]

theorem outside_answer (n op status : Nat) (data : List Byte) (s : State) :
    outside B (answer n op status data s) = outside B s := by
  simp only [answer, outside_skipDead, outside_countCmd, outside_setSes]

theorem outside_hostCmd {n op : Nat} {boot lenOk : Bool} {len : Nat} {f : State → State}
    (h : ∀ s, outside B (f s) = outside B s) (s : State) :
    outside B (hostCmd n op boot lenOk len f s) = outside B s := by
  unfold hostCmd
  simp only [outside_ite, outside_answer, h, ite_self]

theorem outside_needLease {n op : Nat} {f : State → State} (h : ∀ s, outside B (f s) = outside B s) (s : State) :
    outside B (needLease n op f s) = outside B s := by
  unfold needLease
  simp only [outside_ite, outside_answer, h, ite_self]

/-! ### DramOps -/

theorem outside_rhActivate (c b row : Nat) (s : State) : outside B (rhActivate c b row s) = outside B s := by
  simp only [rhActivate, outside_freeNext, outside_setDch, outside_addCnt64, outside_ite, ite_self]

theorem outside_countRead (c b : Nat) (s : State) : outside B (countRead c b s) = outside B s := by
  simp only [countRead, outside_addCnt64, outside_loss, outside_ite, ite_self]

theorem outside_writeBurst (c b : Nat) (data : List Byte) (mask : List Bool) (poison : Bool) (s : State) :
    outside B (writeBurst c b data mask poison s) = outside B s := by
  simp only [writeBurst, outside_loss, outside_addCnt64, outside_setDch, outside_putDram, outside_ite, ite_self]

theorem outside_giveAnswer (a : Answer) (s : State) : outside B (giveAnswer a s) = outside B s := by rfl

theorem outside_issueWrite (c : Nat) (q : DQ) (s : State) : outside B (issueWrite c q s) = outside B s := by
  simp only [issueWrite, outside_loss, outside_writeBurst, outside_ite, ite_self]

theorem outside_chanUse (c : Nat) (s : State) : outside B (chanUse c s) = outside B s := by rfl

theorem outside_chanWake (c : Nat) (s : State) : outside B (chanWake c s) = outside B s := by
  simp only [chanWake, outside_setDch, outside_ite, ite_self]

theorem outside_issueReq (c b : Nat) (q : DQ) (s : State) : outside B (issueReq c b q s) = outside B s := by
  simp only [issueReq, outside_rhActivate, outside_setDch, outside_issueWrite, outside_rill, outside_giveAnswer,
    outside_countRead, outside_ite, ite_self]

theorem outside_takeIn (n c : Nat) (s : State) : outside B (takeIn n c s) = outside B s := by
  induction n generalizing s with
  | zero => rfl
  | succ n ih =>
    rw [takeIn]
    dsimp only
    split
    · rfl
    · simp only [ih, outside_ite, outside_rillReturn, outside_addCnt, outside_setDch, ite_self]

theorem outside_schedule (c : Nat) (s : State) : outside B (schedule c s) = outside B s := by
  unfold schedule
  dsimp only
  repeat' split
  all_goals simp only [outside_takeIn, outside_setDch, outside_issueReq]

theorem outside_dramTick (c : Nat) (s : State) : outside B (dramTick c s) = outside B s := by
  simp only [dramTick, outside_schedule, outside_setDch, outside_ite, ite_self]

theorem outside_settleAll (n c b : Nat) (s : State) : outside B (settleAll n c b s) = outside B s := by
  induction n generalizing s with
  | zero => rfl
  | succ n ih =>
    rw [settleAll]
    dsimp only
    split
    · split
      · rfl
      · simp only [ih, outside_issueReq, outside_ite, outside_rillReturn, outside_setDch, ite_self]
    · rfl

theorem outside_settle (c b : Nat) (s : State) : outside B (settle c b s) = outside B s := by
  simp only [settle, outside_settleAll, outside_chanWake]

theorem outside_blockAccess (c b : Nat) (s : State) : outside B (blockAccess c b s) = outside B s := by
  simp only [blockAccess, outside_settle, outside_chanUse]

theorem outside_dramRead (a n : Nat) (s : State) : outside B (dramRead a n s).2 = outside B s := by
  simp only [dramRead, outside_blockAccess, outside_countRead, outside_each, implies_true]

theorem outside_dramWrite (a : Nat) (data : List Byte) (poison : Bool) (s : State) :
    outside B (dramWrite a data poison s) = outside B s := by
  simp only [dramWrite, outside_writeBurst, outside_blockAccess, outside_each, implies_true]

/-! ### Tick -/

theorem outside_drainPort (p : Nat) (s : State) : outside B (drainPort p s) = outside B s := by
  simp only [drainPort, outside_setPort, outside_ite, ite_self]

/-! ### Spout -/

theorem outside_ringWrite (base size pos : Nat) (b : List Byte) (s : State) :
    outside B (ringWrite base size pos b s) = outside B s := by
  simp only [ringWrite, outside_dramWrite]

theorem outside_windowWrite (n : Nat) (r : Rec) (s : State) : outside B (windowWrite n r s) = outside B s := by
  unfold windowWrite
  split <;> simp only [outside_ringWrite, outside_setStream, outside_ite, ite_self]

theorem outside_askHop (p : Nat) (d : List Word) (s : State) : outside B (askHop p d s) = outside B s := by
  simp only [askHop, outside_setPort, outside_ite, ite_self]

theorem outside_createRec (n : Nat) (r : Rec) (s : State) : outside B (createRec n r s) = outside B s := by
  simp only [createRec, outside_setStream, outside_windowWrite, outside_raise, outside_raiseIf, outside_askHop, outside_ite,
    ite_self]

theorem outside_mseedClose (full : Bool) (n ch : Nat) (s : State) : outside B (mseedClose full n ch s) = outside B s := by
  simp only [mseedClose, outside_setStream, outside_ite, ite_self]

theorem outside_mseedTake (n ch : Nat) (t : TapSample) (v : Int) (s : State) :
    outside B (mseedTake n ch t v s) = outside B s := by
  simp only [mseedTake, outside_mseedClose, outside_setStream, outside_ite, ite_self]

theorem outside_feedStreams (p : Nat) (t : TapSample) (s : State) : outside B (feedStreams p t s) = outside B s := by
  simp only [feedStreams, outside_setStream, outside_mseedTake, outside_foldl, outside_ite, ite_self, implies_true]

/-! ### Pool -/

theorem outside_blockClose (early : Bool) (e : Nat) (s : State) : outside B (blockClose early e s) = outside B s := by
  simp only [blockClose, outside_setPol, outside_ringWrite, outside_addCnt64, outside_raise, outside_loss, outside_raiseIf,
    outside_ite, ite_self]

theorem outside_blockStart (e : Nat) (s : State) : outside B (blockStart e s) = outside B s := by rfl

theorem outside_poolTake (e : Nat) (vals : List (Option Int)) (t : Stamp) (q : Byte) (fl : Nat) (s : State) :
    outside B (poolTake e vals t q fl s) = outside B s := by
  simp only [poolTake, outside_setPol, outside_blockClose, outside_ite, ite_self]

theorem outside_poolPoison (e : Nat) (bad : List Nat) (s : State) : outside B (poolPoison e bad s) = outside B s := by
  simp only [poolPoison, outside_raise, outside_setPol, outside_ite, ite_self]

theorem outside_poolEvent (e : Nat) (vals : List (Option Int)) (t : Stamp) (q : Byte) (fl : Nat) (s : State) :
    outside B (poolEvent e vals t q fl s) = outside B s := by
  simp only [poolEvent, outside_setPol, outside_poolTake, outside_ite, ite_self]

theorem outside_poolTap (e : Nat) (t : TapSample) (done : List Bool) (s : State) :
    outside B (poolTap e t done s) = outside B s := by
  simp only [poolTap, outside_poolEvent, outside_ite, ite_self]

theorem outside_poolBins (e slot : Nat) (pwr : Nat → Option Int) (t : Stamp) (q : Byte) (fl : Nat) (s : State) :
    outside B (poolBins e slot pwr t q fl s) = outside B s := by
  simp only [poolBins, outside_poolEvent, outside_ite, ite_self]

theorem outside_poolSkip (e : Nat) (s : State) : outside B (poolSkip e s) = outside B s := by
  simp only [poolSkip, outside_raise, outside_addHold]

theorem outside_poolTrigger (u : Nat) (t : Int) (f : Nat) (stamp : Stamp) (q : Byte) (s : State) :
    outside B (poolTrigger u t f stamp q s) = outside B s := by
  simp only [poolTrigger, outside_setPol, outside_poolSkip, outside_each, outside_ite, ite_self, implies_true]

theorem outside_ringRelease (e : Nat) (s : State) : outside B (ringRelease e s) = outside B s := by rfl

theorem outside_ringDiscard (e : Nat) (s : State) : outside B (ringDiscard e s) = outside B s := by
  simp only [ringDiscard, outside_setPol, outside_loss, outside_raise, outside_addCnt64, outside_ite, ite_self]

/-! ### Cascade -/

theorem outside_setStageReg (p ch k : Nat) (r : StageReg) (s : State) :
    outside B (setStageReg p ch k r s) = outside B s := by rfl

theorem outside_stageChannel (c : StageCfg) (j p k : Nat) (s : State) (x : List Int × Nat) :
    outside B (stageChannel c j p k s x).1 = outside B s := by
  unfold stageChannel
  dsimp only
  split <;> simp only [outside_setStageReg]

theorem outside_stageAll (c : StageCfg) (j p k : Nat) (s : State) (l : List (List Int × Nat)) :
    outside B (stageAll c j p k s l).1 = outside B s := by
  induction l generalizing s with
  | nil => rfl
  | cons x xs ih => exact (ih _).trans (outside_stageChannel c j p k s x)

theorem outside_nextIndex (p tap : Nat) (s : State) : outside B (nextIndex p tap s).2 = outside B s := by rfl

theorem outside_emitTap (p : Nat) (t : TapSample) (done : List Bool) (s : State) :
    outside B (emitTap p t done s) = outside B s := by
  simp only [emitTap, outside_poolTap, outside_feedStreams, outside_setCsc]

theorem outside_cascadeFrom (p fuel k : Nat) (vals : List (List Int)) (attr : TapAttr) (s : State) :
    outside B (cascadeFrom p fuel k vals attr s) = outside B s := by
  induction fuel generalizing k vals attr s with
  | zero => rfl
  | succ fuel ih =>
    rw [cascadeFrom]
    dsimp only
    simp only [outside_ite, ih, outside_addCnt64, outside_setCsc, outside_stageAll, outside_emitTap, outside_nextIndex,
    outside_raise, outside_addHold, outside_each, implies_true, ite_self]

theorem outside_clearStages (p : Nat) (s : State) : outside B (clearStages p s) = outside B s := by rfl

theorem outside_cascadeRestart (p : Nat) (s : State) : outside B (cascadeRestart p s) = outside B s := by
  simp only [cascadeRestart, outside_raise, outside_addHold, outside_blockClose, outside_clearStages, outside_ite, ite_self]

theorem outside_cascadeBegin (p : Nat) (s : State) : outside B (cascadeBegin p s) = outside B s := by rfl

/-! ### Reservoir -/

theorem outside_otpSet (a : Nat) (b : Byte) (s : State) : outside B (otpSet a b s) = outside B s := by rfl

theorem outside_otpSetAll (a : Nat) (l : List Byte) (s : State) : outside B (otpSetAll a l s) = outside B s := by
  simp only [otpSetAll, outside_otpSet, outside_foldl, implies_true]

theorem outside_otpDefer (s : State) : outside B (otpDefer s) = outside B s := by
  simp only [otpDefer, outside_raise, outside_addCnt, outside_ite, ite_self]

theorem outside_otpRequest (a : Nat) (l : List Byte) (s : State) : outside B (otpRequest a l s) = outside B s := by
  simp only [otpRequest, outside_otpDefer, outside_put]

theorem outside_wearAdd (kind cause gen index : Nat) (s : State) :
    outside B (wearAdd kind cause gen index s) = outside B s := by
  simp only [wearAdd, outside_raise, outside_rill, outside_otpDefer, outside_put, outside_ite, ite_self]

theorem outside_wearCountBad (s : State) : outside B (wearCountBad s) = outside B s := by
  simp only [wearCountBad, outside_raise, outside_setHw]

theorem keeps_execWearMapWrite (verified : Bool) : Keeps B (execWearMapWrite verified) := by
  refine keeps_run fun s => ?_
  split
  · rfl
  · split
    · rfl
    · dsimp only
      split
      · exact (outside_raise ..).trans (outside_otpSetAll ..)
      · exact (outside_wearCountBad _).trans ((outside_otpSetAll ..).trans (outside_freeNext s))

/-! ### Phase -/

theorem outside_setChan (p k : Nat) (c : Chan) (s : State) : outside B (setChan p k c s) = outside B s := by rfl

theorem outside_mapSlots (p : Nat) (f : SlotRec → SlotRec) (s : State) : outside B (mapSlots p f s) = outside B s := by rfl

theorem outside_takeSpare (hRowMap : B.rowMap = true) (row k : Nat) (s : State) :
    outside B (takeSpare row k s) = outside B s := outside_putRowMap hRowMap ..

theorem outside_retireSpare (k : Nat) (s : State) : outside B (retireSpare k s) = outside B s := by
  simp only [retireSpare, outside_wearAdd, outside_putBasin, outside_ite, ite_self]

theorem outside_rowFailed (row : Nat) (s : State) : outside B (rowFailed row s) = outside B s := by rfl

theorem outside_clearRow (row : Nat) (s : State) : outside B (clearRow row s) = outside B s := by rfl

theorem outside_retireRow (hRowMap : B.rowMap = true) (row : Nat) (s : State) :
    outside B (retireRow row s) = outside B s := by
  unfold retireRow
  dsimp only
  split <;> simp only [outside_wearAdd, outside_raise, outside_takeSpare hRowMap, outside_clearRow, outside_loss,
    outside_putBasin, outside_putRowMap hRowMap, outside_ite, ite_self]

theorem outside_basinCorrected (s : State) : outside B (basinCorrected s) = outside B s := by
  simp only [basinCorrected, outside_raise, outside_addCnt64]

theorem outside_basinUncorrectable (s : State) : outside B (basinUncorrectable s) = outside B s := by
  simp only [basinUncorrectable, outside_raise, outside_addHold]

theorem outside_basinRepair (p : Nat) (e : BasinErr) (s : State) : outside B (basinRepair p e s) = outside B s := by
  simp only [basinRepair, outside_basinCorrected, outside_setChan, outside_setHw, outside_loss, outside_raise,
    outside_basinUncorrectable, outside_rowFailed, outside_ite, ite_self]

theorem outside_keepHeader (p : Nat) (l : List Byte) (s : State) : outside B (keepHeader p l s) = outside B s := by
  simp only [keepHeader, outside_setHw, outside_each, implies_true]

theorem outside_trimSlots (p : Nat) (s : State) : outside B (trimSlots p s) = outside B s := by rfl

theorem outside_boundaryActs (p acts : Nat) (s : State) : outside B (boundaryActs p acts s) = outside B s := by
  simp only [boundaryActs, outside_mapSlots, outside_trimSlots, outside_raise, outside_cascadeBegin, outside_cascadeRestart,
    outside_ite, ite_self]

theorem outside_atBoundary (p acts : Nat) (s : State) : outside B (atBoundary p acts s) = outside B s := by
  simp only [atBoundary, outside_boundaryActs, outside_setLch, outside_ite, ite_self]

theorem outside_updateChannel (m : Nat → Word) (p : Nat) (t : Shot) (src : BinSrc × Option BinSrc) (k : Nat) (s : State) :
    outside B (updateChannel m p t src k s).1 = outside B s := by
  unfold updateChannel
  dsimp only
  repeat' split
  all_goals simp only [outside_setChan]

theorem outside_updateChannels (m : Nat → Word) (p : Nat) (t : Shot) (src : BinSrc × Option BinSrc) (n k : Nat)
    (s : State) :
    outside B (updateChannels m p t src n k s).1 = outside B s := by
  induction n generalizing k s with
  | zero => rfl
  | succ n ih => exact (ih _ _).trans (outside_updateChannel m p t src k s)

theorem outside_processShot (p : Nat) (t : Shot) (lanes : List (List Int)) (ovr : Bool) (errs : List BasinErr) (s : State)
    :
    outside B (processShot p t lanes ovr errs s) = outside B s := by
  simp only [processShot, outside_boundaryActs, outside_basinRepair, outside_rill, outside_updateChannels, outside_addCnt64,
    outside_raise, outside_addHold, outside_raiseIf, outside_keepHeader, outside_setCsc, outside_nextIndex, outside_emitTap,
    outside_poolBins, outside_cascadeFrom, outside_each, outside_ite, ite_self, implies_true]

theorem outside_underWords {p : Nat} {w : Option (SMap Word)} {f : State → State} (h : ∀ s, outside B (f s) = outside B s)
    (s : State) :
    outside B (underWords p w f s) = outside B s := by
  cases w with
  | none => exact h s
  | some w => exact h { s with regs := { s.regs with active := _, overrides := _ } }

theorem outside_stashShots (p : Nat) (s : State) : outside B (stashShots p s) = outside B s := by rfl

theorem outside_poolEnds (p : Nat) (s : State) : outside B (poolEnds p s) = outside B s := by
  unfold poolEnds
  dsimp only
  split <;> simp only [outside_blockClose, outside_setLch]

theorem keeps_execBasinScrub (row : Nat) (found : BasinFound) : Keeps B (execBasinScrub row found) := by
  refine keeps_run fun s => ?_
  split <;> simp only [outside_basinCorrected, outside_basinUncorrectable, outside_clearRow, outside_rowFailed,
    outside_retireSpare, outside_ite, ite_self]

theorem keeps_execBasinRowRetire (hRowMap : B.rowMap = true) (row : Nat) : Keeps B (execBasinRowRetire row) :=
  keeps_run fun s => by simp only [outside_retireRow hRowMap, outside_ite, ite_self]

/-! ### Budget -/

theorem outside_budgetCheck (s : State) : outside B (budgetCheck s) = outside B s := by
  unfold budgetCheck
  refine outside_each (fun _ _ => ?_) _
  repeat' split
  all_goals simp only [outside_setHw, outside_sendEvent, outside_raise, outside_ite, ite_self]

/-! ### Cistern -/

theorem outside_ledgerFree (r off len : Nat) (s : State) : outside B (ledgerFree r off len s) = outside B s := by
  simp only [ledgerFree, outside_setCnt64, outside_addCnt64]

theorem outside_ledgerAlloc (r len : Nat) (s : State) : outside B (ledgerAlloc r len s) = outside B s := by
  simp only [ledgerAlloc, outside_addCnt64]

theorem outside_mapSeg (id : Nat) (f : Seg → Seg) (s : State) : outside B (mapSeg id f s) = outside B s := by rfl

theorem outside_writeDesc (x : Seg) (s : State) : outside B (writeDesc x s) = outside B s := by
  simp only [writeDesc, outside_dramWrite]

theorem outside_writeState (slot st : Nat) (s : State) : outside B (writeState slot st s) = outside B s := by
  simp only [writeState, outside_dramWrite]

theorem outside_rewriteState (id : Nat) (s : State) : outside B (rewriteState id s) = outside B s := by
  unfold rewriteState
  split <;> simp only [outside_writeState]

theorem outside_freeSeg (x : Seg) (s : State) : outside B (freeSeg x s) = outside B s := by
  simp only [freeSeg, outside_writeState, outside_putCis]

theorem outside_overwriteSeg (x : Seg) (s : State) : outside B (overwriteSeg x s) = outside B s := by
  simp only [overwriteSeg, outside_raise, outside_ledgerFree, outside_freeSeg]

theorem outside_clearRange (r a n : Nat) (s : State) : outside B (clearRange r a n s) = outside B s := by
  simp only [clearRange, outside_overwriteSeg, outside_each, implies_true]

theorem outside_setWst (u : UnitId) (x : Weir) (s : State) : outside B (setWst u x s) = outside B s := by
  unfold setWst
  split <;> simp only [outside_setUnit, outside_setWatch]

theorem outside_checkShort (r : Nat) (s : State) : outside B (checkShort r s) = outside B s := by
  unfold checkShort
  refine outside_each (fun _ _ => ?_) _
  repeat' split
  all_goals simp only [outside_raise, outside_setWst, outside_ite, ite_self]

theorem outside_chainAdvance (g : Seg) (digest : List Byte) (s : State) :
    outside B (chainAdvance g digest s) = outside B s := by rfl

theorem outside_dropAlloc (r : Nat) (u : UnitId) (s : State) : outside B (dropAlloc r u s) = outside B s := by rfl

theorem outside_returnAlloc (u : UnitId) (s : State) : outside B (returnAlloc u s) = outside B s := by
  simp only [returnAlloc, outside_dropAlloc, outside_setWst, outside_each, implies_true]

theorem outside_segmentOpen (hNextSeg : B.nextSeg = true) (r : Nat) (fires : List Fire) (s : State) :
    outside B (segmentOpen r fires s) = outside B s := by
  unfold segmentOpen
  split
  · rfl
  · split
    · rfl
    · extract_lets m lay steps before lay' need hi wall len s1 s2 cut tag x src s3 s4 opens merged s5
      have h1 : outside B s1 = outside B s := by simp only [s1, outside_ite, outside_clearRange, ite_self]
      have h2 : outside B s2 = outside B s1 := by
        simp only [s2, outside_each, outside_setWst, outside_dropAlloc, implies_true]
      have h3 : outside B s3 = outside B s2 := by simp [outside, s3, hNextSeg]
      have h4 : outside B s4 = outside B s3 := (outside_ledgerAlloc ..).trans (outside_writeDesc ..)
      have h5 : outside B s5 = outside B s4 := by simp only [s5, opens, outside_each, outside_setWst, implies_true]
      have h6 : outside B (each fires merged s5) = outside B s5 := outside_each (fun f t => by
        simp only [merged]
        split
        · exact outside_raise ..
        · rfl) s5
      rw [outside_ite, h6, ite_self, h5, h4, h3, h2, h1]

theorem outside_markLate (g : Seg) (s : State) : outside B (markLate g s) = outside B s := by
  simp only [markLate, outside_rewriteState, outside_mapSeg, outside_loss, outside_raise, outside_ite, ite_self]

theorem outside_poisonSeen (a n : Nat) (s : State) : outside B (poisonSeen a n s) = outside B s := by
  simp only [poisonSeen, outside_markLate, outside_each, implies_true]

theorem outside_markChannel (c : Nat) (s : State) : outside B (markChannel c s) = outside B s := by
  unfold markChannel
  refine outside_each (fun _ _ => ?_) _
  repeat' split
  all_goals simp only [outside_markLate, outside_mapSeg]

theorem outside_histEmpty (s : State) : outside B (histEmpty s) = outside B s := by rfl

theorem outside_cisRebuild (s : State) : outside B (cisRebuild s) = outside B s := by
  unfold cisRebuild
  extract_lets u cis
  have hu : outside B u = outside B s := by
    simp only [u, outside_histEmpty, outside_each, outside_ledgerFree, outside_loss, implies_true]
  clear_value u
  exact hu

theorem outside_lmsTake (s : State) : outside B (lmsTake s) = outside B s := by
  simp only [lmsTake, outside_otpSet, outside_raiseIf, outside_put]

theorem outside_lmsStart (s : State) : outside B (lmsStart s) = outside B s := by
  simp only [lmsStart, outside_otpDefer, outside_lmsTake, outside_put, outside_ite, ite_self]

theorem outside_lmsSpend (s : State) : outside B (lmsSpend s) = outside B s := by
  simp only [lmsSpend, outside_addCnt64, outside_raise, outside_lmsStart, outside_put, outside_ite, ite_self]

theorem outside_sealTimed (s : State) : outside B (sealTimed s) = outside B s := by rfl

theorem outside_makeSeal (demand : Bool) (s : State) : outside B (makeSeal demand s) = outside B s := by
  simp only [makeSeal, outside_setRegion, outside_setStamp, outside_setCnt64, outside_sealTimed, outside_sendEvent,
    outside_raise, outside_raiseIf, outside_lmsSpend, outside_each, outside_putCis, outside_ite, ite_self, implies_true]

theorem outside_lifecycleProceed (s : State) : outside B (lifecycleProceed s) = outside B s := by
  unfold lifecycleProceed
  dsimp only
  repeat' split
  all_goals simp only [outside_otpRequest, outside_answer]

theorem outside_sealMade (k : SealKind) (s : State) : outside B (sealMade k s) = outside B s := by
  cases k with
  | cmd => exact outside_cmdDone (f := fun s => { s with cis := { s.cis with nowWait := true } }) (fun _ => rfl) s
  | life => exact outside_lifecycleProceed s
  | interval => rfl
  | host => rfl

theorem outside_sealDo (k : SealKind) (s : State) : outside B (sealDo k s) = outside B s := by
  simp only [sealDo, outside_sealMade, outside_makeSeal]

theorem outside_sealDue (k : SealKind) (s : State) : outside B (sealDue k s) = outside B s := by
  simp only [sealDue, outside_sealDo, outside_raise, outside_lmsStart, outside_putCis, outside_ite, ite_self]

theorem keeps_execSealTimer : Keeps B execSealTimer :=
  keeps_run fun s => by simp only [outside_sealTimed, outside_sealDue, outside_ite, ite_self]

theorem keeps_execSealDeferredStart : Keeps B execSealDeferredStart := by
  refine keeps_run fun s => ?_
  split <;> simp only [outside_sealDo, outside_putCis, outside_ite, ite_self]

theorem outside_sealNowCommand (s : State) : outside B (sealNowCommand s) = outside B s := by
  simp only [sealNowCommand, outside_sealDue, outside_putCis, outside_ite, ite_self]

theorem keeps_execSealSpacingEnd : Keeps B execSealSpacingEnd :=
  keeps_run fun s => by simp only [outside_sealDue, outside_putCis, outside_ite, ite_self]

theorem outside_queueRead (n : Nat) (q : SegRead) (s : State) : outside B (queueRead n q s) = outside B s := by
  simp only [queueRead, outside_mapSeg, outside_setStream, outside_ite, ite_self]

theorem outside_autoQueue (r id len : Nat) (s : State) : outside B (autoQueue r id len s) = outside B s := by
  simp only [autoQueue, outside_queueRead, outside_raise, outside_setCnt64, outside_addHold, outside_each, outside_ite,
    ite_self, implies_true]

theorem keeps_execPinSuspensionEnd (u : UnitId) : Keeps B (execPinSuspensionEnd u) :=
  keeps_run fun s => by simp only [outside_raise, outside_setWst, outside_ite, ite_self]

theorem keeps_execSegQuery (ses seg : Nat) : Keeps B (execSegQuery ses seg) := by
  refine keeps_run (outside_hostCmd fun s => ?_)
  split <;> simp only [outside_answer]

theorem keeps_execSegPin (ses seg : Nat) : Keeps B (execSegPin ses seg) := by
  refine keeps_run (outside_hostCmd (outside_needLease fun s => ?_))
  split <;> simp only [outside_answer, outside_rewriteState, outside_mapSeg, outside_checkShort, outside_ite, ite_self]

theorem keeps_execSegUnpin (ses seg : Nat) : Keeps B (execSegUnpin ses seg) := by
  refine keeps_run (outside_hostCmd (outside_needLease fun s => ?_))
  split <;> simp only [outside_answer, outside_rewriteState, outside_mapSeg]

theorem keeps_execSegRelease (ses seg : Nat) : Keeps B (execSegRelease ses seg) := by
  refine keeps_run (outside_hostCmd (outside_needLease fun s => ?_))
  split <;> simp only [outside_answer, outside_ledgerFree, outside_freeSeg, outside_ite, ite_self]

theorem keeps_execSealCmd (ses : Nat) (nowFlag : Bool) (index : Nat) : Keeps B (execSealCmd ses nowFlag index) :=
  keeps_run fun s => by simp only [outside_hostCmd, outside_needLease, outside_answer, outside_sealDue, outside_ite,
    ite_self, implies_true]

/-! ### History -/

theorem outside_histPlan (s : State) : outside B (histPlan s) = outside B s := by rfl

theorem outside_histPut (key entry lo hi : Nat) (data : List Byte) (s : State) :
    outside B (histPut key entry lo hi data s) = outside B s := by
  unfold histPut
  split <;> simp only [outside_dramWrite, outside_addCnt64, outside_putCis, outside_ite, ite_self]

theorem outside_histGet (h : Hist) (entry off n : Nat) (s : State) :
    outside B (histGet h entry off n s).2 = outside B s := by
  simp only [histGet, outside_dramRead]

theorem outside_lanePut (lane b : Nat) (s : State) : outside B (lanePut lane b s) = outside B s := by
  simp only [lanePut, outside_histPut]

theorem outside_laneAppend (lane a : Nat) (xs : List (BitVec 16)) (zero : Bool) (s : State) :
    outside B (laneAppend lane a xs zero s) = outside B s := by
  simp only [laneAppend, outside_lanePut, outside_each, outside_put, outside_ite, ite_self, implies_true]

theorem outside_lanesFlush (s : State) : outside B (lanesFlush s) = outside B s := by
  simp only [lanesFlush, outside_lanePut, outside_each, outside_ite, ite_self, implies_true]

/-! ### Weir -/

theorem outside_bump (u : UnitId) (off n : Nat) (s : State) : outside B (bump u off n s) = outside B s := by
  unfold bump
  split <;> simp only [outside_addCnt64, outside_setWatch]

theorem outside_bumpMax (u : UnitId) (len : Nat) (s : State) : outside B (bumpMax u len s) = outside B s := by
  unfold bumpMax
  split <;> simp only [outside_setHw, outside_setCnt64, outside_setWatch, outside_ite, ite_self]

theorem outside_rearm (u : UnitId) (s : State) : outside B (rearm u s) = outside B s := by
  unfold rearm
  dsimp only
  repeat' split
  all_goals simp only [outside_setWst, outside_bumpMax, outside_bump, outside_setHw, outside_setCnt64]

theorem outside_openDead (u : UnitId) (s : State) : outside B (openDead u s) = outside B s := by
  simp only [openDead, outside_setWst, outside_ite, ite_self]

theorem outside_endHold (u : UnitId) (s : State) : outside B (endHold u s) = outside B s := by
  simp only [endHold, outside_setWst, outside_rearm, outside_ite, ite_self]

theorem outside_startHold (u : UnitId) (clk : Nat) (capture : Bool) (s : State) :
    outside B (startHold u clk capture s) = outside B s := by
  simp only [startHold, outside_setWst]

theorem outside_holdPast (u : UnitId) (clk : Nat) (s : State) : outside B (holdPast u clk s) = outside B s := by
  unfold holdPast
  split <;> simp only [outside_endHold, outside_ite, ite_self]

theorem outside_useHold (u : UnitId) (s : State) : outside B (useHold u s) = outside B s := by
  unfold useHold
  dsimp only
  split <;> simp only [outside_endHold, outside_setWst, outside_ite, ite_self]

theorem outside_askAlloc (u : UnitId) (s : State) : outside B (askAlloc u s) = outside B s := by
  simp only [askAlloc, outside_setWst]

theorem outside_condMet (clk : Nat) (f : Fire) (place flags chan : Nat) (s : State) :
    outside B (condMet clk f place flags chan s).2 = outside B s := by
  unfold condMet
  dsimp only
  repeat' split
  all_goals simp only [outside_holdPast, outside_bump, outside_setWst, outside_useHold, outside_startHold, outside_openDead,
    outside_raise, outside_rearm]

theorem outside_setAlarm (u : UnitId) (s : State) : outside B (setAlarm u s) = outside B s := by
  simp only [setAlarm, outside_timerSet, outside_raise, outside_setHw, outside_putWeir, outside_ite, ite_self]

theorem outside_clearAlarm (s : State) : outside B (clearAlarm s) = outside B s := by
  simp only [clearAlarm, outside_raise, outside_putWeir, outside_ite, ite_self]

theorem outside_pulsePin (k : Nat) (s : State) : outside B (pulsePin k s) = outside B s := by
  simp only [pulsePin, outside_timerSet, outside_addCnt, outside_put, outside_ite, ite_self]

theorem outside_fireEvent (h : Shoot) (s : State) : outside B (fireEvent h s) = outside B s := by
  simp only [fireEvent, outside_sendEvent]

theorem outside_noteFire (h : Shoot) (s : State) : outside B (noteFire h s) = outside B s := by
  unfold noteFire
  split <;> simp only [outside_setWst, outside_raise, outside_setHw, outside_setCnt64]

theorem outside_fireAll (hNextSeg : B.nextSeg = true) (l : List Shoot) (s : State) :
    outside B (fireAll l s) = outside B s := by
  unfold fireAll
  dsimp only
  simp only [outside_pulsePin, outside_each, outside_ite, ite_self, implies_true]
  split <;> simp only [outside_segmentOpen hNextSeg, outside_noteFire, outside_fireEvent, outside_setAlarm, outside_each,
    outside_ite, ite_self, implies_true]

theorem outside_restartUnit (u : Nat) (s : State) : outside B (restartUnit u s) = outside B s := by rfl

theorem outside_restartLaneUnits (s : State) : outside B (restartLaneUnits s) = outside B s := by
  simp only [restartLaneUnits, outside_restartUnit, outside_each, outside_ite, ite_self, implies_true]

theorem outside_armUnit (u : Nat) (s : State) : outside B (armUnit u s) = outside B s := by
  simp only [armUnit, outside_restartUnit, outside_setUnit, outside_askAlloc, outside_ite, ite_self]

theorem outside_disarmUnit (u : Nat) (s : State) : outside B (disarmUnit u s) = outside B s := by
  simp only [disarmUnit, outside_returnAlloc, outside_setUnit, outside_ite, ite_self]

theorem outside_deviceDisarm (u : Nat) (s : State) : outside B (deviceDisarm u s) = outside B s := by
  simp only [deviceDisarm, outside_raise, outside_disarmUnit, outside_ite, ite_self]

theorem outside_tinEdge (c : Nat) (t : Stamp) (s : State) : outside B (tinEdge c t s) = outside B s := by
  simp only [tinEdge, outside_setUnit, outside_each, outside_ite, ite_self, implies_true]

theorem outside_tinsShift (old new : Nat) (s : State) : outside B (tinsShift old new s) = outside B s := by
  simp only [tinsShift, outside_setUnit, outside_each, outside_ite, ite_self, implies_true]

theorem outside_unitConds (u : Nat) (i : Nat) (xs : List (Nat × Int)) (s : State) :
    outside B (unitConds u i xs s).1 = outside B s := by
  unfold unitConds
  dsimp only
  repeat' split
  all_goals simp only [outside_setUnit]

theorem outside_unitShoots (u : Nat) (spc : Nat) (l : List Int) (s : State) :
    outside B (unitShoots u spc l s).2 = outside B s := by
  simp only [unitShoots, outside_poolTrigger, outside_condMet, implies_true, outside_foldl_snd]

theorem keeps_execLaneTriggerCondition (hNextSeg : B.nextSeg = true) (i : Nat) (xs : List (Nat × Int)) :
    Keeps B (execLaneTriggerCondition i xs) :=
  keeps_run fun s => by simp only [outside_unitConds, outside_unitShoots, outside_rill, outside_fireAll hNextSeg,
    outside_ite, ite_self, implies_true, outside_foldl_snd]

theorem outside_watchTake (w : Nat) (t : TapSample) (l : List (Nat × Stamp)) (s : State) :
    outside B (watchTake w t l s).1 = outside B s := by
  unfold watchTake
  dsimp only
  split <;> simp only [outside_holdPast, outside_setWatch, outside_condMet]

theorem outside_watchesSettle (p : Nat) (s : State) : outside B (watchesSettle p s) = outside B s := by
  simp only [watchesSettle, outside_returnAlloc, outside_each, outside_ite, ite_self, implies_true]

theorem outside_watchStep (hNextSeg : B.nextSeg = true) (p : Nat) (s : State) : outside B (watchStep p s) = outside B s := by
  unfold watchStep
  split
  · rfl
  · dsimp only
    generalize hx : (if fOver _ _ = true then _ else _ : Bool × State) = x
    have hx : outside B x.2 = outside B s := by
      subst hx
      split <;> simp only [outside_freeNext, outside_setCsc]
    split
    · simp only [outside_raise, outside_addHold, outside_putWeir, hx]
    · rw [outside_watchesSettle, outside_fireAll hNextSeg]
      refine (outside_foldl_fst (fun acc w => ?_) _).trans ((outside_putWeir (s := x.2) ..).trans hx)
      dsimp only
      split
      · rfl
      · exact outside_watchTake ..

theorem keeps_execWatchCondition (hNextSeg : B.nextSeg = true) (port : Fin 4) : Keeps B (execWatchCondition port) :=
  keeps_run fun _ => outside_watchStep hNextSeg ..

theorem outside_watchesDrain (hNextSeg : B.nextSeg = true) (s : State) : outside B (watchesDrain s) = outside B s := by
  simp only [watchesDrain, outside_watchStep hNextSeg, outside_each, implies_true]

theorem outside_restartWatch (added : Bool) (w : Nat) (s : State) : outside B (restartWatch added w s) = outside B s := by rfl

theorem outside_removeWatch (w : Nat) (s : State) : outside B (removeWatch w s) = outside B s := by
  simp only [removeWatch, outside_returnAlloc, outside_setWatch]

theorem outside_watchesStart (p : Nat) (s : State) : outside B (watchesStart p s) = outside B s := by
  simp only [watchesStart, outside_askAlloc, outside_each, outside_ite, ite_self, implies_true]

theorem outside_watchesStop (p : Nat) (s : State) : outside B (watchesStop p s) = outside B s := by
  simp only [watchesStop, outside_raiseIf, outside_watchesSettle]

theorem keeps_execHoldoffExpiry (u : UnitId) : Keeps B (execHoldoffExpiry u) := by
  refine keeps_run fun s => ?_
  split <;> simp only [outside_endHold, outside_ite, ite_self]

theorem keeps_execPostWindowEnd (u : UnitId) : Keeps B (execPostWindowEnd u) := by
  refine keeps_run fun s => ?_
  dsimp only
  split <;> simp only [outside_setWst, outside_mapSeg, outside_openDead, outside_rearm, outside_askAlloc, outside_ite,
    ite_self]

theorem keeps_execAllocationAnswer (u : UnitId) : Keeps B (execAllocationAnswer u) := by
  refine keeps_run fun s => ?_
  dsimp only
  repeat' split
  all_goals simp only [outside_clearRange, outside_setRegion, outside_rearm, outside_setWst, outside_raiseIf]

theorem keeps_execTrigOutPulseEnd (pin : Fin 4) : Keeps B (execTrigOutPulseEnd pin) :=
  keeps_run fun s => by simp only [outside_timerStop, outside_put, outside_ite, ite_self]

theorem keeps_execAlarmPulseEnd : Keeps B execAlarmPulseEnd :=
  keeps_run fun s => by simp only [outside_clearAlarm, outside_ite, ite_self]

theorem keeps_execEvalLaneCheck (hLanes : B.lanes = true) (port : Fin 4) (lane : Nat) (laneOk spareOk : Bool) :
    Keeps B (execEvalLaneCheck port lane laneOk spareOk) :=
  keeps_run fun s => by simp only [outside_wearAdd, outside_raise, outside_budgetCheck, outside_putLanes hLanes,
    outside_ite, ite_self]

theorem keeps_execWatchStatus (ses first count : Nat) : Keeps B (execWatchStatus ses first count) :=
  keeps_run (outside_hostCmd fun _ => outside_answer ..)

/-! ### TimeBase -/

theorem outside_putSigned32 (a : Nat) (v : Int) (s : State) : outside B (putSigned32 a v s) = outside B s := by
  simp only [putSigned32, outside_setHw, outside_freeNext, outside_ite, ite_self]

theorem outside_setFreq (hTb : B.tb = true) (f : Int) (s : State) : outside B (setFreq f s) = outside B s := by
  simp only [setFreq, outside_rill, outside_putTb hTb]

theorem outside_noteValid (s : State) : outside B (noteValid s) = outside B s := by
  simp only [noteValid, outside_setStamp, outside_put, outside_ite, ite_self]

theorem outside_setTbState (hTb : B.tb = true) (x : TbState) (s : State) : outside B (setTbState x s) = outside B s := by
  unfold setTbState
  split <;> simp only [outside_raise, outside_timerSet, outside_setFreq hTb, outside_putTb hTb]

theorem outside_tbMeasured (hTb : B.tb = true) (th : Int) (s : State) : outside B (tbMeasured th s) = outside B s := by
  unfold tbMeasured
  split <;> simp only [outside_setTbState hTb, outside_putTb hTb, outside_ite, ite_self]

theorem outside_moveTime (hTb : B.tb = true) (d : Int) (s : State) : outside B (moveTime d s) = outside B s := by
  simp only [moveTime, outside_rill, outside_putTb hTb, outside_ite, ite_self]

theorem outside_stepTime (hTb : B.tb = true) (d : Int) (unset : Bool) (s : State) :
    outside B (stepTime d unset s) = outside B s := by
  simp only [stepTime, outside_moveTime hTb, outside_setStamp, outside_setCnt64, outside_addCnt, outside_raise,
    outside_putTb hTb]

theorem outside_measure (hTb : B.tb = true) (src : Nat) (th : Int) (s : State) :
    outside B (measure src th s) = outside B s := by
  simp only [measure, outside_putSigned32, outside_stepTime hTb, outside_setFreq hTb, outside_noteValid,
    outside_tbMeasured hTb, outside_timerSet, outside_putTb hTb, outside_ite, ite_self]

theorem outside_sourceChanged (hTb : B.tb = true) (hPtp : B.ptp = true) (s : State) :
    outside B (sourceChanged s) = outside B s := by
  simp only [sourceChanged, outside_noteValid, outside_setTbState hTb, outside_putPtp hPtp, outside_ite, ite_self]

theorem outside_backupOn (hTb : B.tb = true) (s : State) : outside B (backupOn s) = outside B s := by
  simp only [backupOn, outside_raise, outside_putTb hTb, outside_ite, ite_self]

theorem outside_backupOff (hTb : B.tb = true) (s : State) : outside B (backupOff s) = outside B s := by
  simp only [backupOff, outside_raise, outside_putTb hTb, outside_ite, ite_self]

theorem keeps_execBackupSteer (hTb : B.tb = true) : Keeps B execBackupSteer :=
  keeps_run fun s => by simp only [outside_timerGrid, outside_putTb hTb, outside_ite, ite_self]

theorem keeps_execHoldoverEntry (hTb : B.tb = true) (hPtp : B.ptp = true) : Keeps B execHoldoverEntry :=
  keeps_run fun s => by simp only [outside_setTbState hTb, outside_putPtp hPtp, outside_ite, ite_self]

theorem keeps_execFreerunEntry (hTb : B.tb = true) : Keeps B execFreerunEntry :=
  keeps_run fun s => by simp only [outside_setTbState hTb, outside_ite, ite_self]

theorem keeps_execPpsOutPulse : Keeps B execPpsOutPulse :=
  keeps_run fun s => by simp only [outside_timerSet, outside_put, outside_ite, ite_self]

theorem keeps_execPpsOutWidthEnd : Keeps B execPpsOutWidthEnd :=
  keeps_run fun s => by simp only [outside_timerStop, outside_put, outside_ite, ite_self]

theorem outside_utcNews (hTb : B.tb = true) (offset : Int) (l61 l59 : Bool) (s : State) :
    outside B (utcNews offset l61 l59 s) = outside B s := by
  simp only [utcNews, outside_setHw, outside_putTb hTb, outside_ite, ite_self]

theorem outside_utcFromCfg (hTb : B.tb = true) (s : State) : outside B (utcFromCfg s) = outside B s := by
  simp only [utcFromCfg, outside_utcNews hTb, outside_ite, ite_self]

theorem keeps_execLeapApply (hTb : B.tb = true) : Keeps B execLeapApply :=
  keeps_run fun s => by simp only [outside_raise, outside_setHw, outside_putTb hTb, outside_ite, ite_self]

theorem outside_ptpLinkLost (hPtp : B.ptp = true) (p : Nat) (s : State) : outside B (ptpLinkLost p s) = outside B s := by
  simp only [ptpLinkLost, outside_putPtp hPtp, outside_ite, ite_self]

theorem outside_ptpSend (p typ : Nat) (s : State) : outside B (ptpSend p typ s) = outside B s := by rfl

theorem keeps_execPtpMessage (hTb : B.tb = true) (hPtp : B.ptp = true) (port : Fin 2) (msg : PtpMsg) :
    Keeps B (execPtpMessage port msg) := by
  refine keeps_run fun s => ?_
  repeat' split
  all_goals simp only [outside_addCnt, outside_utcNews hTb, outside_setCnt64, outside_ptpSend, outside_measure hTb,
    outside_setCnt, outside_putPtp hPtp]

theorem keeps_execPtpSyncTx (hPtp : B.ptp = true) : Keeps B execPtpSyncTx :=
  keeps_run fun s => by simp only [outside_ptpSend, outside_putPtp hPtp, outside_ite, ite_self]

theorem keeps_execDelayReqTx (hPtp : B.ptp = true) : Keeps B execDelayReqTx :=
  keeps_run fun s => by simp only [outside_ptpSend, outside_putPtp hPtp, outside_ite, ite_self]

theorem keeps_execAnnounceTx (hPtp : B.ptp = true) : Keeps B execAnnounceTx :=
  keeps_run fun s => by simp only [outside_ptpSend, outside_putPtp hPtp, outside_ite, ite_self]

theorem outside_takeTime (hTb : B.tb = true) (t at' : Stamp) (s : State) :
    outside B (takeTime t at' s) = outside B s := by
  simp only [takeTime, outside_raise, outside_moveTime hTb, outside_noteValid, outside_setTbState hTb, outside_stepTime hTb,
    outside_ite, ite_self]

theorem keeps_execTimeSet (hTb : B.tb = true) (ses : Nat) (stamp : Stamp) (atPps : Bool) :
    Keeps B (execTimeSet ses stamp atPps) :=
  keeps_run (outside_hostCmd (outside_needLease fun s => by simp only [outside_answer, outside_timerSet, outside_setSes,
    outside_takeTime hTb, outside_ite, ite_self]))

theorem keeps_execTimeSetTimeout : Keeps B execTimeSetTimeout :=
  keeps_run fun s => by simp only [outside_answer, outside_each, implies_true]

theorem keeps_execTimeGet (ses : Nat) : Keeps B (execTimeGet ses) := keeps_run (outside_hostCmd fun _ => outside_answer ..)

/-! ### Tiu -/

theorem outside_setTiuCh (hChs : B.chs = true) (c : Nat) (x : TiuCh) (s : State) :
    outside B (setTiuCh c x s) = outside B s := outside_putChs hChs ..

theorem outside_setTiuCtx (hTiu : B.tiu = true) (m : Nat) (x : Ctx) (s : State) :
    outside B (setTiuCtx m x s) = outside B s := outside_putTiu hTiu ..

theorem outside_fifoPush (hTiu : B.tiu = true) (e : FifoEntry) (s : State) : outside B (fifoPush e s) = outside B s := by
  simp only [fifoPush, outside_raise, outside_addHold, outside_rill, outside_putTiu hTiu, outside_ite, ite_self]

theorem outside_latchStats (a : Nat) (xs : List Int) (s : State) : outside B (latchStats a xs s) = outside B s := by
  simp only [latchStats, outside_setCnt64]

theorem outside_statBlockEnd (hTiu : B.tiu = true) (k : Nat) (period : Bool) (s : State) :
    outside B (statBlockEnd k period s) = outside B s := by
  simp only [statBlockEnd, outside_latchStats, outside_setCnt64, outside_setCnt, outside_raise, outside_setTiuCtx hTiu,
    outside_ite, ite_self]

theorem outside_attempt (hTiu : B.tiu = true) (k typ source flags count : Nat) (start : Edge) (v : Option Int) (s : State)
    :
    outside B (attempt k typ source flags count start v s) = outside B s := by
  simp only [attempt, outside_rill, outside_raise, outside_fifoPush hTiu, outside_setTiuCtx hTiu, outside_statBlockEnd hTiu,
    outside_ite, ite_self]

theorem outside_intervalEnd (hTiu : B.tiu = true) (k : Nat) (start : Edge) (stop : Option Edge) (tap : Int) (s : State) :
    outside B (intervalEnd k start stop tap s) = outside B s := by
  unfold intervalEnd
  split <;> simp only [outside_setTiuCtx hTiu, outside_attempt hTiu]

theorem outside_intervalStart (hTiu : B.tiu = true) (k : Nat) (e : Edge) (s : State) :
    outside B (intervalStart k e s) = outside B s := by
  unfold intervalStart
  dsimp only
  split <;> simp only [outside_intervalEnd hTiu, outside_setTiuCtx hTiu]

theorem outside_intervalStop (hTiu : B.tiu = true) (k : Nat) (e : Edge) (s : State) :
    outside B (intervalStop k e s) = outside B s := by
  unfold intervalStop
  dsimp only
  split <;> simp only [outside_setTiuCtx hTiu, outside_intervalEnd hTiu, outside_ite, ite_self]

theorem outside_intervalEdge (hTiu : B.tiu = true) (k ch : Nat) (rising : Bool) (e : Edge) (s : State) :
    outside B (intervalEdge k ch rising e s) = outside B s := by
  unfold intervalEdge
  dsimp only
  repeat' split
  all_goals simp only [outside_intervalStop hTiu, outside_intervalStart hTiu, outside_setTiuCtx hTiu,
    outside_intervalEnd hTiu]

theorem outside_periodEdge (hTiu : B.tiu = true) (k : Nat) (stamped : Bool) (e : Edge) (s : State) :
    outside B (periodEdge k stamped e s) = outside B s := by
  unfold periodEdge
  dsimp only
  simp only
  split <;> simp only [outside_setTiuCtx hTiu, outside_attempt hTiu, outside_ite, ite_self]

theorem outside_contextsTake (hTiu : B.tiu = true) (ch : Nat) (rising stamped : Bool) (e : Edge) (s : State) :
    outside B (contextsTake ch rising stamped e s) = outside B s := by
  simp only [contextsTake, outside_periodEdge hTiu, outside_intervalEdge hTiu, outside_each, outside_ite, ite_self,
    implies_true]

theorem outside_ctxTimeout (hTiu : B.tiu = true) (k : Nat) (s : State) : outside B (ctxTimeout k s) = outside B s := by
  unfold ctxTimeout
  dsimp only
  split <;> simp only [outside_setTiuCtx hTiu, outside_attempt hTiu, outside_intervalEnd hTiu, outside_ite, ite_self]

theorem outside_ctxRestart (hTiu : B.tiu = true) (k : Nat) (s : State) : outside B (ctxRestart k s) = outside B s := by
  simp only [ctxRestart, outside_ctxTimeout hTiu, outside_setTiuCtx hTiu]

theorem outside_retireLine (hTiu : B.tiu = true) (line : Nat) (s : State) :
    outside B (retireLine line s) = outside B s := by
  simp only [retireLine, outside_wearAdd, outside_putTiu hTiu]

theorem outside_channelFails (hChs : B.chs = true) (c : Nat) (s : State) :
    outside B (channelFails c s) = outside B s := by
  simp only [channelFails, outside_raise, outside_setTiuCh hChs, outside_deviceDisarm, outside_each, outside_ite, ite_self,
    implies_true]

theorem outside_lineSwap (hTiu : B.tiu = true) (hChs : B.chs = true) (c : Nat) (s : State) :
    outside B (lineSwap c s) = outside B s := by
  unfold lineSwap
  dsimp only
  split <;> simp only [outside_retireLine hTiu, outside_channelFails hChs, outside_setHw, outside_raise,
    outside_setTiuCh hChs, outside_putTiu hTiu]

theorem outside_calibrate (hTiu : B.tiu = true) (hChs : B.chs = true) (c n1 n2 : Nat) (s : State) :
    outside B (calibrate c n1 n2 s) = outside B s := by
  simp only [calibrate, outside_setHw, outside_setTiuCh hChs, outside_raise, outside_lineSwap hTiu hChs, outside_ite,
    ite_self]

theorem keeps_execTiuRearm (hTiu : B.tiu = true) (hChs : B.chs = true) (ch : Fin 12) (n1 n2 : Nat) :
    Keeps B (execTiuRearm ch n1 n2) :=
  keeps_run fun s => by simp only [outside_calibrate hTiu hChs, outside_ite, ite_self]

theorem keeps_execTiuPeriodicCal (hTiu : B.tiu = true) (hChs : B.chs = true) (ch : Fin 12) (n1 n2 : Nat) :
    Keeps B (execTiuPeriodicCal ch n1 n2) :=
  keeps_run fun s => by simp only [outside_calibrate hTiu hChs, outside_ite, ite_self]

theorem outside_tiuActivate (hChs : B.chs = true) (old : Nat → Word) (c : Nat) (s : State) :
    outside B (tiuActivate old c s) = outside B s := by
  simp only [tiuActivate, outside_setTiuCh hChs, outside_ite, ite_self]

theorem keeps_execSpareLineCal (hTiu : B.tiu = true) (line : Fin 2) (n1 n2 : Nat) :
    Keeps B (execSpareLineCal line n1 n2) :=
  keeps_run fun s => by simp only [outside_timerGrid, outside_raise, outside_retireLine hTiu, outside_putTiu hTiu,
    outside_ite, ite_self]

theorem outside_ppsStamp (hTb : B.tb = true) (e : Edge) (s : State) : outside B (ppsStamp e s) = outside B s := by
  unfold ppsStamp
  dsimp only
  repeat' split
  all_goals simp only [outside_putSigned32, outside_rill, outside_measure hTb, outside_takeTime hTb, outside_answer,
    outside_noteValid, outside_tbMeasured hTb, outside_raise, outside_each, outside_putTb hTb, implies_true]

theorem outside_monitorStamp (p : Nat) (e : Edge) (s : State) : outside B (monitorStamp p e s) = outside B s := by
  simp only [monitorStamp, outside_rill, outside_setLch, outside_raise, outside_addHold, outside_ite, ite_self]

theorem outside_edgeStamp (hTb : B.tb = true) (hTiu : B.tiu = true) (hChs : B.chs = true) (ch c k : Nat) (rising : Bool)
    (s : State) :
    outside B (edgeStamp ch c k rising s) = outside B s := by
  simp only [edgeStamp, outside_contextsTake hTiu, outside_addHold, outside_setTiuCh hChs, outside_timerSet, outside_addCnt,
    outside_fifoPush hTiu, outside_monitorStamp, outside_ppsStamp hTb, outside_tinEdge, outside_rill, outside_ite, ite_self]

theorem keeps_execTiuEdgeStamp (hTb : B.tb = true) (hTiu : B.tiu = true) (hChs : B.chs = true) (ch : Fin 12) (c k : Nat)
    (rising : Bool) :
    Keeps B (execTiuEdgeStamp ch c k rising) :=
  keeps_run fun _ => outside_edgeStamp hTb hTiu hChs ..

theorem keeps_execPpsInEdge (hTb : B.tb = true) (hTiu : B.tiu = true) (hChs : B.chs = true) (c k : Nat) :
    Keeps B (execPpsInEdge c k) :=
  keeps_run fun _ => outside_edgeStamp hTb hTiu hChs ..

theorem keeps_execMeasurementTimeout (hTiu : B.tiu = true) (ctx : Fin 4) : Keeps B (execMeasurementTimeout ctx) := by
  refine keeps_run fun s => ?_
  split <;> simp only [outside_ctxTimeout hTiu, outside_ite, ite_self]

theorem outside_tiuStop (hTiu : B.tiu = true) (hChs : B.chs = true) (s : State) :
    outside B (tiuStop s) = outside B s := by
  simp only [tiuStop, outside_ctxRestart hTiu, outside_setTiuCh hChs, outside_raise, outside_each, implies_true]

/-! ### Launch -/

theorem outside_flightsDone (s : State) : outside B (flightsDone s) = outside B s := by
  simp only [flightsDone, outside_raise, outside_answer, outside_each, outside_put, outside_ite, ite_self, implies_true]

theorem outside_flightApplied (p : Nat) (t : Stamp) (s : State) : outside B (flightApplied p t s) = outside B s := by
  simp only [flightApplied, outside_flightsDone, outside_put]

theorem outside_launchPin (p : Nat) (high : Bool) (s : State) : outside B (launchPin p high s) = outside B s := by rfl

theorem outside_slotPin (p slot : Nat) (s : State) : outside B (slotPin p slot s) = outside B s := by
  simp only [slotPin, outside_setLch, outside_put, outside_ite, ite_self]

theorem outside_fibreApply (hChs : B.chs = true) (p : Nat) (t : Stamp) (s : State) :
    outside B (fibreApply p t s) = outside B s := by
  unfold fibreApply
  split
  · rfl
  · extract_lets old active new s1 engine s2 regs s3 moved s4 s5 prime restart seq x s6 s7 s8 s9
    have h2 : outside B s2 = outside B s := by simp only [s2, s1, outside_ite, outside_poolEnds, outside_stashShots, ite_self]
    have h3 : outside B s3 = outside B s2 := by simp only [s3, outside_histPlan, outside_tiuActivate hChs, outside_put]
    have h9 : outside B s9 = outside B s3 := by
      simp only [s9, s8, s7, s6, s5, s4, outside_ite, outside_slotPin, outside_launchPin, outside_atBoundary, outside_setLch,
        outside_blockStart, outside_ringDiscard, ite_self]
    rw [outside_flightApplied, h9, h3, h2]

theorem outside_phsEffect (p b : Nat) (s : State) : outside B (phsEffect p b s) = outside B s := by
  simp only [phsEffect, outside_atBoundary, outside_setLch, outside_ite, ite_self]

theorem outside_phsBoundary (p : Nat) (s : State) : outside B (phsBoundary p s) = outside B s := by
  simp only [phsBoundary, outside_each, outside_cmdDone, outside_phsEffect, outside_setLch, implies_true]

theorem outside_phsStart (p b : Nat) (s : State) : outside B (phsStart p b s) = outside B s := by
  simp only [phsStart, outside_setLch, outside_phsBoundary, outside_ite, ite_self]

theorem outside_cnvRaise (c slice e : Nat) (s : State) : outside B (cnvRaise c slice e s) = outside B s := by
  simp only [cnvRaise, outside_raiseFrom, outside_setHw]

theorem outside_fgLateCheck (p : Nat) (s : State) : outside B (fgLateCheck p s) = outside B s := by
  simp only [fgLateCheck, outside_cnvRaise, outside_put, outside_ite, ite_self]

theorem outside_jitterCheck (p : Nat) (s : State) : outside B (jitterCheck p s) = outside B s := by
  simp only [jitterCheck, outside_latchStats, outside_rill, outside_raise, outside_setCnt, outside_setLch, outside_ite,
    ite_self]

theorem outside_settleShot (p : Nat) (t : Shot) (s : State) : outside B (settleShot p t s).2 = outside B s := by
  unfold settleShot
  split <;> simp only [outside_addCnt64, outside_setLch, outside_raise, outside_setHw, outside_addHold, outside_jitterCheck,
    outside_ite, ite_self]

theorem outside_ledgerClose (p : Nat) (s : State) : outside B (ledgerClose p s) = outside B s := by
  simp only [ledgerClose, outside_setLch, outside_ite, ite_self]

theorem outside_closeFirst (p : Nat) (l : List Shot) (s : State) : outside B (closeFirst p l s).2 = outside B s := by
  induction l generalizing s with
  | nil => rfl
  | cons t ts ih =>
    rw [closeFirst]
    split
    · exact (outside_put ..).trans ((outside_settleShot ..).trans (outside_put ..))
    · exact ih s

theorem outside_closeWindow (p : Nat) (s : State) : outside B (closeWindow p s) = outside B s := by
  simp only [closeWindow, outside_closeFirst, outside_ledgerClose, outside_setLch]

theorem keeps_execMonitorWindowClose (port : Fin 4) : Keeps B (execMonitorWindowClose port) := by
  refine keeps_run fun s => ?_
  split <;> simp only [outside_closeWindow, outside_ite, ite_self]

theorem outside_closeAllWindows (p : Nat) (s : State) : outside B (closeAllWindows p s) = outside B s := by
  simp only [closeAllWindows, outside_closeWindow, outside_setLch, outside_each, implies_true]

theorem outside_jitterRestart (s : State) : outside B (jitterRestart s) = outside B s := by
  simp only [jitterRestart, outside_setLch, outside_each, implies_true]

theorem outside_alignLeave (p : Nat) (s : State) : outside B (alignLeave p s) = outside B s := by
  simp only [alignLeave, outside_setLch, outside_put]

theorem outside_overridesInstall (p : Nat) (s : State) : outside B (overridesInstall p s) = outside B s := by
  simp only [overridesInstall, outside_stashShots, outside_setLch, outside_put, outside_ite, ite_self]

theorem outside_disarmPort (hChs : B.chs = true) (p : Nat) (s : State) : outside B (disarmPort p s) = outside B s := by
  simp only [disarmPort, outside_setLch, outside_phsBoundary, outside_fibreApply hChs, outside_overridesInstall,
    outside_alignLeave, outside_watchesStop, outside_ledgerClose, outside_poolEnds, outside_slotPin, outside_ite, ite_self]

theorem outside_overridesApply (hChs : B.chs = true) (p : Nat) (s : State) :
    outside B (overridesApply p s) = outside B s := by
  simp only [overridesApply, outside_overridesInstall, outside_disarmPort hChs, outside_ite, ite_self]

theorem outside_gridNext (p : Nat) (s : State) : outside B (gridNext p s) = outside B s := by
  unfold gridNext
  dsimp only
  repeat' split
  all_goals simp only [outside_setLch, outside_fgLateCheck]

theorem outside_launchAt (hChs : B.chs = true) (p tick : Nat) (s : State) :
    outside B (launchAt p tick s) = outside B s := by
  unfold launchAt
  dsimp only
  repeat' split
  all_goals simp only [outside_phsBoundary, outside_fibreApply hChs, outside_settleShot, outside_setLch, outside_launchPin,
    outside_rill, outside_setStamp, outside_setCnt64]

theorem outside_withheld (p : Nat) (s : State) : outside B (withheld p s) = outside B s := by
  simp only [withheld, outside_raise, outside_addCnt64]

theorem outside_alignReach (p tick : Nat) (s : State) : outside B (alignReach p tick s) = outside B s := by rfl

theorem outside_launchMade (hChs : B.chs = true) (p tick : Nat) (s : State) :
    outside B (launchMade p tick s) = outside B s := by
  simp only [launchMade, outside_overridesApply hChs, outside_gridNext, outside_launchAt hChs, outside_ite, ite_self]

theorem keeps_execLaunch (hChs : B.chs = true) (port : Fin 4) : Keeps B (execLaunch port) := by
  refine keeps_run fun s => ?_
  dsimp only
  split <;> simp only [outside_setLch, outside_alignReach, outside_gridNext, outside_withheld, outside_launchMade hChs,
    outside_ite, ite_self]

theorem outside_gridStart (hChs : B.chs = true) (p tick : Nat) (s : State) :
    outside B (gridStart p tick s) = outside B s := by
  simp only [gridStart, outside_setLch, outside_gridNext, outside_launchAt hChs, outside_slotPin, outside_fgLateCheck]

theorem outside_firstLaunch (hChs : B.chs = true) (p : Nat) (s : State) : outside B (firstLaunch p s) = outside B s := by
  simp only [firstLaunch, outside_overridesApply hChs, outside_setLch, outside_alignReach, outside_raise,
    outside_gridStart hChs, outside_ite, ite_self]

theorem keeps_execFirstLaunch (hChs : B.chs = true) (port : Fin 4) : Keeps B (execFirstLaunch port) :=
  keeps_run fun s => by simp only [outside_firstLaunch hChs, outside_ite, ite_self]

theorem keeps_execSlotCodeUpdate (port : Fin 4) : Keeps B (execSlotCodeUpdate port) :=
  keeps_run fun s => by simp only [outside_slotPin, outside_ite, ite_self]

theorem keeps_execLaunchPulseEnd (port : Fin 4) : Keeps B (execLaunchPulseEnd port) :=
  keeps_run fun s => by simp only [outside_launchPin, outside_ite, ite_self]

theorem keeps_execFibreGroupApply (hChs : B.chs = true) (port : Fin 4) : Keeps B (execFibreGroupApply port) := by
  refine keeps_run fun s => ?_
  dsimp only
  repeat' split
  all_goals simp only [outside_fibreApply hChs, outside_overridesApply hChs]

theorem outside_alignStart (hChs : B.chs = true) (p tick : Nat) (s : State) :
    outside B (alignStart p tick s) = outside B s := by
  simp only [alignStart, outside_overridesApply hChs, outside_raiseIf, outside_gridStart hChs, outside_ite, ite_self]

theorem keeps_execAlignedCommonInstant (hChs : B.chs = true) : Keeps B execAlignedCommonInstant := by
  refine keeps_run fun s => ?_
  split <;> simp only [outside_alignStart hChs, outside_each, outside_put, implies_true]

theorem outside_armPort (p : Nat) (s : State) : outside B (armPort p s) = outside B s := by
  simp only [armPort, outside_setLch, outside_watchesStart, outside_atBoundary, outside_ite, ite_self]

theorem outside_windowsStop (s : State) : outside B (windowsStop s) = outside B s := by
  unfold windowsStop
  refine outside_each (fun _ _ => ?_) _
  dsimp only
  repeat' split
  all_goals simp only [outside_mapSeg, outside_setUnit]

theorem outside_launchesStop (hChs : B.chs = true) (s : State) : outside B (launchesStop s) = outside B s := by
  simp only [launchesStop, outside_each, outside_windowsStop, outside_setLch, outside_phsBoundary, outside_fibreApply hChs,
    outside_overridesApply hChs, outside_alignLeave, outside_ite, ite_self, implies_true]

theorem outside_launchesFresh (s : State) : outside B (launchesFresh s) = outside B s := by
  simp only [launchesFresh, outside_atBoundary, outside_setLch, outside_each, outside_ite, ite_self, implies_true]

/-! ### Raw -/

theorem outside_rawPush (n lane j count fl : Nat) (s : State) :
    outside B (rawPush n lane j count fl s) = outside B s := (outside_setStream ..).trans (outside_freeNext ..)

theorem outside_rawRest (k n lane j : Nat) (s : State) : outside B (rawRest k n lane j s) = outside B s := by
  induction k generalizing j s with
  | zero => rfl
  | succ k ih =>
    rw [rawRest]
    simp only [outside_ite, ih, outside_rawPush, ite_self]

theorem outside_rawCut (s : State) : outside B (rawCut s) = outside B s := by
  simp only [rawCut, outside_rawRest, outside_each, outside_ite, ite_self, implies_true]

/-! ### Ports -/

theorem outside_onQueue (p n : Nat) (f : List QItem → List QItem) (s : State) :
    outside B (onQueue p n f s) = outside B s := by
  simp only [onQueue, outside_setStream, outside_ite, ite_self]

theorem outside_startItem (p n deficit : Nat) (b : Bool) (t : Tx) (d : List Word) (s : State) :
    outside B (startItem p n deficit b t d s) = outside B s := by
  unfold startItem
  dsimp only
  simp only [outside_rill]
  split <;> simp only [outside_freeNext, outside_setPort, outside_setStream, outside_onQueue, outside_rnlCount, outside_ite,
    ite_self]

theorem keeps_execFrameTxStart (port' : Fin 2) : Keeps B (execFrameTxStart port') := by
  refine keeps_run fun s => ?_
  dsimp only
  repeat' split
  all_goals simp only [outside_rill, outside_setPort, outside_startItem]

theorem outside_delivered (p : Nat) (t : Tx) (s : State) : outside B (delivered p t s) = outside B s := by
  unfold delivered
  split <;> simp only [outside_onQueue, outside_setStream, outside_raise]

theorem keeps_execFrameTxEnd (port' : Fin 2) : Keeps B (execFrameTxEnd port') := by
  refine keeps_run fun s => ?_
  dsimp only
  split <;> simp only [outside_setPort, outside_rill, outside_delivered, outside_addCnt64]

theorem outside_txAbort (p : Nat) (s : State) : outside B (txAbort p s) = outside B s := by
  unfold txAbort
  dsimp only
  split <;> simp only [outside_setPort, outside_onQueue]

theorem outside_moveStream (n : Nat) (s : State) : outside B (moveStream n s) = outside B s := by
  simp only [moveStream, outside_raiseIf, outside_raise, outside_setStream, outside_ite, ite_self]

theorem outside_placeStreams (s : State) : outside B (placeStreams s) = outside B s := by
  simp only [placeStreams, outside_moveStream, outside_each, implies_true]

theorem outside_portGoesDown (hPtp : B.ptp = true) (p : Nat) (s : State) :
    outside B (portGoesDown p s) = outside B s := by
  simp only [portGoesDown, outside_txAbort, outside_setPort, outside_budgetCheck, outside_ptpLinkLost hPtp,
    outside_placeStreams, outside_raise, outside_ite, ite_self]

theorem keeps_execLinkFault (port' : Fin 2) : Keeps B (execLinkFault port') :=
  keeps_run fun s => by simp only [outside_txAbort, outside_setPort, outside_ite, ite_self]

theorem keeps_execFaultClear (hPtp : B.ptp = true) (port' : Fin 2) : Keeps B (execFaultClear port') :=
  keeps_run fun s => by simp only [outside_portGoesDown hPtp, outside_raise, outside_setPort, outside_ite, ite_self]

theorem keeps_execLinkHoldExpiry (hPtp : B.ptp = true) (port' : Fin 2) : Keeps B (execLinkHoldExpiry port') :=
  keeps_run fun s => by simp only [outside_portGoesDown hPtp, outside_ite, ite_self]

theorem keeps_execSerdesPllUnlock (hPtp : B.ptp = true) (port' : Fin 2) : Keeps B (execSerdesPllUnlock port') :=
  keeps_run fun s => by simp only [outside_portGoesDown hPtp, outside_setPort]

theorem outside_staticAddr (p : Nat) (s : State) : outside B (staticAddr p s) = outside B s := by
  simp only [staticAddr, outside_raiseIf, outside_setPort, outside_ite, ite_self]

theorem keeps_execLinkUp (port' : Fin 2) : Keeps B (execLinkUp port') :=
  keeps_run fun s => by simp only [outside_setPort, outside_budgetCheck, outside_placeStreams, outside_staticAddr,
    outside_raise, outside_ite, ite_self]

theorem keeps_execStreamReturn (n : Nat) : Keeps B (execStreamReturn n) :=
  keeps_run fun s => by simp only [outside_raise, outside_setStream, outside_ite, ite_self]

theorem keeps_execDhcpLeaseExpiry (port' : Fin 2) : Keeps B (execDhcpLeaseExpiry port') :=
  keeps_run fun s => by simp only [outside_raise, outside_setPort, outside_ite, ite_self]

theorem keeps_execDhcpRenewal (port' : Fin 2) (addr pre gw : Nat) : Keeps B (execDhcpRenewal port' addr pre gw) :=
  keeps_run fun s => by simp only [outside_raiseIf, outside_setPort, outside_ite, ite_self]

theorem keeps_execDadComplete (port' : Fin 2) (addr gw : Nat) (ok : Bool) :
    Keeps B (execDadComplete port' addr gw ok) :=
  keeps_run fun s => by simp only [outside_raise, outside_setPort, outside_raiseIf, outside_ite, ite_self]

theorem keeps_execNextHopRetry (port' : Fin 2) : Keeps B (execNextHopRetry port') :=
  keeps_run fun s => by simp only [outside_setPort, outside_ite, ite_self]

theorem outside_pfcSend (p : Nat) (xoff : Bool) (s : State) : outside B (pfcSend p xoff s) = outside B s := by
  simp only [pfcSend, outside_setPort, outside_addCnt, outside_ite, ite_self]

theorem keeps_execXonSend (port' : Fin 2) : Keeps B (execXonSend port') :=
  keeps_run fun s => by simp only [outside_pfcSend, outside_ite, ite_self]

theorem keeps_execPfcPauseExpiry (port' : Fin 2) (prio : Fin 8) : Keeps B (execPfcPauseExpiry port' prio) :=
  keeps_run fun _ => outside_setPort ..

/-! ### Converter -/

theorem outside_loadCoef (c slice : Nat) (m : SliceMeas) (s : State) :
    outside B (loadCoef c slice m s) = outside B s := by
  simp only [loadCoef, outside_setHw]

theorem outside_shotsSub (c q : Nat) (s : State) : outside B (shotsSub c q s) = outside B s := by
  unfold shotsSub
  dsimp only
  split <;> simp only [outside_setLch]

theorem outside_substitute (c q into : Nat) (quick : Bool) (s : State) :
    outside B (substitute c q into quick s).2 = outside B s := by
  simp only [substitute, outside_shotsSub, outside_setHw, outside_addCnt64, outside_setCnt64, outside_setConv]

theorem outside_noteOverride (o : Override) (s : State) : outside B (noteOverride o s) = outside B s := by
  simp only [noteOverride, outside_raise, outside_setHw]

theorem outside_laneFallback (hChs : B.chs = true) (c slice p : Nat) (s : State) :
    outside B (laneFallback c slice p s) = outside B s := by
  unfold laneFallback
  dsimp only
  split <;> simp only [outside_setLch, outside_cnvRaise, outside_noteOverride, outside_overridesApply hChs, outside_ite,
    ite_self]

theorem outside_windowStart (c : Nat) (s : State) : outside B (windowStart c s) = outside B s := by rfl

theorem outside_qcalEnd (c : Nat) (s : State) : outside B (qcalEnd c s) = outside B s := by rfl

theorem outside_qcalEight (c : Nat) (s : State) : outside B (qcalEight c s) = outside B s := by
  unfold qcalEight
  dsimp only
  split <;> simp only [outside_setConv, outside_windowStart, outside_fgLateCheck, outside_qcalEnd, outside_cnvRaise,
    outside_ite, ite_self]

theorem outside_qcalBegin (c : Nat) (s : State) : outside B (qcalBegin c s) = outside B s := by
  simp only [qcalBegin, outside_qcalEight, outside_setConv, outside_ite, ite_self]

theorem outside_qcalRun (l : List Nat) (s : State) : outside B (qcalRun l s) = outside B s := by
  simp only [qcalRun, outside_qcalBegin, outside_each, outside_put, outside_ite, ite_self, implies_true]

theorem outside_qcalAgain (s : State) : outside B (qcalAgain s) = outside B s := by
  simp only [qcalAgain, outside_qcalRun, outside_cmdDone, outside_ite, ite_self, implies_true, id_eq]

theorem outside_qcalFinish {c : Nat} {f : State → State} (h : ∀ s, outside B (f s) = outside B s) (s : State) :
    outside B (qcalFinish f c s) = outside B s := by
  simp only [qcalFinish, outside_ite, outside_flightsDone, outside_put, outside_cmdDone h, outside_cnvRaise, ite_self]

theorem outside_qcalCheck (c : Nat) (s : State) : outside B (qcalCheck c s) = outside B s := by
  simp only [qcalCheck, outside_qcalFinish, outside_qcalAgain, implies_true, id_eq]

theorem outside_qcalStart (l : List Nat) (s : State) : outside B (qcalStart l s) = outside B s := by
  simp only [qcalStart, outside_qcalCheck, outside_qcalRun, outside_ite, ite_self]

theorem outside_qcalCommand (s : State) : outside B (qcalCommand s) = outside B s := by
  simp only [qcalCommand, outside_qcalAgain, outside_rill, outside_qcalCheck]

theorem outside_fgCalCheck {f : State → State} (h : ∀ s, outside B (f s) = outside B s) (s : State) :
    outside B (fgCalCheck f s) = outside B s := by
  simp only [fgCalCheck, outside_ite, outside_cmdDone h, ite_self]

theorem outside_fgCalCommand (s : State) : outside B (fgCalCommand s) = outside B s := by
  simp only [fgCalCommand, outside_windowStart, outside_setConv, outside_rill, outside_cmdDone, outside_each, outside_ite,
    ite_self, implies_true, id_eq]

theorem outside_clockTerms (c : Nat) (ks : List Nat) (s : State) : outside B (clockTerms c ks s) = outside B s := by
  simp only [clockTerms, outside_addCnt64]

theorem outside_clocksRest (c : Nat) (s : State) : outside B (clocksRest c s) = outside B s := by
  simp only [clocksRest, outside_clockTerms, outside_setConv, outside_ite, ite_self]

theorem outside_convFail (hChs : B.chs = true) (c slice : Nat) (s : State) :
    outside B (convFail c slice s) = outside B s := by
  unfold convFail
  dsimp only
  simp only [outside_fgCalCheck, outside_fgCalCommand, outside_qcalCheck, implies_true]
  split <;> simp only [outside_clocksRest, outside_setConv, outside_cnvRaise, outside_deviceDisarm,
    outside_laneFallback hChs, outside_each, outside_ite, ite_self, implies_true]

theorem outside_retireSlice (hChs : B.chs = true) (c slice cause : Nat) (s : State) :
    outside B (retireSlice c slice cause s) = outside B s := by
  simp only [retireSlice, outside_setConv, outside_cnvRaise, outside_setHw, outside_wearAdd, outside_convFail hChs,
    outside_ite, ite_self]

theorem outside_spareGone (hChs : B.chs = true) (c : Nat) (s : State) : outside B (spareGone c s) = outside B s := by
  unfold spareGone
  dsimp only
  split <;> simp only [outside_setConv, outside_retireSlice hChs, outside_fgLateCheck, outside_each, implies_true]

theorem outside_replaceFaulty (hChs : B.chs = true) (c f into : Nat) (quick : Bool) (s : State) :
    outside B (replaceFaulty c f into quick s) = outside B s := by
  simp only [replaceFaulty, outside_spareGone hChs, outside_retireSlice hChs, outside_substitute]

theorem outside_spareEnd (hChs : B.chs = true) (c sp : Nat) (m : SliceMeas) (quick : Bool) (s : State) :
    outside B (spareEnd c sp m quick s) = outside B s := by
  unfold spareEnd
  dsimp only
  repeat' split
  all_goals simp only [outside_loadCoef, outside_replaceFaulty hChs, outside_substitute, outside_setConv,
    outside_spareGone hChs, outside_retireSlice hChs]

theorem keeps_execRotationPeriodEnd (hChs : B.chs = true) (c : Fin 16) (m : SliceMeas) :
    Keeps B (execRotationPeriodEnd c m) := by
  refine keeps_run fun s => ?_
  dsimp only
  split <;> simp only [outside_spareEnd hChs, outside_setConv, outside_ite, ite_self]

theorem keeps_execQcalStepEnd (hChs : B.chs = true) (c : Fin 16) (m : SliceMeas) : Keeps B (execQcalStepEnd c m) := by
  refine keeps_run fun s => ?_
  dsimp only
  split <;> simp only [outside_spareEnd hChs, outside_qcalCheck, outside_qcalEight, outside_setConv, outside_qcalEnd,
    outside_ite, ite_self]

theorem outside_iscFail (hChs : B.chs = true) (c q : Nat) (m : Option SliceMeas) (start : Stamp) (s : State) :
    outside B (iscFail c q m start s) = outside B s := by
  unfold iscFail
  dsimp only
  repeat' split
  all_goals simp only [outside_raiseAt, outside_setHw, outside_replaceFaulty hChs, outside_loadCoef, outside_setConv,
    outside_retireSlice hChs]

theorem keeps_execIscBlockEnd (hChs : B.chs = true) (c : Fin 16) (stats : List PosStat) (start : Stamp)
    (m : Option SliceMeas) :
    Keeps B (execIscBlockEnd c stats start m) :=
  keeps_run fun s => by simp only [outside_iscFail hChs, outside_qcalCheck, outside_qcalEight, outside_each, outside_ite,
    ite_self, implies_true]

theorem keeps_execFgWindowStart (c : Fin 16) : Keeps B (execFgWindowStart c) := by
  refine keeps_run fun s => ?_
  dsimp only
  split <;> simp only [outside_windowStart, outside_setConv, outside_ite, ite_self]

theorem keeps_execFgWindowEnd (hChs : B.chs = true) (c : Fin 16) (ms : List SliceMeas) :
    Keeps B (execFgWindowEnd c ms) :=
  keeps_run fun s => by simp only [outside_loadCoef, outside_setConv, outside_addCnt, outside_retireSlice hChs,
    outside_qcalCheck, outside_qcalEnd, outside_fgCalCheck, outside_fgCalCommand, outside_each, outside_ite, ite_self,
    implies_true]

theorem outside_lossCount (s : State) : outside B (lossCount s) = outside B s := by
  simp only [lossCount, outside_addCnt64, outside_each, outside_put, outside_ite, ite_self, implies_true]

theorem outside_convOff (c : Nat) (s : State) : outside B (convOff c s) = outside B s := by
  simp only [convOff, outside_clocksRest, outside_setConv]

theorem outside_modeCalDone (s : State) : outside B (modeCalDone s) = outside B s := by
  simp only [modeCalDone, outside_put, outside_ite, ite_self]

theorem outside_powerUpdate (s : State) : outside B (powerUpdate s) = outside B s := by
  simp only [powerUpdate, outside_convOff, outside_lossCount, outside_fgCalCheck, outside_fgCalCommand, outside_qcalCheck,
    outside_setConv, outside_modeCalDone, outside_qcalStart, outside_each, outside_ite, ite_self, implies_true]

theorem outside_modeCalibrate (s : State) : outside B (modeCalibrate s) = outside B s := by
  simp only [modeCalibrate, outside_setConv, outside_qcalStart, outside_each, outside_put, implies_true]

theorem outside_holdsShift (clocks : Nat) (s : State) : outside B (holdsShift clocks s) = outside B s := by
  unfold holdsShift
  refine outside_each (fun _ _ => ?_) _
  repeat' split
  all_goals simp only [outside_setUnit]

theorem outside_indicesRestart (s : State) : outside B (indicesRestart s) = outside B s := by
  simp only [indicesRestart, outside_holdsShift, outside_poolSkip, outside_setPol, outside_setStream, outside_lanesFlush,
    outside_clocksRest, outside_setConv, outside_tinsShift, outside_restartLaneUnits, outside_each, outside_put,
    implies_true]

theorem outside_laneTake (lane : Nat) (s : State) : outside B (laneTake lane s) = outside B s := by
  simp only [laneTake, outside_rill, outside_laneAppend, outside_setConv, outside_each, outside_ite, ite_self, implies_true]

theorem keeps_execInputLedgerNotice (c : Fin 16) (codes : List (List Int)) : Keeps B (execInputLedgerNotice c codes) :=
  keeps_run fun s => by simp only [outside_rill, outside_clockTerms, outside_setConv, outside_laneTake, outside_addHold,
    outside_cnvRaise, outside_ite, ite_self]

/-! ### Clock -/

theorem outside_pllStart (p : Nat) (s : State) : outside B (pllStart p s) = outside B s := by
  simp only [pllStart, outside_setPll, outside_ite, ite_self]

theorem outside_pllNoRef (p : Nat) (s : State) : outside B (pllNoRef p s) = outside B s := by
  simp only [pllNoRef, outside_setPll, outside_ite, ite_self]

theorem outside_pllDrives (p : Nat) (s : State) : outside B (pllDrives p s) = outside B s := by
  simp only [pllDrives, outside_setPll, outside_raiseIf, outside_put]

theorem outside_unlocked (p e : Nat) (s : State) : outside B (unlocked p e s) = outside B s := by
  simp only [unlocked, outside_raise, outside_addCnt]

theorem outside_sampleStop (hChs : B.chs = true) (s : State) : outside B (sampleStop s) = outside B s := by
  simp only [sampleStop, outside_launchesStop hChs, outside_rawCut, outside_put, outside_ite, ite_self]

theorem outside_sampleStopRate (hChs : B.chs = true) (s : State) : outside B (sampleStopRate s) = outside B s := by
  simp only [sampleStopRate, outside_launchesStop hChs, outside_rawCut, outside_pllStart, outside_put, outside_ite, ite_self]

theorem outside_sampleStart (s : State) : outside B (sampleStart s) = outside B s := by
  simp only [sampleStart, outside_lossCount, outside_indicesRestart, outside_modeCalDone, outside_modeCalibrate,
    outside_qcalStart, outside_flightsDone, outside_put, outside_ite, ite_self]

theorem keeps_execSampleClockResume (hChs : B.chs = true) : Keeps B execSampleClockResume :=
  keeps_run fun s => by simp only [outside_restartLaneUnits, outside_launchesFresh, outside_firstLaunch hChs, outside_each,
    outside_put, outside_ite, ite_self, implies_true]

theorem keeps_execSamplePllUnlock (hChs : B.chs = true) : Keeps B execSamplePllUnlock := by
  refine keeps_run fun s => ?_
  split <;> simp only [outside_unlocked, outside_pllStart, outside_sampleStop hChs]

theorem outside_tiuClockStop (hTb : B.tb = true) (hTiu : B.tiu = true) (hChs : B.chs = true) (s : State) :
    outside B (tiuClockStop s) = outside B s := by
  simp only [tiuClockStop, outside_backupOn hTb, outside_jitterRestart, outside_closeAllWindows, outside_tiuStop hTiu hChs,
    outside_each, implies_true]

theorem outside_timeRelock (hTb : B.tb = true) (hTiu : B.tiu = true) (hChs : B.chs = true) (s : State) :
    outside B (timeRelock s) = outside B s := by
  simp only [timeRelock, outside_pllStart, outside_tiuClockStop hTb hTiu hChs, outside_ite, ite_self]

theorem keeps_execTimePllUnlock (hTb : B.tb = true) (hTiu : B.tiu = true) (hChs : B.chs = true) :
    Keeps B execTimePllUnlock := by
  refine keeps_run fun s => ?_
  split <;> simp only [outside_unlocked, outside_pllStart, outside_tiuClockStop hTb hTiu hChs]

theorem keeps_execTiuClockReturn (hTb : B.tb = true) : Keeps B execTiuClockReturn :=
  keeps_run fun s => by simp only [outside_backupOff hTb, outside_ite, ite_self]

theorem outside_refSLost (hTb : B.tb = true) (hTiu : B.tiu = true) (hChs : B.chs = true) (s : State) :
    outside B (refSLost s) = outside B s := by
  simp only [refSLost, outside_sampleStop hChs, outside_tiuClockStop hTb hTiu hChs, outside_raise, outside_pllNoRef,
    outside_put, outside_ite, ite_self]

theorem outside_refSBack (s : State) : outside B (refSBack s) = outside B s := by
  simp only [refSBack, outside_pllStart, outside_put, outside_ite, ite_self]

theorem keeps_execRefclkSLoss (hTb : B.tb = true) (hTiu : B.tiu = true) (hChs : B.chs = true) :
    Keeps B execRefclkSLoss :=
  keeps_run fun _ => outside_refSLost hTb hTiu hChs ..

theorem outside_warmUpdate (s : State) : outside B (warmUpdate s) = outside B s := by
  simp only [warmUpdate, outside_pllStart, outside_setPll, outside_ite, ite_self]

theorem outside_coreDrives (s : State) : outside B (coreDrives s) = outside B s := by
  simp only [coreDrives, outside_timerStop, outside_pllDrives, outside_sampleStart, outside_warmUpdate, outside_raiseIf,
    outside_put]

theorem keeps_execCorePllUnlock (hChs : B.chs = true) (standby : Bool) : Keeps B (execCorePllUnlock standby) := by
  refine keeps_run fun s => ?_
  dsimp only
  repeat' split
  all_goals simp only [outside_pllStart, outside_addCnt, outside_sampleStop hChs, outside_timerSet, outside_unlocked,
    outside_put]

theorem keeps_execCoreRelockTimeout : Keeps B execCoreRelockTimeout := by
  refine keeps_run fun s => ?_
  dsimp only
  repeat' split
  all_goals simp only [outside_timerSet, outside_timerStop, outside_raise, outside_wearAdd, outside_setPll,
    outside_coreDrives, outside_pllStart, outside_put]

theorem keeps_execCorePllRetry (lockedA lockedB : Bool) : Keeps B (execCorePllRetry lockedA lockedB) :=
  keeps_run fun s => by simp only [outside_timerSet, outside_setPll, outside_ite, ite_self]

theorem outside_memGated (i : Nat) (s : State) : outside B (memGated i s) = outside B s := by
  simp only [memGated, outside_setDch, outside_budgetCheck, outside_setPll, outside_each, outside_ite, ite_self,
    implies_true]

theorem keeps_execMemPllUnlock (i : Fin 3) : Keeps B (execMemPllUnlock i) := by
  refine keeps_run fun s => ?_
  split <;> simp only [outside_memGated, outside_unlocked, outside_setPll]

theorem outside_retrainStart (c : Nat) (relock : Bool) (s : State) :
    outside B (retrainStart c relock s) = outside B s := by rfl

theorem outside_setupDone (s : State) : outside B (setupDone s) = outside B s := by
  simp only [setupDone, outside_flightsDone, outside_putDram, outside_ite, ite_self]

theorem outside_memBack (i : Nat) (s : State) : outside B (memBack i s) = outside B s := by
  simp only [memBack, outside_pllDrives, outside_retrainStart, outside_budgetCheck, outside_setupDone, outside_each,
    outside_putDram, outside_ite, ite_self, implies_true]

theorem keeps_execMemPllRelock (i : Fin 3) : Keeps B (execMemPllRelock i) := by
  refine keeps_run fun s => ?_
  split <;> simp only [outside_memBack, outside_ite, ite_self]

theorem outside_refCLost (hChs : B.chs = true) (s : State) : outside B (refCLost s) = outside B s := by
  simp only [refCLost, outside_sampleStop hChs, outside_raise, outside_pllNoRef, outside_memGated, outside_each,
    outside_put, outside_ite, ite_self, implies_true]

theorem outside_refCBack (s : State) : outside B (refCBack s) = outside B s := by
  simp only [refCBack, outside_timerSet, outside_pllStart, outside_each, outside_put, outside_ite, ite_self, implies_true]

theorem keeps_execRefclkCLoss (hChs : B.chs = true) : Keeps B execRefclkCLoss := keeps_run fun _ => outside_refCLost hChs ..

theorem keeps_execRefclkCReturn : Keeps B execRefclkCReturn := keeps_run fun _ => outside_refCBack ..

theorem keeps_execRefCountCheck (hTb : B.tb = true) (hTiu : B.tiu = true) (hChs : B.chs = true) (r : Ref) (count : Nat) :
    Keeps B (execRefCountCheck r count) := by
  refine keeps_run fun s => ?_
  dsimp only
  split <;> simp only [outside_refSBack, outside_refCBack, outside_timerSet, outside_raise, outside_refSLost hTb hTiu hChs,
    outside_pllNoRef, outside_refCLost hChs, outside_each, outside_put, outside_ite, ite_self, implies_true]

theorem keeps_execRefclkCCrosscheck (hChs : B.chs = true) (count : Nat) : Keeps B (execRefclkCCrosscheck count) :=
  keeps_run fun s => by simp only [outside_timerGrid, outside_refCBack, outside_refCLost hChs, outside_raise, outside_ite,
    ite_self]

theorem keeps_execAonTrim (hz : Nat) : Keeps B (execAonTrim hz) :=
  keeps_run fun s => by simp only [outside_timerGrid, outside_setHw, outside_put, outside_ite, ite_self]

theorem keeps_execPllLockDetect (p : Fin 7) : Keeps B (execPllLockDetect p) :=
  keeps_run fun s => by simp only [outside_timerSet, outside_setPll, outside_ite, ite_self]

theorem keeps_execSettleTimerExpiry (p : Fin 7) : Keeps B (execSettleTimerExpiry p) := by
  refine keeps_run fun s => ?_
  repeat' split
  all_goals simp only [outside_sampleStart, outside_pllDrives, outside_coreDrives, outside_setPll, outside_memBack]

/-! ### Seal -/

theorem outside_scanStart (scheduled : Bool) (s : State) : outside B (scanStart scheduled s) = outside B s := by
  simp only [scanStart, outside_raiseIf, outside_put, outside_ite, ite_self]

theorem keeps_execSealScanStart : Keeps B execSealScanStart := by
  refine keeps_run fun s => ?_
  dsimp only
  repeat' split
  all_goals simp only [outside_timerGrid, outside_scanStart, outside_put]

theorem outside_sealMarks (s : State) : outside B (sealMarks s) = outside B s := by
  simp only [sealMarks, outside_putCis, outside_ite, ite_self]

theorem outside_scanJudge (result : Word) (s : State) : outside B (scanJudge result s) = outside B s := by
  simp only [scanJudge, outside_raise, outside_addCnt, outside_sealMarks, outside_put, outside_ite, ite_self]

theorem keeps_execSealScanComplete : Keeps B execSealScanComplete := by
  refine keeps_run fun s => ?_
  split <;> simp only [outside_scanStart, outside_scanJudge, outside_cmdDone, outside_addCnt64, outside_setHw, outside_put,
    outside_ite, ite_self, implies_true]

theorem outside_noteHeld (s : State) : outside B (noteHeld s) = outside B s := by
  unfold noteHeld
  split <;> simp only [outside_raise, outside_put, outside_ite, ite_self]

/-! ### Power -/

theorem outside_setLog (hPwr : B.pwr = true) (i : Nat) (e : LogEntry) (s : State) :
    outside B (setLog i e s) = outside B s := outside_putPwr hPwr ..

theorem outside_windowEvent (code i : Nat) (s : State) : outside B (windowEvent code i s) = outside B s := by
  simp only [windowEvent, outside_sendEvent]

theorem outside_railNow (hPwr : B.pwr = true) (rail : Nat) (samples : List Int) (s : State) :
    outside B (railNow rail samples s) = outside B s := by
  unfold railNow
  split <;> simp only [outside_putPwr hPwr]

theorem outside_supplyMarks (start : Stamp) (s : State) : outside B (supplyMarks start s) = outside B s := by
  simp only [supplyMarks, outside_setLch, outside_each, outside_putCis, implies_true]

theorem outside_deferWaiting (s : State) : outside B (deferWaiting s) = outside B s := by
  simp only [deferWaiting, outside_raise, outside_addCnt, outside_ite, ite_self]

theorem keeps_execWindowOpen (hPwr : B.pwr = true) (rail : Fin 9) (samples : List Int) :
    Keeps B (execWindowOpen rail samples) :=
  keeps_run fun s => by simp only [outside_railNow hPwr, outside_deferWaiting, outside_addCnt64, outside_supplyMarks,
    outside_setLog hPwr, outside_noteHeld, outside_scanStart, outside_windowEvent, outside_raise, outside_rill,
    outside_putPwr hPwr, outside_ite, ite_self]

theorem outside_railJoin (hPwr : B.pwr = true) (rail : Nat) (samples : List Int) (s : State) :
    outside B (railJoin rail samples s) = outside B s := by
  unfold railJoin
  split <;> simp only [outside_setLog hPwr, outside_putPwr hPwr, outside_ite, ite_self]

theorem keeps_execRailJoinsWindow (hPwr : B.pwr = true) (rail : Fin 9) (samples : List Int) :
    Keeps B (execRailJoinsWindow rail samples) :=
  keeps_run fun s => by simp only [outside_railJoin hPwr, outside_railNow hPwr]

theorem outside_windowQcalEnd (hPwr : B.pwr = true) (s : State) : outside B (windowQcalEnd s) = outside B s := by
  simp only [windowQcalEnd, outside_setLog hPwr, outside_raise, outside_each, outside_putPwr hPwr, implies_true]

theorem keeps_execWindowClose (hPwr : B.pwr = true) (rails : List (List Int)) (longest : Nat) :
    Keeps B (execWindowClose rails longest) := by
  refine keeps_run fun s => ?_
  dsimp only
  split <;> simp only [outside_railJoin hPwr, outside_railNow hPwr, outside_setLog hPwr, outside_windowEvent, outside_raise,
    outside_rill, outside_windowQcalEnd hPwr, outside_qcalStart, outside_each, outside_putPwr hPwr, outside_ite, ite_self,
    implies_true]

theorem keeps_execWindowQcalDone (hPwr : B.pwr = true) : Keeps B execWindowQcalDone :=
  keeps_run fun s => by simp only [outside_windowQcalEnd hPwr, outside_ite, ite_self]

theorem keeps_execCommitHoldEnd (hPwr : B.pwr = true) : Keeps B execCommitHoldEnd := by
  refine keeps_run fun s => ?_
  split <;> simp only [outside_raise, outside_putPwr hPwr, outside_ite, ite_self]

theorem outside_thermalWatch (hPwr : B.pwr = true) (sensor : Nat) (v : Int) (s : State) :
    outside B (thermalWatch sensor v s) = outside B s := outside_putPwr hPwr ..

theorem outside_thermalSets (hPwr : B.pwr = true) (sensor : Fin 8) (value : BitVec 16) (s : State) :
    outside B (thermalSets sensor value s) = outside B s := by
  unfold thermalSets
  dsimp only
  rw [outside_ite, outside_raise, ite_self, outside_raiseIf, outside_raiseIf]
  exact (outside_putPwr hPwr ..).trans ((outside_setHw ..).trans (outside_setHw ..))

theorem keeps_execThermalReading (hPwr : B.pwr = true) (sensor : Fin 8) (value : BitVec 16) :
    Keeps B (execThermalReading sensor value) := by
  refine keeps_runBoot fun s => ?_
  have hwatch := outside_thermalWatch hPwr sensor.val (tempOf value) s
  generalize thermalWatch sensor.val (tempOf value) s = u at hwatch
  dsimp only
  split
  · exact hwatch
  · exact (outside_putBack ((outside_thermalSets hPwr ..).trans (outside_rill ..)) _).trans hwatch

/-! ### Acquire -/

theorem outside_armTargets (t : BitVec 16) (s : State) : outside B (armTargets t s) = outside B s := by
  simp only [armTargets, outside_armPort, outside_armUnit, outside_powerUpdate, outside_rill, outside_each, outside_put,
    outside_ite, ite_self, implies_true]

theorem keeps_execArm (hArms : B.arms = true) (ses : Nat) (targets : BitVec 16) (atTime : Option Stamp) :
    Keeps B (execArm ses targets atTime) := by
  refine keeps_run (outside_hostCmd (outside_needLease fun s => ?_))
  repeat' split
  all_goals simp only [outside_answer, outside_armTargets, outside_putArms hArms]

theorem keeps_execArmAtTime (hArms : B.arms = true) : Keeps B execArmAtTime :=
  keeps_run fun s => by simp only [outside_armTargets, outside_each, outside_putArms hArms, implies_true]

theorem outside_disarmTargets (hChs : B.chs = true) (hArms : B.arms = true) (t : BitVec 16) (s : State) :
    outside B (disarmTargets t s) = outside B s := by
  simp only [disarmTargets, outside_disarmPort hChs, outside_rill, outside_disarmUnit, outside_each, outside_put,
    outside_putArms hArms, outside_ite, ite_self, implies_true]

theorem keeps_execDisarm (hChs : B.chs = true) (hArms : B.arms = true) (ses : Nat) (targets : BitVec 16) :
    Keeps B (execDisarm ses targets) :=
  keeps_run (outside_hostCmd (outside_needLease fun s => by simp only [outside_answer, outside_disarmTargets hChs hArms]))

theorem outside_disarmAll (hChs : B.chs = true) (hArms : B.arms = true) (s : State) :
    outside B (disarmAll s) = outside B s := by
  simp only [disarmAll, outside_disarmTargets hChs hArms]

theorem keeps_execDisarmAll (hChs : B.chs = true) (hArms : B.arms = true) (ses : Nat) : Keeps B (execDisarmAll ses) :=
  keeps_run (outside_hostCmd fun s => by simp only [outside_answer, outside_disarmAll hChs hArms])

theorem keeps_execAcqState (ses : Nat) : Keeps B (execAcqState ses) :=
  keeps_run (outside_hostCmd fun _ => outside_answer ..)

theorem outside_noteHalt (s : State) : outside B (noteHalt s) = outside B s := by
  simp only [noteHalt, outside_raise, outside_setStamp]

theorem outside_haltStreams (s : State) : outside B (haltStreams s) = outside B s := by
  simp only [haltStreams, outside_noteHalt, outside_put]

theorem outside_setHalt (n : Nat) (halt : Bool) (s : State) : outside B (setHalt n halt s) = outside B s := by
  simp only [setHalt, outside_put, outside_ite, ite_self]

theorem keeps_execHaltStreams (ses : Nat) : Keeps B (execHaltStreams ses) :=
  keeps_run (outside_hostCmd fun s => by simp only [outside_answer, outside_haltStreams])

theorem outside_haltOne (n : Nat) (s : State) : outside B (haltOne n s) = outside B s := by
  simp only [haltOne, outside_noteHalt, outside_setHalt]

theorem keeps_execHaltStream (ses stream : Nat) : Keeps B (execHaltStream ses stream) :=
  keeps_run (outside_hostCmd fun s => by simp only [outside_answer, outside_haltOne])

theorem keeps_execStreamResume (ses stream : Nat) : Keeps B (execStreamResume ses stream) :=
  keeps_run (outside_hostCmd (outside_needLease fun s => by simp only [outside_answer, outside_raiseIf, outside_setHalt,
    outside_ite, ite_self]))

theorem outside_resumeAll (s : State) : outside B (resumeAll s) = outside B s := by
  simp only [resumeAll, outside_raiseIf, outside_put]

theorem keeps_execResumeAll (ses : Nat) : Keeps B (execResumeAll ses) :=
  keeps_run (outside_hostCmd (outside_needLease fun s => by simp only [outside_answer, outside_resumeAll, outside_ite,
    ite_self]))

theorem keeps_execHaltNFall (hChs : B.chs = true) (hArms : B.arms = true) : Keeps B execHaltNFall := by
  refine keeps_run fun s => ?_
  simp only [outside_raise, outside_disarmAll hChs hArms, outside_haltStreams, outside_put, outside_ite, ite_self]

theorem keeps_execHaltNRise : Keeps B execHaltNRise := by
  refine keeps_run fun s => ?_
  simp only [outside_raise, outside_put, outside_ite, ite_self]

theorem outside_oldestHeld (x : Stream) (s : State) : outside B (oldestHeld x s).2 = outside B s := by
  unfold oldestHeld
  split <;> simp only [outside_freeNext]

theorem keeps_execReplay (ses stream' first count : Nat) : Keeps B (execReplay ses stream' first count) :=
  keeps_run (outside_hostCmd fun s => by simp only [outside_answer, outside_oldestHeld, outside_setStream, outside_ite,
    ite_self])

theorem keeps_execStreamStatus (ses first count : Nat) : Keeps B (execStreamStatus ses first count) :=
  keeps_run (outside_hostCmd fun _ => outside_answer ..)

/-! ### Dram -/

theorem keeps_execWriteComplete (ch : Fin 9) : Keeps B (execWriteComplete ch) := by
  refine keeps_run fun s => ?_
  dsimp only
  repeat' split
  all_goals simp only [outside_setDch, outside_rill, outside_giveAnswer]

theorem outside_refreshIssue (c r : Nat) (s : State) : outside B (refreshIssue c r s) = outside B s := by
  simp only [refreshIssue, outside_raiseIf, outside_setDch]

theorem keeps_execRefreshDue (ch : Fin 9) (rank : Fin 2) : Keeps B (execRefreshDue ch rank) :=
  keeps_run fun s => by simp only [outside_setDch, outside_refreshIssue, outside_ite, ite_self]

theorem keeps_execPostponedRefresh (ch : Fin 9) (rank : Fin 2) : Keeps B (execPostponedRefresh ch rank) :=
  keeps_run fun s => by simp only [outside_refreshIssue, outside_each, outside_ite, ite_self, implies_true]

theorem keeps_execMprTempRead (ch : Fin 9) (rank : Fin 2) (status : BitVec 2) :
    Keeps B (execMprTempRead ch rank status) :=
  keeps_run fun s => by simp only [outside_setDch, outside_ite, ite_self]

theorem keeps_execZqcs (ch : Fin 9) : Keeps B (execZqcs ch) :=
  keeps_run fun s => by simp only [outside_setDch, outside_ite, ite_self]

theorem keeps_execPageIdleClose (ch : Fin 9) (bank : Nat) : Keeps B (execPageIdleClose ch bank) :=
  keeps_run fun s => by simp only [outside_setDch, outside_ite, ite_self]

theorem keeps_execPowerDownEntry (ch : Fin 9) (rank : Fin 2) : Keeps B (execPowerDownEntry ch rank) :=
  keeps_run fun s => by simp only [outside_setDch, outside_ite, ite_self]

theorem keeps_execSelfRefreshEntry (ch : Fin 9) : Keeps B (execSelfRefreshEntry ch) :=
  keeps_run fun s => by simp only [outside_setDch, outside_ite, ite_self]

theorem keeps_execScrubWake (ch : Fin 9) : Keeps B (execScrubWake ch) :=
  keeps_run fun s => by simp only [outside_chanWake, outside_ite, ite_self]

theorem keeps_execTrefwTableClear (ch : Fin 9) : Keeps B (execTrefwTableClear ch) :=
  keeps_run fun s => by simp only [outside_setDch, outside_ite, ite_self]

theorem outside_repairRow (c b cause : Nat) (s : State) : outside B (repairRow c b cause s) = outside B s := by
  simp only [repairRow, outside_addHold, outside_setDch, outside_wearAdd, outside_raise, outside_ite, ite_self]

theorem outside_noteCorrected (c b : Nat) (s : State) : outside B (noteCorrected c b s) = outside B s := by
  simp only [noteCorrected, outside_setDch, outside_repairRow, outside_ite, ite_self]

theorem outside_lastError (c b device : Nat) (bad scrub : Bool) (s : State) :
    outside B (lastError c b device bad scrub s) = outside B s := by
  simp only [lastError, outside_setHw]

theorem outside_demandRead (c : Nat) (q : DQ) (err : List Byte) (s : State) :
    outside B (demandRead c q err s).2 = outside B s := by
  unfold demandRead
  dsimp only
  repeat' split
  all_goals simp only [outside_lastError, outside_addCnt64, outside_noteCorrected, outside_raise, outside_freeNext,
    outside_repairRow, outside_setDch, outside_loss]

theorem keeps_execChannelRequest (ch : Fin 9) (req : DramReq) : Keeps B (execChannelRequest ch req) :=
  keeps_run fun s => by simp only [outside_demandRead, outside_chanWake, outside_setDch, outside_rillIssue,
    outside_schedule, outside_rill, outside_ite, ite_self]

theorem outside_scrubBurst (c b : Nat) (err : List Nat) (s : State) : outside B (scrubBurst c b err s) = outside B s := by
  unfold scrubBurst
  dsimp only
  repeat' split
  all_goals simp only [outside_countRead, outside_setDch, outside_lastError, outside_addCnt64, outside_noteCorrected,
    outside_writeBurst, outside_raise, outside_freeNext, outside_loss, outside_poisonSeen, outside_repairRow]

theorem keeps_execPatrolScrubRead (ch : Fin 9) (err : List Byte) : Keeps B (execPatrolScrubRead ch err) :=
  keeps_run fun s => by simp only [outside_setDch, outside_scrubBurst, outside_settle, outside_setHw, outside_addCnt,
    outside_ite, ite_self]

theorem outside_rehome (c d : Nat) (s : State) : outside B (rehome c d s) = outside B s := by
  simp only [rehome, outside_setDch]

theorem outside_takeIndex (hChmap : B.chmap = true) (c d : Nat) (s : State) :
    outside B (takeIndex c d s) = outside B s := outside_putChmap hChmap ..

theorem outside_migrateStart (c : Nat) (s : State) : outside B (migrateStart c s) = outside B s := by rfl

theorem outside_migrateAbort (s : State) : outside B (migrateAbort s) = outside B s := by
  simp only [migrateAbort, outside_setDch, outside_raise, outside_wearAdd, outside_putDram]

theorem outside_channelDies (hChmap : B.chmap = true) (c : Nat) (s : State) :
    outside B (channelDies c s) = outside B s := by
  simp only [channelDies, outside_markChannel, outside_setDch, outside_wearAdd, outside_raise, outside_rehome,
    outside_takeIndex hChmap, outside_budgetCheck, outside_putDram, outside_ite, ite_self]

theorem outside_migrateBurst (s : State) : outside B (migrateBurst s) = outside B s := by
  simp only [migrateBurst, outside_chanUse, outside_chanWake, outside_blockAccess, outside_setDch, outside_countRead,
    outside_loss, outside_raise, outside_each, outside_putDram, outside_ite, ite_self, implies_true]

theorem keeps_execMigrationCutover (hChmap : B.chmap = true) : Keeps B execMigrationCutover :=
  keeps_run fun s => by simp only [outside_rehome, outside_takeIndex hChmap, outside_setDch, outside_raise, outside_wearAdd,
    outside_putDram, outside_ite, ite_self]

theorem keeps_execMigrate (ses source : Nat) : Keeps B (execMigrate ses source) :=
  keeps_run (outside_hostCmd (outside_needLease fun s => by simp only [outside_answer, outside_migrateStart, outside_ite,
    ite_self]))

theorem outside_channelFaults (c : Nat) (s : State) : outside B (channelFaults c s) = outside B s := by
  simp only [channelFaults, outside_setDch, outside_raise, outside_migrateAbort, outside_ite, ite_self]

theorem keeps_execAlert (ch : Fin 9) : Keeps B (execAlert ch) :=
  keeps_run fun s => by simp only [outside_addHold, outside_channelFaults, outside_setDch, outside_ite, ite_self]

theorem outside_replayRetry (c : Nat) (s : State) : outside B (replayRetry c s) = outside B s := by
  simp only [replayRetry, outside_raise, outside_addCnt64, outside_setDch]

theorem keeps_execAlertNHigh (ch : Fin 9) : Keeps B (execAlertNHigh ch) :=
  keeps_run fun s => by simp only [outside_replayRetry, outside_ite, ite_self]

theorem outside_regrade (s : State) : outside B (regrade s) = outside B s := by
  simp only [regrade, outside_pllStart, outside_memGated, outside_each, outside_putDram, outside_ite, ite_self,
    implies_true]

theorem outside_gradeDrop (s : State) : outside B (gradeDrop s) = outside B s := by
  simp only [gradeDrop, outside_noteOverride, outside_regrade, outside_raise, outside_putDram]

theorem outside_retrainCommand (c : Nat) (s : State) : outside B (retrainCommand c s) = outside B s := by
  simp only [retrainCommand, outside_retrainStart, outside_cmdDone, outside_ite, ite_self, implies_true, id_eq]

theorem outside_retrainPassed (c : Nat) (s : State) : outside B (retrainPassed c s) = outside B s := by
  simp only [retrainPassed, outside_setDch, outside_raise, outside_replayRetry, outside_migrateStart, outside_putDram,
    outside_ite, ite_self]

theorem outside_retrainFailed (hChmap : B.chmap = true) (c : Nat) (s : State) :
    outside B (retrainFailed c s) = outside B s := by
  simp only [retrainFailed, outside_migrateAbort, outside_budgetCheck, outside_gradeDrop, outside_setDch,
    outside_channelDies hChmap, outside_ite, ite_self]

theorem keeps_execRetrainComplete (hChmap : B.chmap = true) (ch : Fin 9) (passed : Bool) :
    Keeps B (execRetrainComplete ch passed) :=
  keeps_run fun s => by simp only [outside_retrainPassed, outside_retrainFailed hChmap, outside_cmdDone,
    outside_retrainCommand, outside_setupDone, outside_ite, ite_self, implies_true]

theorem outside_newDramCommand (c : Nat) (s : State) : outside B (newDramCommand c s) = outside B s := by
  simp only [newDramCommand, outside_wearAdd, outside_setDch, outside_cmdDone, outside_ite, ite_self, implies_true, id_eq]

/-! ### Runnel -/

theorem outside_memRead (a n : Nat) (s : State) : outside B (memRead a n s).2 = outside B s := by
  unfold memRead
  split <;> simp only [outside_dramRead]

theorem outside_tiuTake (hTiu : B.tiu = true) (n : Nat) (s : State) : outside B (tiuTake n s).2 = outside B s :=
  outside_putTiu hTiu ..

theorem outside_readoutTake (e fuel n : Nat) (s : State) : outside B (readoutTake e fuel n s).2 = outside B s := by
  induction fuel generalizing n s with
  | zero => rfl
  | succ fuel ih =>
    rw [readoutTake]
    split
    · rfl
    · dsimp only
      split
      · rfl
      · simp only [ih, outside_ringRelease, outside_setPol, outside_memRead]

theorem outside_srcRead (hTiu : B.tiu = true) (x : RChan) (n : Nat) (s : State) :
    outside B (srcRead x n s).2 = outside B s := by
  unfold srcRead
  dsimp only
  repeat' split
  all_goals simp only [outside_tiuTake hTiu, outside_readoutTake, outside_memRead]

theorem outside_mboxPut (hMbox : B.mbox = true) (off : Nat) (l : List (Byte × Bool)) (s : State) :
    outside B (mboxPut off l s) = outside B s := by
  simp [outside, mboxPut, hMbox]

theorem outside_memWrite (hMbox : B.mbox = true) (a : Nat) (l : List (Byte × Bool)) (s : State) :
    outside B (memWrite a l s) = outside B s := by
  simp only [memWrite, outside_dramWrite, outside_mboxPut hMbox, outside_each, outside_ite, ite_self, implies_true]

theorem outside_dstWrite (hMbox : B.mbox = true) (x : RChan) (l : List (Byte × Bool)) (s : State) :
    outside B (dstWrite x l s) = outside B s := by
  simp only [dstWrite, outside_memWrite hMbox, outside_each, outside_ite, ite_self, implies_true]

theorem outside_hostBurst (hTiu : B.tiu = true) (hMbox : B.mbox = true) (c : Nat) (s : State) :
    outside B (hostBurst c s) = outside B s := by
  simp only [hostBurst, outside_srcRead hTiu, outside_dstWrite hMbox, outside_rnlCount, outside_setRch]

theorem keeps_execRunnelBurst (hTiu : B.tiu = true) (hMbox : B.mbox = true) : Keeps B execRunnelBurst := by
  refine keeps_run fun s => ?_
  split <;> simp only [outside_setRch, outside_addCnt64, outside_addCnt, outside_rnlCount, outside_migrateBurst,
    outside_hostBurst hTiu hMbox, outside_each, outside_putRnl, outside_ite, ite_self, implies_true]

theorem outside_chainOver (c : Nat) (st : RState) (s : State) : outside B (chainOver c st s) = outside B s := by
  simp only [chainOver, outside_setRch, outside_cmdDone, outside_ite, ite_self, implies_true, id_eq]

theorem outside_descDone (hMbox : B.mbox = true) (c status : Nat) (s : State) :
    outside B (descDone c status s) = outside B s := by
  simp only [descDone, outside_memWrite hMbox, outside_raiseIf, outside_sendEvent, outside_addCnt, outside_setRch,
    outside_loss, outside_raise, outside_chainOver, outside_ite, ite_self]

theorem outside_descFetch (c a : Nat) (s : State) : outside B (descFetch c a s).2.2 = outside B s := by
  unfold descFetch
  dsimp only
  repeat' split
  all_goals simp only [outside_memRead]

theorem outside_descLoad (c a : Nat) (d : Desc) (s : State) : outside B (descLoad c a d s) = outside B s := by rfl

theorem keeps_execRunnelDescFetch (hMbox : B.mbox = true) (ch : Fin 32) : Keeps B (execRunnelDescFetch ch) :=
  keeps_run fun s => by simp only [outside_descFetch, outside_descLoad, outside_descDone hMbox, outside_ite, ite_self]

theorem keeps_execRunnelDescComplete (hMbox : B.mbox = true) (ch : Fin 32) : Keeps B (execRunnelDescComplete ch) :=
  keeps_run fun s => by simp only [outside_descDone hMbox, outside_ite, ite_self]

theorem keeps_execFifoTimeout (hMbox : B.mbox = true) (ch : Fin 32) : Keeps B (execFifoTimeout ch) :=
  keeps_run fun s => by simp only [outside_raise, outside_descDone hMbox, outside_ite, ite_self]

theorem outside_rnlStop (c : Nat) (s : State) : outside B (rnlStop c s) = outside B s := by
  unfold rnlStop
  split <;> simp only [outside_chainOver, outside_setRch]

theorem keeps_execRunnelStopEffect (hMbox : B.mbox = true) (ch : Fin 32) : Keeps B (execRunnelStopEffect ch) := by
  refine keeps_run fun s => ?_
  dsimp only
  repeat' split
  all_goals simp only [outside_descDone hMbox, outside_chainOver, outside_raise, outside_setRch]

theorem outside_rnlStopSession (n : Nat) (s : State) : outside B (rnlStopSession n s) = outside B s := by
  simp only [rnlStopSession, outside_rnlStop, outside_each, outside_ite, ite_self, implies_true]

theorem outside_rnlStopAll (s : State) : outside B (rnlStopAll s) = outside B s := by
  simp only [rnlStopAll, outside_rnlStop, outside_each, outside_ite, ite_self, implies_true]

theorem outside_rnlProtect (hMbox : B.mbox = true) (s : State) : outside B (rnlProtect s) = outside B s := by
  simp only [rnlProtect, outside_raise, outside_descDone hMbox, outside_each, outside_ite, ite_self, implies_true]

theorem keeps_execRnlStart (ses ch desc : Nat) : Keeps B (execRnlStart ses ch desc) :=
  keeps_run (outside_hostCmd (outside_needLease fun s => by simp only [outside_answer, outside_descFetch, outside_descLoad,
    outside_setRch, outside_ite, ite_self]))

theorem keeps_execRnlStop (ses : Nat) (mask : BitVec 8) : Keeps B (execRnlStop ses mask) :=
  keeps_run (outside_hostCmd (outside_needLease fun s => by simp only [outside_answer, outside_rnlStop, outside_each,
    implies_true]))

theorem keeps_execMboxWrite (hMbox : B.mbox = true) (ses ch offset : Nat) (data : List Byte) :
    Keeps B (execMboxWrite ses ch offset data) :=
  keeps_run (outside_hostCmd (outside_needLease fun s => by simp only [outside_answer, outside_mboxPut hMbox]))

theorem keeps_execMboxRead (ses ch offset bytes : Nat) : Keeps B (execMboxRead ses ch offset bytes) :=
  keeps_run (outside_hostCmd fun _ => outside_answer ..)

/-! ### Ledger -/

theorem outside_snapTake (s : State) : outside B (snapTake s) = outside B s := by rfl

theorem outside_snapCommand (s : State) : outside B (snapCommand s) = outside B s := by
  simp only [snapCommand, outside_snapTake, outside_put, outside_ite, ite_self]

theorem outside_snapNext (s : State) : outside B (snapNext s) = outside B s := by
  simp only [snapNext, outside_snapCommand, outside_ite, ite_self]

theorem keeps_execLedgerSnapshot (ses : Nat) : Keeps B (execLedgerSnapshot ses) :=
  keeps_run (outside_hostCmd fun s => by simp only [outside_answer, outside_snapTake, outside_setSes, outside_put,
    outside_ite, ite_self])

theorem keeps_execSnapshotComplete : Keeps B execSnapshotComplete := by
  refine keeps_run fun s => ?_
  split <;> simp only [outside_raise, outside_setCnt64, outside_sendEvent, outside_answer, outside_cmdDone,
    outside_snapNext, outside_each, outside_put, outside_ite, ite_self, implies_true, id_eq]

theorem keeps_execLedgerRead (ses snap offset bytes : Nat) : Keeps B (execLedgerRead ses snap offset bytes) := by
  refine keeps_run (outside_hostCmd fun s => ?_)
  split <;> simp only [outside_answer]

theorem keeps_execReservoirRead (ses : Nat) : Keeps B (execReservoirRead ses) :=
  keeps_run (outside_hostCmd fun _ => outside_answer ..)

theorem outside_lifeProgram (n : Nat) (s : State) : outside B (lifeProgram n s) = outside B s := by
  simp only [lifeProgram, outside_raise, outside_otpSet]

theorem outside_lifeDefer (hPwr : B.pwr = true) (b : Nat) (s : State) : outside B (lifeDefer b s) = outside B s := by
  simp only [lifeDefer, outside_otpDefer, outside_putPwr hPwr, outside_ite, ite_self]

theorem keeps_execLifeHourBit (hPwr : B.pwr = true) : Keeps B execLifeHourBit := by
  refine keeps_run fun s => ?_
  simp only [outside_lifeDefer hPwr, outside_lifeProgram, outside_put, outside_ite, ite_self]

theorem keeps_execStressMinute (hPwr : B.pwr = true) : Keeps B execStressMinute := by
  refine keeps_run fun s => ?_
  simp only [outside_rill, outside_lifeDefer hPwr, outside_lifeProgram, outside_put, outside_ite, ite_self]

theorem keeps_execEventFoldTimer (addr src : Nat) : Keeps B (execEventFoldTimer addr src) := by
  refine keeps_run fun s => ?_
  dsimp only
  split <;> simp only [outside_sendEvent, outside_put, outside_ite, ite_self]

/-! ### Records -/

theorem outside_rawCreate (n : Nat) (s : State) : outside B (rawCreate n s) = outside B s := by
  unfold rawCreate
  split <;> simp only [outside_freeNext, outside_createRec, outside_setStream]

theorem outside_poolCreate (n : Nat) (s : State) : outside B (poolCreate n s) = outside B s := by
  unfold poolCreate
  dsimp only
  split <;> simp only [outside_memRead, outside_ringRelease, outside_setPol, outside_createRec, outside_ite, ite_self]

theorem outside_readsSkip (n : Nat) (s : State) : outside B (readsSkip n s) = outside B s := by
  unfold readsSkip
  dsimp only
  split <;> simp only [outside_setStream, outside_mapSeg]

theorem outside_segmentCreate (n : Nat) (s : State) : outside B (segmentCreate n s) = outside B s := by
  unfold segmentCreate
  dsimp only
  repeat' split
  all_goals simp only [outside_readsSkip, outside_memRead, outside_poisonSeen, outside_setStream, outside_createRec]

theorem outside_ledgerCreate (n : Nat) (s : State) : outside B (ledgerCreate n s) = outside B s := by
  unfold ledgerCreate
  dsimp only
  repeat' split
  all_goals simp only [outside_setStream, outside_createRec, outside_snapNext]

theorem outside_createReady (n : Nat) (s : State) : outside B (createReady n s) = outside B s := by
  simp only [createReady, outside_createRec, outside_setStream, outside_each, implies_true]

theorem keeps_execRecordCreate (n : Nat) : Keeps B (execRecordCreate n) := by
  refine keeps_run fun s => ?_
  dsimp only
  repeat' split
  all_goals simp only [outside_createRec, outside_setStream, outside_rawCreate, outside_when, outside_poolCreate,
    outside_segmentCreate, outside_ledgerCreate, implies_true]

theorem keeps_execEventLingerExpiry (n : Nat) : Keeps B (execEventLingerExpiry n) :=
  keeps_run fun s => by simp only [outside_createReady, outside_setStream, outside_ite, ite_self]

theorem keeps_execLedgerStreamPeriod (n : Nat) : Keeps B (execLedgerStreamPeriod n) :=
  keeps_run fun s => by simp only [outside_setStream, outside_snapTake, outside_raise, outside_addHold, outside_ite,
    ite_self]

theorem keeps_execSegRead (ses stream' seg offset bytes : Nat) : Keeps B (execSegRead ses stream' seg offset bytes) := by
  refine keeps_run (outside_hostCmd fun s => ?_)
  split <;> simp only [outside_answer, outside_queueRead, outside_ite, ite_self]

theorem outside_readsNext (n : Nat) (s : State) : outside B (readsNext n s) = outside B s := by
  unfold readsNext
  dsimp only
  repeat' split
  all_goals simp only [outside_mapSeg, outside_setStream]

theorem keeps_execSegmentReadEnd (n : Nat) : Keeps B (execSegmentReadEnd n) := by
  refine keeps_run fun s => ?_
  split <;> simp only [outside_readsNext, outside_ite, ite_self]

theorem keeps_execPoolRawRecordEnd (e : Fin 4) (samples : List Int) (poolBad : List Nat) :
    Keeps B (execPoolRawRecordEnd e samples poolBad) := by
  refine keeps_run fun s => ?_
  dsimp only
  split <;> simp only [outside_setPol, outside_poolSkip, outside_poolPoison, outside_poolTake, outside_ite, ite_self]

/-! ### Session -/

theorem outside_reloadShadows (s : State) : outside B (reloadShadows s) = outside B s := by rfl

theorem outside_leaseTo (by' : Nat) (n : Option Nat) (s : State) : outside B (leaseTo by' n s) = outside B s := by
  simp only [leaseTo, outside_raiseFrom, outside_put, outside_ite, ite_self]

theorem outside_leaseLost (n : Nat) (s : State) : outside B (leaseLost n s) = outside B s := by
  simp only [leaseLost, outside_leaseTo, outside_raise, outside_reloadShadows]

theorem outside_closeSession (n : Nat) (late : Bool) (s : State) : outside B (closeSession n late s) = outside B s := by
  unfold closeSession
  extract_lets s1 s2 regs s3 lgr s4
  have h2 : outside B s2 = outside B s := by
    simp only [s2, s1, outside_setSes, outside_rnlStopSession, outside_leaseLost, outside_ite, ite_self]
  have h4 : outside B s4 = outside B s2 := (outside_raiseFrom ..).trans ((outside_put ..).trans (outside_put ..))
  simp only [outside_ite, outside_raiseFrom, h4, h2, ite_self]

theorem outside_closeAfter (n : Nat) (s : State) : outside B (closeAfter n s) = outside B s := by rfl

/-! ### Security -/

theorem outside_attestReport (n : Nat) (nonce : List Byte) (s : State) :
    outside B (attestReport n nonce s) = outside B s := by
  simp only [attestReport, outside_raise, outside_setHw, outside_answer, outside_lmsSpend, outside_ite, ite_self]

theorem keeps_execAttest (ses : Nat) (nonce : List Byte) : Keeps B (execAttest ses nonce) := by
  refine keeps_run fun s => outside_hostCmd (fun s => ?_) s
  split
  · exact outside_answer ..
  · dsimp only
    split
    · exact outside_attestReport ..
    · exact (outside_lmsStart _).trans (outside_setSes ..)

theorem outside_attestsWaiting (s : State) : outside B (attestsWaiting s) = outside B s := by
  unfold attestsWaiting
  refine outside_each (fun _ _ => ?_) _
  repeat' split
  all_goals simp only [outside_attestReport]

theorem keeps_execLmsEpochReady : Keeps B execLmsEpochReady :=
  keeps_run fun s => by simp only [outside_lmsTake, outside_attestsWaiting, outside_raise, outside_put, outside_ite,
    ite_self]

theorem keeps_execAttestTokenRefill : Keeps B execAttestTokenRefill := by
  refine keeps_run fun s => ?_
  simp only [outside_rill, outside_put, outside_ite, ite_self]

theorem keeps_execNoiseTestFail : Keeps B execNoiseTestFail := by
  refine keeps_run fun s => ?_
  simp only [outside_raise, outside_put]

theorem keeps_execNoiseTestPass : Keeps B execNoiseTestPass := by
  refine keeps_run fun s => ?_
  simp only [outside_put, outside_ite, ite_self]

theorem outside_lockViolation (a : Nat) (s : State) : outside B (lockViolation a s) = outside B s := by
  simp only [lockViolation, outside_raise, outside_setHw, outside_addCnt]

theorem keeps_execRootInstall (ses slot : Nat) (ecdsa lms : List Byte) :
    Keeps B (execRootInstall ses slot ecdsa lms) :=
  keeps_run (outside_hostCmd fun s => by simp only [outside_answer, outside_lockViolation, outside_raise,
    outside_otpRequest, outside_ite, ite_self])

theorem keeps_execRootRevoke (ses slot : Nat) : Keeps B (execRootRevoke ses slot) := by
  refine keeps_run (outside_hostCmd (outside_needLease fun s => ?_))
  simp only [outside_answer, outside_closeAfter, outside_raise, outside_otpRequest, outside_each, outside_closeSession,
    outside_ite, ite_self, implies_true]

theorem keeps_execGmacKeySet (ses slot : Nat) (clear : Bool) (key : List Byte) :
    Keeps B (execGmacKeySet ses slot clear key) := by
  refine keeps_run (outside_hostCmd (outside_needLease fun s => ?_))
  simp only [outside_answer, outside_raise, outside_put, outside_ite, ite_self]

theorem keeps_execLifecycleAdvance (ses target : Nat) (confirm : Word) :
    Keeps B (execLifecycleAdvance ses target confirm) :=
  keeps_run (outside_hostCmd (outside_needLease fun s => by simp only [outside_answer, outside_sealDue, outside_setSes,
    outside_put, outside_ite, ite_self]))

theorem keeps_execEcho (ses : Nat) (data : List Byte) : Keeps B (execEcho ses data) :=
  keeps_run (outside_hostCmd fun _ => outside_answer ..)

/-! ### Commit -/

theorem keeps_execSealQuery (ses : Nat) (mask : BitVec 16) : Keeps B (execSealQuery ses mask) :=
  keeps_run (outside_hostCmd fun _ => outside_answer ..)

theorem outside_commitRefuse (n st : Nat) (data : List Byte) (s : State) :
    outside B (commitRefuse n st data s) = outside B s := by
  simp only [commitRefuse, outside_answer, outside_raise]

theorem outside_commitAccept (n : Nat) (mask : BitVec 16) (aligned : Bool) (stamp : Option Stamp) (expected : Word)
    (image : SMap Word) (adopt : Bool) (s : State) :
    outside B (commitAccept n mask aligned stamp expected image adopt s) = outside B s := by
  simp only [commitAccept, outside_commitRefuse, outside_noteHeld, outside_setSes, outside_put, outside_ite, ite_self]

theorem outside_commitCheck (n : Nat) (mask : BitVec 16) (aligned : Bool) (stamp : Option Stamp) (expected : Word)
    (s : State) : outside B (commitCheck n mask aligned stamp expected s) = outside B s := by
  unfold commitCheck
  dsimp only
  repeat' split
  all_goals simp only [outside_commitRefuse, outside_commitAccept]

theorem keeps_execCommit (ses : Nat) (mask : BitVec 16) (aligned : Bool) (stamp : Option Stamp) (expected : Word) :
    Keeps B (execCommit ses mask aligned stamp expected) := by
  refine keeps_run fun s => ?_
  simp only [outside_commitRefuse, outside_commitCheck, outside_ite, ite_self]

theorem outside_strobeRegs (q : QCommit) (s : State) : outside B (strobeRegs q s) = outside B s := by rfl

theorem outside_fallbackAgain (hChs : B.chs = true) (had : List Override) (s : State) :
    outside B (fallbackAgain had s) = outside B s := by
  refine outside_each (fun p t => ?_) s
  repeat' split
  all_goals simp only [outside_noteOverride, outside_overridesApply hChs, outside_setLch]

theorem outside_fallbackDrop (q : QCommit) (s : State) : outside B (fallbackDrop q s).2 = outside B s := by
  unfold fallbackDrop
  split <;> simp only [outside_setLch, outside_each, implies_true]

theorem outside_strobeBefore (hTiu : B.tiu = true) (hNextSeg : B.nextSeg = true) (l : List Nat) (s : State) :
    outside B (strobeBefore l s) = outside B s := by
  simp only [strobeBefore, outside_watchesDrain hNextSeg, outside_ctxRestart hTiu, outside_stashShots, outside_mseedClose,
    outside_setStream, outside_each, outside_ite, ite_self, implies_true]

theorem outside_strobeClocks (hTb : B.tb = true) (hTiu : B.tiu = true) (hChs : B.chs = true) (q : QCommit)
    (old : Nat → Word) (s : State) : outside B (strobeClocks q old s) = outside B s := by
  simp only [strobeClocks, outside_timeRelock hTb hTiu hChs, outside_sampleStopRate hChs, outside_modeCalibrate,
    outside_indicesRestart, outside_warmUpdate, outside_put, outside_ite, ite_self]

theorem outside_strobeTime (hTb : B.tb = true) (hPtp : B.ptp = true) (old : Nat → Word) (s : State) :
    outside B (strobeTime old s) = outside B s := by
  simp only [strobeTime, outside_sourceChanged hTb hPtp, outside_utcFromCfg hTb, outside_ite, ite_self]

theorem outside_captureChange (old : Nat → Word) (u : UnitId) (s : State) :
    outside B (captureChange old u s) = outside B s := by
  simp only [captureChange, outside_returnAlloc, outside_rearm, outside_setWst, outside_askAlloc, outside_ite, ite_self]

theorem outside_strobeWeir (l : List Nat) (old : Nat → Word) (s : State) :
    outside B (strobeWeir l old s) = outside B s := by
  simp only [strobeWeir, outside_captureChange, outside_restartUnit, outside_restartWatch, outside_removeWatch,
    outside_each, outside_ite, ite_self, implies_true]

theorem outside_strobeReplay (old : Nat → Word) (s : State) : outside B (strobeReplay old s) = outside B s := by
  simp only [strobeReplay, outside_loss, outside_setStream, outside_each, outside_put, implies_true]

theorem outside_strobeStream (old : Nat → Word) (n : Nat) (s : State) :
    outside B (strobeStream old n s) = outside B s := by
  unfold strobeStream
  dsimp only
  repeat' split
  all_goals simp only [outside_mapSeg, outside_setStream]

theorem outside_strobeStreams (l : List Nat) (old : Nat → Word) (s : State) :
    outside B (strobeStreams l old s) = outside B s := by
  unfold strobeStreams
  dsimp only
  have h : outside B (each (touchedStreams l) (strobeStream old) s) = outside B s := outside_each (outside_strobeStream old) s
  split
  · exact h
  · refine (outside_each (fun n t => ?_) _).trans h
    split <;> simp only [outside_setStream]

theorem outside_portModeChange (hPtp : B.ptp = true) (p : Nat) (s : State) :
    outside B (portModeChange p s) = outside B s := by
  simp only [portModeChange, outside_txAbort, outside_setPort, outside_ptpLinkLost hPtp, outside_raise, outside_ite,
    ite_self]

theorem outside_strobePorts (hPtp : B.ptp = true) (l : List Nat) (old : Nat → Word) (s : State) :
    outside B (strobePorts l old s) = outside B s := by
  simp only [strobePorts, outside_portModeChange hPtp, outside_setPort, outside_staticAddr, outside_placeStreams,
    outside_each, outside_ite, ite_self, implies_true]

theorem outside_discardDram (id : Nat) (s : State) : outside B (discardDram id s) = outside B s := by
  simp only [discardDram, outside_loss, outside_cisRebuild, outside_ringDiscard, outside_setStream, outside_rnlStopAll,
    outside_raise, outside_each, outside_putDram, implies_true]

theorem outside_strobeDram (l : List Nat) (q : QCommit) (moves : Bool) (s : State) :
    outside B (strobeDram l q moves s) = outside B s := by
  simp only [strobeDram, outside_discardDram, outside_regrade, outside_putDram, outside_ite, ite_self]

theorem outside_strobeRings (q : QCommit) (old : Nat → Word) (s : State) :
    outside B (strobeRings q old s) = outside B s := by
  simp only [strobeRings, outside_ringDiscard, outside_each, outside_ite, ite_self, implies_true]

theorem outside_strobeFibres (hChs : B.chs = true) (q : QCommit) (s : State) :
    outside B (strobeFibres q s) = outside B s := by
  simp only [strobeFibres, outside_each, outside_fibreApply hChs, outside_put, outside_ite, ite_self, implies_true]

theorem outside_strobe (hTb : B.tb = true) (hTiu : B.tiu = true) (hChs : B.chs = true) (hPtp : B.ptp = true)
    (hMbox : B.mbox = true) (hNextSeg : B.nextSeg = true) (q : QCommit) (s : State) :
    outside B (strobe q s) = outside B s := by
  unfold strobe
  extract_lets moves had
  split
  rename_i waiting s1 hdrop
  have h1 : outside B s1 = outside B s := by rw [← outside_fallbackDrop q s, hdrop]
  extract_lets old l s2 s3 s4 f commits s5 s6 s7 s8 s9 s10 s11 s12
  have h4 : outside B s4 = outside B s1 := by
    simp only [s4, s3, s2, outside_raise, outside_addCnt, outside_each, outside_rill, outside_strobeRegs,
      outside_strobeBefore hTiu hNextSeg, implies_true]
  have h8 : outside B s8 = outside B s4 := by
    simp only [s8, s7, s6, s5, outside_strobeDram, outside_each, outside_tiuActivate hChs, outside_strobeTime hTb hPtp,
      outside_strobeClocks hTb hTiu hChs, outside_fallbackAgain hChs, outside_put, outside_ite, ite_self, implies_true]
  have h12 : outside B s12 = outside B s8 := by
    simp only [s12, s11, s10, s9, outside_strobePorts hPtp, outside_strobeReplay, outside_strobeStreams, outside_strobeWeir,
      outside_histPlan, outside_strobeFibres hChs, outside_strobeRings]
  rw [outside_budgetCheck, outside_flightsDone, outside_rnlProtect hMbox, outside_powerUpdate, h12, h8, h4, h1]

theorem keeps_execCommitStrobe (hTb : B.tb = true) (hTiu : B.tiu = true) (hChs : B.chs = true) (hPtp : B.ptp = true)
    (hMbox : B.mbox = true) (hNextSeg : B.nextSeg = true) : Keeps B execCommitStrobe := by
  refine keeps_run fun s => ?_
  split <;> simp only [outside_noteHeld, outside_strobe hTb hTiu hChs hPtp hMbox hNextSeg, outside_put, outside_ite, ite_self]

/-! ### Registers -/

theorem outside_latchFrom (n a : Nat) (s : State) : outside B (latchFrom n a s) = outside B s := by rfl

theorem outside_readWord (n : Nat) (active : Bool) (a : Nat) (s : State) :
    outside B (readWord n active a s).2 = outside B s := by
  unfold readWord
  repeat' split
  all_goals simp only [outside_latchFrom, outside_put]

theorem outside_readWords (n : Nat) (active : Bool) (l : List Nat) (s : State) :
    outside B (readWords n active l s).2 = outside B s := by
  induction l generalizing s with
  | nil => rfl
  | cons a l ih => exact (ih _).trans (outside_readWord n active a s)

theorem outside_regReadAll (n op : Nat) (active : Bool) (l : List Nat) (s : State) :
    outside B (regReadAll n op active l s) = outside B s := by
  unfold regReadAll
  split <;> simp only [outside_answer, outside_readWords]

theorem keeps_execRegRead (ses addr : Nat) (active : Bool) : Keeps B (execRegRead ses addr active) := by
  refine keeps_run (outside_hostCmd fun s => ?_)
  exact outside_regReadAll ..

theorem keeps_execRegReadBlock (ses addr count : Nat) (active : Bool) : Keeps B (execRegReadBlock ses addr count active) := by
  refine keeps_run (outside_hostCmd fun s => ?_)
  exact outside_regReadAll ..

theorem outside_polStart (e : Nat) (s : State) : outside B (polStart e s) = outside B s := by
  simp only [polStart, outside_cmdDone, outside_blockStart, outside_ite, ite_self, implies_true, id_eq]

theorem outside_polClose (e : Nat) (s : State) : outside B (polClose e s) = outside B s := by
  simp only [polClose, outside_cmdDone, outside_blockClose, implies_true, id_eq]

theorem outside_forceUnit (u : Nat) (s : State) : outside B (forceUnit u s) = outside B s := by
  simp only [forceUnit, outside_setUnit, outside_cmdDone, outside_rill, outside_ite, ite_self, implies_true, id_eq]

theorem outside_cmdAction (a b : Nat) (s : State) : outside B (cmdAction a b s) = outside B s := by
  unfold cmdAction
  split <;> simp only [outside_scanStart, outside_cmdDone, outside_reloadShadows, outside_qcalCommand, outside_fgCalCommand,
    outside_phsStart, outside_polStart, outside_polClose, outside_forceUnit, outside_clearAlarm, outside_sealNowCommand,
    outside_retrainCommand, outside_newDramCommand, outside_rnlStop, outside_resumeAll, outside_snapCommand, outside_ite,
    ite_self, implies_true, id_eq]

theorem outside_cmdStart (c : Nat × Nat) (s : State) : outside B (cmdStart c s) = outside B s := by
  simp only [cmdStart, outside_cmdAction, outside_setHw, outside_put, outside_ite, ite_self]

theorem outside_writeWord (e : Nat × Word) (s : State) : outside B (writeWord e s) = outside B s := by
  unfold writeWord
  split <;> simp only [outside_cmdStart, outside_otpRequest, outside_each, outside_put, outside_ite, ite_self, implies_true]

theorem outside_regWriteAll (n op : Nat) (l : List (Nat × Word)) (s : State) :
    outside B (regWriteAll n op l s) = outside B s := by
  unfold regWriteAll
  dsimp only
  repeat' split
  all_goals simp only [outside_answer, outside_lockViolation, outside_writeWord, outside_each, implies_true]

theorem keeps_execRegWrite (ses addr : Nat) (value : Word) : Keeps B (execRegWrite ses addr value) :=
  keeps_run (outside_hostCmd fun _ => outside_regWriteAll ..)

theorem keeps_execRegWriteBlock (ses addr : Nat) (values : List Word) : Keeps B (execRegWriteBlock ses addr values) :=
  keeps_run (outside_hostCmd fun _ => outside_regWriteAll ..)

theorem keeps_execStsClear (ses addr : Nat) (seq : BitVec 8) (mask : BitVec 24) :
    Keeps B (execStsClear ses addr seq mask) :=
  keeps_run (outside_hostCmd fun s => by simp only [outside_answer, outside_setHw, outside_put, outside_ite, ite_self])

theorem outside_bitWrite (n a : Nat) (v : Word) (s : State) : outside B (bitWrite n a v s) = outside B s := by
  simp only [bitWrite, outside_hostCmd, outside_regWriteAll, implies_true]

theorem keeps_execSealRescan (ses : Nat) : Keeps B (execSealRescan ses) := keeps_run fun _ => outside_bitWrite ..

theorem keeps_execReloadShadows (ses : Nat) : Keeps B (execReloadShadows ses) := keeps_run fun _ => outside_bitWrite ..

theorem keeps_execMemSpareWrite (ses : Nat) (value : Word) : Keeps B (execMemSpareWrite ses value) :=
  keeps_run fun _ => outside_bitWrite ..

theorem keeps_execQcal (ses : Nat) : Keeps B (execQcal ses) := keeps_run fun _ => outside_bitWrite ..

theorem keeps_execFgCal (ses : Nat) : Keeps B (execFgCal ses) := keeps_run fun _ => outside_bitWrite ..

theorem keeps_execZeroStrain (ses : Nat) (port : Fin 4) : Keeps B (execZeroStrain ses port) :=
  keeps_run fun _ => outside_bitWrite ..

theorem keeps_execReprime (ses : Nat) (port : Fin 4) : Keeps B (execReprime ses port) :=
  keeps_run fun _ => outside_bitWrite ..

theorem keeps_execPoolStart (ses : Nat) (engine : Fin 4) : Keeps B (execPoolStart ses engine) :=
  keeps_run fun _ => outside_bitWrite ..

theorem keeps_execPoolClose (ses : Nat) (engine : Fin 4) : Keeps B (execPoolClose ses engine) :=
  keeps_run fun _ => outside_bitWrite ..

theorem keeps_execForceTrigger (ses : Nat) (units : BitVec 8) : Keeps B (execForceTrigger ses units) :=
  keeps_run fun _ => outside_bitWrite ..

theorem keeps_execAlarmAck (ses : Nat) : Keeps B (execAlarmAck ses) := keeps_run fun _ => outside_bitWrite ..

theorem keeps_execSealNow (ses : Nat) : Keeps B (execSealNow ses) := keeps_run fun _ => outside_bitWrite ..

theorem keeps_execResumeAllBit (ses : Nat) : Keeps B (execResumeAllBit ses) := keeps_run fun _ => outside_bitWrite ..

theorem keeps_execRetrain (ses : Nat) (ch : Fin 9) : Keeps B (execRetrain ses ch) := keeps_run fun _ => outside_bitWrite ..

theorem keeps_execNewDram (ses : Nat) (ch : Fin 9) : Keeps B (execNewDram ses ch) := keeps_run fun _ => outside_bitWrite ..

theorem keeps_execRnlCmdStop (ses : Nat) (mask : BitVec 8) : Keeps B (execRnlCmdStop ses mask) :=
  keeps_run fun _ => outside_bitWrite ..

theorem keeps_execSnap (ses : Nat) : Keeps B (execSnap ses) := keeps_run fun _ => outside_bitWrite ..

/-! ### Sluice -/

theorem outside_sendReply (p : Nat) (dst : Peer) (bytes : List Byte) (s : State) :
    outside B (sendReply p dst bytes s) = outside B s := by rfl

theorem outside_malformed (s : State) : outside B (malformed s) = outside B s := by
  simp only [malformed, outside_addHold]

theorem outside_authFail (n : Nat) (s : State) : outside B (authFail n s) = outside B s := by
  simp only [authFail, outside_raiseFrom, outside_addHold]

theorem outside_windowDrop (s : State) : outside B (windowDrop s) = outside B s := by
  simp only [windowDrop, outside_addHold]

theorem outside_countDup (k : Nat) (s : State) : outside B (countDup k s) = outside B s := by
  simp only [countDup, outside_addCnt64]

theorem outside_countOld (k : Nat) (s : State) : outside B (countOld k s) = outside B s := by
  simp only [countOld, outside_addCnt64]

theorem outside_keepAliveMark (n p : Nat) (s : State) : outside B (keepAliveMark n p s) = outside B s := by rfl

theorem outside_acceptPkt (n p : Nat) (src : Peer) (seq : Nat) (cmds : List QCmd) (s : State) :
    outside B (acceptPkt n p src seq cmds s) = outside B s := by
  simp only [acceptPkt, outside_skipDead, outside_setSes]

theorem outside_noteDup (n p : Nat) (src : Peer) (seq : Nat) (s : State) :
    outside B (noteDup n p src seq s) = outside B s := by rfl

theorem outside_bySeq (n p : Nat) (src : Peer) (seq : Nat) (cmds : List QCmd) (s : State) :
    outside B (bySeq n p src seq cmds s) = outside B s := by
  unfold bySeq
  dsimp only
  repeat' split
  all_goals simp only [outside_acceptPkt, outside_windowDrop, outside_countOld, outside_sendReply, outside_countDup,
    outside_noteDup]

theorem outside_ordinary (n p : Nat) (src : Peer) (b body : List Byte) (s : State) :
    outside B (ordinary n p src b body s) = outside B s := by
  unfold ordinary
  split <;> simp only [outside_keepAliveMark, outside_malformed, outside_bySeq]

theorem outside_fastDo (hChs : B.chs = true) (hArms : B.arms = true) (c : QCmd) (s : State) :
    outside B (fastDo c s).2 = outside B s := by
  unfold fastDo
  split <;> split <;> simp only [outside_haltStreams, outside_haltOne, outside_disarmAll hChs hArms]

theorem outside_fastBySeq (hChs : B.chs = true) (hArms : B.arms = true) (n p : Nat) (src : Peer) (seq : Nat) (c : QCmd)
    (s : State) :
    outside B (fastBySeq n p src seq c s) = outside B s := by
  simp only [fastBySeq, outside_fastDo hChs hArms, outside_setSes, outside_raiseFrom, outside_addCnt, outside_countCmd,
    outside_sendReply, outside_countDup, outside_windowDrop, outside_ite, ite_self]

theorem outside_fastPacket (hChs : B.chs = true) (hArms : B.arms = true) (p : Nat) (src : Peer) (b : List Byte)
    (s : State) :
    outside B (fastPacket p src b s) = outside B s := by
  unfold fastPacket
  dsimp only
  repeat' split
  all_goals simp only [outside_authFail, outside_keepAliveMark, outside_malformed, outside_fastBySeq hChs hArms]

theorem outside_openAnswer (o : Opening) (status : Nat) (data : List Byte) (s : State) :
    outside B (openAnswer o status data s) = outside B s := by
  simp only [openAnswer, outside_countCmd, outside_sendReply, outside_raiseIf]

theorem outside_openArrives (o : Opening) (s : State) : outside B (openArrives o s) = outside B s := by
  unfold openArrives
  dsimp only
  split <;> simp only [outside_countDup, outside_sendReply, outside_openAnswer, outside_put, outside_ite, ite_self]

theorem outside_zeroPacket (p : Nat) (src : Peer) (b : List Byte) (s : State) :
    outside B (zeroPacket p src b s) = outside B s := by
  unfold zeroPacket
  split <;> simp only [outside_malformed, outside_openArrives, outside_put, outside_ite, ite_self]

theorem outside_sessionPacket (p : Nat) (src : Peer) (b : List Byte) (s : State) :
    outside B (sessionPacket p src b s) = outside B s := by
  unfold sessionPacket
  dsimp only
  repeat' split
  all_goals simp only [outside_authFail, outside_ordinary]

theorem outside_packetIn (hChs : B.chs = true) (hArms : B.arms = true) (p : Nat) (src : Peer) (b : List Byte) (s : State)
    :
    outside B (packetIn p src b s) = outside B s := by
  simp only [packetIn, outside_malformed, outside_fastPacket hChs hArms, outside_zeroPacket, outside_sessionPacket,
    outside_ite, ite_self]

theorem keeps_execSluicePacket (hChs : B.chs = true) (hArms : B.arms = true) (p : Fin 2) (src : Peer) (bytes : List Byte)
    :
    Keeps B (execSluicePacket p src bytes) :=
  keeps_run fun _ => outside_packetIn hChs hArms ..

theorem keeps_execFastPathPacket (hChs : B.chs = true) (hArms : B.arms = true) (p : Fin 2) (src : Peer)
    (bytes : List Byte) :
    Keeps B (execFastPathPacket p src bytes) :=
  keeps_run fun _ => outside_packetIn hChs hArms ..

theorem outside_replyOut (n : Nat) (x : Session) (k : Pkt) (rest : List Pkt) (s : State) :
    outside B (replyOut n x k rest s) = outside B s := by
  simp only [replyOut, outside_setSes, outside_countDup, outside_sendReply, outside_each, implies_true]

theorem keeps_execSluiceReply (ses : Nat) : Keeps B (execSluiceReply ses) := by
  refine keeps_run fun s => ?_
  dsimp only
  split <;> simp only [outside_closeSession, outside_setSes, outside_replyOut, outside_ite, ite_self]

theorem outside_openSession (o : Opening) (n slot : Nat) (s : State) :
    outside B (openSession o n slot s) = outside B s := by
  simp only [openSession, outside_draw, outside_openAnswer, outside_raiseFrom, outside_setSes, outside_put]

theorem outside_openDecide (o : Opening) (s : State) : outside B (openDecide o s) = outside B s := by
  unfold openDecide
  repeat' split
  all_goals simp only [outside_openAnswer, outside_countDup, outside_sendReply, outside_openSession]

theorem outside_takeOpening {b : Bool} {f : Opening → State → State} (h : ∀ o s, outside B (f o s) = outside B s)
    (s : State) : outside B (takeOpening b f s) = outside B s := by
  unfold takeOpening
  split
  · rfl
  · rw [h, outside_put]

theorem keeps_execSessionOpen : Keeps B execSessionOpen :=
  keeps_run fun s => by simp only [outside_takeOpening, outside_openDecide, implies_true]

theorem outside_bootDecide (o : Opening) (s : State) : outside B (bootDecide o s) = outside B s := by
  unfold bootDecide
  dsimp only
  repeat' split
  all_goals simp only [outside_openAnswer, outside_raiseFrom, outside_setSes]

theorem keeps_execBootstrapOpen : Keeps B execBootstrapOpen :=
  keeps_run fun s => by simp only [outside_takeOpening, outside_bootDecide, implies_true]

theorem outside_identityZero (o : Opening) (s : State) : outside B (identityZero o s) = outside B s := by
  simp only [identityZero, outside_countCmd, outside_sendReply]

theorem keeps_execIdentityGet (ses : Nat) : Keeps B (execIdentityGet ses) := by
  refine keeps_run fun s => ?_
  repeat' split
  all_goals simp only [outside_identityZero, outside_hostCmd, outside_answer, outside_put, implies_true]

theorem keeps_execSessionClose (ses : Nat) : Keeps B (execSessionClose ses) :=
  keeps_run (outside_hostCmd fun s => by simp only [outside_answer, outside_closeAfter])

theorem keeps_execKeepalive (ses : Nat) : Keeps B (execKeepalive ses) :=
  keeps_run (outside_hostCmd fun s => by simp only [outside_answer, outside_setSes])

theorem keeps_execSessionInfo (ses : Nat) : Keeps B (execSessionInfo ses) :=
  keeps_run (outside_hostCmd fun _ => outside_answer ..)

theorem keeps_execKeepaliveExpiry (ses : Nat) : Keeps B (execKeepaliveExpiry ses) := by
  refine keeps_run fun s => ?_
  split <;> simp only [outside_closeSession, outside_ite, ite_self]

theorem keeps_execLeaseTake (ses : Nat) : Keeps B (execLeaseTake ses) := by
  refine keeps_run (outside_hostCmd fun s => ?_)
  split <;> simp only [outside_answer, outside_leaseTo]

theorem keeps_execLeaseHandover (ses target : Nat) : Keeps B (execLeaseHandover ses target) := by
  refine keeps_run (outside_hostCmd (outside_needLease fun s => ?_))
  simp only [outside_answer, outside_leaseTo, outside_ite, ite_self]

theorem keeps_execLeaseRelease (ses : Nat) : Keeps B (execLeaseRelease ses) := by
  refine keeps_run (outside_hostCmd (outside_needLease fun s => ?_))
  simp only [outside_answer, outside_leaseLost]

/-! ### Rx -/

theorem outside_rxDrop (p : Nat) (s : State) : outside B (rxDrop p s) = outside B s := by
  simp only [rxDrop, outside_addCnt64]

theorem outside_learn (p ip mac : Nat) (s : State) : outside B (learn p ip mac s) = outside B s := by
  simp only [learn, outside_setPort, outside_ite, ite_self]

theorem outside_sendOwn (p : Nat) (kind : FrameKind) (dst : Nat) (bytes : List Byte) (s : State) :
    outside B (sendOwn p kind dst bytes s) = outside B s := by rfl

theorem outside_rxArp (p : Nat) (f : RxFrame) (s : State) : outside B (rxArp p f s) = outside B s := by
  simp only [rxArp, outside_learn, outside_sendOwn, outside_ite, ite_self]

theorem outside_rxNdp (p : Nat) (f : RxFrame) (s : State) : outside B (rxNdp p f s) = outside B s := by
  simp only [rxNdp, outside_learn, outside_sendOwn, outside_ite, ite_self]

theorem outside_rxEcho (p : Nat) (f : RxFrame) (s : State) : outside B (rxEcho p f s) = outside B s := by
  simp only [rxEcho, outside_sendOwn, outside_setPort, outside_ite, ite_self]

theorem outside_rxHandle (hChs : B.chs = true) (hArms : B.arms = true) (p : Nat) (f : RxFrame) (s : State) :
    outside B (rxHandle p f s) = outside B s := by
  unfold rxHandle
  repeat' split
  all_goals simp only [outside_packetIn hChs hArms, outside_rxArp, outside_rxNdp, outside_rxEcho, outside_rill,
    outside_rxDrop]

theorem outside_rxReserved (hChs : B.chs = true) (hArms : B.arms = true) (p : Nat) (f : RxFrame) (s : State) :
    outside B (rxReserved p f s) = outside B s := by
  simp only [rxReserved, outside_raiseFrom, outside_addHold, outside_rxDrop, outside_setPort, outside_addCnt,
    outside_rxHandle hChs hArms, outside_rill, outside_addCnt64, outside_ite, ite_self]

theorem outside_rxBulk (hChs : B.chs = true) (hArms : B.arms = true) (p : Nat) (f : RxFrame) (s : State) :
    outside B (rxBulk p f s) = outside B s := by
  simp only [rxBulk, outside_raise, outside_rxDrop, outside_setPort, outside_pfcSend, outside_rxHandle hChs hArms,
    outside_rill, outside_addCnt64, outside_ite, ite_self]

theorem outside_rxPause (p : Nat) (f : RxFrame) (s : State) : outside B (rxPause p f s) = outside B s := by
  simp only [rxPause, outside_setPort, outside_addCnt64]

theorem keeps_execEthFrameRx (hChs : B.chs = true) (hArms : B.arms = true) (port' : Fin 2) (f : RxFrame) :
    Keeps B (execEthFrameRx port' f) :=
  keeps_run fun s => by simp only [outside_rxDrop, outside_rxPause, outside_rxReserved hChs hArms,
    outside_rxBulk hChs hArms, outside_ite, ite_self]

/-! ### Boot -/

theorem outside_bootSlice (c slice : Nat) (s : State) : outside B (bootSlice c slice s) = outside B s := by
  simp only [bootSlice, outside_setHw, outside_setConv, outside_cnvRaise, outside_ite, ite_self]

theorem outside_bootLine (hTiu : B.tiu = true) (hChs : B.chs = true) (line : Nat) (s : State) :
    outside B (bootLine line s) = outside B s := by
  unfold bootLine
  dsimp only
  repeat' split
  all_goals simp only [outside_setTiuCh hChs, outside_putTiu hTiu]

theorem outside_bootRow (hRowMap : B.rowMap = true) (row : Nat) (s : State) :
    outside B (bootRow row s) = outside B s := by
  unfold bootRow
  split <;> simp only [outside_takeSpare hRowMap, outside_putBasin, outside_putRowMap hRowMap, outside_ite, ite_self]

theorem outside_bootLane (hLanes : B.lanes = true) (p : Nat) (s : State) : outside B (bootLane p s) = outside B s :=
  outside_putLanes hLanes ..

theorem outside_bootCore (b : Bool) (s : State) : outside B (bootCore b s) = outside B s := by
  simp only [bootCore, outside_setPll, outside_put, outside_ite, ite_self]

theorem outside_bootApply (hTiu : B.tiu = true) (hChs : B.chs = true) (hRowMap : B.rowMap = true)
    (hLanes : B.lanes = true) (w : Nat) (s : State) :
    outside B (bootApply w s) = outside B s := by
  unfold bootApply
  split <;> simp only [outside_bootSlice, outside_bootLine hTiu hChs, outside_bootRow hRowMap, outside_bootCore,
    outside_bootLane hLanes, outside_putBasin, outside_ite, ite_self]

theorem outside_bootRepairs (c : Nat) (s : State) : outside B (bootRepairs c s) = outside B s := by
  unfold bootRepairs
  dsimp only
  split <;> simp only [outside_setDch, outside_wearAdd]

theorem outside_otpFill (a n : Nat) (s : State) : outside B (otpFill a n s) = outside B s := by
  simp only [otpFill, outside_otpRequest, outside_ite, ite_self]

theorem outside_lifeResume (s : State) : outside B (lifeResume s) = outside B s := by
  simp only [lifeResume, outside_otpFill, outside_otpRequest, outside_each, outside_ite, ite_self, implies_true]

/-- The device let out of reset, before what the OTP says of it is applied. -/
def releaseStart (s : State) : State :=
  { s with boot := .booting, pins := { s.pins with resetN := true }, sec := { s.sec with romDone := true } }

/-- The device let out of reset (R72, R427). -/
def released (s : State) : State :=
  let s := raise 0x10040 10 (setHw 0xE0068 1 (releaseStart s))
  let s := each (List.range (badEntries s)) (fun _ s => wearCountBad s) s
  let s := each (bootEntries s) bootApply (lifeResume s)
  raiseIf (decide (lmsUsed s < 32768 ∧ 32768 - lmsUsed s < cfgF s 0xE0030 0 12)) 0xE0040 3 s

theorem execResetRelease_of_held {s : State} (hb : s.boot = .held) (hc : s.pwr.cause = 3 → s.pwr.over100 = 0) :
    execResetRelease s = .next { released s with pending := s.pending } := by
  unfold execResetRelease runBoot
  beta_reduce
  rw [if_neg (by simpa [hb] using hc)]
  rfl

theorem execResetRelease_waits {s : State} (h : s.boot ≠ .held ∨ (s.pwr.cause = 3 ∧ s.pwr.over100 ≠ 0)) :
    execResetRelease s = .next s := by
  unfold execResetRelease runBoot
  beta_reduce
  rw [if_pos h]

theorem outside_released (hTiu : B.tiu = true) (hChs : B.chs = true) (hRowMap : B.rowMap = true) (hLanes : B.lanes = true)
    (s : State) : outside B (released s) = outside B { s with boot := .booting } := by
  simp only [released, outside_raiseIf, outside_each, outside_bootApply hTiu hChs hRowMap hLanes, outside_lifeResume,
    outside_wearCountBad, outside_raise, outside_setHw, implies_true]
  exact outside_put (s := { s with boot := .booting }) ..

theorem keeps_execResetRelease (hTiu : B.tiu = true) (hChs : B.chs = true) (hRowMap : B.rowMap = true)
    (hLanes : B.lanes = true) (hBoot : B.boot = true) : Keeps B execResetRelease := by
  refine keeps_runBoot fun s => ?_
  split
  · rfl
  · exact (outside_released hTiu hChs hRowMap hLanes s).trans (outside_putBoot hBoot s ..)

theorem outside_discovered (a : Nat) (w : Word) (s : State) : outside B (discovered a w s) = outside B s := by rfl

theorem outside_trained (hChmap : B.chmap = true) (found : List TrainResult) (bad : List Nat) (spare : Option Nat)
    (s : State) : outside B (trained found bad spare s) = outside B { s with boot := .trained } := by
  unfold trained
  extract_lets good active chans _ s1 s2 s3 s4 s5
  have h0 : outside B chans = outside B s := by
    simp only [chans, outside_each, outside_setDch, outside_ite, ite_self, implies_true]
  have h1 : outside B s1 = outside B { s with boot := .trained } := by
    clear_value chans
    exact (outside_putChmap hChmap { chans with boot := .trained } ..).trans
      (congrArg (fun v : BlockVals => { v with boot := if B.boot then .held else .trained }) h0)
  have h2 : outside B s2 = outside B s1 := by
    refine (outside_each outside_bootRepairs _).trans ?_
    split
    · exact outside_bootRepairs ..
    · rfl
  have h5 : outside B s5 = outside B s2 := by
    simp only [s5, s4, s3, outside_raiseIf, outside_each, outside_raise, implies_true]
  rw [outside_discovered, outside_discovered, h5, h2, h1]

theorem keeps_execTrainingComplete (hChmap : B.chmap = true) (hBoot : B.boot = true) (found : List TrainResult) :
    Keeps B (execTrainingComplete found) := by
  refine keeps_runBoot fun s => ?_
  repeat' split
  all_goals simp only [outside_trained hChmap, outside_putBoot hBoot, outside_putDram]

theorem outside_fillChannels (s : State) : outside B (fillChannels s) = outside B s := by
  simp only [fillChannels, outside_setDch, outside_each, outside_ite, ite_self, implies_true]

theorem outside_refillEnd (hMbox : B.mbox = true) (hChmap : B.chmap = true) (s : State) :
    outside B (refillEnd s) = outside B s := by
  unfold refillEnd
  extract_lets image regs s1 m chmap dram s2 s3
  have h2 : outside B s2 = outside B s := (outside_putChmap hChmap ..).trans (outside_put ..)
  have h3 : outside B s3 = outside B s2 := by
    simp only [s3, outside_each, outside_setDch, outside_ite, ite_self, implies_true]
  rw [outside_budgetCheck, outside_flightsDone, outside_rnlProtect hMbox, h3, h2]

theorem keeps_execDramFillDone (hMbox : B.mbox = true) (hChmap : B.chmap = true) (hBoot : B.boot = true) (ms : Nat) :
    Keeps B (execDramFillDone ms) := by
  refine keeps_runBoot fun s => ?_
  simp only [outside_rnlCount, outside_fillChannels, outside_setHw, outside_refillEnd hMbox hChmap, outside_histEmpty,
    outside_putBoot hBoot, outside_ite, ite_self]

theorem outside_epochDraw (s : State) : outside B (epochDraw s) = outside B s := by
  unfold epochDraw
  dsimp only
  rw [outside_setCnt64]
  split <;> rfl

/-- The device raises READY (R402, R449). -/
def upAndReady (s : State) : State :=
  let s := epochDraw { s with boot := .up, pins := { s.pins with ready := true },
                              sealing := { s.sealing with ref := sealOf s.regs.committed } }
  powerUpdate (each [0, 1] (fun p s => setPort p { port s p with mode := portMode (cfg s) p, pllAt := s.cnt.ticks } s) s)

theorem outside_upAndReady (s : State) : outside B (upAndReady s) = outside B { s with boot := .up } := by
  simp only [upAndReady, outside_powerUpdate, outside_each, outside_setPort, outside_epochDraw, implies_true]
  exact outside_put (s := { s with boot := .up }) ..

theorem keeps_execReady (hBoot : B.boot = true) : Keeps B execReady := by
  refine keeps_runBoot fun s => ?_
  split
  · exact (outside_upAndReady s).trans (outside_putBoot hBoot s ..)
  · rfl

theorem outside_loseBits (n : Nat) (l : List (Nat × Nat)) (s : State) : outside B (loseBits n l s).2 = outside B s := by
  induction n generalizing l s with
  | zero => rfl
  | succ n ih =>
    rw [loseBits]
    split
    · rfl
    · exact (ih _ _).trans (outside_freeNext s)

/-! ### Capture -/

theorem outside_tapHistory (p shot : Nat) (t : TapSample) (s : State) :
    outside B (tapHistory p shot t s) = outside B s := by
  simp only [tapHistory, outside_histPut, outside_each, outside_putCis, outside_ite, ite_self, implies_true]

theorem outside_shotHistory (p : Nat) (t : Shot) (taps : List TapSample) (s : State) :
    outside B (shotHistory p t taps s) = outside B s := by
  simp only [shotHistory, outside_tapHistory, outside_histPut, outside_each, outside_putCis, outside_ite, ite_self,
    implies_true]

theorem keeps_execChannelUpdate (port : Fin 4) (lanes : List (List Int)) (ovr : Bool) (errs : List BasinErr)
    (poolBad : List Nat) :
    Keeps B (execChannelUpdate port lanes ovr errs poolBad) := by
  refine keeps_run fun s => ?_
  dsimp only
  split <;> simp only [outside_underWords, outside_poolPoison, outside_processShot, outside_shotHistory, outside_blockClose,
    outside_setLch, outside_ite, ite_self, implies_true]

theorem outside_blockFound (lane b : Nat) (s : State) : outside B (blockFound lane b s).2 = outside B s := by
  unfold blockFound
  dsimp only
  repeat' split
  all_goals simp only [outside_histGet]

theorem outside_blocksFound (lane n b : Nat) (s : State) : outside B (blocksFound lane n b s).2 = outside B s := by
  induction n generalizing b s with
  | zero => rfl
  | succ n ih => exact (ih _ _).trans (outside_blockFound lane b s)

theorem outside_samplesFound (g : Seg) (lane : Nat) (a : Int) (n : Nat) (s : State) :
    outside B (samplesFound g lane a n s).2 = outside B s := by
  simp only [samplesFound, outside_blocksFound]

theorem outside_entryCopy (key entry off n : Nat) (s : State) :
    outside B (entryCopy key entry off n s).2 = outside B s := by
  unfold entryCopy
  dsimp only
  repeat' split
  all_goals simp only [outside_histGet]

theorem outside_copyAll {α : Type} {f : α → State → Copy × State} (h : ∀ x s, outside B (f x s).2 = outside B s)
    (l : List α) (s : State) :
    outside B (copyAll f l s).2 = outside B s := by
  induction l generalizing s with
  | nil => rfl
  | cons x l ih => exact (ih _).trans (h x s)

theorem outside_laneSection (g : Seg) (lane : Nat) (s : State) : outside B (laneSection g lane s).2 = outside B s := by
  simp only [laneSection, outside_samplesFound]

theorem outside_shotLane (g : Seg) (k : ShotMark) (lane : Nat) (s : State) :
    outside B (shotLane g k lane s).2 = outside B s := by
  simp only [shotLane, outside_samplesFound]

theorem outside_shotUnit (g : Seg) (i : Nat) (s : State) : outside B (shotUnit g i s).2 = outside B s := by
  unfold shotUnit
  split
  · rfl
  · dsimp only
    generalize hx : (if nbit g.flags 8 = true then _ else _ : Copy × State) = x
    have hx : outside B x.2 = outside B s := by
      subst hx
      split
      · refine (outside_copyAll (fun lane t => ?_) _ _).trans (outside_entryCopy ..)
        split
        · exact outside_shotLane ..
        · rfl
      · exact outside_entryCopy ..
    split
    · exact (outside_copyAll (fun code t => outside_entryCopy ..) _ _).trans hx
    · exact hx

theorem outside_tapUnit (g : Seg) (k : TapMark) (s : State) : outside B (tapUnit g k s).2 = outside B s := by
  simp only [tapUnit, outside_entryCopy]

theorem outside_segData (g : Seg) (s : State) : outside B (segData g s).2 = outside B s := by
  unfold segData
  dsimp only
  repeat' split
  all_goals simp only [outside_copyAll, outside_laneSection, outside_shotUnit, outside_tapUnit, implies_true]

theorem outside_segWrite (n a : Nat) (l : List (Byte × Bool)) (s : State) :
    outside B (segWrite n a l s) = outside B s := by
  induction n generalizing a l s with
  | zero => rfl
  | succ n ih => exact (ih _ _ _).trans (outside_dramWrite _ _ _ s)

theorem keeps_execSegmentClose (seg : Nat) : Keeps B (execSegmentClose seg) := by
  refine keeps_run fun s => ?_
  split <;> simp only [outside_segData, outside_rnlCount, outside_segWrite, outside_dramWrite, outside_mapSeg,
    outside_writeDesc, outside_chainAdvance, outside_loss, outside_raise, outside_addCnt64, outside_raiseIf,
    outside_autoQueue, outside_checkShort, outside_ite, ite_self]


/-! ### The whole table -/

/-- The blocks that a command may change: what its rows write; a reset, and the programming of an OTP object that ends in one,
may change all. -/
def mayChange : Instr → Blocks
  | .resetNAssert | .resetMonitorTrip _ | .thermalReset
    | .otpProgram _ => ⟨true, true, true, true, true, true, true, true, true, true, true, true⟩
  | .sluicePacket _ _ _ | .fastPathPacket _ _ _ | .disarm _ _ | .disarmAll _ | .haltNFall
    | .ethFrameRx _ _ => { chs := true, arms := true }
  | .commitStrobe => { tb := true, tiu := true, chs := true, ptp := true, mbox := true, nextSeg := true }
  | .fibreGroupApply _ | .alignedCommonInstant | .refclkCCrosscheck _ | .samplePllUnlock | .sampleClockResume
    | .corePllUnlock _ | .refclkCLoss | .rotationPeriodEnd _ _ | .qcalStepEnd _ _ | .iscBlockEnd _ _ _ _
    | .fgWindowEnd _ _ | .launch _ | .firstLaunch _ => { chs := true }
  | .commitHoldEnd | .windowOpen _ _ | .railJoinsWindow _ _ | .windowClose _ _ | .windowQcalDone | .thermalReading _ _
    | .lifeHourBit | .stressMinute => { pwr := true }
  | .resetRelease => { tiu := true, chs := true, rowMap := true, lanes := true, boot := true }
  | .trainingComplete _ => { chmap := true, boot := true }
  | .dramFillDone _ => { mbox := true, chmap := true, boot := true }
  | .ready => { boot := true }
  | .refCountCheck _ _ | .refclkSLoss | .timePllUnlock | .ppsInEdge _ _
    | .tiuEdgeStamp _ _ _ _ => { tb := true, tiu := true, chs := true }
  | .tiuClockReturn | .backupSteer | .freerunEntry | .leapApply | .timeSet _ _ _ => { tb := true }
  | .serdesPllUnlock _ | .ptpSyncTx | .faultClear _ | .linkHoldExpiry _ | .delayReqTx | .announceTx => { ptp := true }
  | .holdoverEntry | .ptpMessage _ _ => { tb := true, ptp := true }
  | .measurementTimeout _ | .spareLineCal _ _ _ => { tiu := true }
  | .tiuRearm _ _ _ | .tiuPeriodicCal _ _ _ => { tiu := true, chs := true }
  | .basinRowRetire _ => { rowMap := true }
  | .laneTriggerCondition _ _ | .watchCondition _ => { nextSeg := true }
  | .evalLaneCheck _ _ _ _ => { lanes := true }
  | .arm _ _ _ | .armAtTime => { arms := true }
  | .retrainComplete _ _ | .migrationCutover => { chmap := true }
  | .runnelDescFetch _ | .runnelDescComplete _ | .fifoTimeout _ | .runnelStopEffect _
    | .mboxWrite _ _ _ _ => { mbox := true }
  | .runnelBurst => { tiu := true, mbox := true }
  | _ => {}

theorem exec_keeps : ∀ c : Instr, Keeps (mayChange c) (exec c)
  | .sluicePacket .. => keeps_execSluicePacket rfl rfl _ _ _
  | .fastPathPacket .. => keeps_execFastPathPacket rfl rfl _ _ _
  | .sluiceReply .. => keeps_execSluiceReply _
  | .sessionOpen => keeps_execSessionOpen
  | .bootstrapOpen => keeps_execBootstrapOpen
  | .sessionClose .. => keeps_execSessionClose _
  | .keepalive .. => keeps_execKeepalive _
  | .sessionInfo .. => keeps_execSessionInfo _
  | .identityGet .. => keeps_execIdentityGet _
  | .keepaliveExpiry .. => keeps_execKeepaliveExpiry _
  | .leaseTake .. => keeps_execLeaseTake _
  | .leaseHandover .. => keeps_execLeaseHandover _ _
  | .leaseRelease .. => keeps_execLeaseRelease _
  | .regRead .. => keeps_execRegRead _ _ _
  | .regReadBlock .. => keeps_execRegReadBlock _ _ _ _
  | .regWrite .. => keeps_execRegWrite _ _ _
  | .regWriteBlock .. => keeps_execRegWriteBlock _ _ _
  | .stsClear .. => keeps_execStsClear _ _ _ _
  | .commit .. => keeps_execCommit _ _ _ _ _
  | .sealQuery .. => keeps_execSealQuery _ _
  | .commitStrobe => keeps_execCommitStrobe rfl rfl rfl rfl rfl rfl
  | .fibreGroupApply .. => keeps_execFibreGroupApply rfl _
  | .alignedCommonInstant => keeps_execAlignedCommonInstant rfl
  | .commitHoldEnd => keeps_execCommitHoldEnd rfl
  | .sealScanStart => keeps_execSealScanStart
  | .sealScanComplete => keeps_execSealScanComplete
  | .sealRescan .. => keeps_execSealRescan _
  | .reloadShadows .. => keeps_execReloadShadows _
  | .memSpareWrite .. => keeps_execMemSpareWrite _ _
  | .resetNAssert => fun _ _ _ => rfl
  | .resetRelease => keeps_execResetRelease rfl rfl rfl rfl rfl
  | .trainingComplete .. => keeps_execTrainingComplete rfl rfl _
  | .dramFillDone .. => keeps_execDramFillDone rfl rfl rfl _
  | .ready => keeps_execReady rfl
  | .resetMonitorTrip _ => fun _ _ _ => rfl
  | .windowOpen .. => keeps_execWindowOpen rfl _ _
  | .railJoinsWindow .. => keeps_execRailJoinsWindow rfl _ _
  | .windowClose .. => keeps_execWindowClose rfl _ _
  | .windowQcalDone => keeps_execWindowQcalDone rfl
  | .thermalReading .. => keeps_execThermalReading rfl _ _
  | .thermalReset => fun _ _ _ => rfl
  | .refCountCheck .. => keeps_execRefCountCheck rfl rfl rfl _ _
  | .refclkCCrosscheck .. => keeps_execRefclkCCrosscheck rfl _
  | .aonTrim .. => keeps_execAonTrim _
  | .pllLockDetect .. => keeps_execPllLockDetect _
  | .settleTimerExpiry .. => keeps_execSettleTimerExpiry _
  | .samplePllUnlock => keeps_execSamplePllUnlock rfl
  | .refclkSLoss => keeps_execRefclkSLoss rfl rfl rfl
  | .sampleClockResume => keeps_execSampleClockResume rfl
  | .timePllUnlock => keeps_execTimePllUnlock rfl rfl rfl
  | .tiuClockReturn => keeps_execTiuClockReturn rfl
  | .backupSteer => keeps_execBackupSteer rfl
  | .corePllUnlock .. => keeps_execCorePllUnlock rfl _
  | .coreRelockTimeout => keeps_execCoreRelockTimeout
  | .corePllRetry .. => keeps_execCorePllRetry _ _
  | .refclkCLoss => keeps_execRefclkCLoss rfl
  | .refclkCReturn => keeps_execRefclkCReturn
  | .memPllUnlock .. => keeps_execMemPllUnlock _
  | .memPllRelock .. => keeps_execMemPllRelock _
  | .serdesPllUnlock .. => keeps_execSerdesPllUnlock rfl _
  | .ppsInEdge .. => keeps_execPpsInEdge rfl rfl rfl _ _
  | .holdoverEntry => keeps_execHoldoverEntry rfl rfl
  | .freerunEntry => keeps_execFreerunEntry rfl
  | .ppsOutPulse => keeps_execPpsOutPulse
  | .ppsOutWidthEnd => keeps_execPpsOutWidthEnd
  | .leapApply => keeps_execLeapApply rfl
  | .ptpMessage .. => keeps_execPtpMessage rfl rfl _ _
  | .ptpSyncTx => keeps_execPtpSyncTx rfl
  | .timeSet .. => keeps_execTimeSet rfl _ _ _
  | .timeSetTimeout => keeps_execTimeSetTimeout
  | .timeGet .. => keeps_execTimeGet _
  | .rotationPeriodEnd .. => keeps_execRotationPeriodEnd rfl _ _
  | .qcal .. => keeps_execQcal _
  | .qcalStepEnd .. => keeps_execQcalStepEnd rfl _ _
  | .iscBlockEnd .. => keeps_execIscBlockEnd rfl _ _ _ _
  | .fgWindowStart .. => keeps_execFgWindowStart _
  | .fgWindowEnd .. => keeps_execFgWindowEnd rfl _ _
  | .fgCal .. => keeps_execFgCal _
  | .launch .. => keeps_execLaunch rfl _
  | .slotCodeUpdate .. => keeps_execSlotCodeUpdate _
  | .firstLaunch .. => keeps_execFirstLaunch rfl _
  | .monitorWindowClose .. => keeps_execMonitorWindowClose _
  | .tiuEdgeStamp .. => keeps_execTiuEdgeStamp rfl rfl rfl _ _ _ _
  | .measurementTimeout .. => keeps_execMeasurementTimeout rfl _
  | .tiuRearm .. => keeps_execTiuRearm rfl rfl _ _ _
  | .tiuPeriodicCal .. => keeps_execTiuPeriodicCal rfl rfl _ _ _
  | .spareLineCal .. => keeps_execSpareLineCal rfl _ _ _
  | .channelUpdate .. => keeps_execChannelUpdate _ _ _ _ _
  | .zeroStrain .. => keeps_execZeroStrain _ _
  | .reprime .. => keeps_execReprime _ _
  | .basinScrub .. => keeps_execBasinScrub _ _
  | .basinRowRetire .. => keeps_execBasinRowRetire rfl _
  | .poolStart .. => keeps_execPoolStart _ _
  | .poolClose .. => keeps_execPoolClose _ _
  | .laneTriggerCondition .. => keeps_execLaneTriggerCondition rfl _ _
  | .forceTrigger .. => keeps_execForceTrigger _ _
  | .watchCondition .. => keeps_execWatchCondition rfl _
  | .holdoffExpiry .. => keeps_execHoldoffExpiry _
  | .postWindowEnd .. => keeps_execPostWindowEnd _
  | .allocationAnswer .. => keeps_execAllocationAnswer _
  | .trigOutPulseEnd .. => keeps_execTrigOutPulseEnd _
  | .alarmAck .. => keeps_execAlarmAck _
  | .alarmPulseEnd => keeps_execAlarmPulseEnd
  | .evalLaneCheck .. => keeps_execEvalLaneCheck rfl _ _ _ _
  | .segmentClose .. => keeps_execSegmentClose _
  | .pinSuspensionEnd .. => keeps_execPinSuspensionEnd _
  | .segmentReadEnd .. => keeps_execSegmentReadEnd _
  | .sealTimer => keeps_execSealTimer
  | .sealDeferredStart => keeps_execSealDeferredStart
  | .sealNow .. => keeps_execSealNow _
  | .arm .. => keeps_execArm rfl _ _ _
  | .disarm .. => keeps_execDisarm rfl rfl _ _
  | .disarmAll .. => keeps_execDisarmAll rfl rfl _
  | .acqState .. => keeps_execAcqState _
  | .watchStatus .. => keeps_execWatchStatus _ _ _
  | .segQuery .. => keeps_execSegQuery _ _
  | .segPin .. => keeps_execSegPin _ _
  | .segUnpin .. => keeps_execSegUnpin _ _
  | .segRelease .. => keeps_execSegRelease _ _
  | .segRead .. => keeps_execSegRead _ _ _ _ _
  | .sealCmd .. => keeps_execSealCmd _ _ _
  | .haltStreams .. => keeps_execHaltStreams _
  | .haltStream .. => keeps_execHaltStream _ _
  | .streamResume .. => keeps_execStreamResume _ _
  | .resumeAll .. => keeps_execResumeAll _
  | .resumeAllBit .. => keeps_execResumeAllBit _
  | .haltNFall => keeps_execHaltNFall rfl rfl
  | .haltNRise => keeps_execHaltNRise
  | .replay .. => keeps_execReplay _ _ _ _
  | .streamStatus .. => keeps_execStreamStatus _ _ _
  | .recordCreate .. => keeps_execRecordCreate _
  | .eventLingerExpiry .. => keeps_execEventLingerExpiry _
  | .ledgerStreamPeriod .. => keeps_execLedgerStreamPeriod _
  | .frameTxStart .. => keeps_execFrameTxStart _
  | .frameTxEnd .. => keeps_execFrameTxEnd _
  | .ethFrameRx .. => keeps_execEthFrameRx rfl rfl _ _
  | .xonSend .. => keeps_execXonSend _
  | .linkUp .. => keeps_execLinkUp _
  | .linkFault .. => keeps_execLinkFault _
  | .faultClear .. => keeps_execFaultClear rfl _
  | .linkHoldExpiry .. => keeps_execLinkHoldExpiry rfl _
  | .streamReturn .. => keeps_execStreamReturn _
  | .dhcpLeaseExpiry .. => keeps_execDhcpLeaseExpiry _
  | .dadComplete .. => keeps_execDadComplete _ _ _ _
  | .nextHopRetry .. => keeps_execNextHopRetry _
  | .channelRequest .. => keeps_execChannelRequest _ _
  | .writeComplete .. => keeps_execWriteComplete _
  | .trefwTableClear .. => keeps_execTrefwTableClear _
  | .refreshDue .. => keeps_execRefreshDue _ _
  | .postponedRefresh .. => keeps_execPostponedRefresh _ _
  | .mprTempRead .. => keeps_execMprTempRead _ _ _
  | .zqcs .. => keeps_execZqcs _
  | .pageIdleClose .. => keeps_execPageIdleClose _ _
  | .powerDownEntry .. => keeps_execPowerDownEntry _ _
  | .selfRefreshEntry .. => keeps_execSelfRefreshEntry _
  | .scrubWake .. => keeps_execScrubWake _
  | .patrolScrubRead .. => keeps_execPatrolScrubRead _ _
  | .alert .. => keeps_execAlert _
  | .retrain .. => keeps_execRetrain _ _
  | .retrainComplete .. => keeps_execRetrainComplete rfl _ _
  | .newDram .. => keeps_execNewDram _ _
  | .migrate .. => keeps_execMigrate _ _
  | .migrationCutover => keeps_execMigrationCutover rfl
  | .runnelDescFetch .. => keeps_execRunnelDescFetch rfl _
  | .runnelBurst => keeps_execRunnelBurst rfl rfl
  | .runnelDescComplete .. => keeps_execRunnelDescComplete rfl _
  | .fifoTimeout .. => keeps_execFifoTimeout rfl _
  | .rnlStart .. => keeps_execRnlStart _ _ _
  | .rnlStop .. => keeps_execRnlStop _ _
  | .rnlCmdStop .. => keeps_execRnlCmdStop _ _
  | .runnelStopEffect .. => keeps_execRunnelStopEffect rfl _
  | .mboxWrite .. => keeps_execMboxWrite rfl _ _ _ _
  | .mboxRead .. => keeps_execMboxRead _ _ _ _
  | .reservoirRead .. => keeps_execReservoirRead _
  | .ledgerSnapshot .. => keeps_execLedgerSnapshot _
  | .snap .. => keeps_execSnap _
  | .snapshotComplete => keeps_execSnapshotComplete
  | .ledgerRead .. => keeps_execLedgerRead _ _ _ _
  | .eventFoldTimer .. => keeps_execEventFoldTimer _ _
  | .wearMapWrite .. => keeps_execWearMapWrite _
  | .lifeHourBit => keeps_execLifeHourBit rfl
  | .stressMinute => keeps_execStressMinute rfl
  | .attest .. => keeps_execAttest _ _
  | .attestTokenRefill => keeps_execAttestTokenRefill
  | .lmsEpochReady => keeps_execLmsEpochReady
  | .noiseTestFail => keeps_execNoiseTestFail
  | .otpProgram _ => fun _ _ _ => rfl
  | .rootInstall .. => keeps_execRootInstall _ _ _ _
  | .rootRevoke .. => keeps_execRootRevoke _ _
  | .gmacKeySet .. => keeps_execGmacKeySet _ _ _ _
  | .lifecycleAdvance .. => keeps_execLifecycleAdvance _ _ _
  | .echo .. => keeps_execEcho _ _
  | .inputLedgerNotice .. => keeps_execInputLedgerNotice _ _
  | .launchPulseEnd .. => keeps_execLaunchPulseEnd _
  | .armAtTime => keeps_execArmAtTime rfl
  | .poolRawRecordEnd .. => keeps_execPoolRawRecordEnd _ _ _
  | .noiseTestPass => keeps_execNoiseTestPass
  | .alertNHigh .. => keeps_execAlertNHigh _
  | .pfcPauseExpiry .. => keeps_execPfcPauseExpiry _ _
  | .dhcpRenewal .. => keeps_execDhcpRenewal _ _ _ _
  | .delayReqTx => keeps_execDelayReqTx rfl
  | .announceTx => keeps_execAnnounceTx rfl
  | .sealSpacingEnd => keeps_execSealSpacingEnd

/-- Settles O19: every command keeps the blocks outside its row of `mayChange`, and where a clause of the statement is about a
block, the commands that it does not name do not have the block in their row. -/
theorem blockOwners : Obligations.BlockOwners := by
  intro c s t h
  obtain ⟨tb, tiu, chs, pwr, ptp, arms, mbox, nextSeg, rowMap, lanes, chmap, -⟩ := outside_eq_iff.mp (exec_keeps c s t h)
  have wholeTiu (h1 : (mayChange c).tiu = false) (h2 : (mayChange c).chs = false) : t.tiu = s.tiu := by
    rw [tiu h1, chs h2]
  refine ⟨?_, ?_, ?_, ?_, ?_, ?_, ?_, ?_, ?_, ?_⟩
  · cases c
    case commitStrobe | resetNAssert | resetMonitorTrip | thermalReset | refCountCheck | refclkSLoss | timePllUnlock
      | tiuClockReturn | backupSteer | ppsInEdge | holdoverEntry | freerunEntry | leapApply | ptpMessage | timeSet
      | tiuEdgeStamp | otpProgram => trivial
    all_goals exact tb rfl
  · cases c
    case commitStrobe | resetNAssert | resetRelease | resetMonitorTrip | thermalReset | refCountCheck | refclkSLoss
      | timePllUnlock | ppsInEdge | tiuEdgeStamp | measurementTimeout | tiuRearm | tiuPeriodicCal | spareLineCal
      | runnelBurst | otpProgram => trivial
    case launch | firstLaunch | alignedCommonInstant | fibreGroupApply | disarm | disarmAll | haltNFall | sluicePacket
      | fastPathPacket | ethFrameRx | rotationPeriodEnd | qcalStepEnd | iscBlockEnd | fgWindowEnd | samplePllUnlock
      | sampleClockResume | corePllUnlock | refclkCLoss | refclkCCrosscheck => exact tiu rfl
    all_goals exact wholeTiu rfl rfl
  · cases c
    case commitHoldEnd | resetNAssert | resetMonitorTrip | windowOpen | railJoinsWindow | windowClose | windowQcalDone
      | thermalReading | thermalReset | otpProgram | lifeHourBit | stressMinute => trivial
    all_goals exact pwr rfl
  · cases c
    case commitStrobe | resetNAssert | resetMonitorTrip | thermalReset | serdesPllUnlock | holdoverEntry | ptpMessage
      | linkHoldExpiry | faultClear | ptpSyncTx | delayReqTx | announceTx | otpProgram => trivial
    all_goals exact ptp rfl
  · cases c
    case sluicePacket | fastPathPacket | resetNAssert | resetMonitorTrip | thermalReset | arm | disarm | disarmAll
      | haltNFall | ethFrameRx | otpProgram | armAtTime => trivial
    all_goals exact arms rfl
  · cases c
    case commitStrobe | resetNAssert | dramFillDone | resetMonitorTrip | thermalReset | runnelDescFetch | runnelBurst
      | runnelDescComplete | fifoTimeout | runnelStopEffect | mboxWrite | otpProgram => trivial
    all_goals exact mbox rfl
  · cases c
    case commitStrobe | resetNAssert | resetMonitorTrip | thermalReset | laneTriggerCondition | watchCondition
      | otpProgram => trivial
    all_goals exact nextSeg rfl
  · cases c
    case resetNAssert | resetRelease | resetMonitorTrip | thermalReset | basinRowRetire | otpProgram => trivial
    all_goals exact rowMap rfl
  · cases c
    case resetNAssert | resetRelease | resetMonitorTrip | thermalReset | evalLaneCheck | otpProgram => trivial
    all_goals exact lanes rfl
  · cases c
    case resetNAssert | trainingComplete | dramFillDone | resetMonitorTrip | thermalReset | retrainComplete
      | migrationCutover | otpProgram => trivial
    all_goals exact chmap rfl

end Sys2Proof.Machine
end

section
/-! SETTLES. Power-on, reset and its wipe, and what a held device ignores (R72, R77, R87, R443, R444, R447). -/

namespace Sys2Proof.Machine

/-! ### How commands run -/

/-- The commands of reset and boot, whose rows `runBoot` carries out; every other row is one of `run`. -/
def isBootRow : Instr → Bool
  | .resetNAssert | .resetRelease | .trainingComplete _ | .dramFillDone _ | .ready | .resetMonitorTrip _
  | .thermalReading _ _ | .thermalReset | .otpProgram _ => true
  | _ => false

theorem exec_eq_run {c : Instr} (h : isBootRow c = false) : ∃ f, exec c = run f := by
  cases c
  case resetNAssert | resetRelease | trainingComplete | dramFillDone | ready | resetMonitorTrip | thermalReading
    | thermalReset | otpProgram => cases h
  all_goals exact ⟨_, rfl⟩

theorem exec_eq_runBoot {c : Instr} (h : isBootRow c = true) : ∃ f, exec c = runBoot f := by
  cases c
  case resetNAssert | resetRelease | trainingComplete | dramFillDone | ready | resetMonitorTrip | thermalReading
    | thermalReset | otpProgram => exact ⟨_, rfl⟩
  all_goals cases h

theorem run_of_held {f : State → State} {s : State} (h : s.boot = .held) : run f s = .next s := if_pos h

/-- A row of boot that leaves the state as it is answers that state. -/
theorem runBoot_of_same {f : State → State} {s : State} (h : f s = s) : runBoot f s = .next s := by
  unfold runBoot
  rw [h]

/-- Settles O2: both ways of running a command answer a next state with the queue put back. -/
theorem everyCommandAnswers : Obligations.EveryCommandAnswers := by
  intro c s
  cases hc : isBootRow c with
  | true =>
    obtain ⟨f, hf⟩ := exec_eq_runBoot hc
    exact ⟨_, congrFun hf s, rfl⟩
  | false =>
    obtain ⟨f, hf⟩ := exec_eq_run hc
    rw [hf]
    by_cases hb : s.boot = .held
    · exact ⟨s, run_of_held hb, rfl⟩
    · exact ⟨_, run_of_live hb, rfl⟩

/-! ### A held device -/

theorem execTrainingComplete_of_held {found : List TrainResult} {s : State} (hb : s.boot = .held) :
    execTrainingComplete found s = .next s := by
  unfold execTrainingComplete
  exact runBoot_of_same (if_neg (by simp [hb]))

theorem execDramFillDone_of_held {ms : Nat} {s : State} (hb : s.boot = .held) : execDramFillDone ms s = .next s := by
  unfold execDramFillDone
  exact runBoot_of_same (by simp [hb])

theorem execReady_of_not_ok {s : State} (h : readyOk s = false) : execReady s = .next s := by
  unfold execReady
  exact runBoot_of_same (if_neg (by simp [h]))

theorem execThermalReset_of_same {s : State} (h : s.boot = .held ∨ tooHot s = false) : execThermalReset s = .next s := by
  unfold execThermalReset
  exact runBoot_of_same (if_pos (by simpa using h))

theorem execOtpProgram_of_held {n : Nat} {s : State} (hb : s.boot = .held) : execOtpProgram n s = .next s := by
  unfold execOtpProgram
  exact runBoot_of_same (if_pos (.inl hb))

/-- The rows of boot and the programming of the OTP wait for a device out of reset. -/
theorem exec_of_held {c : Instr} {s : State} (hb : s.boot = .held) (h1 : c ≠ .resetRelease) (h2 : c ≠ .resetNAssert)
    (h3 : ∀ rails, c ≠ .resetMonitorTrip rails) (h4 : ∀ k v, c ≠ .thermalReading k v) : exec c s = .next s := by
  cases hc : isBootRow c with
  | false =>
    obtain ⟨f, hf⟩ := exec_eq_run hc
    rw [hf, run_of_held hb]
  | true =>
    cases c
    case resetRelease => exact absurd rfl h1
    case resetNAssert => exact absurd rfl h2
    case resetMonitorTrip rails => exact absurd rfl (h3 rails)
    case thermalReading k v => exact absurd rfl (h4 k v)
    case trainingComplete => exact execTrainingComplete_of_held hb
    case dramFillDone => exact execDramFillDone_of_held hb
    case ready => exact execReady_of_not_ok (by simp [readyOk, hb])
    case thermalReset => exact execThermalReset_of_same (.inl hb)
    case otpProgram => exact execOtpProgram_of_held hb
    all_goals cases hc

theorem execThermalReading_of_held {k : Fin 8} {v : BitVec 16} {s : State} (hb : s.boot = .held) :
    execThermalReading k v s = .next (thermalWatch k.val (tempOf v) s) := by
  unfold execThermalReading runBoot
  exact congrArg (fun u : State => Host.Outcome.next { u with pending := s.pending }) (if_pos hb)

theorem execResetNAssert_of_held {s : State} (hb : s.boot = .held) :
    execResetNAssert s = .next { s with pins := { s.pins with resetN := false } } := by
  unfold execResetNAssert runBoot
  exact congrArg (fun u : State => Host.Outcome.next { u with pending := s.pending }) (if_pos hb)

/-- Settles O3. -/
theorem heldDeviceIgnores : Obligations.HeldDeviceIgnores :=
  ⟨fun _ _ => exec_of_held, fun _ _ _ hb => ⟨_, execThermalReading_of_held hb, rfl⟩, fun _ => execResetNAssert_of_held⟩

/-! ### The power-on state -/

/-- Settles O5. -/
theorem resetState : Obligations.ResetState := by
  unfold Obligations.ResetState
  exact ⟨rfl, rfl, fun _ => ⟨rfl, rfl, rfl⟩, fun _ => rfl, fun _ => rfl, fun _ => rfl, rfl, rfl, rfl, fun _ => rfl, rfl, rfl,
    rfl, rfl⟩

/-! ### Resets -/

theorem resetClean_wiped (s : State) : ResetClean (wiped s) := fun _ => ⟨rfl, rfl, rfl, rfl, rfl, rfl, rfl⟩

theorem resetClean_of_boot_ne {s : State} (h : s.boot ≠ .held) : ResetClean s := fun hb => absurd hb h

/-! ### In reset and on the way into it -/

/-- Every block but the stage of boot. -/
def allButBoot : Blocks where
  tb := true
  tiu := true
  chs := true
  pwr := true
  ptp := true
  arms := true
  mbox := true
  nextSeg := true
  rowMap := true
  lanes := true
  chmap := true

theorem boot_of_outside {s t : State} (h : outside allButBoot t = outside allButBoot s) : t.boot = s.boot :=
  congrArg BlockVals.boot h

theorem boot_tick {s : State} (hb : s.boot ≠ .held) : (tick s).boot = s.boot := by
  rw [tick, if_neg hb, boot_of_outside (outside_each outside_dramTick _), boot_of_outside (outside_each outside_drainPort _)]
  rfl

theorem boot_released (s : State) : (released s).boot = .booting := boot_of_outside (outside_released rfl rfl rfl rfl s)

theorem boot_trained (found : List TrainResult) (bad : List Nat) (spare : Option Nat) (s : State) :
    (trained found bad spare s).boot = .trained := boot_of_outside (outside_trained rfl found bad spare s)

theorem boot_upAndReady (s : State) : (upAndReady s).boot = .up := boot_of_outside (outside_upAndReady s)

theorem boot_refilled (n : Nat) (s : State) : (refillEnd (rnlCount 17 n (fillChannels (histEmpty s)))).boot = s.boot := by
  apply boot_of_outside
  rw [outside_refillEnd rfl rfl, outside_rnlCount, outside_fillChannels, outside_histEmpty]

/-- The DRAM is filled at boot (R284, R443). -/
def fillEnd (ms : Nat) (s : State) : State :=
  setHw 0xE0068 (wd (3 + 2 ^ 16 * Nat.min 65535 ms)) { rnlCount 17 (fillBytes s) (fillChannels s) with boot := .filled }

theorem execDramFillDone_eq (ms : Nat) (s : State) : execDramFillDone ms s = runBoot (fun s =>
    if s.boot = .trained then fillEnd ms s
    else if s.boot = .up ∧ s.dram.filling.isSome then refillEnd (rnlCount 17 (fillBytes s) (fillChannels (histEmpty s)))
    else s) s := rfl

theorem execTrainingComplete_eq (found : List TrainResult) (s : State) : execTrainingComplete found s = runBoot (fun s =>
    if s.boot = .booting ∧ [4, 5, 6].all (fun p => decide (pll s p = .inUse)) then
      match trainDecide s found with
      | none => { s with dram := { s.dram with grade := s.dram.grade - 1 } }
      | some (bad, spare) => trained found bad spare s
    else s) s := rfl

theorem execReady_of_ok {s : State} (h : readyOk s = true) :
    execReady s = .next { upAndReady s with pending := s.pending } := by
  unfold execReady
  exact congrArg (fun u : State => Host.Outcome.next { u with pending := s.pending }) (if_pos h)

theorem execResetNAssert_of_live {s : State} (hb : s.boot ≠ .held) : execResetNAssert s =
    .next { resetWith 2 0 { s with pins := { s.pins with resetN := false } } with pending := s.pending } := by
  unfold execResetNAssert runBoot
  exact congrArg (fun u : State => Host.Outcome.next { u with pending := s.pending }) (if_neg hb)

theorem execThermalReset_of_hot {s : State} (hb : s.boot ≠ .held) (h : tooHot s = true) :
    execThermalReset s = .next { resetWith 3 0 s with pending := s.pending } := by
  have hn : ¬(s.boot = .held ∨ (!tooHot s) = true) := by simp [hb, h]
  unfold execThermalReset runBoot
  exact congrArg (fun u : State => Host.Outcome.next { u with pending := s.pending }) (if_neg hn)

theorem execResetMonitorTrip_eq (rails : BitVec 9) (s : State) : execResetMonitorTrip rails s = runBoot (fun s =>
    if rails.getLsbD 7 then powerOn s else if rails = 0 ∨ s.boot = .held then s else resetWith 1 rails s) s := rfl

/-- The oldest object has been programmed, with some bits that read 0 (R424). -/
def programmed (n : Nat) (o : List (Nat × Byte)) (rest : List (List (Nat × Byte))) (s : State) : State :=
  let left := loseBits n (objectBits s o) s
  let lost := (objectBits s o).length - left.1.length
  let t := each left.1 (fun x s => otpSet x.1 (BitVec.ofNat 8 (2 ^ x.2)) s)
    { left.2 with sec := { left.2.sec with otpQueue := rest } }
  if lost = 0 then t else raise 0xE0040 5 (addHold 0xE0064 lost t)

theorem execOtpProgram_eq (n : Nat) (s : State) : execOtpProgram n s = runBoot (fun s =>
    if s.boot = .held ∨ otpHeld s then s
    else match s.sec.otpQueue with
      | [] => s
      | o :: rest =>
        if rest = [] ∧ (programmed n o rest s).slc.dropping then resetWith 4 0 (programmed n o rest s)
        else programmed n o rest s) s := rfl

theorem boot_programmed (n : Nat) (o : List (Nat × Byte)) (rest : List (List (Nat × Byte))) (s : State) :
    (programmed n o rest s).boot = s.boot := by
  apply boot_of_outside
  unfold programmed
  extract_lets left lost _ _ t
  have ht : outside allButBoot t = outside allButBoot s := by
    simp only [t, outside_each, outside_otpSet, implies_true]
    exact (outside_put ..).trans (outside_loseBits ..)
  simp only [outside_raise, outside_addHold, outside_ite, ite_self, ht]

/-! ### A device in reset stays clean -/

theorem resetClean_of_boot_eq {s t : State} (hb : s.boot ≠ .held) (h : t.boot = s.boot) : ResetClean t :=
  resetClean_of_boot_ne (h ▸ hb)

theorem resetClean_runBoot {f : State → State} {s t : State} (h : ResetClean (f s)) (ht : runBoot f s = .next t) :
    ResetClean t := by
  cases ht; exact h

theorem resetClean_execResetNAssert {s t : State} (hs : ResetClean s) (ht : execResetNAssert s = .next t) : ResetClean t := by
  by_cases hb : s.boot = .held
  · rw [execResetNAssert_of_held hb] at ht
    cases ht; exact hs
  · rw [execResetNAssert_of_live hb] at ht
    cases ht; exact resetClean_wiped _

theorem resetClean_execThermalReset {s t : State} (hs : ResetClean s) (ht : execThermalReset s = .next t) : ResetClean t := by
  by_cases h : s.boot = .held ∨ tooHot s = false
  · rw [execThermalReset_of_same h] at ht
    cases ht; exact hs
  · rw [not_or, Bool.not_eq_false] at h
    rw [execThermalReset_of_hot h.1 h.2] at ht
    cases ht; exact resetClean_wiped _

theorem resetClean_execResetMonitorTrip {rails : BitVec 9} {s t : State} (hs : ResetClean s)
    (ht : execResetMonitorTrip rails s = .next t) : ResetClean t := by
  rw [execResetMonitorTrip_eq] at ht
  refine resetClean_runBoot ?_ ht
  split_ifs
  · exact resetClean_wiped _
  · exact hs
  · exact resetClean_wiped _

theorem resetClean_execThermalReading {k : Fin 8} {v : BitVec 16} {s t : State} (hs : ResetClean s)
    (ht : execThermalReading k v s = .next t) : ResetClean t := by
  by_cases hb : s.boot = .held
  · rw [execThermalReading_of_held hb] at ht
    cases ht; exact hs
  · refine resetClean_of_boot_eq hb ?_
    cases ht
    change (ite _ _ _ : State).boot = s.boot
    split_ifs <;> rfl

theorem resetClean_execResetRelease {s t : State} (hs : ResetClean s) (ht : execResetRelease s = .next t) : ResetClean t := by
  by_cases h : s.boot ≠ .held ∨ (s.pwr.cause = 3 ∧ s.pwr.over100 ≠ 0)
  · rw [execResetRelease_waits h] at ht
    cases ht; exact hs
  · push Not at h
    rw [execResetRelease_of_held h.1 h.2] at ht
    cases ht
    exact resetClean_of_boot_ne (by simp [boot_released])

theorem resetClean_execTrainingComplete {found : List TrainResult} {s t : State} (hs : ResetClean s)
    (ht : execTrainingComplete found s = .next t) : ResetClean t := by
  rw [execTrainingComplete_eq] at ht
  refine resetClean_runBoot ?_ ht
  split
  next h =>
    split
    · exact resetClean_of_boot_ne (by simp [h.1])
    · exact resetClean_of_boot_ne (by simp [boot_trained])
  next => exact hs

theorem resetClean_execDramFillDone {ms : Nat} {s t : State} (hs : ResetClean s) (ht : execDramFillDone ms s = .next t) :
    ResetClean t := by
  rw [execDramFillDone_eq] at ht
  refine resetClean_runBoot ?_ ht
  split
  next => exact resetClean_of_boot_ne (by simp [fillEnd])
  next =>
    split
    next h => exact resetClean_of_boot_ne (by simp [boot_refilled, h.1])
    next => exact hs

theorem resetClean_execReady {s t : State} (hs : ResetClean s) (ht : execReady s = .next t) : ResetClean t := by
  by_cases h : readyOk s = true
  · rw [execReady_of_ok h] at ht
    cases ht
    exact resetClean_of_boot_ne (by simp [boot_upAndReady])
  · rw [execReady_of_not_ok (by simpa using h)] at ht
    cases ht; exact hs

theorem resetClean_execOtpProgram {n : Nat} {s t : State} (hs : ResetClean s) (ht : execOtpProgram n s = .next t) :
    ResetClean t := by
  rw [execOtpProgram_eq] at ht
  refine resetClean_runBoot ?_ ht
  split
  next => exact hs
  next h =>
    split
    · exact hs
    · split_ifs
      · exact resetClean_wiped _
      · exact resetClean_of_boot_eq (not_or.mp h).1 (boot_programmed ..)

/-- A command leads from a clean state to a clean one. -/
theorem exec_resetClean {c : Instr} {s t : State} (hs : ResetClean s) (ht : exec c s = .next t) : ResetClean t := by
  cases hc : isBootRow c with
  | false =>
    obtain ⟨f, hf⟩ := exec_eq_run hc
    rw [hf] at ht
    by_cases hb : s.boot = .held
    · rw [run_of_held hb] at ht
      cases ht; exact hs
    · rw [run_of_live hb] at ht
      cases ht; exact resetClean_of_boot_ne hb
  | true =>
    cases c
    case resetNAssert => exact resetClean_execResetNAssert hs ht
    case resetRelease => exact resetClean_execResetRelease hs ht
    case trainingComplete => exact resetClean_execTrainingComplete hs ht
    case dramFillDone => exact resetClean_execDramFillDone hs ht
    case ready => exact resetClean_execReady hs ht
    case resetMonitorTrip => exact resetClean_execResetMonitorTrip hs ht
    case thermalReading => exact resetClean_execThermalReading hs ht
    case thermalReset => exact resetClean_execThermalReset hs ht
    case otpProgram => exact resetClean_execOtpProgram hs ht
    all_goals cases hc

theorem tick_resetClean {s : State} (hs : ResetClean s) : ResetClean (tick s) := by
  by_cases hb : s.boot = .held
  · rwa [tick, if_pos hb]
  · exact resetClean_of_boot_eq hb (boot_tick hb)

/-- Settles O7: a step is a command at the front of the queue or a period of the TIU clock, and each keeps it. -/
theorem resetCleanKept : Obligations.ResetCleanKept := by
  intro s t hs ht
  cases hp : s.pending with
  | nil =>
    simp only [step, takeFront, hp] at ht
    cases ht; exact tick_resetClean hs
  | cons c cs =>
    simp only [step, takeFront, hp] at ht
    exact exec_resetClean (s := { s with pending := cs }) hs ht

/-! ### What a reset wipes -/

theorem logEntry_setLog_same (i : Nat) (e : LogEntry) (s : State) : logEntry (setLog i e s) i = e := smGet_smPut_same ..

/-- A reset changes the power record in its log and its cause only, before the wipe. -/
theorem logCut_eq (s : State) : ∃ log, logCut s = { s with pwr := { s.pwr with log } } := by
  unfold logCut
  split
  · exact ⟨s.pwr.log, rfl⟩
  · exact ⟨_, rfl⟩

theorem resetWith_eq (cause : Nat) (rails : BitVec 9) (s : State) :
    ∃ log, resetWith cause rails s = wiped { s with pwr := { s.pwr with log, cause, causeRails := rails } } := by
  obtain ⟨log, h⟩ := logCut_eq s
  exact ⟨log, by rw [resetWith, h]⟩

theorem logEntry_resetWith {cause : Nat} {rails w : BitVec 9} {s : State} (hw : s.pwr.window = some w) :
    logEntry (resetWith cause rails s) (lastLog s) =
      { logEntry s (lastLog s) with flags := (logEntry s (lastLog s)).flags ||| 8 } := by
  have h : logCut s = setLog (lastLog s) { logEntry s (lastLog s) with flags := (logEntry s (lastLog s)).flags ||| 8 } s := by
    rw [logCut, hw]
  rw [resetWith, h]
  exact logEntry_setLog_same ..

theorem execResetMonitorTrip_of_io {rails : BitVec 9} (h : rails.getLsbD 7 = true) (s : State) :
    execResetMonitorTrip rails s = .next { powerOn s with pending := s.pending } := by
  rw [execResetMonitorTrip_eq, runBoot, if_pos h]

theorem execResetMonitorTrip_of_live {rails : BitVec 9} {s : State} (hb : s.boot ≠ .held) (h0 : rails ≠ 0)
    (h : rails.getLsbD 7 = false) :
    execResetMonitorTrip rails s = .next { resetWith 1 rails s with pending := s.pending } := by
  rw [execResetMonitorTrip_eq, runBoot, if_neg (ne_true_of_eq_false h), if_neg (not_or.mpr ⟨h0, hb⟩)]

/-- Settles O9. -/
theorem resetsWipe : Obligations.ResetsWipe := by
  refine ⟨fun s hb => ?_, fun s _ ht => execThermalReset_of_same (.inr ht), fun s hb ht => ?_, fun s rails hb h0 h7 => ?_,
    fun s rails h7 => ?_, fun s w hb hw => ?_⟩
  · obtain ⟨log, h⟩ := resetWith_eq 2 0 { s with pins := { s.pins with resetN := false } }
    refine ⟨_, execResetNAssert_of_live hb, ?_⟩
    rw [h]
    exact ⟨rfl, rfl, rfl, rfl, rfl, rfl, rfl, rfl, rfl, rfl, rfl, rfl⟩
  · obtain ⟨log, h⟩ := resetWith_eq 3 0 s
    refine ⟨_, execThermalReset_of_hot hb ht, ?_⟩
    rw [h]
    exact ⟨rfl, rfl, rfl, rfl, rfl, rfl, rfl, rfl⟩
  · obtain ⟨log, h⟩ := resetWith_eq 1 rails s
    refine ⟨_, execResetMonitorTrip_of_live hb h0 h7, ?_⟩
    rw [h]
    exact ⟨rfl, rfl, rfl, rfl, rfl, rfl, rfl, rfl⟩
  · exact ⟨_, execResetMonitorTrip_of_io h7 s, rfl, rfl, rfl, rfl, rfl⟩
  · refine ⟨_, execResetNAssert_of_live hb, ?_⟩
    have h := logEntry_resetWith (cause := 2) (rails := 0) (s := { s with pins := { s.pins with resetN := false } }) hw
    exact ⟨(congrArg LogEntry.flags h :), (congrArg LogEntry.stop h :)⟩

end Sys2Proof.Machine
end

section
/-! SETTLES. Brown-out windows: their opening, the rails that join, their close, the calibration after them and the end of the
commit hold (R76 to R89). -/

namespace Sys2Proof.Machine

/-! ### What the parts of a window leave alone -/

theorem pwr_of_outside {s t : State} (h : outside {} t = outside {} s) : t.pwr = s.pwr := congrArg BlockVals.pwr h

/-- The last sample of a rail changes only which rails are below. -/
theorem railNow_eq (r : Nat) (l : List Int) (s : State) :
    ∃ below, railNow r l s = { s with pwr := { s.pwr with below } } := by
  unfold railNow
  split
  · exact ⟨s.pwr.below, rfl⟩
  · exact ⟨_, rfl⟩

theorem hw_windowEvent (code i a : Nat) (s : State) : hw (windowEvent code i s) a = hw s a := by
  simp [windowEvent, hw]

theorem hw_scanStart {a : Nat} (h : a ≠ 0x2C) (scheduled : Bool) (s : State) : hw (scanStart scheduled s) a = hw s a := by
  unfold scanStart
  split
  · rfl
  · cases scheduled
    · exact hw_raise_ne _ h _
    · rfl

theorem hw_noteHeld {a : Nat} (h : a ≠ 0x10) (s : State) : hw (noteHeld s) a = hw s a := by
  unfold noteHeld
  split
  · rfl
  · simp only [apply_ite (hw · a), hw_raise_ne _ h]
    exact ite_self _

theorem regs_supplyMarks (start : Stamp) (s : State) : (supplyMarks start s).regs = s.regs :=
  each_keeps State.regs (fun _ s => setLch_regs (s := s) ..) s

theorem hw_supplyMarks (start : Stamp) (a : Nat) (s : State) : hw (supplyMarks start s) a = hw s a := by
  rw [hw, regs_supplyMarks, hw]

theorem hw_deferWaiting {a : Nat} (h : a ≠ 0xF0040) (h' : a ≠ 0xF0060) (s : State) : hw (deferWaiting s) a = hw s a := by
  unfold deferWaiting
  dsimp only
  split
  · rfl
  · rw [hw_raise_ne _ h, addCnt, hw_setHw_ne _ h']

theorem active_windowEvent (code i : Nat) (s : State) : (windowEvent code i s).regs.active = s.regs.active := by
  simp [windowEvent]

theorem active_scanStart (scheduled : Bool) (s : State) : (scanStart scheduled s).regs.active = s.regs.active := by
  unfold scanStart
  split <;> simp

theorem active_deferWaiting (s : State) : (deferWaiting s).regs.active = s.regs.active := by
  unfold deferWaiting
  dsimp only
  split <;> simp

theorem active_noteHeld (s : State) : (noteHeld s).regs.active = s.regs.active :=
  congrArg Prod.fst (copyView_view.of_noteHeld s)

/-! ### WINDOW_OPEN -/

/-- The log entry of a window that opens at the samples of a rail. -/
def openedEntry (r : Nat) (l : List Int) (s : State) : LogEntry where
  start := windowStartStamp s
  rails := BitVec.ofNat 9 (2 ^ r)
  min := minRaise r (coarseCode s r l) 0
  flags := 1 + 2 * b2n (cfgB s 0xF0000 24) + 4 * b2n (s.boot ≠ .up)
  index := s.pwr.windowNo + 1

/-- The record of the supplies as a window opens. -/
def openedPwr (r : Nat) (l : List Int) (s : State) : PwrSt :=
  { s.pwr with window := some (BitVec.ofNat 9 (2 ^ r)), coverage := true, holdEnd := none,
               logNext := (s.pwr.logNext + 1) % 8, windowNo := s.pwr.windowNo + 1,
               log := smPut {} s.pwr.logNext (openedEntry r l s) s.pwr.log }

/-- What follows the record of a window that opens with entry `i`. -/
def windowNoted (i : Nat) (start : Stamp) (s : State) : State :=
  noteHeld (scanStart false (windowEvent 0x1003 i (raise 0xF0040 0 (rill 172 1 (addCnt64 0xF0058 1 (supplyMarks start s))))))

/-- A window opens. -/
def windowOpened (r : Nat) (l : List Int) (s : State) : State :=
  windowNoted s.pwr.logNext (windowStartStamp s) { s with pwr := openedPwr r l s }

theorem execWindowOpen_eq (r : Fin 9) (l : List Int) (s : State) : execWindowOpen r l s = run (fun s =>
    if (railNow r l s).pwr.window.isSome ∨ !meetsWarning (railNow r l s) r l then railNow r l s
    else windowOpened r l (deferWaiting (railNow r l s))) s := rfl

theorem openedPwr_deferWaiting (r : Nat) (l : List Int) (s : State) :
    openedPwr r l (deferWaiting s) = openedPwr r l s := by
  unfold deferWaiting
  dsimp only
  split
  · rfl
  · simp [openedPwr, openedEntry, windowStartStamp, now, boFilter, coarseCode, warnLevel, cfgF, cfgB, cfg]

theorem pwr_windowNoted (i : Nat) (start : Stamp) (s : State) : (windowNoted i start s).pwr = s.pwr := by
  apply pwr_of_outside
  simp only [windowNoted, outside_noteHeld, outside_scanStart, outside_windowEvent, outside_raise, outside_rill,
    outside_addCnt64, outside_supplyMarks]

theorem active_windowNoted (i : Nat) (start : Stamp) (s : State) :
    (windowNoted i start s).regs.active = s.regs.active := by
  simp [windowNoted, active_noteHeld, active_scanStart, active_windowEvent, regs_supplyMarks]

theorem hw_rill_above {k n a : Nat} (h : 0xD3014 + 0x20 * k < a) (s : State) : hw (rill k n s) a = hw s a := by
  unfold rill; rw [hw_addCnt64_ne n (by omega) (by omega), hw_addCnt64_ne n (by omega) (by omega)]

theorem cnt64_congr {s t : State} {a : Nat} (h : hw t a = hw s a) (h' : hw t (a + 4) = hw s (a + 4)) :
    cnt64 t a = cnt64 s a := by unfold cnt64; rw [h, h']

theorem hw_windowNoted {a : Nat} (ha : a ≠ 0x2C) (ha' : a ≠ 0x10) (i : Nat) (start : Stamp) (s : State) :
    hw (windowNoted i start s) a = hw (raise 0xF0040 0 (rill 172 1 (addCnt64 0xF0058 1 (supplyMarks start s)))) a := by
  rw [windowNoted, hw_noteHeld ha', hw_scanStart ha, hw_windowEvent]

theorem bit_windowNoted (i : Nat) (start : Stamp) (s : State) : bit (hw (windowNoted i start s) 0xF0040) 0 = true := by
  rw [hw_windowNoted (by decide) (by decide)]
  exact (raised_raise _ (by decide)).1

theorem cnt64_windowNoted (i : Nat) (start : Stamp) (s : State) :
    cnt64 (windowNoted i start s) 0xF0058 = (cnt64 s 0xF0058 + 1) % 2 ^ 64 := by
  have hkeep {a : Nat} (h : 0xF0040 < a) :
      hw (windowNoted i start s) a = hw (addCnt64 0xF0058 1 (supplyMarks start s)) a := by
    rw [hw_windowNoted (by omega) (by omega), hw_raise_ne _ (by omega), hw_rill_above (by omega)]
  rw [cnt64_congr (hkeep (by decide)) (hkeep (by decide)), cnt64_addCnt64_same,
    cnt64_congr (hw_supplyMarks ..) (hw_supplyMarks ..)]

theorem pwr_windowOpened (r : Nat) (l : List Int) (s : State) :
    (windowOpened r l (deferWaiting s)).pwr = openedPwr r l s :=
  (pwr_windowNoted ..).trans (openedPwr_deferWaiting r l s)

theorem cnt64_windowOpened (r : Nat) (l : List Int) (s : State) :
    cnt64 (windowOpened r l (deferWaiting s)) 0xF0058 = (cnt64 s 0xF0058 + 1) % 2 ^ 64 := by
  have h : cnt64 (deferWaiting s) 0xF0058 = cnt64 s 0xF0058 :=
    cnt64_congr (hw_deferWaiting (by decide) (by decide) s) (hw_deferWaiting (by decide) (by decide) s)
  rw [← h]
  exact cnt64_windowNoted ..

theorem active_windowOpened (r : Nat) (l : List Int) (s : State) :
    (windowOpened r l (deferWaiting s)).regs.active = s.regs.active :=
  (active_windowNoted ..).trans (active_deferWaiting s)

theorem execWindowOpen_opens {r : Fin 9} {l : List Int} {s : State} (hb : s.boot ≠ .held) (hwin : s.pwr.window = none)
    (hm : meetsWarning s r l = true) : execWindowOpen r l s =
      .next { windowOpened r l (deferWaiting (railNow r l s)) with pending := s.pending, boot := s.boot } := by
  obtain ⟨below, hu⟩ := railNow_eq r l s
  have hm' : meetsWarning (railNow r l s) r l = true := by rw [hu]; exact hm
  have hwin' : (railNow r l s).pwr.window = none := by rw [hu]; exact hwin
  rw [execWindowOpen_eq, run_of_live hb, if_neg (by simp [hm', hwin'])]

/-- WINDOW_OPEN at samples that meet the warning condition, where no window is open (R78 to R81). -/
theorem windowOpen_opens {r : Fin 9} {l : List Int} {s : State} (hb : s.boot ≠ .held) (hwin : s.pwr.window = none)
    (hm : meetsWarning s r l = true) : ∃ t below, exec (.windowOpen r l) s = .next t ∧
      t.pwr = { openedPwr r l s with below } ∧ cnt64 t 0xF0058 = (cnt64 s 0xF0058 + 1) % 2 ^ 64 ∧
      bit (hw t 0xF0040) 0 = true ∧ t.regs.active = s.regs.active := by
  obtain ⟨below, hu⟩ := railNow_eq r l s
  have hpwr := pwr_windowOpened r l (railNow r l s)
  have hcnt := cnt64_windowOpened r l (railNow r l s)
  have hact := active_windowOpened r l (railNow r l s)
  have hbit : bit (hw (windowOpened r l (deferWaiting (railNow r l s))) 0xF0040) 0 = true := bit_windowNoted ..
  rw [show openedPwr r l (railNow r l s) = { openedPwr r l s with below } by rw [hu]; rfl] at hpwr
  rw [show cnt64 (railNow r l s) 0xF0058 = cnt64 s 0xF0058 by rw [hu]; rfl] at hcnt
  rw [show (railNow r l s).regs.active = s.regs.active by rw [hu]] at hact
  exact ⟨_, below, execWindowOpen_opens hb hwin hm, hpwr, hcnt, hbit, hact⟩

/-- WINDOW_OPEN at samples that do not meet it. -/
theorem windowOpen_waits {r : Fin 9} {l : List Int} {s : State} (hb : s.boot ≠ .held) (hm : meetsWarning s r l = false) :
    ∃ t, exec (.windowOpen r l) s = .next t ∧ t = { s with pwr := { s.pwr with below := t.pwr.below } } := by
  obtain ⟨below, hu⟩ := railNow_eq r l s
  have hm' : meetsWarning (railNow r l s) r l = false := by rw [hu]; exact hm
  refine ⟨_, (execWindowOpen_eq r l s).trans ((run_of_live hb).trans
    (congrArg (fun v : State => Host.Outcome.next { v with pending := s.pending, boot := s.boot })
      (if_pos (.inr (by simp [hm']))))), ?_⟩
  rw [hu]

/-! ### RAIL_JOINS_WINDOW -/

/-- A rail that is in the mask, or meets its condition, is in the mask and the entry of the window after its samples. -/
theorem railJoin_of_joins {r : Nat} {l : List Int} {s : State} {w : BitVec 9} (hwin : s.pwr.window = some w)
    (h : w.getLsbD r = true ∨ meetsWarning s r l = true) : railJoin r l s =
    setLog (lastLog s)
      { logEntry s (lastLog s) with rails := w ||| BitVec.ofNat 9 (2 ^ r),
                                    min := minRaise r (coarseCode s r l) (logEntry s (lastLog s)).min }
      { s with pwr := { s.pwr with window := some (w ||| BitVec.ofNat 9 (2 ^ r)) } } := by
  unfold railJoin
  rw [hwin]
  exact if_pos (by simpa using h)

theorem railJoin_of_not {r : Nat} {l : List Int} {s : State} {w : BitVec 9} (hwin : s.pwr.window = some w)
    (h : w.getLsbD r = false) (hm : meetsWarning s r l = false) : railJoin r l s = s := by
  unfold railJoin
  rw [hwin]
  exact if_neg (by simp [h, hm])

theorem execRailJoinsWindow_live {r : Fin 9} {l : List Int} {s : State} (hb : s.boot ≠ .held) :
    execRailJoinsWindow r l s = .next { railJoin r l (railNow r l s) with pending := s.pending, boot := s.boot } :=
  run_of_live hb

theorem railJoins_joins {r : Fin 9} {l : List Int} {w : BitVec 9} {s : State} (hb : s.boot ≠ .held)
    (hwin : s.pwr.window = some w) (h : w.getLsbD r = true ∨ meetsWarning s r l = true) :
    ∃ t, exec (.railJoinsWindow r l) s = .next t ∧
      t.pwr.window = some (w ||| BitVec.ofNat 9 (2 ^ r.val)) ∧
      (logEntry t (lastLog s)).rails = w ||| BitVec.ofNat 9 (2 ^ r.val) ∧
      (logEntry t (lastLog s)).min = minRaise r (coarseCode s r l) (logEntry s (lastLog s)).min ∧
      t = { s with pwr := t.pwr } := by
  obtain ⟨below, hu⟩ := railNow_eq r l s
  refine ⟨_, execRailJoinsWindow_live hb, ?_⟩
  rw [railJoin_of_joins (w := w) (by rw [hu]; exact hwin) (by rw [hu]; exact h), hu]
  have he := logEntry_setLog_same (lastLog s)
      { logEntry s (lastLog s) with rails := w ||| BitVec.ofNat 9 (2 ^ r.val),
                                    min := minRaise r (coarseCode s r l) (logEntry s (lastLog s)).min } s
  exact ⟨rfl, (congrArg LogEntry.rails he :), (congrArg LogEntry.min he :), rfl⟩

theorem railJoins_not {r : Fin 9} {l : List Int} {w : BitVec 9} {s : State} (hb : s.boot ≠ .held)
    (hwin : s.pwr.window = some w) (h : w.getLsbD r = false) (hm : meetsWarning s r l = false) :
    ∃ t, exec (.railJoinsWindow r l) s = .next t ∧ t = { s with pwr := { s.pwr with below := t.pwr.below } } := by
  obtain ⟨below, hu⟩ := railNow_eq r l s
  refine ⟨_, execRailJoinsWindow_live hb, ?_⟩
  rw [railJoin_of_not (w := w) (by rw [hu]; exact hwin) h (by rw [hu]; exact hm), hu]

/-! ### WINDOW_CLOSE -/

/-- A loop whose turns keep `P` on the elements of its list keeps `P`. -/
theorem each_induction {α : Type} {P : State → Prop} {f : α → State → State} {l : List α}
    (h : ∀ x ∈ l, ∀ s, P s → P (f x s)) {s : State} (hs : P s) : P (each l f s) := by
  induction l generalizing s with
  | nil => exact hs
  | cons x l ih => exact ih (fun y hy => h y (List.mem_cons_of_mem x hy)) (h x List.mem_cons_self s hs)

/-- The samples of one rail while a window is open. -/
def railSamples (x : List Int × Nat) (s : State) : State := railJoin x.2 x.1 (railNow x.2 x.1 s)

theorem railJoin_rest (r : Nat) (l : List Int) (s : State) : railJoin r l s = { s with pwr := (railJoin r l s).pwr } := by
  unfold railJoin
  split
  · rfl
  · dsimp only
    split <;> rfl

theorem railSamples_rest (x : List Int × Nat) (s : State) : railSamples x s = { s with pwr := (railSamples x s).pwr } := by
  obtain ⟨below, hu⟩ := railNow_eq x.2 x.1 s
  have h := railJoin_rest x.2 x.1 (railNow x.2 x.1 s)
  rw [railSamples]
  rw [hu] at h ⊢
  exact h

/-- The samples of every rail, in the order of the rails. -/
def allSamples (rails : List (List Int)) (s : State) : State := each rails.zipIdx railSamples s

theorem allSamples_rest (rails : List (List Int)) (s : State) :
    allSamples rails s = { s with pwr := (allSamples rails s).pwr } := by
  have h : { allSamples rails s with pwr := {} } = { s with pwr := {} } :=
    each_keeps (fun s : State => { s with pwr := {} }) (fun x s => by rw [railSamples_rest]) s
  exact congrArg (fun u : State => { u with pwr := (allSamples rails s).pwr }) h

/-- A rail in the mask stays in it. -/
theorem railSamples_mask {r : Nat} {s : State} (x : List Int × Nat)
    (h : ∃ w, s.pwr.window = some w ∧ w.getLsbD r = true) :
    ∃ w, (railSamples x s).pwr.window = some w ∧ w.getLsbD r = true := by
  obtain ⟨w, hwin, hr⟩ := h
  obtain ⟨below, hu⟩ := railNow_eq x.2 x.1 s
  have hwin' : (railNow x.2 x.1 s).pwr.window = some w := by rw [hu]; exact hwin
  unfold railSamples
  by_cases hj : w.getLsbD x.2 = true ∨ meetsWarning (railNow x.2 x.1 s) x.2 x.1 = true
  · rw [railJoin_of_joins hwin' hj]
    exact ⟨_, rfl, by rw [BitVec.getLsbD_or, hr, Bool.true_or]⟩
  · rw [not_or, Bool.not_eq_true, Bool.not_eq_true] at hj
    rw [railJoin_of_not hwin' hj.1 hj.2]
    exact ⟨w, hwin', hr⟩

/-- The window with mask `w` is open with the same log entry as in `s`, but for the entry's mask and minimum. -/
def SameWindow (w : BitVec 9) (s t : State) : Prop :=
  t.pwr.window = some w ∧ lastLog t = lastLog s ∧ (logEntry t (lastLog s)).start = (logEntry s (lastLog s)).start ∧
    t.regs = s.regs

theorem or_twoPow_of_getLsbD {w : BitVec 9} {r : Nat} (h : w.getLsbD r = true) : w ||| BitVec.ofNat 9 (2 ^ r) = w := by
  refine BitVec.eq_of_getLsbD_eq fun i hi => ?_
  rw [BitVec.getLsbD_or, BitVec.getLsbD_ofNat, Nat.testBit_two_pow]
  by_cases hir : r = i
  · subst hir; simp [h]
  · simp [hir]

theorem meetsWarning_congr {s t : State} (h : t.regs = s.regs) (r : Nat) (l : List Int) :
    meetsWarning t r l = meetsWarning s r l := by
  unfold meetsWarning warnLevel boFilter cfgF cfg
  rw [h]

theorem railClears_congr {s t : State} (h : t.regs = s.regs) (r : Nat) (l : List Int) :
    railClears t r l = railClears s r l := by
  unfold railClears warnLevel boClose cfgF cfg
  rw [h]

/-- Samples of a rail that is in the mask, or does not meet its condition, leave the window as it is. -/
theorem railSamples_sameWindow {w : BitVec 9} {s t : State} {x : List Int × Nat} (ht : SameWindow w s t)
    (hx : w.getLsbD x.2 = false → meetsWarning s x.2 x.1 = false) : SameWindow w s (railSamples x t) := by
  obtain ⟨below, hu⟩ := railNow_eq x.2 x.1 t
  have hsame : SameWindow w s (railNow x.2 x.1 t) := by rw [hu]; exact ht
  unfold railSamples
  generalize railNow x.2 x.1 t = u at hsame
  obtain ⟨hwin, hlast, hstart, hregs⟩ := hsame
  cases hj : w.getLsbD x.2 with
  | true =>
    rw [railJoin_of_joins hwin (.inl hj), or_twoPow_of_getLsbD hj, hlast]
    exact ⟨rfl, hlast, (congrArg LogEntry.start (logEntry_setLog_same ..)).trans hstart, hregs⟩
  | false =>
    rw [railJoin_of_not hwin hj ((meetsWarning_congr hregs ..).trans (hx hj))]
    exact ⟨hwin, hlast, hstart, hregs⟩

/-- What is still to do once the entry has its end stamp. -/
def windowShut (i : Nat) (s : State) : State := windowEvent 0x1004 i (raise 0xF0040 1 (rill 172 1 s))

/-- The quick calibration after a window. -/
def windowCal (s : State) : State := if poweredConvs s = [] then windowQcalEnd s else qcalStart (poweredConvs s) s

/-- The entry of a window that closes. -/
def closedEntry (longest : Nat) (s : State) : LogEntry :=
  let e := logEntry s (lastLog s)
  { e with stop := now s, flags := e.flags - e.flags % 2, longest := Nat.min (2 ^ 32 - 1) longest }

/-- The state with the window closed and its entry stamped. -/
def windowEnded (longest : Nat) (s : State) : State :=
  let t := setLog (lastLog s) (closedEntry longest s) s
  { t with pwr := { t.pwr with window := none, holdEnd := some (s.cnt.ticks + 5000000),
                               qcalFor := s.pwr.qcalFor ++ [lastLog s] } }

theorem execWindowClose_eq (rails : List (List Int)) (longest : Nat) (s : State) : execWindowClose rails longest s =
    run (fun s =>
      match (allSamples rails s).pwr.window with
      | none => allSamples rails s
      | some w =>
        if (List.range 9).any (fun r => w.getLsbD r && !railClears (allSamples rails s) r (rails.getD r [])) then
          allSamples rails s
        else windowCal (windowShut (lastLog (allSamples rails s)) (windowEnded longest (allSamples rails s)))) s := rfl

theorem execWindowClose_of_shut {rails : List (List Int)} {longest : Nat} {w : BitVec 9} {s : State} (hb : s.boot ≠ .held)
    (hwin : (allSamples rails s).pwr.window = some w)
    (h : ∀ r < 9, w.getLsbD r = true → railClears (allSamples rails s) r (rails.getD r []) = true) :
    execWindowClose rails longest s =
      .next { windowCal (windowShut (lastLog (allSamples rails s)) (windowEnded longest (allSamples rails s))) with
        pending := s.pending, boot := s.boot } := by
  have hall : ((List.range 9).any fun r => w.getLsbD r && !railClears (allSamples rails s) r (rails.getD r [])) = false := by
    rw [List.any_eq_false]
    intro r hr
    cases hm : w.getLsbD r with
    | true => rw [h r (List.mem_range.mp hr) hm]; decide
    | false => rw [Bool.false_and]; decide
  rw [execWindowClose_eq, run_of_live hb]
  simp only [hwin, hall]
  rfl

theorem execWindowClose_of_open {rails : List (List Int)} {longest : Nat} {w : BitVec 9} {s : State} {r : Nat}
    (hb : s.boot ≠ .held) (hwin : (allSamples rails s).pwr.window = some w) (hr : r < 9) (hm : w.getLsbD r = true)
    (h : railClears (allSamples rails s) r (rails.getD r []) = false) :
    execWindowClose rails longest s = .next { allSamples rails s with pending := s.pending, boot := s.boot } := by
  have hany : ((List.range 9).any fun r => w.getLsbD r && !railClears (allSamples rails s) r (rails.getD r [])) = true :=
    List.any_eq_true.mpr ⟨r, List.mem_range.mpr hr, by rw [hm, h]; rfl⟩
  rw [execWindowClose_eq, run_of_live hb]
  simp only [hwin, hany]
  rfl

theorem windowClose_waits {rails : List (List Int)} {longest : Nat} {w : BitVec 9} {s : State} {r : Nat}
    (hb : s.boot ≠ .held) (hwin : s.pwr.window = some w) (hr : r < 9) (hm : w.getLsbD r = true)
    (h : railClears s r (rails.getD r []) = false) : ∃ t, exec (.windowClose rails longest) s = .next t ∧
      t.pwr.window.isSome = true ∧ t = { s with pwr := t.pwr } := by
  obtain ⟨w', hwin', hm'⟩ := each_induction (l := rails.zipIdx) (f := railSamples)
    (P := fun t => ∃ w, t.pwr.window = some w ∧ w.getLsbD r = true) (fun x _ _ => railSamples_mask x) ⟨w, hwin, hm⟩
  have hrest := allSamples_rest rails s
  have hclear : railClears (allSamples rails s) r (rails.getD r []) = false := by rw [hrest]; exact h
  refine ⟨_, execWindowClose_of_open hb hwin' hr hm' hclear, ?_, ?_⟩
  · exact Option.isSome_of_mem hwin'
  · rw [hrest]

/-! What the calibration after a window leaves. -/

theorem hw_ite {c : Prop} [Decidable c] (a : Nat) (s t : State) : hw (if c then s else t) a = if c then hw s a else hw t a :=
  apply_ite (hw · a) c s t

theorem hw_cnvRaise_off {a : Nat} (h : a ≠ 0x20040) (h' : a ≠ 0x20048) (c slice e : Nat) (s : State) :
    hw (cnvRaise c slice e s) a = hw s a := by
  unfold cnvRaise
  rw [hw_raiseFrom_ne _ _ h, hw_setHw_ne _ h']

theorem hw_cmdDone_off {a b c : Nat} (hb : a ≠ b) {f : State → State} (hf : ∀ s, hw (f s) a = hw s a) (s : State) :
    hw (cmdDone b c f s) a = hw s a := by
  unfold cmdDone
  split
  · exact hf _
  · exact hw_setHw_ne _ hb s

theorem hw_setConv (n : Nat) (x : Conv) (a : Nat) (s : State) : hw (setConv n x s) a = hw s a := by rfl

theorem hw_windowStart (c a : Nat) (s : State) : hw (windowStart c s) a = hw s a := by rfl

theorem hw_qcalEnd (c a : Nat) (s : State) : hw (qcalEnd c s) a = hw s a := by rfl

/-! The words above the engines' are none that a calibration writes. -/

section
variable {a : Nat} (ha : 0xE0000 < a)
include ha

theorem hw_cnvRaise_above (c slice e : Nat) (s : State) : hw (cnvRaise c slice e s) a = hw s a :=
  hw_cnvRaise_off (by omega) (by omega) ..

theorem hw_fgLateCheck (p : Nat) (s : State) : hw (fgLateCheck p s) a = hw s a := by
  unfold fgLateCheck
  dsimp only
  split
  · exact hw_cnvRaise_above ha ..
  · split <;> rfl

theorem hw_qcalEight (c : Nat) (s : State) : hw (qcalEight c s) a = hw s a := by
  unfold qcalEight
  dsimp only
  split <;> simp only [hw_ite, hw_windowStart, hw_qcalEnd, hw_cnvRaise_above ha, hw_fgLateCheck ha, hw_setConv, ite_self]

theorem hw_qcalBegin (c : Nat) (s : State) : hw (qcalBegin c s) a = hw s a := by
  simp only [qcalBegin, hw_ite, hw_qcalEight ha, hw_setConv, ite_self]

theorem hw_qcalRun (l : List Nat) (s : State) : hw (qcalRun l s) a = hw s a := by
  unfold qcalRun
  dsimp only
  split
  · rfl
  · exact each_keeps (hw · a) (fun c s => hw_qcalBegin ha c s) _

theorem hw_qcalAgain (s : State) : hw (qcalAgain s) a = hw s a := by
  have hdone (s : State) : hw (cmdDone 0x20044 0 id s) a = hw s a := hw_cmdDone_off (by omega) (fun _ => rfl) s
  simp only [qcalAgain, hw_ite, hdone, hw_qcalRun ha, ite_self]

theorem hw_answer (n op status : Nat) (data : List Byte) (s : State) : hw (answer n op status data s) a = hw s a :=
  hw_answer_off (by unfold offLedger; omega) ..

theorem hw_flightsDone (s : State) : hw (flightsDone s) a = hw s a := by
  have hraise (s : State) : hw (raise 0x10 1 s) a = hw s a := hw_raise_ne _ (by omega) s
  refine each_keeps (hw · a) (fun f s => ?_) _
  simp only [hw_ite, hw_answer ha, hraise, ite_self]

theorem hw_qcalFinish {f : State → State} (hf : ∀ s, hw (f s) a = hw s a) (c : Nat) (s : State) :
    hw (qcalFinish f c s) a = hw s a := by
  have hdone (s : State) : hw (cmdDone 0x20044 0 f s) a = hw s a := hw_cmdDone_off (by omega) hf s
  unfold qcalFinish
  split
  · extract_lets up light _ s1 s2 s3 _ s4
    have h2 : hw s2 a = hw s a := hw_cnvRaise_above ha ..
    have h3 : hw s3 a = hw s a := by simp only [s3, hw_ite, hdone, ite_self, h2]
    have h4 : hw s4 a = hw s a := by
      simp only [s4, hw_ite]
      exact (ite_self _).trans h3
    rw [hw_flightsDone ha, h4]
  · rfl

theorem hw_qcalStart (l : List Nat) (s : State) : hw (qcalStart l s) a = hw s a := by
  have hagain (c : Nat) (s : State) : hw (qcalFinish id c (qcalAgain s)) a = hw s a :=
    (hw_qcalFinish ha (fun _ => rfl) c _).trans (hw_qcalAgain ha s)
  simp only [qcalStart, qcalCheck, hw_ite, hw_qcalFinish ha (hagain _), hw_qcalRun ha, ite_self]

end

/-- The window, the end of the hold, the stamps of a log entry and the active copy. -/
def closeView (i : Nat) (s : State) : Option (BitVec 9) × Option Nat × Stamp × Stamp × SMap Word :=
  (s.pwr.window, s.pwr.holdEnd, (logEntry s i).start, (logEntry s i).stop, s.regs.active)

theorem closeView_eq {i : Nat} {s t : State} (h : t.pwr = s.pwr) (h' : t.regs.active = s.regs.active) :
    closeView i t = closeView i s := by
  unfold closeView logEntry; rw [h, h']

theorem logEntry_setLog_ne {i j : Nat} (h : j ≠ i) (e : LogEntry) (s : State) : logEntry (setLog i e s) j = logEntry s j :=
  smGet_smPut_ne ({} : LogEntry) e h s.pwr.log

theorem closeView_setQcal (i j : Nat) (t : Stamp) (s : State) :
    closeView i (setLog j { logEntry s j with qcal := t } s) = closeView i s := by
  unfold closeView
  by_cases h : i = j
  · subst h; rw [logEntry_setLog_same]; rfl
  · rw [logEntry_setLog_ne h]; rfl

/-- The entries that wait for the quick calibration take a stamp. -/
def stampQcal (l : List Nat) (t : Stamp) (s : State) : State :=
  each l (fun i s => setLog i { logEntry s i with qcal := t } s) s

/-- The record of the supplies at the end of a quick calibration. -/
def calEndPwr (t : Stamp) (past : Bool) (x : PwrSt) : PwrSt :=
  { x with qcalFor := [], coverage := x.coverage && !past, covEnd := if past then t else x.covEnd }

/-- No quick calibration is waited for any more. -/
def calEnded (t : Stamp) (s : State) : State := { s with pwr := calEndPwr t s.pwr.window.isNone s.pwr }

theorem windowQcalEnd_eq (s : State) : windowQcalEnd s = raise 0xF0040 2
    (calEnded (now s) (stampQcal s.pwr.qcalFor (now s) s)) := rfl

theorem closeView_stampQcal (i : Nat) (l : List Nat) (t : Stamp) (s : State) :
    closeView i (stampQcal l t s) = closeView i s := each_keeps (closeView i) (fun j s => closeView_setQcal i j t s) s

theorem closeView_windowQcalEnd (i : Nat) (s : State) : closeView i (windowQcalEnd s) = closeView i s := by
  rw [windowQcalEnd_eq, closeView_eq (raise_pwr ..) (raise_active ..), ← closeView_stampQcal i s.pwr.qcalFor (now s) s]
  rfl

theorem closeView_windowCal (i : Nat) (s : State) : closeView i (windowCal s) = closeView i s := by
  unfold windowCal
  split
  · exact closeView_windowQcalEnd i s
  · exact closeView_eq (pwr_of_outside (outside_qcalStart ..)) (congrArg Prod.fst (copyView_view.of_qcalStart _ s))

theorem hw_stampQcal (l : List Nat) (t : Stamp) (a : Nat) (s : State) : hw (stampQcal l t s) a = hw s a :=
  each_keeps (hw · a) (fun i s => (rfl : hw (setLog i { logEntry s i with qcal := t } s) a = hw s a)) s

theorem bit_windowCal {i : Nat} (hi : i < 24) {s : State} (h : bit (hw s 0xF0040) i = true) :
    bit (hw (windowCal s) 0xF0040) i = true := by
  unfold windowCal
  split
  · rw [windowQcalEnd_eq]
    refine bit_hw_raise_of_bit hi ?_
    exact (congrArg (bit · i) (hw_stampQcal s.pwr.qcalFor (now s) 0xF0040 s)).trans h
  · rw [hw_qcalStart (by decide)]
    exact h

theorem closeView_windowShut (i j : Nat) (s : State) : closeView j (windowShut i s) = closeView j s :=
  closeView_eq (by simp [windowShut, windowEvent]) (by simp [windowShut, windowEvent])

theorem bit_windowShut (i : Nat) (s : State) : bit (hw (windowShut i s) 0xF0040) 1 = true := by
  rw [windowShut, hw_windowEvent]
  exact (raised_raise _ (by decide)).1

theorem closeView_windowEnded (longest : Nat) (s : State) : closeView (lastLog s) (windowEnded longest s) =
    (none, some (s.cnt.ticks + 5000000), (logEntry s (lastLog s)).start, now s, s.regs.active) := by
  have h : logEntry (windowEnded longest s) (lastLog s) = closedEntry longest s := logEntry_setLog_same ..
  unfold closeView
  rw [h]
  rfl

theorem allSamples_sameWindow {rails : List (List Int)} {w : BitVec 9} {s : State} (hwin : s.pwr.window = some w)
    (h : ∀ r < 9, w.getLsbD r = false → meetsWarning s r (rails.getD r []) = false) (hlen : rails.length = 9) :
    SameWindow w s (allSamples rails s) := by
  refine each_induction (P := SameWindow w s) (fun x hx t ht => railSamples_sameWindow ht fun hj => ?_) ⟨hwin, rfl, rfl, rfl⟩
  have hx' := List.mem_zipIdx_iff_getElem?.mp hx
  have hr : x.2 < 9 := hlen ▸ (List.getElem?_eq_some_iff.mp hx').1
  have hl : rails.getD x.2 [] = x.1 := by rw [List.getD_eq_getElem?_getD, hx']; rfl
  exact hl ▸ h x.2 hr hj

theorem windowClose_closes {rails : List (List Int)} {longest : Nat} {w : BitVec 9} {s : State} (hb : s.boot ≠ .held)
    (hwin : s.pwr.window = some w)
    (h : ∀ r < 9, (w.getLsbD r = true → railClears s r (rails.getD r []) = true) ∧
      (w.getLsbD r = false → meetsWarning s r (rails.getD r []) = false)) (hlen : rails.length = 9) :
    ∃ t, exec (.windowClose rails longest) s = .next t ∧ t.pwr.window = none ∧
      t.pwr.holdEnd = some (s.cnt.ticks + 5000000) ∧ (logEntry t (lastLog s)).stop = now s ∧
      (logEntry t (lastLog s)).start = (logEntry s (lastLog s)).start ∧
      bit (hw t 0xF0040) 1 = true ∧ t.regs.active = s.regs.active := by
  obtain ⟨hwin', hlast, hstart, hregs⟩ := allSamples_sameWindow hwin (fun r hr => (h r hr).2) hlen
  have hclears : ∀ r < 9, w.getLsbD r = true → railClears (allSamples rails s) r (rails.getD r []) = true :=
    fun r hr hm => (railClears_congr hregs ..).trans ((h r hr).1 hm)
  have hexec := execWindowClose_of_shut (longest := longest) hb hwin' hclears
  have hrest := allSamples_rest rails s
  have hticks : (allSamples rails s).cnt = s.cnt := by rw [hrest]
  have hnow : now (allSamples rails s) = now s := by rw [hrest]; rfl
  generalize allSamples rails s = u at *
  have hview : closeView (lastLog s) (windowCal (windowShut (lastLog u) (windowEnded longest u))) =
      (none, some (s.cnt.ticks + 5000000), (logEntry s (lastLog s)).start, now s, s.regs.active) := by
    rw [closeView_windowCal, closeView_windowShut, ← hlast, closeView_windowEnded, hticks, hnow, hlast, hstart, hregs]
  have hbit := bit_windowCal (by decide) (bit_windowShut (lastLog u) (windowEnded longest u))
  exact ⟨_, hexec, (congrArg (·.1) hview :), (congrArg (·.2.1) hview :), (congrArg (·.2.2.2.1) hview :),
    (congrArg (·.2.2.1) hview :), hbit, (congrArg (·.2.2.2.2) hview :)⟩

/-! ### WINDOW_QCAL_DONE -/

theorem qcal_stampQcal {l : List Nat} {t : Stamp} {i : Nat} (hi : i ∈ l) (s : State) :
    (logEntry (stampQcal l t s) i).qcal = t := by
  refine each_reaches (Q := fun _ => True) (P := fun s => (logEntry s i).qcal = t) hi (fun _ _ _ _ => trivial)
    (fun s _ => congrArg LogEntry.qcal (logEntry_setLog_same ..)) (fun j s h => ?_) trivial
  by_cases hj : i = j
  · subst hj; exact congrArg LogEntry.qcal (logEntry_setLog_same ..)
  · rw [logEntry_setLog_ne hj]; exact h

theorem windowQcalDone_ends {s : State} (hb : s.boot ≠ .held) (hq : s.pwr.qcalFor ≠ []) (hc : s.clk.stopped = false)
    (hconv : ∀ c < 16, (conv s c).qcal = none) (hwin : s.pwr.window = none) :
    ∃ t, exec .windowQcalDone s = .next t ∧ t.pwr.coverage = false ∧ t.pwr.qcalFor = [] ∧
      t.pwr.covEnd = now s ∧ (∀ i ∈ s.pwr.qcalFor, (logEntry t i).qcal = now s) ∧ Raised 0xF0040 2 s t := by
  have hall : s.pwr.qcalFor ≠ [] ∧ (!s.clk.stopped) = true ∧ ((List.range 16).all fun c => (conv s c).qcal.isNone) = true :=
    ⟨hq, by rw [hc]; rfl, List.all_eq_true.mpr fun c hcm => by rw [hconv c (List.mem_range.mp hcm)]; rfl⟩
  have hexec : exec .windowQcalDone s = .next { windowQcalEnd s with pending := s.pending, boot := s.boot } :=
    (run_of_live hb).trans (congrArg (fun v : State => Host.Outcome.next { v with pending := s.pending, boot := s.boot })
      (if_pos hall))
  have hwin' : (stampQcal s.pwr.qcalFor (now s) s).pwr.window = none :=
    (congrArg Prod.fst (closeView_stampQcal 0 ..)).trans hwin
  have hpwr : (windowQcalEnd s).pwr = calEndPwr (now s) true (stampQcal s.pwr.qcalFor (now s) s).pwr := by
    rw [windowQcalEnd_eq, raise_pwr, calEnded, hwin']; rfl
  refine ⟨_, hexec, ?_, ?_, ?_, fun i hi => ?_, ?_⟩
  · exact (congrArg PwrSt.coverage hpwr).trans (Bool.and_false _)
  · exact congrArg PwrSt.qcalFor hpwr
  · exact congrArg PwrSt.covEnd hpwr
  · exact (congrArg (fun x : PwrSt => (smGet ({} : LogEntry) i x.log).qcal) hpwr).trans (qcal_stampQcal hi s)
  · have h := hw_stampQcal s.pwr.qcalFor (now s) 0xF0040 s
    rw [windowQcalEnd_eq]
    generalize stampQcal s.pwr.qcalFor (now s) s = u at h
    exact (raised_raise (calEnded (now s) u) (by decide)).congr h rfl

/-! ### COMMIT_HOLD_END -/

/-- The hold of the commits has ended. -/
def holdEnded (s : State) : State :=
  { s with pwr := { s.pwr with holdEnd := none, lifeNoted := 0 }, commits := { s.commits with held := false } }

theorem execCommitHoldEnd_eq (s : State) : execCommitHoldEnd s = run (fun s =>
    match s.pwr.window, s.pwr.holdEnd with
    | none, some t => if t ≤ s.cnt.ticks then raise 0xF0040 3 (holdEnded s) else s
    | _, _ => s) s := rfl

theorem execCommitHoldEnd_of_due {s : State} {u : Nat} (hb : s.boot ≠ .held) (hwin : s.pwr.window = none)
    (hh : s.pwr.holdEnd = some u) (hu : u ≤ s.cnt.ticks) : execCommitHoldEnd s =
      .next { raise 0xF0040 3 (holdEnded s) with pending := s.pending, boot := s.boot } := by
  rw [execCommitHoldEnd_eq, run_of_live hb]
  simp only [hwin, hh, hu, if_true]

theorem commitHoldEnd_due {s : State} {u : Nat} (hb : s.boot ≠ .held) (hwin : s.pwr.window = none)
    (hh : s.pwr.holdEnd = some u) (hu : u ≤ s.cnt.ticks) : ∃ t, exec .commitHoldEnd s = .next t ∧ commitsHeld t = false ∧
      Raised 0xF0040 3 s t ∧ t.commits = { s.commits with held := false } ∧ t.regs.active = s.regs.active := by
  refine ⟨_, execCommitHoldEnd_of_due hb hwin hh hu, ?_, ?_, raise_commits .., raise_active ..⟩
  · simp [commitsHeld, holdEnded, hwin]
  · exact (raised_raise (holdEnded s) (by decide)).congr rfl rfl

theorem commitHoldEnd_waits {s : State} {u : Nat} (hb : s.boot ≠ .held) (hwin : s.pwr.window = none)
    (hh : s.pwr.holdEnd = some u) (hu : s.cnt.ticks < u) : exec .commitHoldEnd s = .next s := by
  change execCommitHoldEnd s = _
  rw [execCommitHoldEnd_eq, run_of_live hb]
  simp only [hwin, hh, Nat.not_le.mpr hu, if_false]

/-! ### The statement -/

/-- Settles O37. -/
theorem supplyWindows : Obligations.SupplyWindows := by
  refine ⟨⟨fun s r l hb hwin => ⟨fun hm => ?_, windowOpen_waits hb⟩,
    fun s r l w hb hwin => ⟨railJoins_joins hb hwin, railJoins_not hb hwin⟩,
    fun s w rails longest hb hwin => ⟨windowClose_closes hb hwin, fun r hr => windowClose_waits hb hwin hr⟩,
    fun s hb hq hc hconv hwin => windowQcalDone_ends hb hq hc hconv hwin⟩,
    fun s u hb hwin hh => ⟨commitHoldEnd_due hb hwin hh, commitHoldEnd_waits hb hwin hh⟩⟩
  obtain ⟨t, below, ht, hpwr, hcnt, hbit, hact⟩ := windowOpen_opens hb hwin hm
  have he : logEntry t s.pwr.logNext = openedEntry r l s := by
    unfold logEntry
    rw [hpwr]
    exact smGet_smPut_same ..
  refine ⟨t, ht, ?_, ?_, ?_, ?_, ?_, ?_, ?_, ?_, hcnt, hbit, hact⟩
  · rw [hpwr]; rfl
  · rw [hpwr]; rfl
  · unfold commitsHeld; rw [hpwr]; rfl
  · rw [hpwr]; rfl
  all_goals rw [he]; rfl

end Sys2Proof.Machine
end

section
/-! SETTLES. The steps of boot: release, training, the DRAM fill, READY and the programming of the OTP (R72, R87, R284, R304,
R402, R424, R427, R443, R449). -/

namespace Sys2Proof.Machine

/-! ### RESET_RELEASE -/

/-- The level of RESET_N that is kept, whether the ROM is measured, and the event word of the clocks' block. -/
def releaseView (s : State) : Bool × Bool × Word := (s.pins.resetN, s.sec.romDone, hw s 0x10040)

theorem releaseView_ite {c : Prop} [Decidable c] (s t : State) :
    releaseView (if c then s else t) = if c then releaseView s else releaseView t := apply_ite ..

theorem releaseView_setHw {a : Nat} (h : a ≠ 0x10040) (w : Word) (s : State) : releaseView (setHw a w s) = releaseView s := by
  unfold releaseView; rw [hw_setHw_ne w h.symm]; rfl

theorem releaseView_raise {a : Nat} (h : a ≠ 0x10040) (e : Nat) (s : State) : releaseView (raise a e s) = releaseView s := by
  unfold releaseView; rw [hw_raise_ne e h.symm, raise_pins, raise_sec]

theorem releaseView_raiseIf {a : Nat} (h : a ≠ 0x10040) (c : Bool) (e : Nat) (s : State) :
    releaseView (raiseIf c a e s) = releaseView s := by
  simp only [raiseIf, releaseView_ite, releaseView_raise h, ite_self]

theorem releaseView_cnvRaise (c slice e : Nat) (s : State) : releaseView (cnvRaise c slice e s) = releaseView s := by
  unfold releaseView
  rw [hw_cnvRaise_off (by decide) (by decide)]
  simp [cnvRaise]

theorem releaseView_bootSlice (c slice : Nat) (s : State) : releaseView (bootSlice c slice s) = releaseView s := by
  have hset (w : Word) (s : State) : releaseView (setHw (cvA c 0x24) w s) = releaseView s :=
    releaseView_setHw (by unfold cvA; omega) w s
  have hconv (x : Conv) (s : State) : releaseView (setConv c x s) = releaseView s := rfl
  simp only [bootSlice, releaseView_ite, releaseView_cnvRaise, hset, hconv, ite_self]

theorem releaseView_bootLine (line : Nat) (s : State) : releaseView (bootLine line s) = releaseView s := by
  unfold bootLine
  dsimp only
  split
  · rfl
  · split <;> rfl

theorem releaseView_bootRow (row : Nat) (s : State) : releaseView (bootRow row s) = releaseView s := by
  unfold bootRow
  dsimp only
  split
  · rfl
  · split <;> rfl

theorem releaseView_bootCore (b : Bool) (s : State) : releaseView (bootCore b s) = releaseView s := by cases b <;> rfl

theorem releaseView_bootApply (w : Nat) (s : State) : releaseView (bootApply w s) = releaseView s := by
  unfold bootApply
  dsimp only
  split
  · exact releaseView_bootSlice ..
  · exact releaseView_bootLine ..
  · split
    · rfl
    · exact releaseView_bootRow ..
  · exact releaseView_bootCore ..
  · rfl
  · rfl

theorem releaseView_otpRequest (a : Nat) (l : List Byte) (s : State) : releaseView (otpRequest a l s) = releaseView s := by
  unfold otpRequest otpDefer
  simp only [releaseView_ite, releaseView_raise (a := 0xF0040) (by decide), addCnt,
    releaseView_setHw (a := 0xF0060) (by decide)]
  exact ite_self _

theorem releaseView_otpFill (a n : Nat) (s : State) : releaseView (otpFill a n s) = releaseView s := by
  simp only [otpFill, releaseView_ite, releaseView_otpRequest, ite_self]

theorem releaseView_lifeResume (s : State) : releaseView (lifeResume s) = releaseView s := by
  simp only [lifeResume, releaseView_ite, releaseView_otpFill, releaseView_otpRequest, each_keeps releaseView, ite_self,
    implies_true]

theorem releaseView_wearCountBad (s : State) : releaseView (wearCountBad s) = releaseView s :=
  (releaseView_raise (by decide) ..).trans (releaseView_setHw (by decide) ..)

theorem releaseView_released (s : State) :
    releaseView (released s) = releaseView (raise 0x10040 10 (setHw 0xE0068 1 (releaseStart s))) := by
  simp only [released, releaseView_raiseIf (a := 0xE0040) (by decide), releaseView_bootApply, releaseView_lifeResume,
    releaseView_wearCountBad, each_keeps releaseView, implies_true]

theorem resetRelease_boots {s : State} (hb : s.boot = .held) (hc : s.pwr.cause = 3 → s.pwr.over100 = 0) :
    ∃ t, exec .resetRelease s = .next t ∧ t.boot = .booting ∧ t.pins.resetN = true ∧ t.sec.romDone = true ∧
      Raised 0x10040 10 s t := by
  have hpins : (raise 0x10040 10 (setHw 0xE0068 1 (releaseStart s))).pins.resetN = true := by rw [raise_pins]; rfl
  have hsec : (raise 0x10040 10 (setHw 0xE0068 1 (releaseStart s))).sec.romDone = true := by rw [raise_sec]; rfl
  have hword : hw (setHw 0xE0068 1 (releaseStart s)) 0x10040 = hw s 0x10040 := hw_setHw_ne _ (by decide) _
  have hraised := raised_raise (a := 0x10040) (e := 10) (setHw 0xE0068 1 (releaseStart s)) (by decide)
  have hview := releaseView_released s
  have hexec := execResetRelease_of_held hb hc
  have hboot := boot_released s
  generalize released s = u at hview hexec hboot
  generalize raise 0x10040 10 (setHw 0xE0068 1 (releaseStart s)) = v at hview hpins hsec hraised
  obtain ⟨hpin, hrom, hev⟩ := by simpa only [releaseView, Prod.mk.injEq] using hview
  exact ⟨_, hexec, hboot, hpin.trans hpins, hrom.trans hsec, hraised.congr hword hev⟩

/-! ### TRAINING_COMPLETE -/

/-- What a training of nine channels finds that are all alike. -/
theorem foundAt_replicate (r : TrainResult) {c : Nat} (h : c < 9) : foundAt (List.replicate 9 r) c = r := by
  unfold foundAt
  rw [List.getD_eq_getElem?_getD, List.getElem?_replicate, if_pos h]
  rfl

theorem samePop_self (r : TrainResult) : samePop r r = true := by simp [samePop]

section
variable {s : State} {r : TrainResult} (hranks : 0 < r.ranks) (hwear : ∀ c < 9, wearRetires s c = false)
include hranks hwear

theorem present_alike : present s (List.replicate 9 r) = List.range 9 := by
  refine List.filter_eq_self.mpr fun c hc => ?_
  have hc := List.mem_range.mp hc
  rw [foundAt_replicate r hc, hwear c hc, decide_eq_true hranks]
  rfl

theorem uniform_alike : uniform s (List.replicate 9 r) = List.range 9 := by
  unfold uniform
  rw [present_alike hranks hwear, show List.range 9 = 0 :: List.range' 1 8 by decide]
  refine List.filter_eq_self.mpr fun c hc => ?_
  have hc : c < 9 := by
    rw [show 0 :: List.range' 1 8 = List.range 9 by decide] at hc
    exact List.mem_range.mp hc
  rw [foundAt_replicate r (by decide), foundAt_replicate r hc, samePop_self]

theorem bootSpare_alike (hotp : (otpByte s 0x28).toNat % 16 = 0) : bootSpare s (List.replicate 9 r) = some 8 := by
  have hall : ((List.range 9).all fun c => decide (0 < (foundAt (List.replicate 9 r) c).ranks)) = true :=
    List.all_eq_true.mpr fun c hc => by rw [foundAt_replicate r (List.mem_range.mp hc)]; exact decide_eq_true hranks
  unfold bootSpare
  simp only [hotp, hall, uniform_alike hranks hwear]
  decide

theorem trainDecide_alike (hpass : r.passed = true) (hotp : (otpByte s 0x28).toNat % 16 = 0) :
    trainDecide s (List.replicate 9 r) = some ([], some 8) := by
  have hbad : ((uniform s (List.replicate 9 r)).filter fun c => !(foundAt (List.replicate 9 r) c).passed) = [] := by
    rw [uniform_alike hranks hwear]
    refine List.filter_eq_nil_iff.mpr fun c hc => ?_
    rw [foundAt_replicate r (List.mem_range.mp hc), hpass]
    decide
  unfold trainDecide
  simp only [hbad, bootSpare_alike hranks hwear hotp]

end

/-- The placement of DRAM: the channels in service, the spare and the grade. -/
def placeView (s : State) : Nat × Nat × List Nat × Nat := (s.dram.nActive, s.dram.spare, s.dram.chmap, s.dram.grade)

theorem placeView_of_dram {s t : State} (h : t.dram = s.dram) : placeView t = placeView s := by unfold placeView; rw [h]

theorem placeView_setDch (c : Nat) (x : DChan) (s : State) : placeView (setDch c x s) = placeView s := rfl

theorem placeView_raise (a e : Nat) (s : State) : placeView (raise a e s) = placeView s := placeView_of_dram (raise_dram ..)

theorem placeView_raiseIf (c : Bool) (a e : Nat) (s : State) : placeView (raiseIf c a e s) = placeView s :=
  placeView_of_dram (raiseIf_dram ..)

theorem placeView_discovered (a : Nat) (w : Word) (s : State) : placeView (discovered a w s) = placeView s := rfl

theorem placeView_bootRepairs (c : Nat) (s : State) : placeView (bootRepairs c s) = placeView s := by
  unfold bootRepairs
  dsimp only
  split
  · rfl
  · exact (placeView_of_dram (wearAdd_keeps ..).1).trans (placeView_setDch ..)

/-- The channels that serve after training: of the good ones that are not the spare, the first eight. -/
def trainedActive (found : List TrainResult) (bad : List Nat) (spare : Option Nat) (s : State) : List Nat :=
  ((uniform s found).filter fun c => decide (c ∉ bad) && decide (some c ≠ spare)).take 8

theorem placeView_trained (found : List TrainResult) (bad : List Nat) (spare : Option Nat) (s : State) :
    placeView (trained found bad spare s) = ((trainedActive found bad spare s).length, spare.getD 15,
      trainedActive found bad spare s, s.dram.grade) := by
  unfold trained
  extract_lets good active chans _ s1 s2 s3 s4 s5
  have hchans : placeView chans = placeView s := each_keeps placeView (fun c t => by
    dsimp only
    split <;> rfl) s
  have h1 : placeView s1 = (active.length, spare.getD 15, active, s.dram.grade) := by
    have hgrade : chans.dram.grade = s.dram.grade := congrArg (·.2.2.2) hchans
    rw [← hgrade]
    rfl
  have h2 : placeView s2 = placeView s1 := by
    refine (each_keeps placeView (fun c s => placeView_bootRepairs c s) _).trans ?_
    split
    · exact placeView_bootRepairs ..
    · rfl
  have h5 : placeView s5 = placeView s2 := by
    simp only [s5, s4, s3, placeView_raiseIf, placeView_raise, each_keeps placeView, implies_true]
  rw [placeView_discovered, placeView_discovered, h5, h2, h1]
  rfl

theorem trainingComplete_trains {s : State} {r : TrainResult} (hb : s.boot = .booting)
    (hpll : ∀ p ∈ [4, 5, 6], pll s p = .inUse) (hranks : 0 < r.ranks) (hpass : r.passed = true)
    (hwear : ∀ c < 9, wearRetires s c = false) (hotp : (otpByte s 0x28).toNat % 16 = 0) :
    ∃ t, exec (.trainingComplete (List.replicate 9 r)) s = .next t ∧ t.boot = .trained ∧ t.dram.nActive = 8 ∧
      t.dram.spare = 8 ∧ t.dram.chmap = List.range 8 ∧ t.dram.grade = s.dram.grade := by
  have hall : s.boot = .booting ∧ [4, 5, 6].all (fun p => decide (pll s p = .inUse)) = true :=
    ⟨hb, List.all_eq_true.mpr fun p hp => decide_eq_true (hpll p hp)⟩
  have hexec : execTrainingComplete (List.replicate 9 r) s =
      .next { trained (List.replicate 9 r) [] (some 8) s with pending := s.pending } := by
    rw [execTrainingComplete_eq, runBoot, if_pos hall, trainDecide_alike hranks hwear hpass hotp]
  have hactive : trainedActive (List.replicate 9 r) [] (some 8) s = List.range 8 := by
    unfold trainedActive
    rw [uniform_alike hranks hwear]
    decide
  have hview := placeView_trained (List.replicate 9 r) [] (some 8) s
  have hboot := boot_trained (List.replicate 9 r) [] (some 8) s
  rw [hactive] at hview
  generalize trained (List.replicate 9 r) [] (some 8) s = u at hexec hview hboot
  obtain ⟨hn, hspare, hchmap, hgrade⟩ := by simpa only [placeView, Prod.mk.injEq] using hview
  exact ⟨_, hexec, hboot, hn, hspare, hchmap, hgrade⟩

/-! ### DRAM_FILL_DONE -/

/-- A channel that holds zeros and no poison. -/
def blank (x : DChan) : DChan := { x with cells := [], poisoned := [], sweep := 0 }

/-- One channel of the fill. -/
def fillOne (c : Nat) (s : State) : State :=
  if (dch s c).code = 0 ∨ (dch s c).code = 3 ∨ (dch s c).code = 6 then s else setDch c (blank (dch s c)) s

theorem fillChannels_eq (s : State) : fillChannels s = each (List.range 9) fillOne s := rfl

theorem dch_fillOne_ne {c d : Nat} (h : d ≠ c) (s : State) : dch (fillOne c s) d = dch s d := by
  unfold fillOne
  split
  · rfl
  · exact dch_setDch_ne _ h s

/-- A channel that training found and that is in service or spare. -/
def Trained (x : DChan) : Prop := x.code ≠ 0 ∧ x.code ≠ 3 ∧ x.code ≠ 6

theorem dch_fillOne_same {c : Nat} {s : State} (h : Trained (dch s c)) : dch (fillOne c s) c = blank (dch s c) := by
  obtain ⟨h0, h3, h6⟩ := h
  unfold fillOne
  rw [if_neg (by simp [h0, h3, h6]), dch_setDch_same]

theorem dch_fillChannels {c : Nat} {s : State} (hc : c < 9) (h : Trained (dch s c)) :
    dch (fillChannels s) c = blank (dch s c) := by
  rw [fillChannels_eq]
  refine each_reaches (P := fun t => dch t c = blank (dch s c)) (Q := fun t => dch t c = dch s c) (List.mem_range.mpr hc)
    (fun d t hd ht => (dch_fillOne_ne hd.symm t).trans ht) (fun t ht => ?_) (fun d t ht => ?_) rfl
  · rw [dch_fillOne_same (ht ▸ h), ht]
  · by_cases hd : c = d
    · subst hd
      have h' : Trained (blank (dch s c)) := h
      rw [dch_fillOne_same (ht ▸ h'), ht]
      rfl
    · exact (dch_fillOne_ne hd t).trans ht

theorem execDramFillDone_of_trained {ms : Nat} {s : State} (hb : s.boot = .trained) :
    execDramFillDone ms s = .next { fillEnd ms s with pending := s.pending } := by
  rw [execDramFillDone_eq, runBoot, if_pos hb]

theorem dch_fillEnd (ms c : Nat) (s : State) : dch (fillEnd ms s) c = dch (fillChannels s) c := by
  unfold fillEnd dch
  simp only [setHw_dram, rnlCount_dram]

theorem dramFillDone_fills {ms : Nat} {s : State} (hb : s.boot = .trained) :
    ∃ t, exec (.dramFillDone ms) s = .next t ∧ t.boot = .filled ∧ hw t 0xE0068 = wd (3 + 2 ^ 16 * Nat.min 65535 ms) ∧
      ∀ c < 9, (dch s c).code ≠ 0 → (dch s c).code ≠ 3 → (dch s c).code ≠ 6 →
        (dch t c).cells = [] ∧ (dch t c).poisoned = [] := by
  have hword : hw (fillEnd ms s) 0xE0068 = wd (3 + 2 ^ 16 * Nat.min 65535 ms) := hw_setHw_same ..
  have hboot : (fillEnd ms s).boot = .filled := rfl
  have hchan : ∀ c < 9, Trained (dch s c) → dch (fillEnd ms s) c = blank (dch s c) :=
    fun c hc h => (dch_fillEnd ms c s).trans (dch_fillChannels hc h)
  have hexec := execDramFillDone_of_trained (ms := ms) hb
  generalize fillEnd ms s = u at hexec hboot hword hchan
  refine ⟨_, hexec, hboot, hword, fun c hc h0 h3 h6 => ?_⟩
  have h := hchan c hc ⟨h0, h3, h6⟩
  exact ⟨(congrArg DChan.cells h :), (congrArg DChan.poisoned h :)⟩

/-! ### READY -/

/-- The pin READY and the reference seal. -/
def readyView (s : State) : Bool × Word := (s.pins.ready, s.sealing.ref)

theorem readyView_view : View readyView where
  put _ _ _ _ _ _ _ _ _ _ _ _ _ _ _ _ _ _ _ _ := rfl
  putPins _ _ _ _ _ := rfl
  putLgr _ _ _ := rfl
  putLaps _ _ := rfl
  of_setHw _ _ _ := rfl
  putClk _ _ _ _ _ _ _ _ _ _ _ _ _ _ _ _ _ _ _ _ _ _ := rfl
  putSlc _ _ := rfl
  putCommits _ _ _ _ := rfl
  putRegs _ _ _ := rfl
  of_raiseGlb _ s := Prod.ext (congrArg Pins.ready (raise_pins s ..)) (congrArg (·.ref) (raise_sealing s ..))
  of_overrideWords _ _ _ := rfl
  congrActive _ _ _ h := h
  congrPend _ _ _ h := h

theorem readyView_epochDraw (s : State) : readyView (epochDraw s) = readyView s := by
  unfold epochDraw
  dsimp only
  rw [readyView_view.of_setCnt64 (by decide)]
  split <;> rfl

theorem readyView_upAndReady (s : State) : readyView (upAndReady s) = (true, sealOf s.regs.committed) := by
  have hports (s : State) : readyView (each [0, 1] (fun p s =>
      setPort p { port s p with mode := portMode (cfg s) p, pllAt := s.cnt.ticks } s) s) = readyView s :=
    each_keeps readyView (fun _ s => readyView_view.of_setPort _ _ s) s
  rw [upAndReady, readyView_view.of_powerUpdate, hports, readyView_epochDraw]
  rfl

/-! ### OTP_PROGRAM -/

/-- The bits of an object are set one by one. -/
def setBits (l : List (Nat × Nat)) (s : State) : State := each l (fun x s => otpSet x.1 (BitVec.ofNat 8 (2 ^ x.2)) s) s

theorem programmed_zero (o : List (Nat × Byte)) (rest : List (List (Nat × Byte))) (s : State) :
    programmed 0 o rest s = setBits (objectBits s o) { s with sec := { s.sec with otpQueue := rest } } := by
  unfold programmed
  exact if_pos (Nat.sub_self _)

/-- A bit of the OTP as the fuses hold it. -/
def otpBit (s : State) (a i : Nat) : Bool := (smGet (otpDelivered a) a s.sec.otp).getLsbD i

theorem otpBit_otpSet_same {a i : Nat} (hi : i < 8) (s : State) : otpBit (otpSet a (BitVec.ofNat 8 (2 ^ i)) s) a i = true := by
  unfold otpBit otpSet
  rw [smGet_smIns_same, BitVec.getLsbD_or, BitVec.getLsbD_ofNat, Nat.testBit_two_pow]
  simp [hi]

/-- A bit once set stays set (R423). -/
theorem otpBit_otpSet_of_bit {a b i : Nat} (v : Byte) {s : State} (h : otpBit s a i = true) :
    otpBit (otpSet b v s) a i = true := by
  unfold otpBit otpSet at *
  by_cases hab : a = b
  · subst hab; rw [smGet_smIns_same, BitVec.getLsbD_or, h, Bool.true_or]
  · rw [smGet_smIns_ne _ _ hab]; exact h

theorem otpBit_setBits {a i : Nat} {l : List (Nat × Nat)} (hi : i < 8) (h : (a, i) ∈ l) (s : State) :
    otpBit (setBits l s) a i = true :=
  each_reaches (Q := fun _ => True) (P := fun s => otpBit s a i = true) h (fun _ _ _ _ => trivial)
    (fun s _ => otpBit_otpSet_same hi s) (fun _ _ => otpBit_otpSet_of_bit _) trivial

theorem lt_of_mem_objectBits {a i : Nat} {o : List (Nat × Byte)} {s : State} (h : (a, i) ∈ objectBits s o) : i < 8 := by
  unfold objectBits at h
  simp only [List.mem_flatMap, List.mem_map, List.mem_filter, List.mem_range, Prod.mk.injEq] at h
  obtain ⟨-, -, j, ⟨hj, -⟩, -, rfl⟩ := h
  exact hj

theorem otpQueue_setBits (l : List (Nat × Nat)) (s : State) : (setBits l s).sec.otpQueue = s.sec.otpQueue := by
  refine each_keeps (fun s : State => s.sec.otpQueue) (fun _ _ => ?_) s
  rfl

theorem slc_setBits (l : List (Nat × Nat)) (s : State) : (setBits l s).slc = s.slc := by
  refine each_keeps State.slc (fun _ _ => ?_) s
  rfl

theorem otpProgram_programs {s : State} {o : List (Nat × Byte)} {rest : List (List (Nat × Byte))} (hb : s.boot ≠ .held)
    (hh : otpHeld s = false) (hq : s.sec.otpQueue = o :: rest) (hd : s.slc.dropping = false) :
    ∃ t, exec (.otpProgram 0) s = .next t ∧ t.sec.otpQueue = rest ∧
      ∀ a i, (a, i) ∈ objectBits s o → ((smGet (otpDelivered a) a t.sec.otp).getLsbD i) = true := by
  have hexec : execOtpProgram 0 s = .next { programmed 0 o rest s with pending := s.pending } := by
    have hslc : (programmed 0 o rest s).slc = s.slc := by rw [programmed_zero, slc_setBits]
    rw [execOtpProgram_eq, runBoot, if_neg (by simp [hb, hh])]
    simp only [hq, hslc, hd, Bool.false_eq_true, and_false, if_false]
  refine ⟨_, hexec, ?_, fun a i h => ?_⟩
  · rw [programmed_zero]; exact otpQueue_setBits ..
  · rw [programmed_zero]; exact otpBit_setBits (lt_of_mem_objectBits h) h _

/-! ### The statement -/

/-- Settles O10. -/
theorem bootProceeds : Obligations.BootProceeds := by
  refine ⟨fun s _ hc ho => execResetRelease_waits (.inr ⟨hc, ho⟩), fun s hb hc => resetRelease_boots hb hc,
    fun s r hb hpll hranks hpass hwear hotp => trainingComplete_trains hb hpll hranks hpass hwear hotp,
    fun s ms hb => dramFillDone_fills hb, fun s h => ?_, fun s o rest hb hh hq hd => otpProgram_programs hb hh hq hd⟩
  have hexec := execReady_of_ok h
  have hboot := boot_upAndReady s
  have hview := readyView_upAndReady s
  generalize upAndReady s = u at hexec hboot hview
  obtain ⟨hready, href⟩ := by simpa only [readyView, Prod.mk.injEq] using hview
  exact ⟨_, hexec, hboot, hready, href⟩

end Sys2Proof.Machine
end

section
/-!
REASONING. What the restart of the sample clock leaves of the clocks (O40, O42): `clocks` reads off a state the PLLs, the
references, the source of CORE and every register word of the clocks' and device time's block. For each operation that a
restart runs one lemma says that it leaves them alone; the lemma of an operation cites those of the operations it calls. They
stand in the order of the model's files.
-/

namespace Sys2Proof.Machine

/-! ### The clocks -/

/-- The clocks but for how the sample clock stands, and the register words of block 1 (R113). -/
def clocks (s : State) : ClkSt × (Fin 0x10000 → Word) :=
  ({ s.clk with stopped := true, loss := true, rate := false, resume := false, stopStart := 0, splRelock := [] },
   fun a => hw s (0x10000 + a))

theorem clocks_eq {s t : State} (h : t.clk = s.clk) (h' : ∀ a, 0x10000 ≤ a → a < 0x20000 → hw t a = hw s a) :
    clocks t = clocks s := by
  unfold clocks
  rw [h]
  exact congrArg _ (funext fun a => h' _ (by omega) (by omega))

/-- States with the same clocks have the same PLLs, source of CORE and words of the block. -/
theorem pll_of_clocks {s t : State} (h : clocks t = clocks s) (p : Nat) : pll t p = pll s p :=
  congrArg (fun v : ClkSt × (Fin 0x10000 → Word) => smGet PllState.off p v.1.pll) h

theorem coreSrc_of_clocks {s t : State} (h : clocks t = clocks s) : t.clk.coreSrc = s.clk.coreSrc := congrArg (·.1.coreSrc) h

theorem coreB_of_clocks {s t : State} (h : clocks t = clocks s) : t.clk.coreB = s.clk.coreB := congrArg (·.1.coreB) h

theorem switching_of_clocks {s t : State} (h : clocks t = clocks s) : t.clk.switching = s.clk.switching :=
  congrArg (·.1.switching) h

theorem hw_of_clocks {s t : State} (h : clocks t = clocks s) {a : Nat} (ha : 0x10000 ≤ a) (ha' : a < 0x20000) :
    hw t a = hw s a := by
  have hword := congrFun (congrArg (·.2) h) ⟨a - 0x10000, by omega⟩
  simpa only [clocks, Nat.add_sub_cancel' ha] using hword

/-! The engines' registers lie above the block. -/

theorem above_polA (e off : Nat) : 0x20000 ≤ polA e off := by unfold polA; omega
theorem above_memA (c off : Nat) : 0x20000 ≤ memA c off := by unfold memA; omega
theorem above_inputLedger (c term : Nat) : 0x20000 ≤ inputLedger c term := by unfold inputLedger; omega
theorem above_off {a b : Nat} (h : 0x20000 ≤ a) : 0x20000 ≤ a + b := by omega
theorem above_off_off {a b c : Nat} (h : 0x20000 ≤ a) : 0x20000 ≤ a + b + c := by omega

/-! ### Ops -/

theorem clocks_setHw {a : Nat} (h : 0x20000 ≤ a) (w : Word) (s : State) : clocks (setHw a w s) = clocks s :=
  clocks_eq rfl fun _ _ hb => hw_setHw_ne w (by omega) s

theorem clocks_addCnt {a : Nat} (h : 0x20000 ≤ a) (n : Nat) (s : State) : clocks (addCnt a n s) = clocks s :=
  clocks_setHw h ..

theorem clocks_addHold {a : Nat} (h : 0x20000 ≤ a) (n : Nat) (s : State) : clocks (addHold a n s) = clocks s :=
  clocks_setHw h ..

theorem clocks_addCnt64 {a : Nat} (h : 0x20000 ≤ a) (n : Nat) (s : State) : clocks (addCnt64 a n s) = clocks s :=
  clocks_eq (by simp) fun _ _ hb => hw_addCnt64_ne n (by omega) (by omega) s

theorem clocks_setCnt64 {a : Nat} (h : 0x20000 ≤ a) (n : Nat) (s : State) : clocks (setCnt64 a n s) = clocks s :=
  (clocks_setHw (by omega) ..).trans (clocks_setHw h ..)

theorem clocks_raiseFrom {a : Nat} (h : a < 0x10000 ∨ 0x20000 ≤ a) (src e : Nat) (s : State) :
    clocks (raiseFrom src a e s) = clocks s :=
  clocks_eq (by simp) fun _ _ _ => hw_raiseFrom_ne src e (by omega) s

theorem clocks_raise {a : Nat} (h : 0x20000 ≤ a) (e : Nat) (s : State) : clocks (raise a e s) = clocks s :=
  clocks_raiseFrom (.inr h) ..

theorem clocks_sendEvent (cat : Nat) (e : Event) (s : State) : clocks (sendEvent cat e s) = clocks s :=
  clocks_eq (by simp) fun _ _ _ => by simp [hw]

theorem clocks_loss (i n : Nat) (s : State) : clocks (loss i n s) = clocks s := by
  simp only [loss, clocks_raise, clocks_addCnt64, apply_ite clocks, ite_self, Nat.reduceLeDiff, above_off]

theorem clocks_rill (k n : Nat) (s : State) : clocks (rill k n s) = clocks s := by
  simp only [rill, clocks_addCnt64, Nat.reduceLeDiff, above_off, above_off_off]

theorem clocks_rillReturn (k : Nat) (s : State) : clocks (rillReturn k s) = clocks s := by
  simp only [rillReturn, clocks_addCnt64, clocks_setCnt64, Nat.reduceLeDiff, above_off_off]

theorem clocks_freeNext (s : State) : clocks (freeNext s).2 = clocks s := by rfl

theorem clocks_setStream (n : Nat) (x : Stream) (s : State) : clocks (setStream n x s) = clocks s := by rfl
theorem clocks_setConv (n : Nat) (x : Conv) (s : State) : clocks (setConv n x s) = clocks s := by rfl
theorem clocks_setUnit (u : Nat) (x : Weir) (s : State) : clocks (setUnit u x s) = clocks s := by rfl
theorem clocks_setPol (e : Nat) (x : Pol) (s : State) : clocks (setPol e x s) = clocks s := by rfl
theorem clocks_setDch (c : Nat) (x : DChan) (s : State) : clocks (setDch c x s) = clocks s := by rfl

theorem clocks_cmdDone {a b : Nat} (ha : 0x20000 ≤ a) {f : State → State} (h : ∀ s, clocks (f s) = clocks s) (s : State) :
    clocks (cmdDone a b f s) = clocks s := by
  unfold cmdDone
  split
  · exact h _
  · exact clocks_setHw ha ..

theorem clocks_answer (n op status : Nat) (data : List Byte) (s : State) : clocks (answer n op status data s) = clocks s :=
  clocks_eq (by simp) fun _ _ _ => hw_answer_off (by unfold offLedger; omega) s

/-! ### DramOps -/

theorem clocks_rhActivate (c b row : Nat) (s : State) : clocks (rhActivate c b row s) = clocks s := by
  simp only [rhActivate, clocks_freeNext, clocks_setDch, clocks_addCnt64, apply_ite clocks, ite_self, above_memA]

theorem clocks_countRead (c b : Nat) (s : State) : clocks (countRead c b s) = clocks s := by
  simp only [countRead, clocks_addCnt64, clocks_loss, apply_ite clocks, ite_self, above_memA]

theorem clocks_kept (k : List Nat) (s : State) : clocks { s with dram := { s.dram with kept := k } } = clocks s := by rfl

theorem clocks_writeBurst (c b : Nat) (data : List Byte) (mask : List Bool) (poison : Bool) (s : State) :
    clocks (writeBurst c b data mask poison s) = clocks s := by
  simp only [writeBurst, clocks_loss, clocks_addCnt64, clocks_setDch, clocks_kept, apply_ite clocks, ite_self, above_memA]

theorem clocks_giveAnswer (a : Answer) (s : State) : clocks (giveAnswer a s) = clocks s := by rfl

theorem clocks_issueWrite (c : Nat) (q : DQ) (s : State) : clocks (issueWrite c q s) = clocks s := by
  simp only [issueWrite, clocks_loss, clocks_writeBurst, apply_ite clocks, ite_self]

theorem clocks_issueReq (c b : Nat) (q : DQ) (s : State) : clocks (issueReq c b q s) = clocks s := by
  simp only [issueReq, clocks_rhActivate, clocks_setDch, clocks_issueWrite, clocks_rill, clocks_giveAnswer, clocks_countRead,
    apply_ite clocks, ite_self]

theorem clocks_settleAll (n c b : Nat) (s : State) : clocks (settleAll n c b s) = clocks s := by
  induction n generalizing s with
  | zero => rfl
  | succ n ih =>
    rw [settleAll]
    dsimp only
    split
    · split
      · rfl
      · simp only [ih, clocks_issueReq, clocks_rillReturn, clocks_setDch, apply_ite clocks, ite_self]
    · rfl

theorem clocks_chanWake (c : Nat) (s : State) : clocks (chanWake c s) = clocks s := by
  simp only [chanWake, clocks_setDch, apply_ite clocks, ite_self]

theorem clocks_blockAccess (c b : Nat) (s : State) : clocks (blockAccess c b s) = clocks s :=
  (clocks_settleAll ..).trans (clocks_chanWake c _)

theorem clocks_dramWrite (a : Nat) (data : List Byte) (poison : Bool) (s : State) :
    clocks (dramWrite a data poison s) = clocks s := by
  simp only [dramWrite, clocks_writeBurst, clocks_blockAccess, each_keeps clocks, implies_true]

/-! ### Pool, budget and history -/

theorem clocks_poolSkip (e : Nat) (s : State) : clocks (poolSkip e s) = clocks s := by
  simp only [poolSkip, clocks_raise, clocks_addHold, above_polA]

theorem clocks_budgetCheck (s : State) : clocks (budgetCheck s) = clocks s := by
  unfold budgetCheck
  refine each_keeps clocks (fun _ _ => ?_) s
  split
  · rfl
  · simp only [clocks_setHw, clocks_sendEvent, clocks_raise, apply_ite clocks, ite_self, Nat.reduceLeDiff]

theorem clocks_hist (h : SMap Hist) (s : State) : clocks { s with cis := { s.cis with hist := h } } = clocks s := by rfl

theorem clocks_histPut (key entry lo hi : Nat) (data : List Byte) (s : State) :
    clocks (histPut key entry lo hi data s) = clocks s := by
  unfold histPut
  split <;> simp only [clocks_dramWrite, clocks_addCnt64, clocks_hist, apply_ite clocks, ite_self, Nat.reduceLeDiff]

theorem clocks_lanesFlush (s : State) : clocks (lanesFlush s) = clocks s := by
  simp only [lanesFlush, lanePut, clocks_histPut, each_keeps clocks, apply_ite clocks, ite_self, implies_true]

/-! ### Weir and launches -/

theorem clocks_restartLaneUnits (s : State) : clocks (restartLaneUnits s) = clocks s := by
  simp only [restartLaneUnits, restartUnit, clocks_setUnit, each_keeps clocks, apply_ite clocks, ite_self, implies_true]

theorem clocks_tinsShift (old new : Nat) (s : State) : clocks (tinsShift old new s) = clocks s := by
  simp only [tinsShift, clocks_setUnit, each_keeps clocks, apply_ite clocks, ite_self, implies_true]

theorem clocks_flightsDone (s : State) : clocks (flightsDone s) = clocks s := by
  have hraise (s : State) : clocks (raise 0x10 1 s) = clocks s := clocks_raiseFrom (.inl (by decide)) _ _ s
  refine each_keeps clocks (fun f s => ?_) _
  simp only [clocks_answer, hraise, apply_ite clocks, ite_self]

theorem clocks_cnvRaise (c slice e : Nat) (s : State) : clocks (cnvRaise c slice e s) = clocks s :=
  (clocks_raiseFrom (.inr (by decide)) ..).trans (clocks_setHw (by decide) ..)

/-! ### Converter -/

theorem clocks_fgLateCheck (p : Nat) (s : State) : clocks (fgLateCheck p s) = clocks s := by
  unfold fgLateCheck
  dsimp only
  split
  · exact clocks_cnvRaise ..
  · split <;> rfl

theorem clocks_windowStart (c : Nat) (s : State) : clocks (windowStart c s) = clocks s := by rfl

theorem clocks_qcalEnd (c : Nat) (s : State) : clocks (qcalEnd c s) = clocks s := by rfl

theorem clocks_qcalEight (c : Nat) (s : State) : clocks (qcalEight c s) = clocks s := by
  unfold qcalEight
  dsimp only
  split <;> simp only [clocks_setConv, clocks_windowStart, clocks_fgLateCheck, clocks_qcalEnd, clocks_cnvRaise,
    apply_ite clocks, ite_self]

theorem clocks_qcalRun (l : List Nat) (s : State) : clocks (qcalRun l s) = clocks s := by
  have hbegin (c : Nat) (s : State) : clocks (qcalBegin c s) = clocks s := by
    simp only [qcalBegin, clocks_qcalEight, clocks_setConv, apply_ite clocks, ite_self]
  unfold qcalRun
  dsimp only
  split
  · rfl
  · exact each_keeps clocks hbegin _

theorem clocks_qcalAgain (s : State) : clocks (qcalAgain s) = clocks s := by
  simp only [qcalAgain, clocks_qcalRun, clocks_cmdDone, apply_ite clocks, ite_self, implies_true, id_eq, Nat.reduceLeDiff]

theorem clocks_qcalFinish {f : State → State} (h : ∀ s, clocks (f s) = clocks s) (c : Nat) (s : State) :
    clocks (qcalFinish f c s) = clocks s := by
  have hdone (s : State) : clocks (cmdDone 0x20044 0 f s) = clocks s := clocks_cmdDone (by decide) h s
  unfold qcalFinish
  split
  · extract_lets up light _ s1 s2 s3 _ s4
    have h2 : clocks s2 = clocks s := clocks_cnvRaise ..
    have h3 : clocks s3 = clocks s2 := by simp only [s3, hdone, apply_ite clocks, ite_self]
    have h4 : clocks s4 = clocks s3 := by simp only [s4]; split <;> rfl
    rw [clocks_flightsDone, h4, h3, h2]
  · rfl

theorem clocks_qcalStart (l : List Nat) (s : State) : clocks (qcalStart l s) = clocks s := by
  have hagain (c : Nat) (s : State) : clocks (qcalFinish id c (qcalAgain s)) = clocks s :=
    (clocks_qcalFinish (fun _ => rfl) c _).trans (clocks_qcalAgain s)
  simp only [qcalStart, qcalCheck, clocks_qcalFinish (hagain _), clocks_qcalRun, apply_ite clocks, ite_self]

theorem clocks_clocksRest (c : Nat) (s : State) : clocks (clocksRest c s) = clocks s := by
  simp only [clocksRest, clockTerms, clocks_addCnt64, clocks_setConv, apply_ite clocks, ite_self, above_inputLedger]

theorem clocks_lossCount (s : State) : clocks (lossCount s) = clocks s := by
  unfold lossCount
  split
  · extract_lets n s1
    have h1 : clocks s1 = clocks s := each_keeps clocks (fun c s =>
      (clocks_addCnt64 (above_inputLedger c 3) _ _).trans (clocks_addCnt64 (above_inputLedger c 0) _ s)) s
    exact h1
  · rfl

theorem clocks_modeCalDone (s : State) : clocks (modeCalDone s) = clocks s := by unfold modeCalDone; split <;> rfl

theorem clocks_modeCalibrate (s : State) : clocks (modeCalibrate s) = clocks s := by
  have hmode (b : Bool) (s : State) : clocks { s with cnv := { s.cnv with modeCal := b } } = clocks s := rfl
  simp only [modeCalibrate, clocks_qcalStart, hmode, clocks_setConv, each_keeps clocks, implies_true]

theorem clocks_holdsShift (n : Nat) (s : State) : clocks (holdsShift n s) = clocks s := by
  refine each_keeps clocks (fun u s => ?_) s
  split
  · exact clocks_setUnit ..
  · rfl

theorem clocks_indicesRestart (s : State) : clocks (indicesRestart s) = clocks s := by
  unfold indicesRestart
  extract_lets s1 s2 s3 first runs past s4 s5 s6
  have h1 : clocks s1 = clocks s := clocks_holdsShift ..
  have h3 : clocks s3 = clocks s1 := by
    simp only [s3, s2, clocks_setStream, clocks_poolSkip, clocks_setPol, each_keeps clocks, implies_true]
  have h6 : clocks s6 = clocks s3 := by
    simp only [s6, s5, s4, clocks_tinsShift, clocks_setConv, clocks_lanesFlush, clocks_clocksRest, each_keeps clocks,
      implies_true]
  have hcnv (x : CnvSt) (s : State) : clocks { s with cnv := x } = clocks s := rfl
  rw [clocks_restartLaneUnits, hcnv, h6, h3, h1]

/-! ### Clock -/

theorem clocks_sampleStart (s : State) : clocks (sampleStart s) = clocks s := by
  unfold sampleStart
  split
  · extract_lets s1 rate first again _ s2 s3 s4
    have h2 : clocks s2 = clocks s := (rfl : clocks s2 = clocks s1).trans (clocks_lossCount s)
    have h4 : clocks s4 = clocks s2 := by
      simp only [s4, s3, clocks_modeCalDone, clocks_modeCalibrate, clocks_qcalStart, clocks_indicesRestart, apply_ite clocks,
        ite_self]
    split
    · exact h4.trans h2
    · rw [clocks_flightsDone, ← h2, ← h4]
      rfl
  · rfl

end Sys2Proof.Machine
end

section
/-!
REASONING. The PLLs (O40, O42): what is left where a PLL drives its output, where CORE is driven and where a memory PLL is
back or gated.
-/

namespace Sys2Proof.Machine

/-! ### A command that is over -/

theorem run_of_eq {f : State → State} {s u : State} (hb : s.boot ≠ .held) (h : f s = u) : run f s = .next (restored s u) := by
  rw [run_eq_restored hb, h]

@[simp] theorem pll_restored (s u : State) (p : Nat) : pll (restored s u) p = pll u p := by rfl
@[simp] theorem dch_restored (s u : State) (c : Nat) : dch (restored s u) c = dch u c := by rfl
@[simp] theorem port_restored (s u : State) (p : Nat) : port (restored s u) p = port u p := by rfl

@[simp] theorem hw_setPll (p : Nat) (x : PllState) (s : State) (a : Nat) : hw (setPll p x s) a = hw s a := by rfl

/-! ### A PLL drives its output -/

@[simp] theorem pll_raise (a e : Nat) (s : State) (p : Nat) : pll (raise a e s) p = pll s p := by simp [pll]
@[simp] theorem pll_raiseIf (c : Bool) (a e : Nat) (s : State) (p : Nat) : pll (raiseIf c a e s) p = pll s p := by simp [pll]

@[simp] theorem pll_pllDrives (p : Nat) (s : State) : pll (pllDrives p s) p = .inUse := by simp [pllDrives]

theorem pll_pllDrives_ne {p q : Nat} (h : q ≠ p) (s : State) : pll (pllDrives p s) q = pll s q := by
  simp only [pllDrives, pll_raiseIf, pll_setPll_ne _ h]; rfl

@[simp] theorem pllDrives_coreSrc (p : Nat) (s : State) : (pllDrives p s).clk.coreSrc = s.clk.coreSrc := by simp [pllDrives]
@[simp] theorem pllDrives_coreB (p : Nat) (s : State) : (pllDrives p s).clk.coreB = s.clk.coreB := by simp [pllDrives]
@[simp] theorem pllDrives_switching (p : Nat) (s : State) : (pllDrives p s).clk.switching = s.clk.switching := by
  simp [pllDrives]

theorem bit_hw_raiseIf_of_bit {s : State} {c : Bool} {a b e i : Nat} (hi : i < 24) (h : bit (hw s a) i = true) :
    bit (hw (raiseIf c b e s) a) i = true := by
  unfold raiseIf
  split
  · exact bit_hw_raise_of_bit hi h
  · exact h

theorem bit_hw_pllDrives {s : State} {a p i : Nat} (hi : i < 24) (h : bit (hw s a) i = true) :
    bit (hw (pllDrives p s) a) i = true :=
  bit_hw_raiseIf_of_bit hi h

/-! ### The standby and the core PLL in use -/

theorem coreIndex_ne_coreOther (s : State) : coreIndex s ≠ coreOther s := by unfold coreIndex coreOther; split <;> decide

/-- What follows for the standby is at most a new state of the other core PLL. -/
theorem warmUpdate_eq (s : State) : warmUpdate s = s ∨ ∃ x, warmUpdate s = setPll (coreOther s) x s := by
  unfold warmUpdate pllStart
  dsimp only
  split
  · split
    · split
      · exact .inl rfl
      · exact .inr ⟨_, rfl⟩
    · exact .inl rfl
  · split
    · exact .inl rfl
    · exact .inr ⟨_, rfl⟩

theorem warmUpdate_retired {s : State} (h : pll s (coreOther s) = .retired) : warmUpdate s = s := by
  simp [warmUpdate, h]

theorem pll_warmUpdate_ne {p : Nat} {s : State} (h : p ≠ coreOther s) : pll (warmUpdate s) p = pll s p := by
  obtain hs | ⟨x, hs⟩ := warmUpdate_eq s
  · rw [hs]
  · rw [hs, pll_setPll_ne _ h]

theorem warmUpdate_coreSrc (s : State) : (warmUpdate s).clk.coreSrc = s.clk.coreSrc := by
  obtain hs | ⟨x, hs⟩ := warmUpdate_eq s <;> rw [hs]; rfl

theorem warmUpdate_coreB (s : State) : (warmUpdate s).clk.coreB = s.clk.coreB := by
  obtain hs | ⟨x, hs⟩ := warmUpdate_eq s <;> rw [hs]; rfl

theorem warmUpdate_switching (s : State) : (warmUpdate s).clk.switching = s.clk.switching := by
  obtain hs | ⟨x, hs⟩ := warmUpdate_eq s <;> rw [hs]; rfl

theorem hw_warmUpdate (s : State) (a : Nat) : hw (warmUpdate s) a = hw s a := by
  obtain hs | ⟨x, hs⟩ := warmUpdate_eq s <;> rw [hs]; rfl

/-! ### CORE is driven -/

/-- The state in which the core PLL in use drives CORE, before the standby and the sample clock follow. -/
def coreOn (s : State) : State :=
  raiseIf s.clk.switching 0x10040 3 (pllDrives (coreIndex s) { timerStop tmRelock 0 (timerStop tmCoreRetry 0 s) with
    clk := { s.clk with coreSrc := .pll, switching := false } })

theorem clocks_coreDrives (s : State) : clocks (coreDrives s) = clocks (warmUpdate (coreOn s)) := clocks_sampleStart _

@[simp] theorem coreOn_coreB (s : State) : (coreOn s).clk.coreB = s.clk.coreB := by simp [coreOn]

theorem coreOther_coreOn (s : State) : coreOther (coreOn s) = coreOther s := by simp only [coreOther, coreOn_coreB]

theorem pll_coreOn (s : State) : pll (coreOn s) (coreIndex s) = .inUse := by simp [coreOn]

theorem pll_coreOn_ne {p : Nat} {s : State} (h : p ≠ coreIndex s) : pll (coreOn s) p = pll s p := by
  rw [coreOn, pll_raiseIf, pll_pllDrives_ne h]; rfl

theorem pll_coreDrives (s : State) : pll (coreDrives s) (coreIndex s) = .inUse := by
  have hne : coreIndex s ≠ coreOther (coreOn s) := by rw [coreOther_coreOn]; exact coreIndex_ne_coreOther s
  rw [pll_of_clocks (clocks_coreDrives s), pll_warmUpdate_ne hne, pll_coreOn]

theorem coreDrives_coreSrc (s : State) : (coreDrives s).clk.coreSrc = .pll := by
  rw [coreSrc_of_clocks (clocks_coreDrives s), warmUpdate_coreSrc]; simp [coreOn]

theorem coreDrives_coreB (s : State) : (coreDrives s).clk.coreB = s.clk.coreB := by
  rw [coreB_of_clocks (clocks_coreDrives s), warmUpdate_coreB, coreOn_coreB]

theorem coreDrives_switching (s : State) : (coreDrives s).clk.switching = false := by
  rw [switching_of_clocks (clocks_coreDrives s), warmUpdate_switching]; simp [coreOn]

/-- A retired PLL stays so where the other one drives CORE. -/
theorem pll_coreDrives_retired {s : State} (h : pll s (coreOther s) = .retired) :
    pll (coreDrives s) (coreOther s) = .retired := by
  have hon : pll (coreOn s) (coreOther s) = .retired := (pll_coreOn_ne (coreIndex_ne_coreOther s).symm).trans h
  rw [pll_of_clocks (clocks_coreDrives s), warmUpdate_retired (by rwa [coreOther_coreOn]), hon]

theorem hw_coreDrives (s : State) : hw (coreDrives s) 0x10040 = hw (coreOn s) 0x10040 := by
  rw [hw_of_clocks (clocks_coreDrives s) (by decide) (by decide), hw_warmUpdate]

/-- The events of the clocks stay set, and C_SWITCHED is set where CORE changes its PLL. -/
theorem bit_coreDrives {s : State} {i : Nat} (hi : i < 24) (h : bit (hw s 0x10040) i = true) :
    bit (hw (coreDrives s) 0x10040) i = true := by
  rw [hw_coreDrives]
  exact bit_hw_raiseIf_of_bit hi (bit_hw_pllDrives hi h)

theorem bit_coreDrives_switched {s : State} (h : s.clk.switching = true) : bit (hw (coreDrives s) 0x10040) 3 = true := by
  rw [hw_coreDrives, coreOn, h, raiseIf, if_pos rfl, hw_raise_same]
  exact bit_afterEvent _ _ (by decide)

/-! ### The memory PLLs -/

theorem clocks_dram (x : DramSt) (s : State) : clocks { s with dram := x } = clocks s := by rfl

theorem clocks_setupDone (s : State) : clocks (setupDone s) = clocks s := by
  unfold setupDone
  split
  · rfl
  · exact clocks_flightsDone _

theorem pll_memBack (i : Nat) (s : State) : pll (memBack i s) (4 + i) = .inUse := by
  have hretrain (c : Nat) (s : State) : clocks (retrainStart c (!s.dram.regrade) s) = clocks s := clocks_setDch ..
  have hback : clocks (memBack i s) = clocks (pllDrives (4 + i) s) := by
    unfold memBack
    extract_lets s1 s2 wait
    have h2 : clocks s2 = clocks s1 := by
      simp only [s2, hretrain, each_keeps clocks, apply_ite clocks, ite_self, implies_true]
    rw [clocks_budgetCheck, clocks_setupDone, clocks_dram, h2]
  rw [pll_of_clocks hback, pll_pllDrives]

end Sys2Proof.Machine
end


section
/-!
SETTLES. Lock detect and the settling timer (O40).
-/

namespace Sys2Proof.Machine

/-- What a PLL does when its settling timer ends (R94, R95). -/
def settledPll (p : Nat) (s : State) : State :=
  if p = 0 then sampleStart (pllDrives 0 s)
  else if p = 1 then pllDrives 1 s
  else if 4 ≤ p then memBack (p - 4) s
  else if p = coreIndex s then coreDrives s
  else if warm s ∨ s.clk.coreSrc ≠ .pll then setPll p .standbyReady s
  else setPll p .off s

theorem exec_settleTimerExpiry {s : State} {p : Fin 7} (hb : s.boot ≠ .held) (hp : pll s p = .settling)
    (hd : timerDue s tmSettle p = true) : exec (.settleTimerExpiry p) s = .next (restored s (settledPll p s)) := by
  have hdue : ¬(pll s p ≠ .settling ∨ !timerDue s tmSettle p) := by simp [hp, hd]
  change execSettleTimerExpiry p s = _
  refine run_of_eq hb ?_
  refine (if_neg hdue).trans ?_
  match p with
  | 0 | 1 | 2 | 3 | 4 | 5 | 6 => rfl

theorem settledPll_mem {p : Nat} (h : 4 ≤ p) (s : State) : settledPll p s = memBack (p - 4) s := by
  rw [settledPll, if_neg (by omega), if_neg (by omega), if_pos h]

theorem pll_settledPll {p : Fin 7} (h : p.val < 2 ∨ 4 ≤ p.val) (s : State) : pll (settledPll p s) p = .inUse := by
  obtain h0 | h1 | h4 : p.val = 0 ∨ p.val = 1 ∨ 4 ≤ p.val := by omega
  · rw [h0]
    exact (pll_of_clocks (clocks_sampleStart _) 0).trans (pll_pllDrives 0 s)
  · rw [h1]
    exact pll_pllDrives 1 s
  · have hback := pll_memBack (p - 4) s
    rwa [Nat.add_sub_cancel' h4, ← settledPll_mem h4] at hback

theorem coreIndex_range (s : State) : coreIndex s = 2 ∨ coreIndex s = 3 := by unfold coreIndex; split <;> simp
theorem coreOther_range (s : State) : coreOther s = 2 ∨ coreOther s = 3 := by unfold coreOther; split <;> simp

theorem settledPll_core (s : State) : settledPll (coreIndex s) s = coreDrives s := by
  have h := coreIndex_range s
  rw [settledPll, if_neg (by omega), if_neg (by omega), if_neg (by omega), if_pos rfl]

theorem settledPll_other {s : State} (hsrc : s.clk.coreSrc = .pll) :
    settledPll (coreOther s) s = setPll (coreOther s) (if warm s then .standbyReady else .off) s := by
  have h := coreOther_range s
  rw [settledPll, if_neg (by omega), if_neg (by omega), if_neg (by omega), if_neg (coreIndex_ne_coreOther s).symm]
  simp only [hsrc, ne_eq, not_true_eq_false, or_false]
  split <;> rfl

/-- Settles O40: the restart of the sample clock, the standby and the memory channels leave the PLL that drives alone. -/
theorem pllLocking : Obligations.PllLocking := by
  unfold Obligations.PllLocking
  refine ⟨fun s p hb hp => ?lock, fun s p hd => ?early, fun s p hb hp hd hrange => ?drives, fun s p hb hp hd hk => ?core,
    fun s p hb hp hd ho hsrc => ?other⟩
  case lock =>
    have hexec : exec (.pllLockDetect p) s = .next (restored s (timerSet tmSettle p (settleTicks s) (setPll p .settling s))) :=
      run_of_eq hb (if_pos hp)
    exact ⟨_, hexec, pll_setPll_same .., fun q hq => pll_setPll_ne _ hq s, rfl⟩
  case early =>
    have hearly : pll s p ≠ .settling ∨ !timerDue s tmSettle p := by simp [hd]
    exact (run_of_same (if_pos hearly) : execSettleTimerExpiry p s = .next s)
  case drives => exact ⟨_, exec_settleTimerExpiry hb hp hd, pll_settledPll hrange s⟩
  case core =>
    refine ⟨_, exec_settleTimerExpiry hb hp hd, ?_⟩
    rw [hk, settledPll_core]
    exact ⟨pll_coreDrives s, coreDrives_coreSrc s, coreDrives_switching s⟩
  case other =>
    refine ⟨_, exec_settleTimerExpiry hb hp hd, ?_⟩
    rw [ho, settledPll_other hsrc]
    exact ⟨pll_setPll_same .., hsrc⟩

end Sys2Proof.Machine
end

section
/-!
REASONING. What a link that goes down leaves of its port (O42).
-/

namespace Sys2Proof.Machine

/-! ### The links -/

/-- What the moved streams, PTP and the budgets leave where a link goes down: the ports and the events of one of them. -/
def linkView (p : Nat) (s : State) : SMap Port × Word := (s.ports, hw s (ethA p 0x80))

theorem linkView_eq {p : Nat} {s t : State} (h : t.ports = s.ports) (h' : hw t (ethA p 0x80) = hw s (ethA p 0x80)) :
    linkView p t = linkView p s := by
  rw [linkView, h, h', linkView]

theorem port_of_linkView {p : Nat} {s t : State} (h : linkView p t = linkView p s) : port t p = port s p :=
  congrArg (fun v : SMap Port × Word => smGet ({} : Port) p v.1) h

theorem hw_of_linkView {p : Nat} {s t : State} (h : linkView p t = linkView p s) : hw t (ethA p 0x80) = hw s (ethA p 0x80) :=
  congrArg (·.2) h

theorem ethA_events_lt {p : Nat} (hp : p < 2) : ethA p 0x80 < 0xB0000 := by unfold ethA; omega

section
variable {p : Nat} (hp : p < 2)
include hp

theorem linkView_setHw {a : Nat} (ha : 0xB0000 ≤ a) (w : Word) (s : State) : linkView p (setHw a w s) = linkView p s :=
  linkView_eq rfl (hw_setHw_ne w (by have := ethA_events_lt hp; omega) s)

theorem linkView_raise {a : Nat} (ha : 0xB0000 ≤ a) (e : Nat) (s : State) : linkView p (raise a e s) = linkView p s :=
  linkView_eq (by simp) (hw_raise_ne e (by have := ethA_events_lt hp; omega) s)

theorem linkView_raiseIf {a : Nat} (ha : 0xB0000 ≤ a) (c : Bool) (e : Nat) (s : State) :
    linkView p (raiseIf c a e s) = linkView p s := by
  simp only [raiseIf, linkView_raise hp ha, apply_ite (linkView p), ite_self]

omit hp in
theorem linkView_sendEvent (cat : Nat) (e : Event) (s : State) : linkView p (sendEvent cat e s) = linkView p s :=
  linkView_eq (by simp) (hw_congr (by simp) _)

theorem linkView_budgetCheck (s : State) : linkView p (budgetCheck s) = linkView p s := by
  unfold budgetCheck
  refine each_keeps (linkView p) (fun _ _ => ?_) s
  split
  · rfl
  · simp only [linkView_setHw hp, linkView_sendEvent, linkView_raise hp, apply_ite (linkView p), ite_self, Nat.reduceLeDiff]

theorem linkView_placeStreams (s : State) : linkView p (placeStreams s) = linkView p s := by
  have hstream (n : Nat) (x : Stream) (s : State) : linkView p (setStream n x s) = linkView p s := rfl
  refine each_keeps (linkView p) (fun n s => ?_) s
  simp only [moveStream, linkView_raiseIf hp, linkView_raise hp, hstream, apply_ite (linkView p), ite_self, Nat.reduceLeDiff]

end

theorem linkView_ptpLinkLost (p q : Nat) (s : State) : linkView p (ptpLinkLost q s) = linkView p s := by
  unfold ptpLinkLost
  split <;> rfl

@[simp] theorem port_raise (a e : Nat) (s : State) (p : Nat) : port (raise a e s) p = port s p := by simp [port]

theorem tx_txAbort (p : Nat) (s : State) : (port (txAbort p s) p).tx = none := by
  have hqueue (n : Nat) (f : List QItem → List QItem) (s : State) : port (onQueue p n f s) p = port s p := by
    unfold onQueue
    dsimp only
    split <;> rfl
  unfold txAbort
  dsimp only
  split
  · simp
  · rw [hqueue, port_setPort_same]
  · simp

/-- A link that is up goes down: the port is down, sends nothing more and has had its event. -/
theorem portGoesDown_view {p : Nat} (hp : p < 2) {s : State} (hup : (port s p).up = true) :
    (port (portGoesDown p s) p).up = false ∧ (port (portGoesDown p s) p).tx = none ∧
    bit (hw (portGoesDown p s) (ethA p 0x80)) 1 = true := by
  unfold portGoesDown
  rw [if_pos hup]
  extract_lets s1 _ s2
  have hview : linkView p (budgetCheck (ptpLinkLost p (placeStreams (raise (ethA p 0x80) 1 s2)))) =
      linkView p (raise (ethA p 0x80) 1 s2) := by
    rw [linkView_budgetCheck hp, linkView_ptpLinkLost, linkView_placeStreams hp]
  have hport : port (raise (ethA p 0x80) 1 s2) p = { port s1 p with up := false, fault := false, paused := 0 } :=
    (port_raise ..).trans (port_setPort_same ..)
  rw [port_of_linkView hview, hw_of_linkView hview, hport, hw_raise_same]
  exact ⟨rfl, tx_txAbort p s, bit_afterEvent _ _ (by decide)⟩

end Sys2Proof.Machine
end

section
/-!
REASONING. What the exchange of the core PLLs and an unlock of a memory PLL leave (O42).
-/

namespace Sys2Proof.Machine

/-! ### The core PLLs are exchanged -/

theorem clocks_wearAdd (kind cause gen index : Nat) (s : State) : clocks (wearAdd kind cause gen index s) = clocks s := by
  have hlgr (x : LgrSt) (s : State) : clocks { s with lgr := x } = clocks s := rfl
  simp only [wearAdd, otpDefer, clocks_raise, clocks_rill, clocks_addCnt, hlgr, apply_ite clocks, ite_self, Nat.reduceLeDiff]

/-- The failed core PLL is retired with C_RETIRED, and the other one is to be used. -/
def coreRetired (s : State) : State :=
  let u := raise 0x10040 4 (wearAdd 8 1 0 (b2n s.clk.coreB) (setPll (coreIndex s) .retired s))
  { u with clk := { u.clk with coreB := !u.clk.coreB, switching := true } }

theorem coreB_coreRetired (s : State) : (coreRetired s).clk.coreB = !s.clk.coreB := by
  have hwear := coreB_of_clocks (clocks_wearAdd 8 1 0 (b2n s.clk.coreB) (setPll (coreIndex s) .retired s))
  simp only [coreRetired, raise_clk, hwear]
  rfl

theorem coreIndex_coreRetired (s : State) : coreIndex (coreRetired s) = coreOther s := by
  unfold coreIndex coreOther
  rw [coreB_coreRetired]
  cases s.clk.coreB <;> rfl

theorem coreOther_coreRetired (s : State) : coreOther (coreRetired s) = coreIndex s := by
  unfold coreIndex coreOther
  rw [coreB_coreRetired]
  cases s.clk.coreB <;> rfl

theorem pll_coreRetired (s : State) (p : Nat) : pll (coreRetired s) p = pll (setPll (coreIndex s) .retired s) p :=
  (pll_raise 0x10040 4 (wearAdd 8 1 0 (b2n s.clk.coreB) (setPll (coreIndex s) .retired s)) p).trans
    (pll_of_clocks (clocks_wearAdd ..) p)

theorem pll_coreRetired_index (s : State) : pll (coreRetired s) (coreIndex s) = .retired := by
  rw [pll_coreRetired, pll_setPll_same]

theorem pll_coreRetired_other (s : State) : pll (coreRetired s) (coreOther s) = pll s (coreOther s) := by
  rw [pll_coreRetired, pll_setPll_ne _ (coreIndex_ne_coreOther s).symm]

theorem bit_coreRetired (s : State) : bit (hw (coreRetired s) 0x10040) 4 = true :=
  (congrArg (bit · 4) (hw_raise_same ..)).trans (bit_afterEvent _ _ (by decide))

/-- The other core PLL is brought in as it stands (R98). -/
def coreTakes (s : State) : State :=
  match pll (coreRetired s) (coreOther s) with
  | .standbyReady => coreDrives (coreRetired s)
  | .locking | .settling => coreRetired s
  | _ => pllStart (coreOther s) (coreRetired s)

theorem coreTakes_off {s : State} (h : pll s (coreOther s) = .off) :
    coreTakes s = setPll (coreOther s) .locking (coreRetired s) := by
  have ho := (pll_coreRetired_other s).trans h
  rw [coreTakes, ho]
  exact if_neg (by rw [ho]; decide)

theorem coreTakes_standby {s : State} (h : pll s (coreOther s) = .standbyReady) : coreTakes s = coreDrives (coreRetired s) := by
  rw [coreTakes, pll_coreRetired_other, h]

theorem exec_coreRelockTimeout {s : State} (hb : s.boot ≠ .held) (hsrc : s.clk.coreSrc = .bypass)
    (hk : pll s (coreIndex s) = .locking) (ho : pll s (coreOther s) ≠ .retired) (hd : timerRan s tmRelock 0 = true) :
    exec .coreRelockTimeout s =
      .next (restored s (coreTakes (timerSet tmCoreRetry 0 (1000 * msTicks) (timerStop tmRelock 0 s)))) := by
  change execCoreRelockTimeout s = _
  refine run_of_eq hb ?_
  dsimp only
  rw [if_pos ⟨hsrc, hk, hd⟩]
  exact if_neg ho

/-! ### The retry of the core PLLs -/

/-- A core PLL that locks is tried once more. -/
def coreTry (k : Nat) (ok : Bool) (s : State) : State :=
  if pll s k = .locking ∧ ok then timerSet tmSettle k (settleTicks s) (setPll k .settling s) else s

theorem coreTry_skip {k : Nat} {ok : Bool} {s : State} (h : pll s k ≠ .locking) : coreTry k ok s = s := if_neg fun hc => h hc.1

theorem pll_coreTry_same {k : Nat} {ok : Bool} {s : State} (h : pll s k = .locking) :
    pll (coreTry k ok s) k = if ok then .settling else .locking := by
  cases ok
  · simpa [coreTry] using h
  · rw [coreTry, if_pos ⟨h, rfl⟩]
    exact pll_setPll_same ..

theorem pll_coreTry_ne {k q : Nat} {ok : Bool} {s : State} (h : q ≠ k) : pll (coreTry k ok s) q = pll s q := by
  unfold coreTry
  split
  · exact pll_setPll_ne _ h s
  · rfl

theorem coreTry_eq (k : Nat) (ok : Bool) (s : State) : coreTry k ok s =
    { s with clk := { s.clk with pll := (coreTry k ok s).clk.pll }, timers := (coreTry k ok s).timers } := by
  unfold coreTry
  split <;> rfl

theorem coreIndex_timerSet (k i n : Nat) (s : State) : coreIndex (timerSet k i n s) = coreIndex s := by
  rw [coreIndex, coreIndex, timerSet_clk]

theorem coreOther_timerSet (k i n : Nat) (s : State) : coreOther (timerSet k i n s) = coreOther s := by
  rw [coreOther, coreOther, timerSet_clk]

/-- With the other core PLL retired only the one in use is tried. -/
theorem coreTry_both {a b : Bool} {s : State} (h : pll s (coreOther s) = .retired) :
    coreTry 3 b (coreTry 2 a s) = coreTry (coreIndex s) (if s.clk.coreB then b else a) s := by
  cases hB : s.clk.coreB
  · have h3 : pll s 3 = .retired := by simpa [coreOther, hB] using h
    have hk : coreIndex s = 2 := by simp [coreIndex, hB]
    have hskip : pll (coreTry 2 a s) 3 ≠ .locking := by rw [pll_coreTry_ne (by decide), h3]; decide
    rw [coreTry_skip hskip, hk]
    rfl
  · have h2 : pll s 2 ≠ .locking := by rw [show pll s 2 = .retired by simpa [coreOther, hB] using h]; decide
    have hk : coreIndex s = 3 := by simp [coreIndex, hB]
    rw [coreTry_skip h2, hk]
    rfl

theorem exec_corePllRetry {s : State} {a b : Bool} (hb : s.boot ≠ .held) (hsrc : s.clk.coreSrc = .bypass)
    (ho : pll s (coreOther s) = .retired) (hd : timerDue s tmCoreRetry 0 = true) (hr : timerRuns s tmRelock 0 = false) :
    exec (.corePllRetry a b) s = .next (restored s (coreTry (coreIndex s) (if s.clk.coreB then b else a)
      (timerSet tmCoreRetry 0 (1000 * msTicks) s))) := by
  change execCorePllRetry a b s = _
  have hc : s.clk.coreSrc = .bypass ∧ pll s (coreOther s) = .retired ∧ timerDue s tmCoreRetry 0 ∧ !timerRuns s tmRelock 0 :=
    ⟨hsrc, ho, hd, by rw [hr]; rfl⟩
  have hboth := coreTry_both (a := a) (b := b) (s := timerSet tmCoreRetry 0 (1000 * msTicks) s) (by rwa [coreOther_timerSet])
  rw [coreIndex_timerSet, timerSet_clk] at hboth
  refine run_of_eq hb ?_
  refine (if_pos hc).trans ?_
  rw [← hboth]
  rfl

/-! ### A memory PLL unlocks -/

/-- A channel of a gated memory PLL refreshes itself, with every bank precharged (R100). -/
def chanGated (c : Nat) (s : State) : State :=
  if (dch s c).code = 0 then s
  else setDch c { dch s c with
    selfRef := true, zqcs := true, banks := (dch s c).banks.map fun (b, y) => (b, { y with row := none }) } s

theorem memGated_eq (i : Nat) (s : State) :
    memGated i s = budgetCheck (setPll (4 + i) .hold (each [3 * i, 3 * i + 1, 3 * i + 2] chanGated s)) := rfl

theorem clocks_chanGated (c : Nat) (s : State) : clocks (chanGated c s) = clocks s := by
  unfold chanGated
  split <;> rfl

theorem pll_memGated (i : Nat) (s : State) : pll (memGated i s) (4 + i) = .hold := by
  rw [memGated_eq, pll_of_clocks (clocks_budgetCheck _), pll_setPll_same]

theorem hw_memGated {a : Nat} (ha : 0x10000 ≤ a) (ha' : a < 0x20000) (i : Nat) (s : State) : hw (memGated i s) a = hw s a := by
  rw [memGated_eq, hw_of_clocks (clocks_budgetCheck _) ha ha', hw_setPll]
  exact hw_of_clocks (each_keeps clocks clocks_chanGated s) ha ha'

theorem dram_budgetCheck (s : State) : (budgetCheck s).dram = s.dram := by
  unfold budgetCheck
  refine each_keeps State.dram (fun _ _ => ?_) s
  split
  · rfl
  · simp only [setHw_dram, sendEvent_dram, raise_dram, apply_ite State.dram, ite_self]

/-- The channels of the PLL refresh themselves and keep what they hold. -/
theorem dch_memGated {i c : Nat} {s : State} (hc : c ∈ [3 * i, 3 * i + 1, 3 * i + 2]) (h : (dch s c).code ≠ 0) :
    (dch (memGated i s) c).selfRef = true ∧ (dch (memGated i s) c).zqcs = true ∧
    (dch (memGated i s) c).cells = (dch s c).cells := by
  have hdch : dch (memGated i s) c = dch (each [3 * i, 3 * i + 1, 3 * i + 2] chanGated s) c := by
    unfold dch
    rw [memGated_eq, dram_budgetCheck]
    rfl
  rw [hdch]
  refine each_reaches (Q := fun t => dch t c = dch s c)
    (P := fun t => (dch t c).selfRef = true ∧ (dch t c).zqcs = true ∧ (dch t c).cells = (dch s c).cells) hc ?_ ?_ ?_ rfl
  · intro d t hd ht
    unfold chanGated
    split
    · exact ht
    · rw [dch_setDch_ne _ hd.symm, ht]
  · intro t ht
    rw [chanGated, ht, if_neg h, dch_setDch_same]
    exact ⟨rfl, rfl, rfl⟩
  · intro d t ht
    unfold chanGated
    split
    · exact ht
    · by_cases hd : c = d
      · subst hd
        rw [dch_setDch_same]
        exact ⟨rfl, rfl, ht.2.2⟩
      · rwa [dch_setDch_ne _ hd]

theorem hw_unlocked_count {p e : Nat} (hp : p < 7) (s : State) :
    hw (unlocked p e s) (0x10050 + 4 * p) = hw s (0x10050 + 4 * p) + 1 := by
  rw [unlocked, hw_raise_ne e (by omega), addCnt, hw_setHw_same]
  rfl

theorem bit_unlocked {e : Nat} (he : e < 24) (p : Nat) (s : State) : bit (hw (unlocked p e s) 0x10040) e = true := by
  rw [unlocked, hw_raise_same]
  exact bit_afterEvent _ _ he

theorem dch_unlocked (p e c : Nat) (s : State) : dch (unlocked p e s) c = dch s c := by simp [dch, unlocked]

theorem exec_memPllUnlock {s : State} {i : Fin 3} (hb : s.boot ≠ .held) (hp : pll s (4 + i) = .inUse) :
    exec (.memPllUnlock i) s = .next (restored s (memGated i (unlocked (4 + i) 5 s))) := by
  change execMemPllUnlock i s = _
  refine run_of_eq hb ?_
  rw [hp]

theorem exec_memPllRelock {s : State} {i : Fin 3} (hb : s.boot ≠ .held)
    (hp : pll s (4 + i) = .locking ∨ (pll s (4 + i) = .settling ∧ timerDue s tmSettle (4 + i) = true))
    (href : s.clk.refC = true) : exec (.memPllRelock i) s = .next (restored s (memBack i s)) := by
  change execMemPllRelock i s = _
  refine run_of_eq hb ?_
  obtain hp | ⟨hp, hd⟩ := hp
  · rw [hp]
    exact if_pos href
  · rw [hp]
    exact if_pos (by rw [href, hd]; rfl)

theorem exec_serdesPllUnlock {s : State} {p : Fin 2} (hb : s.boot ≠ .held) : exec (.serdesPllUnlock p) s =
    .next (restored s (setPort p { port (portGoesDown p s) p with pllAt := (portGoesDown p s).cnt.ticks }
      (portGoesDown p s))) := by
  change execSerdesPllUnlock p s = _
  exact run_eq_restored hb

end Sys2Proof.Machine
end

section
/-!
SETTLES. The exchange of the core PLLs, the memory PLLs and the links' PLLs (O42).
-/

namespace Sys2Proof.Machine

/-- Settles O42: what a PLL that comes in leaves of the others is read off `clocks`. -/
theorem corePllExchange : Obligations.CorePllExchange := by
  unfold Obligations.CorePllExchange
  refine ⟨fun s hb hsrc hk ho hd => ?start, fun s hb hsrc hk ho hd => ?standby, fun s hd => ?early,
    fun s a b hb hsrc ho hk hd hr => ?retry, fun s a b h => ?noRetry, fun s i hb hp => ?unlock, fun s i hb hp href => ?relock,
    fun s p hb hup => ?serdes⟩
  case start =>
    refine ⟨_, exec_coreRelockTimeout hb hsrc hk (by rw [ho]; decide) hd, ?_⟩
    let u := timerSet tmCoreRetry 0 (1000 * msTicks) (timerStop tmRelock 0 s)
    rw [show coreTakes u = setPll (coreOther s) .locking (coreRetired u) from coreTakes_off ho]
    exact ⟨coreB_coreRetired u, (pll_setPll_ne _ (coreIndex_ne_coreOther s) _).trans (pll_coreRetired_index u),
      pll_setPll_same .., bit_coreRetired u⟩
  case standby =>
    refine ⟨_, exec_coreRelockTimeout hb hsrc hk (by rw [ho]; decide) hd, ?_⟩
    let u := timerSet tmCoreRetry 0 (1000 * msTicks) (timerStop tmRelock 0 s)
    have hin : pll (coreDrives (coreRetired u)) (coreOther s) = .inUse := by
      have h := pll_coreDrives (coreRetired u)
      rwa [coreIndex_coreRetired] at h
    have hout : pll (coreDrives (coreRetired u)) (coreIndex s) = .retired := by
      have h := pll_coreRetired_index u
      rw [← coreOther_coreRetired] at h
      have h := pll_coreDrives_retired h
      rwa [coreOther_coreRetired] at h
    rw [show coreTakes u = coreDrives (coreRetired u) from coreTakes_standby ho]
    exact ⟨(coreDrives_coreB _).trans (coreB_coreRetired u), hout, hin, coreDrives_coreSrc _,
      bit_coreDrives (by decide) (bit_coreRetired u), bit_coreDrives_switched rfl⟩
  case early =>
    have hearly : ¬(s.clk.coreSrc = .bypass ∧ pll s (coreIndex s) = .locking ∧ timerRan s tmRelock 0) := by simp [hd]
    exact (run_of_same (if_neg hearly) : execCoreRelockTimeout s = .next s)
  case retry =>
    refine ⟨_, exec_corePllRetry hb hsrc ho hd hr, pll_coreTry_same hk, fun q hq => pll_coreTry_ne hq, ?_⟩
    exact congrArg (restored s) (coreTry_eq ..)
  case noRetry =>
    have hno : ¬(s.clk.coreSrc = .bypass ∧ pll s (coreOther s) = .retired ∧ timerDue s tmCoreRetry 0 ∧
        !timerRuns s tmRelock 0) := fun ⟨_, ho, hd, _⟩ => h.elim (· ho) (by simp [hd])
    exact (run_of_same (if_neg hno) : execCorePllRetry a b s = .next s)
  case unlock =>
    refine ⟨_, exec_memPllUnlock hb hp, ?_, ?_, ?_, fun c hc hcode => ?_⟩
    · rw [pll_restored, pll_memGated]
    · rw [hw_restored, hw_memGated (by omega) (by omega), show 0x10060 + 4 * i.val = 0x10050 + 4 * (4 + i) by omega,
        hw_unlocked_count (by omega)]
    · rw [hw_restored, hw_memGated (by omega) (by omega), bit_unlocked (by decide)]
    · have hgated := dch_memGated (s := unlocked (4 + i) 5 s) hc (by rwa [dch_unlocked])
      rw [dch_unlocked] at hgated
      rwa [dch_restored]
  case relock => exact ⟨_, exec_memPllRelock hb hp href, by rw [pll_restored, pll_memBack]⟩
  case serdes =>
    obtain ⟨hdown, htx, hbit⟩ := portGoesDown_view p.isLt hup
    refine ⟨_, exec_serdesPllUnlock hb, ?_⟩
    rw [port_restored, port_setPort_same, hw_restored]
    exact ⟨hdown, htx, hbit⟩

end Sys2Proof.Machine
end

section
/-!
REASONING. Device time (O43, O44, O45): what a move, a step and a change of the time state leave and what they set.
-/

namespace Sys2Proof.Machine

/-! ### The accumulator in use -/

/-- The accumulator that device time reads (R104, R105). -/
def timeAcc (s : State) : Nat := if s.tb.backup then s.tb.backAcc else s.tb.acc

theorem now_eq_timeAcc (s : State) : now s = timeAcc s / 2 ^ 32 := rfl

theorem now_congr {s t : State} (h : t.tb = s.tb) : now t = now s := by rw [now, h, ← now]

@[simp] theorem now_restored (s u : State) : now (restored s u) = now u := by rfl
@[simp] theorem restored_tb (s u : State) : (restored s u).tb = u.tb := by rfl

@[simp] theorem cfg_raise (a e : Nat) (s : State) : cfg (raise a e s) = cfg s := cfg_congr (by simp) (by simp)

theorem answered_tb (s u : State) (n op st : Nat) (l : List Byte) : (answered s u n op st l).tb = u.tb := by simp [answered]

/-! ### A move -/

section
variable (d : Int) (s : State)

theorem moveTime_tb : (moveTime d s).tb = { s.tb with
    acc := ((s.tb.acc : Int) + d).toNat, backAcc := ((s.tb.backAcc : Int) + d).toNat, wasSet := true,
    leapAt := (moveTime d s).tb.leapAt } := by
  unfold moveTime
  dsimp only
  split <;> simp

@[simp] theorem moveTime_slc : (moveTime d s).slc = s.slc := by
  unfold moveTime
  dsimp only
  split <;> simp

@[simp] theorem moveTime_state : (moveTime d s).tb.state = s.tb.state := by rw [moveTime_tb]
@[simp] theorem moveTime_epoch : (moveTime d s).tb.epoch = s.tb.epoch := by rw [moveTime_tb]
@[simp] theorem moveTime_source : (moveTime d s).tb.source = s.tb.source := by rw [moveTime_tb]

@[simp] theorem cfg_moveTime : cfg (moveTime d s) = cfg s := by
  unfold moveTime
  dsimp only
  split <;> exact cfg_congr (by simp) (by simp)

end

theorem hw_moveTime {a : Nat} (h : a < 0xD3000) (d : Int) (s : State) : hw (moveTime d s) a = hw s a := by
  unfold moveTime
  dsimp only
  split
  · exact hw_rill_ne h _
  · exact hw_rill_ne h _

theorem toNat_add_mul_div (n : Nat) (d : Int) :
    ((n : Int) + d * 2 ^ 32).toNat / 2 ^ 32 = (((n / 2 ^ 32 : Nat) : Int) + d).toNat := by
  omega

/-- A move by a whole number of 2^-16 ns moves what device time reads by it. -/
theorem now_moveTime (d : Int) (s : State) : now (moveTime (d * 2 ^ 32) s) = ((now s : Int) + d).toNat := by
  have hacc : timeAcc (moveTime (d * 2 ^ 32) s) = ((timeAcc s : Int) + d * 2 ^ 32).toNat := by
    unfold timeAcc
    rw [moveTime_tb]
    split <;> rfl
  rw [now_eq_timeAcc, now_eq_timeAcc, hacc]
  exact toNat_add_mul_div _ _

/-! ### A step -/

/-- A step with its log and its count, before its event (R108). -/
def stepLogged (d : Int) (s : State) : State :=
  let u := moveTime (d * 2 ^ 32) s
  setStamp 0x10170 (now s) (setCnt64 0x10168 (twos 64 d) (addCnt 0x10164 1
    { u with tb := { u.tb with epoch := (u.tb.epoch + 1) % 16 } }))

theorem stepTime_eq (d : Int) (unset : Bool) (s : State) :
    stepTime d unset s = raise 0x10140 (if unset then 0 else 1) (stepLogged d s) := rfl

/-- The words of the log of the steps lie from the count to the time before the step. -/
theorem hw_stepLogged {a : Nat} (h : a < 0x10164 ∨ 0x1017C ≤ a) (h' : a < 0xD3000) (d : Int) (s : State) :
    hw (stepLogged d s) a = hw s a := by
  unfold stepLogged setStamp setCnt64 addCnt
  dsimp only
  repeat rw [hw_setHw_ne _ (by omega)]
  exact hw_moveTime h' _ _

theorem hw_stepLogged_count (d : Int) (s : State) : hw (stepLogged d s) 0x10164 = hw s 0x10164 + 1 := by
  unfold stepLogged setStamp setCnt64 addCnt
  dsimp only
  repeat rw [hw_setHw_ne _ (by decide)]
  rw [hw_setHw_same]
  exact congrArg (· + 1) (hw_moveTime (by decide) _ s)

theorem stepLogged_tb (d : Int) (s : State) :
    (stepLogged d s).tb = { (moveTime (d * 2 ^ 32) s).tb with epoch := (s.tb.epoch + 1) % 16 } := by
  simp [stepLogged]

section
variable (d : Int) (unset : Bool) (s : State)

theorem stepTime_tb : (stepTime d unset s).tb = { (moveTime (d * 2 ^ 32) s).tb with epoch := (s.tb.epoch + 1) % 16 } := by
  rw [stepTime_eq, raise_tb, stepLogged_tb]

@[simp] theorem stepTime_state : (stepTime d unset s).tb.state = s.tb.state := by rw [stepTime_tb, moveTime_state]
@[simp] theorem stepTime_epoch : (stepTime d unset s).tb.epoch = (s.tb.epoch + 1) % 16 := by rw [stepTime_tb]
@[simp] theorem stepTime_source : (stepTime d unset s).tb.source = s.tb.source := by rw [stepTime_tb, moveTime_source]
@[simp] theorem stepTime_slc : (stepTime d unset s).slc = s.slc := by simp [stepTime]

theorem now_stepTime : now (stepTime d unset s) = ((now s : Int) + d).toNat := by
  rw [← now_moveTime]
  unfold now
  rw [stepTime_tb]

theorem hw_stepTime_count : hw (stepTime d unset s) 0x10164 = hw s 0x10164 + 1 := by
  rw [stepTime_eq, hw_raise_ne _ (by decide), hw_stepLogged_count]

theorem hw_stepTime {a : Nat} (h : a < 0x10140 ∨ 0x1017C ≤ a ∨ (0x10144 ≤ a ∧ a < 0x10164)) (h' : a < 0xD3000) :
    hw (stepTime d unset s) a = hw s a := by
  rw [stepTime_eq, hw_raise_ne _ (by omega), hw_stepLogged (by omega) h']

theorem raised_stepTime : Raised 0x10140 1 s (stepTime d false s) :=
  (raised_raise (stepLogged d s) (by decide)).congr (hw_stepLogged (by decide) (by decide) d s) rfl

end

/-! ### The time state -/

theorem noteValid_tb (s : State) : (noteValid s).tb = s.tb := by
  unfold noteValid
  split <;> simp

theorem noteValid_slc (s : State) : (noteValid s).slc = s.slc := by
  unfold noteValid
  split <;> simp

theorem hw_noteValid {a : Nat} (h : a < 0xD0008 ∨ 0xD0014 ≤ a) (s : State) : hw (noteValid s) a = hw s a := by
  unfold noteValid setStamp
  split
  · rfl
  · repeat rw [hw_setHw_ne _ (by omega)]
    rfl

/-- Once device time is valid the ledger has its epoch (R422). -/
theorem noteValid_epochSet {s : State} (h : s.tb.state ≠ .unset) : (noteValid s).lgr.epochSet = true := by
  unfold noteValid
  split
  case isTrue hset => exact hset.resolve_right h
  case isFalse => simp

theorem setTbState_freerun (s : State) : setTbState .freerun s =
    raise 0x10140 4 { s with tb := { s.tb with state := .freerun, lockCount := 0, source := 0 } } := rfl

/-! ### A stamp that device time takes -/

/-- Where device time was valid, taking a stamp is a step to it. -/
theorem takeTime_valid (st at' : Stamp) {s : State} (h : s.tb.state ≠ .unset) :
    takeTime st at' s = stepTime ((st : Int) - (at' : Nat)) false s := if_neg h

theorem toNat_add_sub (n m : Nat) : ((n : Int) + ((m : Int) - n)).toNat = m := by omega

/-- Device time that was UNSET runs free from the stamp on, with its event and the ledger's epoch. -/
theorem takeTime_unset (st : Stamp) {s : State} (h : s.tb.state = .unset) (hfree : tbSource (cfg s) = 0) :
    let u := takeTime st (now s) s
    u.slc = s.slc ∧ now u = st ∧ u.tb.state = .freerun ∧ bit (hw u 0x10140) 0 = true ∧ u.lgr.epochSet = true := by
  intro u
  let v := raise 0x10140 0 (moveTime (((st : Int) - (now s : Nat)) * 2 ^ 32) s)
  have hv : tbSource (cfg v) = 0 := by rw [cfg_raise, cfg_moveTime, hfree]
  have hu : u = noteValid (setTbState .freerun v) := (if_pos h).trans (congrArg noteValid (if_pos hv))
  have hvnow : now v = st := by rw [now_congr (raise_tb ..), now_moveTime, toNat_add_sub]
  have hbit : bit (hw v 0x10140) 0 = true := by
    rw [hw_raise_same]
    exact bit_afterEvent _ _ (by decide)
  have htb : u.tb = { v.tb with state := .freerun, lockCount := 0, source := 0 } := by
    rw [hu, noteValid_tb, setTbState_freerun, raise_tb]
  refine ⟨?_, ?_, by rw [htb], ?_, ?_⟩
  · rw [hu, noteValid_slc, setTbState_freerun]
    simp [v]
  · rw [← hvnow, now, htb]
    rfl
  · rw [hu, hw_noteValid (by decide)]
    exact bit_hw_raise_of_bit (by decide) hbit
  · rw [hu]
    refine noteValid_epochSet ?_
    rw [setTbState_freerun, raise_tb]
    exact TbState.noConfusion

end Sys2Proof.Machine
end

section
/-!
SETTLES. The time commands (O43).
-/

namespace Sys2Proof.Machine

/-! ### TIME_SET at once -/

theorem exec_timeSet_now {s : State} {n : Nat} {st : Stamp} (h : HostTurn s n 0x0700 12 false) (hl : s.slc.lease = some n)
    (hsrc : tbSource (cfg s) ≠ 1) :
    exec (.timeSet n st false) s = .next (answered s (takeTime st (now s) s) n 0x0700 stOK (stampBytes st)) := by
  change execTimeSet n st false s = _
  refine hostCmd_replies h ?_
  rw [needLease, if_pos hl, if_neg hsrc]
  exact if_neg Bool.false_ne_true

theorem exec_timeSet_refused {s : State} {n : Nat} {st : Stamp} {pps : Bool} (h : HostTurn s n 0x0700 12 false)
    (hno : s.slc.lease ≠ some n ∨ tbSource (cfg s) = 1) : ∃ t, exec (.timeSet n st pps) s = .next t ∧
      Replied n 0x0700 (if s.slc.lease = some n then stState else stNotOwner) [] s t ∧ OnlyReplies n s t := by
  change ∃ t, execTimeSet n st pps s = .next t ∧ _
  refine hostCmd_answers h ?_
  rw [needLease]
  split
  case isTrue hl => exact if_pos (hno.resolve_left fun hn => hn hl)
  case isFalse => rfl

/-! ### The sessions that wait for an edge -/

theorem mem_of_smGet_ne {α : Type} {d : α} {k : Nat} {m : SMap α} (h : smGet d k m ≠ d) : (k, smGet d k m) ∈ m := by
  induction m with
  | nil => exact absurd rfl h
  | cons e m ih =>
    unfold smGet at h ⊢
    split
    case isTrue hk => simp [← hk]
    case isFalse hk => exact List.mem_cons_of_mem _ (ih (by simpa [hk] using h))

theorem mem_timeWaiters {s : State} {n : Nat} {st : Stamp} (h : (ses s n).wait = some (.timeSet st)) :
    (n, st) ∈ timeWaiters s := by
  have hmem : (n, ses s n) ∈ s.slc.sessions := mem_of_smGet_ne fun hd => by
    rw [show ses s n = {} from hd] at h
    cases h
  exact List.mem_filterMap.mpr ⟨_, hmem, by simp [h]⟩

theorem answered_self (s : State) (n op st : Nat) (l : List Byte) : answered s s n op st l = answer n op st l s := by
  rw [answered, restored, ← answer_pending s n op st l, ← answer_boot s n op st l]

/-- The waits that are over end with TIMEOUT. -/
def timeOut (e : Nat × Stamp) (s : State) : State := answer e.1 0x0700 stTimeout [] s

theorem exec_timeSetTimeout {s : State} (hb : s.boot ≠ .held) : exec .timeSetTimeout s =
    .next (restored s (each ((timeWaiters s).filter fun e => timerDue s tmTimeSet e.1) timeOut s)) := by
  change execTimeSetTimeout s = _
  exact run_eq_restored hb

theorem ses_each_timeOut {n : Nat} {l : List (Nat × Stamp)} (h : ∀ e ∈ l, e.1 ≠ n) (s : State) :
    ses (each l timeOut s) n = ses s n :=
  each_induction (P := fun t => ses t n = ses s n) (fun e he t ht => (ses_answer_ne (h e he).symm t).trans ht) rfl

theorem wait_each_timeOut {n : Nat} {st : Stamp} {l : List (Nat × Stamp)} (h : (n, st) ∈ l) (s : State) :
    (ses (each l timeOut s) n).wait = none := by
  have hanswer (t : State) : (ses (answer n 0x0700 stTimeout [] t) n).wait = none := by rw [ses_answer_same]
  refine each_reaches (Q := fun _ => True) (P := fun t => (ses t n).wait = none) h (fun _ _ _ _ => trivial)
    (fun t _ => by rw [timeOut, hanswer]) (fun e t ht => ?_) trivial
  by_cases hn : n = e.1
  · rw [timeOut, ← hn, hanswer]
  · rw [timeOut, ses_answer_ne hn, ht]

/-- Settles O43: a move by a whole number of 2^-16 ns is read off the accumulator in use, and the stamp is taken less what
device time reads. -/
theorem timeCommands : Obligations.TimeCommands := by
  unfold Obligations.TimeCommands
  refine ⟨fun s n st h hl hsrc hv => ?step, fun s n st h hl hsrc hv => ?set, fun s n st h hl hsrc => ?atPps,
    fun s n st pps h hno => ?refused, fun s hb => ?timeout, fun s n st hb hw hd => ?one, fun s n h => ?get⟩
  case step =>
    refine ⟨_, exec_timeSet_now h hl hsrc, ?_⟩
    rw [takeTime_valid st _ hv]
    have htb := answered_tb s (stepTime ((st : Int) - (now s : Nat)) false s) n 0x0700 stOK (stampBytes st)
    refine ⟨replied_answered (by rw [stepTime_slc]), ?_, ?_, ?_, ?_, ?_⟩
    · rw [now_congr htb, now_stepTime, toNat_add_sub]
    · rw [htb, stepTime_state]
    · rw [htb, stepTime_epoch]
    · rw [hw_answered (by decide), hw_stepTime_count]
    · exact (raised_stepTime _ s).congr rfl (hw_answered (by decide))
  case set =>
    refine ⟨_, exec_timeSet_now h hl (by rw [hsrc]; decide), ?_⟩
    obtain ⟨hslc, hnow, hstate, hset, hepoch⟩ := takeTime_unset st hv hsrc
    have htb := answered_tb s (takeTime st (now s) s) n 0x0700 stOK (stampBytes st)
    refine ⟨replied_answered (by rw [hslc]), ?_, ?_, ?_, ?_⟩
    · rw [now_congr htb, hnow]
    · rw [htb, hstate]
    · rw [hw_answered (by decide), hset]
    · rw [answered_lgr, hepoch]
  case atPps =>
    change execTimeSet n st true s = _
    rw [execTimeSet, run_eq_restored h.1, hostCmd_at_turn h, needLease, if_pos hl, if_neg hsrc]
    rfl
  case refused =>
    obtain ⟨t, hexec, hreplied, honly⟩ := exec_timeSet_refused (st := st) (pps := pps) h hno
    exact ⟨t, hexec, honly, hreplied⟩
  case timeout =>
    refine ⟨_, exec_timeSetTimeout hb, ?_, fun n => ⟨fun hd => ?_, fun st hw hd => ?_⟩⟩
    · rw [restored_tb]
      exact each_keeps State.tb (fun _ _ => answer_tb ..) s
    · rw [ses_restored, ses_each_timeOut]
      rintro e he rfl
      exact absurd (List.mem_filter.mp he).2 (by simp [hd])
    · rw [ses_restored]
      exact wait_each_timeOut (List.mem_filter.mpr ⟨mem_timeWaiters hw, hd⟩) s
  case one =>
    refine ⟨_, exec_timeSetTimeout hb, ?_⟩
    rw [hw, List.filter_cons_of_pos (p := fun e : Nat × Stamp => timerDue s tmTimeSet e.1) hd, List.filter_nil]
    have hone : restored s (each [(n, st)] timeOut s) = answer n 0x0700 stTimeout [] s := answered_self ..
    rw [hone]
    exact ⟨answer_replied rfl rfl, answer_onlyReplies ..⟩
  case get => exact hostCmd_answers h rfl

end Sys2Proof.Machine
end

section
/-!
REASONING. The falls of the time state (O44).
-/

namespace Sys2Proof.Machine

/-- An event changes its word, its lap, and what its report takes. -/
theorem eventOnly_raise (a e : Nat) (s : State) : EventOnly s (raise a e s) := raiseAt_eq ..

theorem EventOnly.restored {s u t : State} (h : EventOnly u t) (hp : u.pending = s.pending) (hb : u.boot = s.boot) :
    EventOnly u (restored s t) := by
  unfold EventOnly at h ⊢
  rw [Machine.restored, ← hp, ← hb, h]

/-! ### The fall to HOLDOVER -/

theorem setFreq_tb (f : Int) (s : State) : (setFreq f s).tb = { s.tb with
    freq := clampI (-freqLimit) freqLimit f, backStep := (setFreq f s).tb.backStep,
    freqHist := (setFreq f s).tb.freqHist } := by
  simp [setFreq]

@[simp] theorem setFreq_ptp (f : Int) (s : State) : (setFreq f s).ptp = s.ptp := by simp [setFreq]
@[simp] theorem setFreq_active (f : Int) (s : State) : (setFreq f s).regs.active = s.regs.active := by simp [setFreq]
@[simp] theorem setFreq_overrides (f : Int) (s : State) : (setFreq f s).regs.overrides = s.regs.overrides := by simp [setFreq]

theorem hw_timerSet (k i n : Nat) (s : State) (a : Nat) : hw (timerSet k i n s) a = hw s a := by rfl

/-- Device time in HOLDOVER with F at its mean, before the events of the fall. -/
def heldOver (s : State) : State :=
  setFreq (freqMean s) { s with tb := { s.tb with state := .holdover, lockCount := 0, source := 0 } }

theorem setTbState_holdover (s : State) : setTbState .holdover s =
    timerSet tmHoldover 0 (1000 * cfgF s 0x1010C 0 24 * msTicks) (raise 0x10140 5 (raise 0x10140 3 (heldOver s))) := rfl

theorem setTbState_holdover_tb (s : State) : (setTbState .holdover s).tb = { s.tb with
    state := .holdover, lockCount := 0, source := 0, freq := clampI (-freqLimit) freqLimit (freqMean s),
    backStep := (heldOver s).tb.backStep, freqHist := (heldOver s).tb.freqHist } := by
  rw [setTbState_holdover, timerSet_tb, raise_tb, raise_tb, heldOver, setFreq_tb]

theorem setTbState_holdover_ptp (s : State) : (setTbState .holdover s).ptp = s.ptp := by
  simp [setTbState_holdover, heldOver]

theorem setTbState_holdover_active (s : State) : (setTbState .holdover s).regs.active = s.regs.active := by
  simp [setTbState_holdover, heldOver]

theorem cfg_setTbState_holdover (s : State) : cfg (setTbState .holdover s) = cfg s :=
  cfg_congr (setTbState_holdover_active s) (by simp [setTbState_holdover, heldOver])

theorem bit_setTbState_holdover (s : State) :
    bit (hw (setTbState .holdover s) 0x10140) 3 = true ∧ bit (hw (setTbState .holdover s) 0x10140) 5 = true := by
  rw [setTbState_holdover, hw_timerSet]
  constructor
  · refine bit_hw_raise_of_bit (by decide) ?_
    rw [hw_raise_same]
    exact bit_afterEvent _ _ (by decide)
  · rw [hw_raise_same]
    exact bit_afterEvent _ _ (by decide)

/-- With PTP_PORT set to either, PTP moves to P1 where device time has lost it on P0 (R107). -/
def ptpMoves (s : State) : State :=
  if tbSource (cfg s) = 1 ∧ 2 ≤ cfgF s 0x10100 2 2 ∧ s.ptp.port = 0 then
    { s with ptp := { s.ptp with port := 1, state := 4, master := false } }
  else s

theorem ptpMoves_eq (s : State) : ptpMoves s = { s with ptp := (ptpMoves s).ptp } := by
  unfold ptpMoves
  split <;> rfl

theorem exec_holdoverEntry {s : State} (hb : s.boot ≠ .held) (hs : s.tb.state = .acquiring ∨ s.tb.state = .locked)
    (hd : timerDue s tmMeas 0 = true) : exec .holdoverEntry s = .next (restored s (ptpMoves (setTbState .holdover s))) := by
  change execHoldoverEntry s = _
  exact run_of_eq hb (if_pos ⟨hs, hd⟩)

theorem exec_freerunEntry {s : State} (hb : s.boot ≠ .held) (hs : s.tb.state = .holdover)
    (hd : timerDue s tmHoldover 0 = true) : exec .freerunEntry s = .next (restored s (setTbState .freerun s)) := by
  change execFreerunEntry s = _
  exact run_of_eq hb (if_pos ⟨hs, hd⟩)

theorem restored_timerSet (s u : State) (k i n : Nat) : restored s (timerSet k i n u) = timerSet k i n (restored s u) := rfl

/-! ### PPS_OUT -/

theorem exec_ppsOutPulse {s : State} (hb : s.boot ≠ .held) (hen : bit (cfg s 0x10110) 0 = true)
    (hv : (timeValid s || bit (cfg s 0x10110) 1) = true) (hc : crossesSecond s = true) : exec .ppsOutPulse s =
      .next (timerSet tmPpsWidth 0 (ppsWidth s * msTicks) { s with pins := { s.pins with ppsOut := true } }) := by
  have hgo : (bit (cfg s 0x10110) 0 && (timeValid s || bit (cfg s 0x10110) 1) && crossesSecond s) = true := by
    rw [hen, hv, hc]
    rfl
  have hexec : execPpsOutPulse s =
      .next (restored s (timerSet tmPpsWidth 0 (ppsWidth s * msTicks) { s with pins := { s.pins with ppsOut := true } })) :=
    run_of_eq hb (if_pos hgo)
  rwa [restored_timerSet] at hexec

/-! ### The leap second -/

/-- The reported offset takes the leap second and its announcement clears (R112). -/
def leapTaken (s : State) : State :=
  setHw 0x10160 (wd (twos 16 (sgn 16 (hw s 0x10160).toNat + s.tb.leapSign))) { s with tb := { s.tb with leapDone := true } }

theorem leapTaken_tb (s : State) : (leapTaken s).tb = { s.tb with leapDone := true } := by rw [leapTaken, setHw_tb]

theorem hw_leapTaken {a : Nat} (h : a ≠ 0x10160) (s : State) : hw (leapTaken s) a = hw s a := by
  rw [leapTaken, hw_setHw_ne _ h]
  rfl

theorem exec_leapApply {s : State} (hb : s.boot ≠ .held) (hsign : s.tb.leapSign ≠ 0) (hnot : s.tb.leapDone = false)
    (hat : s.tb.leapAt * second ≤ now s) : exec .leapApply s = .next (restored s (raise 0x10140 7 (leapTaken s))) := by
  change execLeapApply s = _
  exact run_of_eq hb (if_pos ⟨hsign, by simp [hnot], hat⟩)

end Sys2Proof.Machine
end

section
/-!
SETTLES. The falls of the time state, PPS_OUT and the leap second (O44).
-/

namespace Sys2Proof.Machine

/-- Settles O44: each row is its guard and one change of the time state, which no accumulator sees. -/
theorem timeStates : Obligations.TimeStates := by
  unfold Obligations.TimeStates
  refine ⟨fun s hb hs hd => ?holdover, fun s hb hs hd => ?freerun, fun s hb hen hv hc => ?pulse, fun s h => ?noPulse,
    fun s hb hd => ?width, fun s hd => ?noWidth, fun s hd => ?noHoldover, fun s hd => ?noFreerun,
    fun s hb hsign hnot hat => ?leap⟩
  case holdover =>
    refine ⟨_, exec_holdoverEntry hb hs hd, ?_⟩
    have htb : (ptpMoves (setTbState .holdover s)).tb = (setTbState .holdover s).tb := by rw [ptpMoves_eq]
    have hhw (a : Nat) : hw (ptpMoves (setTbState .holdover s)) a = hw (setTbState .holdover s) a := by rw [ptpMoves_eq]; rfl
    simp only [restored_tb, hw_restored, restored_regs, now_restored, htb, hhw, setTbState_holdover_tb]
    obtain ⟨hfail, hlost⟩ := bit_setTbState_holdover s
    refine ⟨trivial, trivial, trivial, ?_, hfail, hlost, fun hsrc hport hzero => ?_, ?_⟩
    · rw [now, htb, setTbState_holdover_tb, now]
    · change (ptpMoves (setTbState .holdover s)).ptp.port = 1
      rw [ptpMoves, if_pos]
      rw [cfg_setTbState_holdover, cfgF, cfg_setTbState_holdover, setTbState_holdover_ptp]
      exact ⟨hsrc, hport, hzero⟩
    · rw [ptpMoves_eq]
      exact setTbState_holdover_active s
  case freerun =>
    refine ⟨_, exec_freerunEntry hb hs hd, ?_⟩
    rw [setTbState_freerun]
    let u := { s with tb := { s.tb with state := .freerun, lockCount := 0, source := 0 } }
    have hraised : Raised 0x10140 4 u (raise 0x10140 4 u) := raised_raise u (by decide)
    refine ⟨?_, hraised.congr rfl (hw_restored ..), (eventOnly_raise 0x10140 4 u).restored rfl rfl⟩
    rw [restored_tb, raise_tb]
  case pulse => exact exec_ppsOutPulse hb hen (by simpa [cfgB] using hv) hc
  case noPulse =>
    have hno : ¬(cfgB s 0x10110 0 && (timeValid s || cfgB s 0x10110 1) && crossesSecond s) = true := by
      obtain h | h | ⟨h, h'⟩ := h
      · simp [h]
      · simp [h]
      · simp [h, h']
    exact (run_of_same (if_neg hno) : execPpsOutPulse s = .next s)
  case width =>
    change execPpsOutWidthEnd s = _
    exact run_of_eq hb (if_pos hd)
  case noWidth => exact (run_of_same (if_neg (by simp [hd])) : execPpsOutWidthEnd s = .next s)
  case noHoldover => exact (run_of_same (if_neg (by simp [hd])) : execHoldoverEntry s = .next s)
  case noFreerun => exact (run_of_same (if_neg (by simp [hd])) : execFreerunEntry s = .next s)
  case leap =>
    refine ⟨_, exec_leapApply hb hsign hnot hat, ?_, ?_, ?_, ?_⟩
    · rw [hw_restored, hw_raise_ne _ (by decide), leapTaken, hw_setHw_same]
    · rw [restored_tb, raise_tb, leapTaken_tb]
    · rw [now_restored, now, raise_tb, leapTaken_tb, now]
    · exact (raised_raise (leapTaken s) (by decide)).congr (hw_leapTaken (by decide) s) (hw_restored ..)

end Sys2Proof.Machine
end

section
/-!
REASONING. PTP as an ordinary clock (O45): what it sends, and what a measurement does with device time.
-/

namespace Sys2Proof.Machine

/-! ### What PTP sends -/

/-- A PTP message of a type, as it waits in class A. -/
abbrev ptpFrame (typ : Nat) : Frame := { kind := .ptp, dst := 0, bytes := le 1 typ }

theorem port_ptpSend (p typ : Nat) (s : State) :
    port (ptpSend p typ s) p = { port s p with classA := (port s p).classA ++ [ptpFrame typ] } := port_setPort_same ..

/-- A message and, unless it is of one step, the one that follows it. -/
def ptpSendBoth (p typ next : Nat) (one : Bool) (s : State) : State :=
  if one then ptpSend p typ s else ptpSend p next (ptpSend p typ s)

theorem ptpSendBoth_eq (p typ next : Nat) (one : Bool) (s : State) :
    ptpSendBoth p typ next one s = { s with ports := (ptpSendBoth p typ next one s).ports } := by
  cases one <;> rfl

theorem port_ptpSendBoth (p typ next : Nat) (one : Bool) (s : State) : port (ptpSendBoth p typ next one s) p =
    { port s p with classA := (port s p).classA ++ ([ptpFrame typ] ++ if one then [] else [ptpFrame next]) } := by
  cases one
  · simp [ptpSendBoth, port_ptpSend]
  · simp [ptpSendBoth, port_ptpSend]

/-! ### A received message -/

/-- What a message on the port in use does while the source is PTP (R346). -/
def ptpTaken (p : Nat) (m : PtpMsg) (s : State) : State :=
  match m.kind with
  | .announce =>
    if m.better then
      let fresh := decide (ptpParent s ≠ m.parent % 2 ^ 64) || !(decide (s.ptp.state = 8) || decide (s.ptp.state = 9))
      utcNews m.utc m.leap61 m.leap59 (setCnt64 0xA2044 (m.parent % 2 ^ 64)
        { s with ptp := { s.ptp with state := if fresh then 8 else s.ptp.state, master := false } })
    else if cfgB s 0x10100 4 then s
    else { s with ptp := { s.ptp with state := 6, master := true } }
  | .delayReq =>
    if cfgB s 0xA2000 2 then ptpSendBoth p 3 0xA (cfgB s 0xA2000 3) s
    else if s.ptp.master then ptpSend p 9 s
    else s
  | .other => s
  | _ =>
    if ptpParent s ≠ m.parent % 2 ^ 64 ∨ ¬ (s.ptp.state = 8 ∨ s.ptp.state = 9) then s
    else match m.offset with
      | none => s
      | some th => measure 1 (th - ptpAsym s p) (setCnt 0xA204C m.delay { s with ptp := { s.ptp with state := 9 } })

theorem exec_ptpMessage {s : State} {p : Fin 2} {m : PtpMsg} (hb : s.boot ≠ .held) (hp : p.val = ptpPort s)
    (hsrc : tbSource (cfg s) = 1) : exec (.ptpMessage p m) s = .next (restored s (ptpTaken p m s)) := by
  change execPtpMessage p m s = _
  refine run_of_eq hb ?_
  rw [if_neg (fun h => h hp), if_neg (fun h => h hsrc)]
  rfl

theorem exec_ptpMessage_dropped {s : State} {p : Fin 2} {m : PtpMsg} (hb : s.boot ≠ .held) (hp : p.val ≠ ptpPort s) :
    exec (.ptpMessage p m) s = .next (restored s (addCnt 0xA2050 1 s)) := by
  change execPtpMessage p m s = _
  exact run_of_eq hb (if_pos hp)

/-! ### A measurement -/

/-- A measurement steps or slews device time (R108). -/
def corrected (th : Int) (s : State) : State :=
  let m := cfg s
  if s.tb.state = .unset then stepTime (-th * 256) true s
  else if stepLimit m ≤ th.natAbs then stepTime (-th * 256) false s
  else
    let lim : Int := (slewLimit m : Nat)
    let corr := Config.servoOffset th (tauS m) + Config.servoFreq th s.tb.freq (4 * tauS m)
    setFreq (s.tb.freq + clampI (-lim) lim corr) s

theorem measure_eq (src : Nat) (th : Int) (s : State) : measure src th s = noteValid (tbMeasured th (timerSet tmMeas 0
    ((if src = 1 then 3000 else 2500) * msTicks)
    (corrected th (putSigned32 0x10154 th { s with tb := { s.tb with source := src } })))) := rfl

/-- The state of device time moves on, with an event where it is LOCKED from now on, and is valid (R107). -/
theorem tbMeasured_eq (th : Int) (s : State) : ∃ x n locks, x ≠ TbState.unset ∧
    tbMeasured th s = raiseIf locks 0x10140 2 { s with tb := { s.tb with state := x, lockCount := n } } := by
  unfold tbMeasured
  dsimp only
  split
  case h_1 hs =>
    split
    · split
      · exact ⟨.locked, 0, true, TbState.noConfusion, rfl⟩
      · exact ⟨.acquiring, s.tb.lockCount + 1, false, TbState.noConfusion, by rw [← hs]; rfl⟩
    · exact ⟨.acquiring, 0, false, TbState.noConfusion, by rw [← hs]; rfl⟩
  case h_2 hs =>
    split
    · exact ⟨.acquiring, 0, false, TbState.noConfusion, rfl⟩
    · exact ⟨.locked, s.tb.lockCount, false, TbState.noConfusion, by rw [← hs]; rfl⟩
  case h_3 => exact ⟨.acquiring, 0, false, TbState.noConfusion, rfl⟩

theorem corrected_source (th : Int) (s : State) : (corrected th s).tb.source = s.tb.source := by
  unfold corrected
  dsimp only
  split
  · exact stepTime_source ..
  · split
    · exact stepTime_source ..
    · rw [setFreq_tb]

theorem hw_setFreq {a : Nat} (h : a < 0xD3000) (f : Int) (s : State) : hw (setFreq f s) a = hw s a := hw_rill_ne h _

theorem hw_corrected {a : Nat} (h : a < 0x10140 ∨ 0x1017C ≤ a ∨ (0x10144 ≤ a ∧ a < 0x10164)) (h' : a < 0xD3000)
    (th : Int) (s : State) : hw (corrected th s) a = hw s a := by
  unfold corrected
  dsimp only
  split
  · exact hw_stepTime _ _ _ h h'
  · split
    · exact hw_stepTime _ _ _ h h'
    · exact hw_setFreq h' _ _

/-- Device time moves by the whole offset in a step, and not at all in a slew. -/
theorem now_corrected {th : Int} {s : State} (h : 256 * th ≤ (now s : Nat)) : ((now (corrected th s) : Nat) : Int) =
    (now s : Nat) - (if s.tb.state = .unset ∨ stepLimit (cfg s) ≤ th.natAbs then 256 * th else 0) := by
  have hstep (unset : Bool) : ((now (stepTime (-th * 256) unset s) : Nat) : Int) = (now s : Nat) - 256 * th := by
    rw [now_stepTime]
    omega
  unfold corrected
  dsimp only
  split
  case isTrue hu => rw [hstep, if_pos (.inl hu)]
  case isFalse hu =>
    split
    case isTrue hl => rw [hstep, if_pos (.inr hl)]
    case isFalse hl =>
      rw [if_neg (not_or.mpr ⟨hu, hl⟩), now, setFreq_tb]
      simp [now]

theorem putSigned32_eq {v : Int} (h : -(2 ^ 31) ≤ v) (h' : v < 2 ^ 31) (a : Nat) (s : State) :
    putSigned32 a v s = setHw a (wd (twos 32 v)) s := if_pos ⟨h, h'⟩

/-- A measurement in range makes device time valid, keeps its source and reports the offset. -/
theorem measure_tb {src : Nat} {th : Int} {s : State} (h : -(2 ^ 31) ≤ th) (h' : th < 2 ^ 31)
    (hnow : 256 * th ≤ (now s : Nat)) :
    (measure src th s).tb.source = src ∧ (measure src th s).tb.state ≠ .unset ∧ ((now (measure src th s) : Nat) : Int) =
      (now s : Nat) - (if s.tb.state = .unset ∨ stepLimit (cfg s) ≤ th.natAbs then 256 * th else 0) := by
  rw [measure_eq, putSigned32_eq h h']
  generalize hu : setHw 0x10154 (wd (twos 32 th)) { s with tb := { s.tb with source := src } } = u
  have htb : u.tb = { s.tb with source := src } := by rw [← hu]; rfl
  have hcfg : cfg u = cfg s := by rw [← hu]; rfl
  have hu' : now u = now s := by rw [now, htb, now]
  obtain ⟨x, n, locks, hx, hmeas⟩ := tbMeasured_eq th
    (timerSet tmMeas 0 ((if src = 1 then 3000 else 2500) * msTicks) (corrected th u))
  have hend : (noteValid (tbMeasured th (timerSet tmMeas 0 ((if src = 1 then 3000 else 2500) * msTicks) (corrected th u)))).tb =
      { (corrected th u).tb with state := x, lockCount := n } := by
    rw [noteValid_tb, hmeas, raiseIf_tb, timerSet_tb]
  refine ⟨?_, ?_, ?_⟩
  · rw [hend, corrected_source, htb]
  · rw [hend]
    exact hx
  · have hnow' := now_corrected (th := th) (s := u) (by rwa [hu'])
    rw [hu', htb, hcfg] at hnow'
    rw [← hnow', now, hend, now]

theorem hw_raiseIf_ne {a b : Nat} (h : b ≠ a) (c : Bool) (e : Nat) (s : State) : hw (raiseIf c a e s) b = hw s b := by
  unfold raiseIf
  split
  · exact hw_raise_ne e h s
  · rfl

theorem hw_putTb (x : TbSt) (s : State) (a : Nat) : hw { s with tb := x } a = hw s a := by rfl

/-- A measurement leaves the words alone but for the offset, the log of the steps and the events of device time. -/
theorem hw_measure {src a : Nat} {th : Int} {s : State} (h : -(2 ^ 31) ≤ th) (h' : th < 2 ^ 31)
    (ha : a < 0x10140 ∨ 0x1017C ≤ a ∨ (0x10144 ≤ a ∧ a < 0x10164)) (ha' : a < 0xD0008) :
    hw (measure src th s) a = hw (setHw 0x10154 (wd (twos 32 th)) s) a := by
  rw [measure_eq, putSigned32_eq h h', hw_noteValid (.inl ha')]
  obtain ⟨x, n, locks, -, hmeas⟩ := tbMeasured_eq th (timerSet tmMeas 0 ((if src = 1 then 3000 else 2500) * msTicks)
    (corrected th (setHw 0x10154 (wd (twos 32 th)) { s with tb := { s.tb with source := src } })))
  rw [hmeas, hw_raiseIf_ne (by omega), hw_putTb]
  rw [hw_timerSet, hw_corrected ha (by omega)]
  rfl

theorem measure_ptp (src : Nat) (th : Int) (s : State) : (measure src th s).ptp = s.ptp :=
  congrArg BlockVals.ptp (outside_measure (B := { tb := true }) rfl src th s)

/-! ### An announcement -/

theorem cnt64_setCnt64 {n : Nat} (h : n < 2 ^ 64) (a : Nat) (s : State) : cnt64 (setCnt64 a n s) a = n := by
  unfold cnt64 setCnt64 wd
  rw [hw_setHw_same, hw_setHw_ne _ (by omega), hw_setHw_same]
  simp only [BitVec.toNat_ofNat]
  omega

/-- The UTC news change the reported offset and the announced leap second, but no time. -/
theorem utcNews_eq (offset : Int) (l61 l59 : Bool) (s : State) : ∃ x : TbSt, x.acc = s.tb.acc ∧ utcNews offset l61 l59 s =
    { setHw 0x10160 (wd (twos 16 offset + (if l61 then 2 ^ 16 else 0) + (if l59 then 2 ^ 17 else 0))) s with tb := x } := by
  unfold utcNews
  extract_lets u
  split
  · refine ⟨_, ?_, rfl⟩
    rfl
  · split
    · exact ⟨u.tb, rfl, rfl⟩
    · exact ⟨{ u.tb with leapSign := 0 }, rfl, rfl⟩

/-- A better Announce that the device follows. -/
def ptpParentTaken (m : PtpMsg) (s : State) : State :=
  let fresh := decide (ptpParent s ≠ m.parent % 2 ^ 64) || !(decide (s.ptp.state = 8) || decide (s.ptp.state = 9))
  setCnt64 0xA2044 (m.parent % 2 ^ 64)
    { s with ptp := { s.ptp with state := if fresh then 8 else s.ptp.state, master := false } }

theorem ptpTaken_better {p : Nat} {m : PtpMsg} {s : State} (hk : m.kind = .announce) (hbet : m.better = true) :
    ptpTaken p m s = utcNews m.utc m.leap61 m.leap59 (ptpParentTaken m s) := by
  rw [ptpTaken, hk]
  exact if_pos hbet

theorem ptpParentTaken_state (m : PtpMsg) (s : State) :
    (ptpParentTaken m s).ptp.state = 8 ∨ (ptpParentTaken m s).ptp.state = 9 := by
  have hst : (ptpParentTaken m s).ptp.state = if (decide (ptpParent s ≠ m.parent % 2 ^ 64) ||
      !(decide (s.ptp.state = 8) || decide (s.ptp.state = 9))) then 8 else s.ptp.state := rfl
  rw [hst]
  split
  case isTrue => exact .inl rfl
  case isFalse h =>
    obtain ⟨-, hstate⟩ : ptpParent s = m.parent % 2 ^ 64 ∧ (¬s.ptp.state = 8 → s.ptp.state = 9) := by simpa using h
    exact or_iff_not_imp_left.mpr hstate

/-! ### A measurement of the parent -/

theorem ptpTaken_measured {p : Nat} {m : PtpMsg} {off : Int} {s : State}
    (hk : m.kind = .sync ∨ m.kind = .followUp ∨ m.kind = .delayResp) (hpar : m.parent % 2 ^ 64 = ptpParent s)
    (hst : s.ptp.state = 8 ∨ s.ptp.state = 9) (hoff : m.offset = some off) : ptpTaken p m s =
      measure 1 (off - ptpAsym s p) (setCnt 0xA204C m.delay { s with ptp := { s.ptp with state := 9 } }) := by
  have hours : ¬(ptpParent s ≠ m.parent % 2 ^ 64 ∨ ¬ (s.ptp.state = 8 ∨ s.ptp.state = 9)) := by
    rw [hpar]
    simp [hst]
  unfold ptpTaken
  obtain hk | hk | hk := hk <;> rw [hk, hoff] <;> exact if_neg hours

end Sys2Proof.Machine
end

section
/-!
SETTLES. PTP as an ordinary clock (O45).
-/

namespace Sys2Proof.Machine

/-- Settles O45: a message sends, or moves device time as its measurement says; the rows that send do so at their turn. -/
theorem ptpCommands : Obligations.PtpCommands := by
  unfold Obligations.PtpCommands
  refine ⟨fun s p m hb hp => ?dropped, fun s p m hb hp hsrc hk hbet => ?parent, fun s p m hb hp hsrc hk hbet => ?master,
    fun s p m hb hp hsrc hk hpeer => ?peer, fun s p m hb hp hsrc hk hpeer hm => ?resp,
    fun s p m off => ?measured, fun s hb hm hsrc hd => ?sync, fun s hb hsrc hst hd => ?request,
    fun s hb hm hsrc hd => ?announce⟩
  case dropped =>
    refine ⟨_, exec_ptpMessage_dropped hb hp, ?_, fun a ha => ?_, rfl⟩
    · rw [hw_restored, addCnt, hw_setHw_same]
      rfl
    · rw [hw_restored, addCnt, hw_setHw_ne _ ha]
  case parent =>
    refine ⟨_, exec_ptpMessage hb hp hsrc, ?_⟩
    obtain ⟨x, hacc, hnews⟩ := utcNews_eq m.utc m.leap61 m.leap59 (ptpParentTaken m s)
    rw [ptpTaken_better hk hbet, hnews]
    refine ⟨?_, rfl, ptpParentTaken_state m s, hacc, hw_setHw_same ..⟩
    have hcount : cnt64 (ptpParentTaken m s) 0xA2044 = m.parent % 2 ^ 64 := cnt64_setCnt64 (Nat.mod_lt _ (by decide)) _ _
    rw [← hcount]
    exact cnt64_congr (hw_setHw_ne _ (by decide) _) (hw_setHw_ne _ (by decide) _)
  case master =>
    refine (exec_ptpMessage hb hp hsrc).trans ?_
    rw [ptpTaken, hk]
    dsimp only
    rw [if_neg (by rw [hbet]; decide)]
    split <;> rfl
  case peer =>
    refine ⟨_, exec_ptpMessage hb hp hsrc, ?_⟩
    have htaken : ptpTaken p m s = ptpSendBoth p 3 0xA (cfgB s 0xA2000 3) s := by
      rw [ptpTaken, hk]
      exact if_pos hpeer
    rw [htaken]
    exact ⟨congrArg (restored s) (ptpSendBoth_eq ..), port_ptpSendBoth ..⟩
  case resp =>
    refine ⟨_, exec_ptpMessage hb hp hsrc, ?_⟩
    have htaken : ptpTaken p m s = ptpSend p 9 s := by
      rw [ptpTaken, hk]
      dsimp only
      rw [hpeer, hm]
      rfl
    rw [htaken]
    exact ⟨rfl, port_ptpSend ..⟩
  case measured =>
    intro th hb hp hsrc hk hpar hst hoff hlow hhigh hth
    refine ⟨_, exec_ptpMessage hb hp hsrc, ?_⟩
    rw [ptpTaken_measured hk hpar hst hoff]
    let u := setCnt 0xA204C m.delay { s with ptp := { s.ptp with state := 9 } }
    obtain ⟨hsource, hvalid, hnow⟩ := measure_tb (src := 1) (s := u) hlow hhigh hth
    refine ⟨?_, hsource, ?_, ?_, hvalid, hnow⟩
    · change (measure 1 th u).ptp.state = 9
      rw [measure_ptp]
      rfl
    · rw [hw_restored, hw_measure hlow hhigh (by decide) (by decide), hw_setHw_same]
    · rw [hw_restored, hw_measure hlow hhigh (by decide) (by decide), hw_setHw_ne _ (by decide), setCnt, hw_setHw_same]
  case sync =>
    have hexec : execPtpSyncTx s = .next (restored s (ptpSendBoth (ptpPort s) 0 8 (cfgB s 0xA2000 3)
        { s with ptp := { s.ptp with syncAt := nextDue s s.ptp.syncAt (ptpTicks (cfgF s 0xA2004 0 8)) } })) :=
      run_of_eq hb (if_pos ⟨hm, hsrc, hd⟩)
    exact ⟨_, hexec, congrArg (restored s) (ptpSendBoth_eq ..), port_ptpSendBoth ..⟩
  case request =>
    have hexec : execDelayReqTx s = .next (restored s (ptpSend (ptpPort s) (if cfgB s 0xA2000 2 then 2 else 1)
        { s with ptp := { s.ptp with reqAt := s.cnt.ticks + ptpTicks (cfgF s 0xA2004 16 8) } })) :=
      run_of_eq hb (if_pos ⟨hsrc, hst, hd⟩)
    exact ⟨_, hexec, rfl, port_ptpSend ..⟩
  case announce =>
    have hexec : execAnnounceTx s = .next (restored s (ptpSend (ptpPort s) 0xB
        { s with ptp := { s.ptp with annAt := nextDue s s.ptp.annAt (ptpTicks (cfgF s 0xA2004 8 8)) } })) :=
      run_of_eq hb (if_pos ⟨hm, hsrc, hd⟩)
    exact ⟨_, hexec, rfl, port_ptpSend ..⟩

end Sys2Proof.Machine
end

section
/-!
REASONING. The measurement contexts of the TIU (O46): they write their own records, the FIFO and the words from those of
context 0 on, and they only append to the FIFO.
-/

namespace Sys2Proof.Machine

/-! ### What the contexts leave aside -/

/-- A state without what the measurement contexts write: their records, the FIFO, the events and their reports. -/
def beside (s : State) : State :=
  { s with tiu := { s.tiu with ctxs := [], fifo := [], lost := 0 }, regs := { s.regs with hw := [], laps := [] }, folds := [],
           spt := { s.spt with streams := [] } }

/-- One state comes from another by what contexts do: the words below theirs stay and the FIFO is only appended to. -/
structure Aside (s t : State) : Prop where
  rest  : beside t = beside s
  words : ∀ a, a < 0x31200 → hw t a = hw s a
  fifo  : s.tiu.fifo <+: t.tiu.fifo

theorem Aside.refl (s : State) : Aside s s := ⟨rfl, fun _ _ => rfl, List.prefix_rfl⟩

theorem Aside.trans {s t u : State} (h : Aside s t) (h' : Aside t u) : Aside s u :=
  ⟨h'.rest.trans h.rest, fun a ha => (h'.words a ha).trans (h.words a ha), h.fifo.trans h'.fifo⟩

theorem Aside.ite {c : Prop} [Decidable c] {s t u : State} (h : Aside s t) (h' : Aside s u) : Aside s (if c then t else u) := by
  split
  · exact h
  · exact h'

theorem Aside.each {α : Type} {f : α → State → State} (h : ∀ x s, Aside s (f x s)) (l : List α) (s : State) :
    Aside s (each l f s) :=
  each_induction (P := Aside s) (fun x _ t ht => ht.trans (h x t)) (Aside.refl s)

section
variable {s t : State} (h : Aside s t)
include h

theorem Aside.tb : t.tb = s.tb := (congrArg State.tb h.rest :)
theorem Aside.lch : t.lch = s.lch := (congrArg State.lch h.rest :)
theorem Aside.cnt : t.cnt = s.cnt := (congrArg State.cnt h.rest :)
theorem Aside.cnv : t.cnv = s.cnv := (congrArg State.cnv h.rest :)
theorem Aside.weir : t.weir = s.weir := (congrArg State.weir h.rest :)
theorem Aside.slc : t.slc = s.slc := (congrArg State.slc h.rest :)
theorem Aside.chs : t.tiu.chs = s.tiu.chs := (congrArg (fun u : State => u.tiu.chs) h.rest :)

theorem Aside.cfg : cfg t = cfg s :=
  cfg_congr (congrArg (fun u : State => u.regs.active) h.rest :) (congrArg (fun u : State => u.regs.overrides) h.rest :)

end

/-! ### State operations -/

theorem aside_setHw {a : Nat} (h : 0x31200 ≤ a) (w : Word) (s : State) : Aside s (setHw a w s) :=
  ⟨rfl, fun _ _ => hw_setHw_ne w (by omega) s, List.prefix_rfl⟩

theorem aside_setCnt {a : Nat} (h : 0x31200 ≤ a) (n : Nat) (s : State) : Aside s (setCnt a n s) := aside_setHw h _ s

theorem aside_addHold {a : Nat} (h : 0x31200 ≤ a) (n : Nat) (s : State) : Aside s (addHold a n s) := aside_setHw h _ s

theorem aside_setCnt64 {a : Nat} (h : 0x31200 ≤ a) (n : Nat) (s : State) : Aside s (setCnt64 a n s) :=
  (aside_setHw h _ s).trans (aside_setHw (by omega) _ _)

theorem aside_addCnt64 {a : Nat} (h : 0x31200 ≤ a) (n : Nat) (s : State) : Aside s (addCnt64 a n s) :=
  .ite (.refl s) (aside_setCnt64 h _ s)

theorem aside_rill (k n : Nat) (s : State) : Aside s (rill k n s) :=
  (aside_addCnt64 (by omega) n s).trans (aside_addCnt64 (by omega) n _)

theorem aside_raise {a : Nat} (h : 0x31200 ≤ a) (e : Nat) (s : State) : Aside s (raise a e s) := by
  refine ⟨?_, fun b _ => hw_raise_ne e (by omega) s, ?_⟩
  · have hshape := eventOnly_raise a e s
    unfold EventOnly at hshape
    rw [hshape]
    rfl
  · rw [raise_tiu]

theorem aside_setTiuCtx (k : Nat) (x : Ctx) (s : State) : Aside s (setTiuCtx k x s) :=
  ⟨rfl, fun _ _ => rfl, List.prefix_rfl⟩

theorem above_ctxA (k off : Nat) : 0x31200 ≤ ctxA k off := by unfold ctxA; omega

/-! ### Entries, blocks and attempts -/

theorem aside_fifoPush (e : FifoEntry) (s : State) : Aside s (fifoPush e s) := by
  have hlost : Aside s { s with tiu := { s.tiu with lost := Nat.min (2 ^ 32 - 1) (s.tiu.lost + 1) } } :=
    ⟨rfl, fun _ _ => rfl, List.prefix_rfl⟩
  have hpush : Aside s { s with tiu := { s.tiu with fifo := s.tiu.fifo ++ [{ e with lost := s.tiu.lost }], lost := 0 } } :=
    ⟨rfl, fun _ _ => rfl, List.prefix_append ..⟩
  exact .ite (hlost.trans ((aside_addHold (by decide) 1 _).trans (aside_raise (by decide) 3 _)))
    (hpush.trans (aside_rill 98 1 _))

theorem aside_latchStats {a : Nat} (h : 0x31200 ≤ a) (xs : List Int) (s : State) : Aside s (latchStats a xs s) :=
  (aside_setCnt64 h _ s).trans ((aside_setCnt64 (by omega) _ _).trans ((aside_setCnt64 (by omega) _ _).trans
    (aside_setCnt64 (by omega) _ _)))

theorem aside_statBlockEnd (k : Nat) (period : Bool) (s : State) : Aside s (statBlockEnd k period s) := by
  unfold statBlockEnd
  extract_lets x mean freq s1 s2 s3 s4
  have h2 : Aside s s2 := .ite ((aside_latchStats (above_ctxA ..) _ s).trans (aside_setCnt64 (above_ctxA ..) _ _))
    (aside_latchStats (above_ctxA ..) _ s)
  have h4 : Aside s2 s4 := (aside_setCnt (above_ctxA ..) _ _).trans ((aside_setCnt (above_ctxA ..) _ _).trans
    (aside_setCnt (above_ctxA ..) _ _))
  exact h2.trans (h4.trans ((aside_setTiuCtx k _ s4).trans (aside_raise (by decide) 4 _)))

theorem aside_attempt (k typ source flags count : Nat) (start : Edge) (v : Option Int) (s : State) :
    Aside s (attempt k typ source flags count start v s) := by
  unfold attempt
  extract_lets c s1 s2
  have h2 : Aside s s2 := (aside_rill (100 + k) 1 s).trans (.ite (aside_raise (by decide) 6 _) (.refl _))
  refine .ite (h2.trans (aside_fifoPush _ s2)) ?_
  refine .ite (h2.trans ((aside_setTiuCtx k _ s2).trans (aside_statBlockEnd ..))) (h2.trans (aside_setTiuCtx k _ s2))

/-! ### Intervals and periods -/

theorem aside_intervalEnd (k : Nat) (start : Edge) (stop : Option Edge) (tap : Int) (s : State) :
    Aside s (intervalEnd k start stop tap s) := by
  unfold intervalEnd
  extract_lets c x s1
  split
  · exact (aside_setTiuCtx k _ s).trans (aside_attempt ..)
  · exact (aside_setTiuCtx k _ s).trans (aside_attempt ..)

theorem aside_intervalStart (k : Nat) (e : Edge) (s : State) : Aside s (intervalStart k e s) := by
  unfold intervalStart
  extract_lets
  split
  · exact (aside_setTiuCtx k _ s).trans (aside_intervalEnd ..)
  · exact aside_setTiuCtx k _ s

theorem aside_intervalStop (k : Nat) (e : Edge) (s : State) : Aside s (intervalStop k e s) := by
  unfold intervalStop
  extract_lets c x tap same
  split
  · refine .ite (.refl s) (.ite (aside_setTiuCtx k _ s) (.ite (aside_intervalEnd ..) ?_))
    exact .ite (aside_intervalEnd ..) ((aside_intervalEnd ..).trans (aside_setTiuCtx k _ _))
  · exact .ite (.refl s) (aside_setTiuCtx k _ s)

theorem aside_intervalEdge (k ch : Nat) (rising : Bool) (e : Edge) (s : State) : Aside s (intervalEdge k ch rising e s) := by
  unfold intervalEdge
  extract_lets c isStart isStop taken s1 x
  have h1 : Aside s s1 := .ite (aside_intervalStop ..) (.refl s)
  refine .ite (h1.trans ?_) h1
  split
  · exact aside_intervalStart ..
  · exact .ite (aside_setTiuCtx k _ s1) ((aside_intervalEnd ..).trans (aside_intervalStart ..))

theorem aside_periodEdge (k : Nat) (stamped : Bool) (e : Edge) (s : State) : Aside s (periodEdge k stamped e s) := by
  unfold periodEdge
  extract_lets c x fresh
  have hfresh (on : Bool) (s : State) : Aside s (fresh on s) := aside_setTiuCtx ..
  split
  · exact hfresh ..
  · refine .ite ((aside_attempt ..).trans (hfresh ..)) (.ite (aside_setTiuCtx k _ s) (.ite ?_ ?_))
    · exact (aside_attempt ..).trans (hfresh ..)
    · exact (aside_attempt ..).trans (aside_setTiuCtx k _ _)

/-- An edge that the contexts take. -/
theorem aside_contextsTake (ch : Nat) (rising stamped : Bool) (e : Edge) (s : State) :
    Aside s (contextsTake ch rising stamped e s) := by
  refine Aside.each (fun k s => ?_) _ s
  exact .ite (.refl s) (.ite (.ite (aside_periodEdge ..) (.refl s)) (.ite (aside_intervalEdge ..) (.refl s)))

end Sys2Proof.Machine
end

section
/-!
REASONING. PPS_IN and device time (O46).
-/

namespace Sys2Proof.Machine

/-! ### A signed word -/

section
variable (a : Nat) (v : Int) (s : State)

@[simp] theorem putSigned32_tb : (putSigned32 a v s).tb = s.tb := by
  unfold putSigned32
  split <;> rfl

@[simp] theorem putSigned32_slc : (putSigned32 a v s).slc = s.slc := by
  unfold putSigned32
  split <;> rfl

@[simp] theorem putSigned32_active : (putSigned32 a v s).regs.active = s.regs.active := by
  unfold putSigned32
  split <;> rfl

@[simp] theorem putSigned32_overrides : (putSigned32 a v s).regs.overrides = s.regs.overrides := by
  unfold putSigned32
  split <;> rfl

@[simp] theorem putSigned32_ticks : (putSigned32 a v s).cnt.ticks = s.cnt.ticks := by
  unfold putSigned32
  split <;> rfl

@[simp] theorem putSigned32_coarse : (putSigned32 a v s).cnt.coarse = s.cnt.coarse := by
  unfold putSigned32
  split <;> rfl

end

theorem hw_putSigned32_ne {a b : Nat} (h : b ≠ a) (v : Int) (s : State) : hw (putSigned32 a v s) b = hw s b := by
  unfold putSigned32
  split
  · exact hw_setHw_ne _ h s
  · exact hw_setHw_ne _ h _

/-! ### The accepted edge stays -/

theorem stepTime_lastPps (d : Int) (unset : Bool) (s : State) : (stepTime d unset s).tb.lastPps = s.tb.lastPps := by
  rw [stepTime_tb, moveTime_tb]

theorem tbMeasured_lastPps (th : Int) (s : State) : (tbMeasured th s).tb.lastPps = s.tb.lastPps := by
  obtain ⟨x, n, locks, -, h⟩ := tbMeasured_eq th s
  rw [h, raiseIf_tb]

theorem corrected_lastPps (th : Int) (s : State) : (corrected th s).tb.lastPps = s.tb.lastPps := by
  unfold corrected
  dsimp only
  split
  · exact stepTime_lastPps ..
  · split
    · exact stepTime_lastPps ..
    · rw [setFreq_tb]

theorem measure_lastPps (src : Nat) (th : Int) (s : State) : (measure src th s).tb.lastPps = s.tb.lastPps := by
  rw [measure_eq, noteValid_tb, tbMeasured_lastPps, timerSet_tb, corrected_lastPps, putSigned32_tb]

theorem takeTime_lastPps (t at' : Stamp) (s : State) : (takeTime t at' s).tb.lastPps = s.tb.lastPps := by
  unfold takeTime
  dsimp only
  split
  · rw [noteValid_tb]
    split
    · rw [setTbState_freerun, raise_tb, raise_tb, moveTime_tb]
    · rw [raise_tb, moveTime_tb]
  · exact stepTime_lastPps ..

/-! ### The words of the TIU and the launch generators stay -/

section
variable {a : Nat} (h : 0x20000 ≤ a) (h' : a < 0xD0000)
include h h'

theorem hw_measure_above (src : Nat) (th : Int) (s : State) : hw (measure src th s) a = hw s a := by
  rw [measure_eq, hw_noteValid (by omega)]
  obtain ⟨x, n, locks, -, hmeas⟩ := tbMeasured_eq th (timerSet tmMeas 0 ((if src = 1 then 3000 else 2500) * msTicks)
    (corrected th (putSigned32 0x10154 th { s with tb := { s.tb with source := src } })))
  rw [hmeas, hw_raiseIf_ne (by omega), hw_putTb, hw_timerSet, hw_corrected (by omega) (by omega), hw_putSigned32_ne (by omega),
    hw_putTb]

theorem hw_takeTime_above (t at' : Stamp) (s : State) : hw (takeTime t at' s) a = hw s a := by
  unfold takeTime
  dsimp only
  split
  · rw [hw_noteValid (by omega)]
    split
    · rw [setTbState_freerun, hw_raise_ne _ (by omega), hw_putTb, hw_raise_ne _ (by omega), hw_moveTime (by omega)]
    · rw [hw_raise_ne _ (by omega), hw_moveTime (by omega)]
  · exact hw_stepTime _ _ _ (by omega) (by omega)

end

/-! ### A stamp of PPS_IN -/

/-- The offset of the stamp is reported (R110). -/
def ppsNoted (e : Edge) (s : State) : State := putSigned32 0x1015C (ppsOffset e.stamp) (rill 99 1 s)

/-- What an accepted edge does once it is remembered (R109, R110). -/
def ppsTaken (e : Edge) (s : State) : State :=
  match timeWaiters s with
  | [] => if tbSource (cfg s) = 2 then measure 2 (ppsOffset e.stamp) s else s
  | (n, t) :: rest =>
    let target := t / second * second
    let s := takeTime target e.stamp s
    let s := each ((n, t) :: rest) (fun (k, _) s => answer k 0x0700 stOK (stampBytes target) s) s
    if tbSource (cfg s) = 2 then noteValid (tbMeasured 0 { s with tb := { s.tb with source := 2 } }) else s

/-- The edge is remembered with its tick. -/
def ppsKept (e : Edge) (s : State) : State :=
  let u := ppsNoted e s
  { u with tb := { u.tb with lastPps := some (tickOf u e.c) } }

theorem ppsStamp_eq (e : Edge) (s : State) : ppsStamp e s =
    if ppsAccepted (tickOf (ppsNoted e s) e.c) (ppsNoted e s).tb.lastPps then ppsTaken e (ppsKept e s)
    else raise 0x10140 6 (ppsNoted e s) := by rfl

theorem ppsNoted_tb (e : Edge) (s : State) : (ppsNoted e s).tb = s.tb := by rw [ppsNoted, putSigned32_tb, rill_tb]

theorem cfg_ppsNoted (e : Edge) (s : State) : cfg (ppsNoted e s) = cfg s := cfg_congr (by simp [ppsNoted]) (by simp [ppsNoted])

theorem ppsNoted_slc (e : Edge) (s : State) : (ppsNoted e s).slc = s.slc := by rw [ppsNoted, putSigned32_slc, rill_slc]

theorem tickOf_ppsNoted (e : Edge) (s : State) (c : Nat) : tickOf (ppsNoted e s) c = tickOf s c := by
  simp [tickOf, ppsNoted]

theorem ppsKept_tb (e : Edge) (s : State) : (ppsKept e s).tb = { s.tb with lastPps := some (tickOf s e.c) } := by
  rw [ppsKept, tickOf_ppsNoted, ppsNoted_tb]

theorem ppsStamp_accepted {e : Edge} {s : State} (h : ppsAccepted (tickOf s e.c) s.tb.lastPps = true) :
    ppsStamp e s = ppsTaken e (ppsKept e s) := by
  rw [ppsStamp_eq, tickOf_ppsNoted, ppsNoted_tb, if_pos h]

theorem ppsStamp_rejected {e : Edge} {s : State} (h : ppsAccepted (tickOf s e.c) s.tb.lastPps = false) :
    ppsStamp e s = raise 0x10140 6 (ppsNoted e s) := by
  rw [ppsStamp_eq, tickOf_ppsNoted, ppsNoted_tb, h, if_neg Bool.false_ne_true]

theorem ppsTaken_lastPps (e : Edge) (s : State) : (ppsTaken e s).tb.lastPps = s.tb.lastPps := by
  unfold ppsTaken
  split
  · split
    · exact measure_lastPps ..
    · rfl
  · extract_lets target s1 s2
    have h2 : s2.tb.lastPps = s.tb.lastPps := (congrArg TbSt.lastPps (each_keeps State.tb (fun _ _ => answer_tb ..) s1)).trans
      (takeTime_lastPps ..)
    split
    · rw [noteValid_tb, tbMeasured_lastPps, h2]
    · exact h2

/-- With nobody waiting and another source the edge is remembered and no more. -/
theorem ppsTaken_other {e : Edge} {s : State} (hw : timeWaiters s = []) (hsrc : tbSource (cfg s) ≠ 2) : ppsTaken e s = s := by
  unfold ppsTaken
  rw [hw]
  exact if_neg hsrc

theorem hw_ppsNoted {a : Nat} (h : a ≠ 0x1015C) (h' : a < 0xD3000) (e : Edge) (s : State) : hw (ppsNoted e s) a = hw s a := by
  rw [ppsNoted, hw_putSigned32_ne h, hw_rill_ne h']

theorem hw_ppsTaken {a : Nat} (h : 0x20000 ≤ a) (h' : a < 0xD0000) (e : Edge) (s : State) : hw (ppsTaken e s) a = hw s a := by
  unfold ppsTaken
  split
  · split
    · exact hw_measure_above h h' _ _ s
    · rfl
  · extract_lets target s1 s2
    have h2 : hw s2 a = hw s a := (each_keeps (hw · a) (fun _ _ => hw_answer_off (by unfold offLedger; omega) _) s1).trans
      (hw_takeTime_above h h' ..)
    split
    · obtain ⟨x, n, locks, -, hmeas⟩ := tbMeasured_eq 0 { s2 with tb := { s2.tb with source := 2 } }
      rw [hw_noteValid (by omega), hmeas, hw_raiseIf_ne (by omega), hw_putTb, hw_putTb, h2]
    · exact h2

theorem hw_ppsStamp {a : Nat} (h : 0x20000 ≤ a) (h' : a < 0xD0000) (e : Edge) (s : State) : hw (ppsStamp e s) a = hw s a := by
  have hnoted : hw (ppsNoted e s) a = hw s a := hw_ppsNoted (by omega) (by omega) e s
  rw [ppsStamp_eq]
  split
  · exact (hw_ppsTaken h h' e _).trans hnoted
  · rw [hw_raise_ne _ (by omega), hnoted]

end Sys2Proof.Machine
end

section
/-!
REASONING. An edge of a TIU channel (O46): what stands when the contexts have taken it, and what its stamp then does.
-/

namespace Sys2Proof.Machine

/-! ### The channel takes the stamp -/

@[simp] theorem tiuCh_setTiuCh_same (c : Nat) (x : TiuCh) (s : State) : tiuCh (setTiuCh c x s) c = x := by
  simp [tiuCh, setTiuCh]

@[simp] theorem tiuCh_setTiuCh_ne (x : TiuCh) {c d : Nat} (h : d ≠ c) (s : State) : tiuCh (setTiuCh c x s) d = tiuCh s d := by
  simp [tiuCh, setTiuCh, h]

@[simp] theorem tiuCtx_setTiuCtx_same (m : Nat) (x : Ctx) (s : State) : tiuCtx (setTiuCtx m x s) m = x := by
  simp [tiuCtx, setTiuCtx]

@[simp] theorem tiuCtx_setTiuCtx_ne (x : Ctx) {m q : Nat} (h : q ≠ m) (s : State) :
    tiuCtx (setTiuCtx m x s) q = tiuCtx s q := by
  simp [tiuCtx, setTiuCtx, h]

/-- A state without what a channel's stamp writes either. -/
def besideTiu (s : State) : State := { beside s with tiu := {}, timers := [] }

/-- A channel has taken a stamp at a coarse count: it is counted and its dead time runs; beside it only the contexts, the
FIFO and the reports of events have moved. -/
structure Stamped (s : State) (ch c : Nat) (t : State) : Prop where
  rest   : besideTiu t = besideTiu s
  count  : hw t (tiuA ch 0x1C) = hw s (tiuA ch 0x1C) + 1
  words  : ∀ a, a < 0x31200 → a ≠ tiuA ch 0x1C → hw t a = hw s a
  ready  : (tiuCh t ch).ready = !deadCal s ch
  inCal  : (tiuCh t ch).inCal = deadCal s ch
  dead   : (tiuCh t ch).dead = (c + (if deadCal s ch then 12 else 3)) % 2 ^ 48
  others : ∀ q, q ≠ ch → tiuCh t q = tiuCh s q

section
variable {s t : State} {ch c : Nat} (h : Stamped s ch c t)
include h

theorem Stamped.tb : t.tb = s.tb := (congrArg State.tb h.rest :)
theorem Stamped.lch : t.lch = s.lch := (congrArg State.lch h.rest :)
theorem Stamped.cnt : t.cnt = s.cnt := (congrArg State.cnt h.rest :)
theorem Stamped.cnv : t.cnv = s.cnv := (congrArg State.cnv h.rest :)
theorem Stamped.weir : t.weir = s.weir := (congrArg State.weir h.rest :)
theorem Stamped.slc : t.slc = s.slc := (congrArg State.slc h.rest :)

theorem Stamped.cfg : cfg t = cfg s :=
  cfg_congr (congrArg (fun u : State => u.regs.active) h.rest :) (congrArg (fun u : State => u.regs.overrides) h.rest :)

theorem Stamped.aside {u : State} (h' : Aside t u) (hch : ch < 12) : Stamped s ch c u where
  rest := (congrArg (fun v : State => { v with tiu := {}, timers := [] }) h'.rest).trans h.rest
  count := (h'.words _ (by unfold tiuA; omega)).trans h.count
  words a ha hne := (h'.words a ha).trans (h.words a ha hne)
  ready := by rw [tiuCh, h'.chs]; exact h.ready
  inCal := by rw [tiuCh, h'.chs]; exact h.inCal
  dead := by rw [tiuCh, h'.chs]; exact h.dead
  others q hq := by rw [tiuCh, h'.chs]; exact h.others q hq

/-- Once the stamp is in the FIFO the channel counts its missed edges anew. -/
theorem Stamped.missed (n : Nat) : Stamped s ch c (setTiuCh ch { tiuCh t ch with missed := n } t) where
  rest := h.rest
  count := h.count
  words := h.words
  ready := by rw [tiuCh_setTiuCh_same]; exact h.ready
  inCal := by rw [tiuCh_setTiuCh_same]; exact h.inCal
  dead := by rw [tiuCh_setTiuCh_same]; exact h.dead
  others q hq := by rw [tiuCh_setTiuCh_ne _ hq]; exact h.others q hq

end

/-- The channel counts the edge and its dead time begins (R150, R152). -/
def edgeCounted (ch c : Nat) (s : State) : State :=
  let cal := deadCal s ch
  let u := if cal && !calEach (cfg s) ch then timerSet tmTiuCal ch msTicks s else s
  setTiuCh ch { tiuCh s ch with ready := !cal, inCal := cal, dead := (c + (if cal then 12 else 3)) % 2 ^ 48 }
    (addCnt (tiuA ch 0x1C) 1 u)

theorem edgeCounted_eq (ch c : Nat) (s : State) : ∃ timers, edgeCounted ch c s =
    setTiuCh ch { tiuCh s ch with
      ready := !deadCal s ch, inCal := deadCal s ch, dead := (c + (if deadCal s ch then 12 else 3)) % 2 ^ 48 }
    (addCnt (tiuA ch 0x1C) 1 { s with timers := timers }) := by
  unfold edgeCounted
  extract_lets cal u
  obtain ⟨timers, hu⟩ : ∃ timers, u = { s with timers := timers } := by
    simp only [u]
    split
    · exact ⟨_, rfl⟩
    · exact ⟨s.timers, rfl⟩
  exact ⟨timers, by rw [hu]⟩

theorem stamped_edgeCounted (ch c : Nat) (s : State) : Stamped s ch c (edgeCounted ch c s) := by
  obtain ⟨timers, hu⟩ := edgeCounted_eq ch c s
  rw [hu]
  refine ⟨rfl, ?_, fun a _ ha => ?_, ?_, ?_, ?_, fun q hq => ?_⟩
  · exact hw_setHw_same ..
  · exact hw_setHw_ne _ ha _
  · rw [tiuCh_setTiuCh_same]
  · rw [tiuCh_setTiuCh_same]
  · rw [tiuCh_setTiuCh_same]
  · rw [tiuCh_setTiuCh_ne _ hq]
    rfl

/-- The entry that a channel's stamp makes in the FIFO (R157). -/
def edgeEntry (ch : Nat) (e : Edge) (missed : Nat) : FifoEntry :=
  { stamp := e.stamp, tqb := e.tqb, typ := 0, source := ch, flags := e.flags, value := 0, count := missed, lost := 0 }

/-- The stamp enters the FIFO where the channel asks for it. -/
def edgeQueued (ch c : Nat) (e : Edge) (s : State) : State :=
  let u := edgeCounted ch c s
  if cfgB s (tiuA ch 0) 17 then
    fifoPush (edgeEntry ch e (tiuCh s ch).missed) (setTiuCh ch { tiuCh u ch with missed := 0 } u)
  else u

theorem stamped_edgeQueued {ch : Nat} (h : ch < 12) (c : Nat) (e : Edge) (s : State) :
    Stamped s ch c (edgeQueued ch c e s) := by
  unfold edgeQueued
  dsimp only
  split
  · exact ((stamped_edgeCounted ch c s).missed 0).aside (aside_fifoPush ..) h
  · exact stamped_edgeCounted ch c s

theorem tiu_rill (k n : Nat) (s : State) : (rill k n s).tiu = s.tiu := by simp

/-- A FIFO that is not full takes an entry. -/
theorem fifoPush_room {s : State} (h : s.tiu.fifo.length < 4096) (e : FifoEntry) :
    (fifoPush e s).tiu = { s.tiu with fifo := s.tiu.fifo ++ [{ e with lost := s.tiu.lost }], lost := 0 } := by
  rw [fifoPush, if_neg (by omega), tiu_rill]

theorem hw_fifoPush_room {s : State} (h : s.tiu.fifo.length < 4096) {a : Nat} (ha : a < 0xD3000) (e : FifoEntry) :
    hw (fifoPush e s) a = hw s a := by
  rw [fifoPush, if_neg (by omega), hw_rill_ne ha]
  rfl

theorem edgeQueued_fifo {ch c : Nat} {e : Edge} {s : State} (hq : cfgB s (tiuA ch 0) 17 = true)
    (hroom : s.tiu.fifo.length < 4096) : (edgeQueued ch c e s).tiu.fifo =
      s.tiu.fifo ++ [{ edgeEntry ch e (tiuCh s ch).missed with lost := s.tiu.lost }] := by
  obtain ⟨timers, hu⟩ := edgeCounted_eq ch c s
  rw [edgeQueued, if_pos hq, fifoPush_room (by rw [hu]; exact hroom), hu]
  rfl

/-! ### What the stamp does -/

/-- The stamp goes to the monitor, to PPS_IN or to the trigger units (R110, R161, R222). -/
def edgeFor (ch : Nat) (e : Edge) (s : State) : State :=
  if ch < 4 then monitorStamp ch e s
  else if ch = 4 then ppsStamp e s
  else tinEdge ch e.stamp (rill (91 + (ch - 5)) 1 s)

/-- An edge that the channel takes outside its dead time. -/
theorem edgeStamp_taken {s : State} {ch c k : Nat} {rising : Bool} (hpll : pll s 1 = .inUse) (hf : (tiuCh s ch).failed = false)
    (hk : k < 768) (htakes : takesEdge (tiuSlope (cfg s) ch) rising = true) (hd : inDead (tiuCh s ch) c = false) :
    edgeStamp ch c k rising s = edgeFor ch (edgeOf s ch c k rising)
      (contextsTake ch rising true (edgeOf s ch c k rising) (edgeQueued ch c (edgeOf s ch c k rising) s)) := by
  have hgo : ¬(pll s 1 ≠ .inUse ∨ (tiuCh s ch).failed ∨ 768 ≤ k ∨ !takesEdge (tiuSlope (cfg s) ch) rising) := by
    simp [hpll, hf, htakes, hk]
  rw [edgeStamp, if_neg hgo, if_neg (by rw [hd]; exact Bool.false_ne_true)]
  rfl

/-- An edge inside the dead time is missed. -/
theorem edgeStamp_missed {s : State} {ch c k : Nat} {rising : Bool} (hpll : pll s 1 = .inUse) (hf : (tiuCh s ch).failed = false)
    (hk : k < 768) (htakes : takesEdge (tiuSlope (cfg s) ch) rising = true) (hd : inDead (tiuCh s ch) c = true) :
    edgeStamp ch c k rising s = contextsTake ch rising false (edgeOf s ch c k rising) (addHold (tiuA ch 0x14) 1
      (setTiuCh ch { tiuCh s ch with missed := Nat.min (2 ^ 32 - 1) ((tiuCh s ch).missed + 1) } s)) := by
  have hgo : ¬(pll s 1 ≠ .inUse ∨ (tiuCh s ch).failed ∨ 768 ≤ k ∨ !takesEdge (tiuSlope (cfg s) ch) rising) := by
    simp [hpll, hf, htakes, hk]
  rw [edgeStamp, if_neg hgo]
  exact if_pos hd

/-! ### The monitor -/

/-- The stamp is the launch stamp of the shots whose open window it meets first (R161). -/
def launchTaken (e : Edge) (x : Shot) : Shot :=
  if inWindow e.stamp x && x.launch.isNone then
    { x with launch := some e.stamp, tqbStamp := e.tqb,
             flags := x.flags ||| (if nbit e.flags 2 then fCALHELD else 0) ||| (if nbit e.flags 3 then fSPARE else 0) }
  else x

theorem monitorStamp_inside {p : Nat} {e : Edge} {s : State} (h : (lch s p).shots.any (inWindow e.stamp) = true) :
    monitorStamp p e s = setLch p { lch s p with shots := (lch s p).shots.map (launchTaken e) } (rill (87 + p) 1 s) := by
  rw [monitorStamp, if_pos h]
  rfl

theorem monitorStamp_stray {p : Nat} {e : Edge} {s : State} (h : (lch s p).shots.any (inWindow e.stamp) = false) :
    monitorStamp p e s = raise (0x30040 + 0x100 * p) 4 (addHold (0x30058 + 0x100 * p) 1 (rill (87 + p) 1 s)) := by
  rw [monitorStamp, if_neg (by rw [h]; exact Bool.false_ne_true)]

theorem hw_monitorStamp {p a : Nat} (h : a ≠ 0x30040 + 0x100 * p) (h' : a ≠ 0x30058 + 0x100 * p) (h'' : a < 0xD3000)
    (e : Edge) (s : State) : hw (monitorStamp p e s) a = hw s a := by
  cases hin : (lch s p).shots.any (inWindow e.stamp)
  · rw [monitorStamp_stray hin, hw_raise_ne _ h, addHold, hw_setHw_ne _ h', hw_rill_ne h'']
  · rw [monitorStamp_inside hin]
    exact hw_rill_ne h'' s

/-! ### The trigger units -/

/-- An armed unit takes the edge of its TIN as an instant (R222). -/
def tinTaken (m : Nat → Word) (ch : Nat) (u : Int) (n : Nat) (x : Weir) : Weir :=
  if x.armed && decide (unitSource m n = 1 ∧ unitTin m n + 5 = ch) then { x with tins := x.tins ++ [u] } else x

/-- The instant of a stamp on the lane sample's relation. -/
def tinInstant (t : Stamp) (s : State) : Int :=
  rhe (posOfTime s t (256 * lps (cfg s)) - (s.cnv.base * (256 * lps (cfg s)) : Nat)) 4000

def tinUnit (m : Nat → Word) (ch : Nat) (u : Int) (n : Nat) (s : State) : State :=
  if (unitSt s n).armed && decide (unitSource m n = 1 ∧ unitTin m n + 5 = ch) then
    setUnit n { unitSt s n with tins := (unitSt s n).tins ++ [u] } s
  else s

theorem tinEdge_eq (ch : Nat) (t : Stamp) (s : State) :
    tinEdge ch t s = each (List.range 8) (tinUnit (cfg s) ch (tinInstant t s)) s := by rfl

theorem unitSt_tinUnit_same (m : Nat → Word) (ch : Nat) (u : Int) (n : Nat) (s : State) :
    unitSt (tinUnit m ch u n s) n = tinTaken m ch u n (unitSt s n) := by
  unfold tinUnit tinTaken
  split
  · exact unitSt_setUnit_same ..
  · rfl

theorem unitSt_tinUnit_ne {n v : Nat} (h : v ≠ n) (m : Nat → Word) (ch : Nat) (u : Int) (s : State) :
    unitSt (tinUnit m ch u n s) v = unitSt s v := by
  unfold tinUnit
  split
  · exact unitSt_setUnit_ne _ h s
  · rfl

/-- Of a loop over places that differ each place has its own change. -/
theorem each_at {β : Type} {get : State → Nat → β} {f : Nat → State → State} {g : Nat → β → β}
    (hsame : ∀ n s, get (f n s) n = g n (get s n)) (hne : ∀ n m s, m ≠ n → get (f n s) m = get s m) {l : List Nat}
    (hl : l.Nodup) (n : Nat) (s : State) : get (each l f s) n = if n ∈ l then g n (get s n) else get s n := by
  induction l generalizing s with
  | nil => rfl
  | cons m l ih =>
    obtain ⟨hm, hl⟩ := List.nodup_cons.mp hl
    change get (each l f (f m s)) n = _
    rw [ih hl]
    by_cases hn : n = m
    · subst hn
      rw [if_neg hm, if_pos List.mem_cons_self, hsame]
    · rw [hne m n s hn]
      simp only [List.mem_cons, hn, false_or]

theorem unitSt_tinEdge {ch u : Nat} {t : Stamp} {s : State} (hu : u < 8) :
    unitSt (tinEdge ch t s) u = tinTaken (cfg s) ch (tinInstant t s) u (unitSt s u) := by
  rw [tinEdge_eq, each_at (get := unitSt) (unitSt_tinUnit_same _ _ _) (fun n m s h => unitSt_tinUnit_ne h _ _ _ s) List.nodup_range,
    if_pos (List.mem_range.mpr hu)]

theorem hw_tinEdge (ch : Nat) (t : Stamp) (s : State) (a : Nat) : hw (tinEdge ch t s) a = hw s a := by
  rw [tinEdge_eq]
  refine each_keeps (hw · a) (fun n s => ?_) s
  unfold tinUnit
  split <;> rfl

theorem tb_tinEdge (ch : Nat) (t : Stamp) (s : State) : (tinEdge ch t s).tb = s.tb := by
  rw [tinEdge_eq]
  refine each_keeps State.tb (fun n s => ?_) s
  unfold tinUnit
  split <;> rfl

theorem lch_tinEdge (ch : Nat) (t : Stamp) (s : State) : (tinEdge ch t s).lch = s.lch := by
  rw [tinEdge_eq]
  refine each_keeps State.lch (fun n s => ?_) s
  unfold tinUnit
  split <;> rfl

/-- The instant depends on device time, the sample clock and the configuration. -/
theorem tinInstant_congr {s t : State} (htb : t.tb = s.tb) (hcnt : t.cnt = s.cnt) (hcnv : t.cnv = s.cnv)
    (hcfg : cfg t = cfg s) (at' : Stamp) : tinInstant at' t = tinInstant at' s := by
  unfold tinInstant posOfTime timePace
  rw [htb, hcnt, hcnv, hcfg]

/-! ### All of them -/

theorem tiu_edgeFor (ch : Nat) (e : Edge) (s : State) : (edgeFor ch e s).tiu = s.tiu := by
  have hout : outside { tb := true } (edgeFor ch e s) = outside { tb := true } s := by
    unfold edgeFor
    split
    · exact outside_monitorStamp ..
    · split
      · exact outside_ppsStamp rfl ..
      · exact (outside_tinEdge ..).trans (outside_rill ..)
  obtain ⟨-, htiu, hchs, -⟩ := outside_eq_iff.mp hout
  rw [htiu rfl, hchs rfl]

/-- The stamp leaves the registers of the channels alone. -/
theorem hw_edgeFor {a : Nat} (h : 0x31000 ≤ a) (h' : a < 0x31200) (ch : Nat) (e : Edge) (s : State) :
    hw (edgeFor ch e s) a = hw s a := by
  unfold edgeFor
  split
  case isTrue hp => exact hw_monitorStamp (by omega) (by omega) (by omega) e s
  case isFalse =>
    split
    · exact hw_ppsStamp (by omega) (by omega) e s
    · rw [hw_tinEdge, hw_rill_ne (by omega)]

end Sys2Proof.Machine
end

section
/-!
REASONING. What an edge comes to at the monitor, at PPS_IN and at the trigger units, and a measurement that times out (O46).
-/

namespace Sys2Proof.Machine

/-! ### An edge that is taken -/

/-- Before the monitor, PPS_IN or the trigger units see the stamp, the contexts have. -/
theorem edgeStamp_reaches {s : State} {ch c k : Nat} {rising : Bool} (hch : ch < 12) (hpll : pll s 1 = .inUse)
    (hf : (tiuCh s ch).failed = false) (hk : k < 768) (htakes : takesEdge (tiuSlope (cfg s) ch) rising = true)
    (hd : inDead (tiuCh s ch) c = false) : ∃ w, Stamped s ch c w ∧
      (edgeQueued ch c (edgeOf s ch c k rising) s).tiu.fifo <+: w.tiu.fifo ∧
      edgeStamp ch c k rising s = edgeFor ch (edgeOf s ch c k rising) w := by
  have htake := aside_contextsTake ch rising true (edgeOf s ch c k rising) (edgeQueued ch c (edgeOf s ch c k rising) s)
  exact ⟨_, (stamped_edgeQueued hch c _ s).aside htake hch, htake.fifo, edgeStamp_taken hpll hf hk htakes hd⟩

theorem exec_tiuEdgeStamp {s u : State} {ch : Fin 12} {c k : Nat} {rising : Bool} (hb : s.boot ≠ .held)
    (h : edgeStamp ch c k rising s = u) : exec (.tiuEdgeStamp ch c k rising) s = .next (restored s u) := by
  change execTiuEdgeStamp ch c k rising s = _
  exact run_of_eq hb h

theorem exec_ppsInEdge {s u : State} {c k : Nat} (hb : s.boot ≠ .held)
    (h : edgeStamp 4 c k (decide (tiuSlope (cfg s) 4 ≠ 2)) s = u) : exec (.ppsInEdge c k) s = .next (restored s u) := by
  change execPpsInEdge c k s = _
  exact run_of_eq hb h

theorem edgeFor_monitor {ch : Nat} (h : ch < 4) (e : Edge) (s : State) : edgeFor ch e s = monitorStamp ch e s := if_pos h

theorem edgeFor_tin {ch : Nat} (h : 5 ≤ ch) (e : Edge) (s : State) :
    edgeFor ch e s = tinEdge ch e.stamp (rill (91 + (ch - 5)) 1 s) := by
  rw [edgeFor, if_neg (by omega), if_neg (by omega)]

theorem edgeFor_pps (e : Edge) (s : State) : edgeFor 4 e s = ppsStamp e s := by rfl

theorem timeWaiters_congr {s t : State} (h : t.slc = s.slc) : timeWaiters t = timeWaiters s := by
  rw [timeWaiters, h, ← timeWaiters]

theorem unitSt_congr {s t : State} (h : t.weir = s.weir) (u : Nat) : unitSt t u = unitSt s u := by
  rw [unitSt, h, ← unitSt]

theorem unitSt_restored (s u : State) (n : Nat) : unitSt (restored s u) n = unitSt u n := by rfl
theorem lch_restored (s u : State) (p : Nat) : lch (restored s u) p = lch u p := by rfl
theorem restored_tiu (s u : State) : (restored s u).tiu = u.tiu := by rfl
theorem tiuCtx_restored (s u : State) (m : Nat) : tiuCtx (restored s u) m = tiuCtx u m := by rfl
theorem hw_setLch (p : Nat) (x : Lch) (s : State) (a : Nat) : hw (setLch p x s) a = hw s a := by rfl

theorem lch_congr {s t : State} (h : t.lch = s.lch) (p : Nat) : lch t p = lch s p := by rw [lch, h, ← lch]

/-- PPS_IN takes the edges of its slope, and either where it takes both. -/
theorem takesEdge_pps {m : Nat → Word} (h : tiuSlope m 4 ≠ 0) :
    takesEdge (tiuSlope m 4) (decide (tiuSlope m 4 ≠ 2)) = true := by
  have hlt : tiuSlope m 4 < 4 := Nat.mod_lt _ (by decide)
  generalize tiuSlope m 4 = n at *
  match n, h, hlt with
  | 1, _, _ | 2, _, _ | 3, _, _ => decide

theorem tiuCh_edgeFor (ch : Nat) (e : Edge) (s : State) (q : Nat) : tiuCh (edgeFor ch e s) q = tiuCh s q := by
  rw [tiuCh, tiu_edgeFor, tiuCh]

/-! ### A stamp outside and inside the monitor's windows -/

section
variable {s w : State} {ch c : Nat} {e : Edge}

theorem stamped_stray (h : Stamped s ch c w) (hch : ch < 4) (hout : (lch s ch).shots.any (inWindow e.stamp) = false) :
    (edgeFor ch e w).lch = s.lch ∧
    hw (edgeFor ch e w) (lchA ch 0x58) = wd (Nat.min (2 ^ 32 - 1) ((hw s (lchA ch 0x58)).toNat + 1)) ∧
    bit (hw (edgeFor ch e w) (lchA ch 0x40)) 4 = true := by
  have hstray : lchA ch 0x58 = 0x30058 + 0x100 * ch := by unfold lchA; omega
  have hevents : lchA ch 0x40 = 0x30040 + 0x100 * ch := by unfold lchA; omega
  rw [edgeFor_monitor hch, monitorStamp_stray (by rwa [lch_congr h.lch]), hstray, hevents]
  refine ⟨by simp [h.lch], ?_, ?_⟩
  · rw [hw_raise_ne _ (by omega), addHold, hw_setHw_same, hw_rill_ne (by omega),
      h.words _ (by omega) (by unfold tiuA; omega)]
  · rw [hw_raise_same]
    exact bit_afterEvent _ _ (by decide)

theorem launchTaken_open {x : Shot} (hl : x.launch = none) (hin : inWindow e.stamp x = true) :
    (launchTaken e x).launch = some e.stamp ∧ (launchTaken e x).index = x.index := by
  rw [launchTaken, if_pos (by rw [hin, hl]; rfl)]
  exact ⟨rfl, rfl⟩

theorem stamped_launch (h : Stamped s ch c w) (hch : ch < 4) {x : Shot} (hx : (lch s ch).shots = [x])
    (hin : inWindow e.stamp x = true) : (lch (edgeFor ch e w) ch).shots = [launchTaken e x] ∧
      hw (edgeFor ch e w) (lchA ch 0x58) = hw s (lchA ch 0x58) := by
  have hshots : (lch w ch).shots = [x] := by rw [lch_congr h.lch, hx]
  have hany : (lch w ch).shots.any (inWindow e.stamp) = true := by
    rw [hshots]
    simp [hin]
  rw [edgeFor_monitor hch, monitorStamp_inside hany]
  constructor
  · rw [lch_setLch_same, hshots]
    rfl
  · rw [hw_setLch, hw_rill_ne (by unfold lchA; omega), h.words _ (by unfold lchA; omega) (by unfold lchA tiuA; omega)]

/-! ### A stamp of a TIN channel -/

theorem stamped_tin_tb (h : Stamped s ch c w) (hch : 5 ≤ ch) : (edgeFor ch e w).tb = s.tb := by
  rw [edgeFor_tin hch, tb_tinEdge, rill_tb, h.tb]

theorem stamped_tin_lch (h : Stamped s ch c w) (hch : 5 ≤ ch) : (edgeFor ch e w).lch = s.lch := by
  rw [edgeFor_tin hch, lch_tinEdge, rill_lch, h.lch]

theorem stamped_tin_unit (h : Stamped s ch c w) (hch : 5 ≤ ch) {u : Nat} (hu : u < 8) :
    unitSt (edgeFor ch e w) u = tinTaken (cfg s) ch (tinInstant e.stamp s) u (unitSt s u) := by
  have hcfg : cfg (rill (91 + (ch - 5)) 1 w) = cfg s := (cfg_congr (by simp) (by simp)).trans h.cfg
  rw [edgeFor_tin hch, unitSt_tinEdge hu, hcfg, unitSt_congr ((rill_weir ..).trans h.weir),
    tinInstant_congr ((rill_tb ..).trans h.tb) ((rill_cnt ..).trans h.cnt) ((rill_cnv ..).trans h.cnv) hcfg]

/-! ### A stamp of PPS_IN -/

theorem tickOf_congr {t : State} (h : t.cnt = s.cnt) (n : Nat) : tickOf t n = tickOf s n := by rw [tickOf, h, ← tickOf]

theorem stamped_pps_accepted (h : Stamped s 4 c w) (hacc : ppsAccepted (tickOf s e.c) s.tb.lastPps = true) :
    (edgeFor 4 e w).tb.lastPps = some (tickOf s e.c) := by
  rw [← h.tb, ← tickOf_congr h.cnt] at hacc
  rw [edgeFor_pps, ppsStamp_accepted hacc, ppsTaken_lastPps, ppsKept_tb, tickOf_congr h.cnt]

theorem stamped_pps_other (h : Stamped s 4 c w) (hacc : ppsAccepted (tickOf s e.c) s.tb.lastPps = true)
    (hwait : timeWaiters s = []) (hsrc : tbSource (cfg s) ≠ 2) :
    (edgeFor 4 e w).tb = { s.tb with lastPps := some (tickOf s e.c) } := by
  rw [← h.tb, ← tickOf_congr h.cnt] at hacc
  have hnone : timeWaiters (ppsKept e w) = [] := (timeWaiters_congr ((ppsNoted_slc ..).trans h.slc)).trans hwait
  have hother : tbSource (cfg (ppsKept e w)) ≠ 2 := by
    rwa [show cfg (ppsKept e w) = cfg s from (cfg_ppsNoted ..).trans h.cfg]
  rw [edgeFor_pps, ppsStamp_accepted hacc, ppsTaken_other hnone hother, ppsKept_tb, tickOf_congr h.cnt, h.tb]

theorem stamped_pps_rejected (h : Stamped s 4 c w) (hrej : ppsAccepted (tickOf s e.c) s.tb.lastPps = false) :
    (edgeFor 4 e w).tb = s.tb ∧ bit (hw (edgeFor 4 e w) 0x10140) 6 = true := by
  rw [← h.tb, ← tickOf_congr h.cnt] at hrej
  rw [edgeFor_pps, ppsStamp_rejected hrej, raise_tb, ppsNoted_tb, h.tb, hw_raise_same]
  exact ⟨rfl, bit_afterEvent _ _ (by decide)⟩

end

/-! ### A measurement that times out -/

/-- The entry of an interval without a stop (R157, R158). -/
def timeoutEntry (m : Nat) (a : Edge) (s : State) : FifoEntry :=
  { stamp := a.stamp, tqb := a.tqb, typ := 1, source := m + 16 * (ctxCfg (cfg s) m).stopCh, flags := a.flags ||| 2, value := 0,
    count := (tiuCtx s m).discNow, lost := 0 }

/-- The measurement is closed with its event. -/
def timeoutNoted (m : Nat) (s : State) : State :=
  raise 0x31600 6 (rill (100 + m) 1 (setTiuCtx m { tiuCtx s m with start := none, discNow := 0 } s))

theorem timeoutNoted_tiu (m : Nat) (s : State) :
    (timeoutNoted m s).tiu = (setTiuCtx m { tiuCtx s m with start := none, discNow := 0 } s).tiu := by
  rw [timeoutNoted, raise_tiu, rill_tiu]

theorem raised_timeoutNoted (m : Nat) (s : State) : Raised 0x31600 6 s (timeoutNoted m s) :=
  (raised_raise (rill (100 + m) 1 (setTiuCtx m { tiuCtx s m with start := none, discNow := 0 } s)) (by decide)).congr
    (hw_rill_ne (by decide) _) rfl

theorem ctxTimeout_interval {s : State} {m : Nat} {a : Edge} (ha : (tiuCtx s m).start = some a)
    (hmode : (ctxCfg (cfg s) m).mode ≠ 3) (hone : (ctxCfg (cfg s) m).nStat = 1) : ctxTimeout m s = fifoPush (timeoutEntry m a s) (timeoutNoted m s) := by
  rw [ctxTimeout, ha]
  dsimp only
  rw [if_neg hmode]
  exact if_pos hone

/-- An interval measurement whose window has passed, with room in the FIFO. -/
theorem exec_measurementTimeout {s : State} {m : Fin 4} {a : Edge} (hb : s.boot ≠ .held) (hmode : (ctxCfg (cfg s) m).mode ≠ 3)
    (hone : (ctxCfg (cfg s) m).nStat = 1) (ha : (tiuCtx s m).start = some a)
    (hwin : ((ctxCfg (cfg s) m).win : Int) ≤ coarseDiff s.cnt.coarse.toNat a.c) : exec (.measurementTimeout m) s =
      .next (restored s (fifoPush (timeoutEntry m a s) (timeoutNoted m s))) := by
  change execMeasurementTimeout m s = _
  refine run_of_eq hb ?_
  rw [ha]
  exact (if_pos hwin).trans (ctxTimeout_interval ha hmode hone)

end Sys2Proof.Machine
end

section
/-!
SETTLES. Edges of the TIU, PPS_IN and measurements that time out (O46).
-/

namespace Sys2Proof.Machine

/-- Settles O46: the contexts, which see the edge first, only append to the FIFO and leave what the stamp then meets as it
stood before the edge. -/
theorem tiuCommands : Obligations.TiuCommands := by
  unfold Obligations.TiuCommands
  refine ⟨fun s ch c k rising hb hpll hf hk htakes hd => ?taken, fun s ch c k rising hb hpll hf hk htakes hd => ?missed,
    fun s p c k rising hb hpll hf hk htakes hd => ⟨fun hstray => ?stray, fun x hx hl hin => ?launch⟩,
    fun s ch c k rising hb hpll hf hk htakes hd hch => ?tin, fun s c k hb hpll hf hslope hk hd => ?pps,
    fun s m a hb hmode hone ha hwin hroom => ?timeout⟩
  case taken =>
    obtain ⟨w, hw, hfifo, hstamp⟩ := edgeStamp_reaches ch.isLt hpll hf hk htakes hd
    refine ⟨_, exec_tiuEdgeStamp hb hstamp, ?_, ?_, ?_, ?_, fun q hq => ?_, fun hqueue hroom => ?_⟩
    · rw [hw_restored, hw_edgeFor (by unfold tiuA; omega) (by unfold tiuA; omega), hw.count]
    · exact (congrArg TiuCh.ready (tiuCh_edgeFor ..)).trans hw.ready
    · exact (congrArg TiuCh.inCal (tiuCh_edgeFor ..)).trans hw.inCal
    · exact (congrArg TiuCh.dead (tiuCh_edgeFor ..)).trans hw.dead
    · exact (tiuCh_edgeFor ..).trans (hw.others q hq)
    · rw [edgeQueued_fifo hqueue hroom] at hfifo
      obtain ⟨more, hmore⟩ := hfifo
      refine ⟨more, ?_⟩
      change (edgeFor ch (edgeOf s ch c k rising) w).tiu.fifo = _
      rw [tiu_edgeFor, ← hmore]
      rfl
  case missed =>
    have htake := aside_contextsTake ch rising false (edgeOf s ch c k rising) (addHold (tiuA ch 0x14) 1
      (setTiuCh ch { tiuCh s ch with missed := Nat.min (2 ^ 32 - 1) ((tiuCh s ch).missed + 1) } s))
    refine ⟨_, exec_tiuEdgeStamp hb (edgeStamp_missed hpll hf hk htakes hd), ?_, ?_, htake.tb, htake.lch⟩
    · rw [hw_restored, htake.words _ (by unfold tiuA; omega), addHold, hw_setHw_same]
      rfl
    · rw [hw_restored, htake.words _ (by unfold tiuA; omega), addHold, hw_setHw_ne _ (by unfold tiuA; omega)]
      rfl
  case stray =>
    obtain ⟨w, hw, -, hstamp⟩ := edgeStamp_reaches (ch := p) (by omega) hpll hf hk htakes hd
    exact ⟨_, exec_tiuEdgeStamp (ch := p.castLE (by decide)) hb hstamp, stamped_stray hw p.isLt hstray⟩
  case launch =>
    obtain ⟨w, hw, -, hstamp⟩ := edgeStamp_reaches (ch := p) (by omega) hpll hf hk htakes hd
    obtain ⟨hshots, hcount⟩ := stamped_launch hw p.isLt hx hin
    obtain ⟨hlaunch, hindex⟩ := launchTaken_open hl hin
    exact ⟨_, _, exec_tiuEdgeStamp (ch := p.castLE (by decide)) hb hstamp, hshots, hlaunch, hindex, hcount⟩
  case tin =>
    obtain ⟨w, hw, -, hstamp⟩ := edgeStamp_reaches ch.isLt hpll hf hk htakes hd
    refine ⟨_, exec_tiuEdgeStamp hb hstamp, stamped_tin_tb hw hch, stamped_tin_lch hw hch, fun u hu => ?_⟩
    rw [unitSt_restored, stamped_tin_unit hw hch hu]
    simp only [tinTaken, Bool.and_eq_true, decide_eq_true_eq]
    rfl
  case pps =>
    obtain ⟨w, hw, -, hstamp⟩ := edgeStamp_reaches (ch := 4) (by decide) hpll hf hk (takesEdge_pps hslope) hd
    obtain ⟨e, he, hc⟩ : ∃ e : Edge, edgeOf s 4 c k (decide (tiuSlope (cfg s) 4 ≠ 2)) = e ∧ e.c = c := ⟨_, rfl, rfl⟩
    rw [he] at hstamp
    refine ⟨_, exec_ppsInEdge hb hstamp, ?_⟩
    simp only [restored_tb, hw_restored, ← hc]
    refine ⟨?_, stamped_pps_accepted hw, stamped_pps_other hw, stamped_pps_rejected hw⟩
    rw [hw_edgeFor (by decide) (by decide), hw.count]
  case timeout =>
    have htiu := fifoPush_room (s := timeoutNoted m s) (by rwa [timeoutNoted_tiu]) (timeoutEntry m a s)
    rw [timeoutNoted_tiu] at htiu
    have hctx (q : Nat) : tiuCtx (fifoPush (timeoutEntry m a s) (timeoutNoted m s)) q =
        tiuCtx (setTiuCtx m { tiuCtx s m with start := none, discNow := 0 } s) q := by
      rw [tiuCtx, htiu]
      rfl
    refine ⟨_, { timeoutEntry m a s with lost := s.tiu.lost }, exec_measurementTimeout hb hmode hone ha hwin, ?_, fun q hq => ?_, ?_, rfl, rfl, rfl, rfl, ?_⟩
    · rw [tiuCtx_restored, hctx, tiuCtx_setTiuCtx_same]
    · rw [tiuCtx_restored, hctx, tiuCtx_setTiuCtx_ne _ hq]
    · rw [restored_tiu, htiu]
      rfl
    · refine (raised_timeoutNoted m s).congr rfl ?_
      rw [hw_restored, hw_fifoPush_room (by rwa [timeoutNoted_tiu]) (by decide)]

end Sys2Proof.Machine
end

section
/-!
REASONING. The operations of a converter (O48, O49): its events, the words of its block, a substitution, the retirement of a
slice, and a quick calibration that completes on the last converter.
-/

namespace Sys2Proof.Machine

/-! ### Events -/

theorem conv_congr {s t : State} (h : t.cnv = s.cnv) (k : Nat) : conv t k = conv s k := by rw [conv, h, ← conv]

section
variable (c slice e : Nat) (s : State)

@[simp] theorem cnvRaise_cnv : (cnvRaise c slice e s).cnv = s.cnv := by simp [cnvRaise]
@[simp] theorem cnvRaise_cmdQueued : (cnvRaise c slice e s).regs.cmdQueued = s.regs.cmdQueued := by simp [cnvRaise]

end

theorem bit_hw_cnvRaise {e : Nat} (he : e < 24) (c slice : Nat) (s : State) :
    bit (hw (cnvRaise c slice e s) 0x20040) e = true := by
  rw [cnvRaise, hw_raiseFrom_same]
  exact bit_afterEvent _ _ he

/-- An event of CNV_STS keeps the bits that are set. -/
theorem bit_hw_cnvRaise_of_bit {i : Nat} (hi : i < 24) {s : State} (h : bit (hw s 0x20040) i = true) (c slice e : Nat) :
    bit (hw (cnvRaise c slice e s) 0x20040) i = true := by
  rw [cnvRaise, hw_raiseFrom_same]
  exact bit_afterEvent_of_bit hi (by rwa [hw_setHw_ne _ (by decide)])

/-! ### Coefficients -/

theorem hw_loadCoef_gain (c slice : Nat) (m : SliceMeas) (s : State) : hw (loadCoef c slice m s) (cvA c (0x40 + 8 * slice)) =
    wd (satU 16 (rhe (2 ^ 47) (2 ^ 32 + m.gainErr).toNat)).toNat := by
  unfold loadCoef
  dsimp only
  rw [hw_setHw_ne _ (by unfold cvA; omega), hw_setHw_same]

/-- New coefficients change no word below those of the converter's slices. -/
theorem hw_loadCoef_below {c a : Nat} (h : a < cvA c 0x40) (slice : Nat) (m : SliceMeas) (s : State) :
    hw (loadCoef c slice m s) a = hw s a := by
  unfold cvA at h
  unfold loadCoef
  dsimp only
  rw [hw_setHw_ne _ (by unfold cvA; omega), hw_setHw_ne _ (by unfold cvA; omega)]

theorem cnt64_setConv (c : Nat) (x : Conv) (s : State) (a : Nat) : cnt64 (setConv c x s) a = cnt64 s a := by rfl

/-! ### A substitution -/

/-- A state without what a substitution writes: the converters, the shots and the register words. -/
def besideConvs (s : State) : State :=
  { s with lch := [], regs := { s.regs with hw := [] }, cnv := { s.cnv with convs := [] } }

section
variable {s t : State} (h : besideConvs t = besideConvs s)
include h

theorem cnt_of_besideConvs : t.cnt = s.cnt := (congrArg State.cnt h :)
theorem lgr_of_besideConvs : t.lgr = s.lgr := (congrArg State.lgr h :)
theorem active_of_besideConvs : t.regs.active = s.regs.active := (congrArg (fun u : State => u.regs.active) h :)
theorem cmdQueued_of_besideConvs : t.regs.cmdQueued = s.regs.cmdQueued :=
  (congrArg (fun u : State => u.regs.cmdQueued) h :)
theorem qcalOpen_of_besideConvs : t.cnv.qcalOpen = s.cnv.qcalOpen := (congrArg (fun u : State => u.cnv.qcalOpen) h :)

end

theorem besideConvs_setHw (a : Nat) (w : Word) (s : State) : besideConvs (setHw a w s) = besideConvs s := by rfl

theorem besideConvs_setCnt64 (a n : Nat) (s : State) : besideConvs (setCnt64 a n s) = besideConvs s := by rfl

theorem besideConvs_addCnt64 (a n : Nat) (s : State) : besideConvs (addCnt64 a n s) = besideConvs s := by
  unfold addCnt64
  split <;> rfl

theorem besideConvs_setConv (c : Nat) (x : Conv) (s : State) : besideConvs (setConv c x s) = besideConvs s := by rfl

theorem besideConvs_loadCoef (c slice : Nat) (m : SliceMeas) (s : State) :
    besideConvs (loadCoef c slice m s) = besideConvs s := by rfl

theorem shotsSub_eq (c q : Nat) (s : State) : ∃ lch, shotsSub c q s = { s with lch } := by
  unfold shotsSub
  dsimp only
  split
  · exact ⟨s.lch, rfl⟩
  · exact ⟨_, rfl⟩

theorem besideConvs_shotsSub (c q : Nat) (s : State) : besideConvs (shotsSub c q s) = besideConvs s := by
  obtain ⟨lch, h⟩ := shotsSub_eq c q s
  rw [h]
  rfl

/-- A substitution as the registers and the shots in progress record it (R126). -/
def subNoted (c q into : Nat) (quick : Bool) (s : State) : State :=
  let u := setHw (cvA c 0x18) (wd (q + 16 * into + 256 * (conv s c).pos.getD q 0 + 4096 * b2n quick)) (shotsSub c q s)
  addCnt64 (cvA c 8) 1 (setCnt64 (cvA c 0x10) (sliceIndex u) u)

theorem besideConvs_subNoted (c q into : Nat) (quick : Bool) (s : State) :
    besideConvs (subNoted c q into quick s) = besideConvs s := by
  unfold subNoted
  rw [besideConvs_addCnt64, besideConvs_setCnt64, besideConvs_setHw, besideConvs_shotsSub]

theorem cnv_subNoted (c q into : Nat) (quick : Bool) (s : State) : (subNoted c q into quick s).cnv = s.cnv := by
  obtain ⟨lch, h⟩ := shotsSub_eq c q s
  unfold subNoted
  rw [h, addCnt64_cnv]
  rfl

/-- A substitution writes the words from CNV_ROTATIONS to CNV_LAST_SUB of its converter. -/
theorem hw_subNoted {c a : Nat} (h : a < cvA c 8 ∨ cvA c 0x1C ≤ a) (q into : Nat) (quick : Bool) (s : State) :
    hw (subNoted c q into quick s) a = hw s a := by
  obtain ⟨lch, hshots⟩ := shotsSub_eq c q s
  unfold cvA at h
  unfold subNoted setCnt64
  dsimp only
  rw [hw_addCnt64_ne _ (by unfold cvA; omega) (by unfold cvA; omega), hw_setHw_ne _ (by unfold cvA; omega),
    hw_setHw_ne _ (by unfold cvA; omega), hw_setHw_ne _ (by unfold cvA; omega), hshots]
  rfl

theorem cnt64_subNoted (c q into : Nat) (quick : Bool) (s : State) :
    cnt64 (subNoted c q into quick s) (cvA c 8) = (cnt64 s (cvA c 8) + 1) % 2 ^ 64 := by
  obtain ⟨lch, hshots⟩ := shotsSub_eq c q s
  have hword {a : Nat} (ha : a < cvA c 0x10) (w : Word) (n : Nat) :
      hw (setCnt64 (cvA c 0x10) n (setHw (cvA c 0x18) w (shotsSub c q s))) a = hw s a := by
    unfold cvA at ha
    unfold setCnt64
    rw [hw_setHw_ne _ (by unfold cvA; omega), hw_setHw_ne _ (by unfold cvA; omega), hw_setHw_ne _ (by unfold cvA; omega),
      hshots]
    rfl
  unfold subNoted
  rw [cnt64_addCnt64_same, cnt64_congr (hword (by unfold cvA; omega) _ _) (hword (by unfold cvA; omega) _ _)]

/-- The converter after a substitution (R125). -/
def substituted (q into now : Nat) (x : Conv) : Conv :=
  { x with pos := x.pos.set q into, swaps := (ceilDiv now 32000, q, x.pos.getD q 0) :: x.swaps }

theorem substitute_eq (c q into : Nat) (quick : Bool) (s : State) : substitute c q into quick s =
    ((conv s c).pos.getD q 0, setConv c (substituted q into s.cnt.smp (conv s c)) (subNoted c q into quick s)) := by
  have hconv : conv (subNoted c q into quick s) c = conv s c := conv_congr (cnv_subNoted ..) c
  have hcnt : (subNoted c q into quick s).cnt = s.cnt := cnt_of_besideConvs (besideConvs_subNoted ..)
  have hsub : substitute c q into quick s = ((conv s c).pos.getD q 0,
      setConv c { conv (subNoted c q into quick s) c with
        pos := (conv s c).pos.set q into,
        swaps := (ceilDiv (subNoted c q into quick s).cnt.smp 32000, q, (conv s c).pos.getD q 0) :: (conv s c).swaps }
        (subNoted c q into quick s)) := by rfl
  rw [hsub, hconv, hcnt, substituted]

/-! ### The end of the spare's calibration -/

/-- The converter after its rotation has moved on (R125). -/
def rotated (sp now : Nat) (x : Conv) : Conv :=
  { substituted x.q sp now x with spare := some (x.pos.getD x.q 0), q := (x.q + 1) % 8, spareOk := false }

/-- What becomes of a state as the spare `sp` of converter `c` takes its coefficients and the next position. -/
structure Rotated (c sp : Nat) (m : SliceMeas) (s t : State) : Prop where
  conv : conv t c = rotated sp s.cnt.smp (conv s c)
  others : ∀ k, k ≠ c → Machine.conv t k = Machine.conv s k
  count : cnt64 t (cvA c 8) = (cnt64 s (cvA c 8) + 1) % 2 ^ 64
  gain : hw t (cvA c (0x40 + 8 * sp)) = wd (satU 16 (rhe (2 ^ 47) (2 ^ 32 + m.gainErr).toNat)).toNat
  beside : besideConvs t = besideConvs s

/-- A spare that passes its checks takes over the next position where no slice waits for a replacement (R125). -/
theorem spareEnd_rotates {c : Nat} {m : SliceMeas} {s : State} (hm : sliceCheck m = 0) (hf : (conv s c).faulty = [])
    (sp : Nat) (quick : Bool) : Rotated c sp m s (spareEnd c sp m quick s) := by
  have hend : spareEnd c sp m quick s = setConv c (rotated sp s.cnt.smp (conv s c))
      (setConv c (substituted (conv s c).q sp s.cnt.smp (conv s c)) (subNoted c (conv s c).q sp quick (loadCoef c sp m s))) := by
    have hnone : (conv (loadCoef c sp m s) c).faulty = [] := hf
    unfold spareEnd
    rw [if_pos hm]
    dsimp only
    rw [hnone]
    dsimp only
    rw [substitute_eq, conv_setConv_same]
    rfl
  rw [hend]
  refine ⟨conv_setConv_same .., fun k hk => ?_, ?_, ?_, ?_⟩
  · rw [conv_setConv_ne _ hk, conv_setConv_ne _ hk, conv_congr (cnv_subNoted ..)]
    rfl
  · rw [cnt64_setConv, cnt64_setConv, cnt64_subNoted,
      cnt64_congr (hw_loadCoef_below (by unfold cvA; omega) ..) (hw_loadCoef_below (by unfold cvA; omega) ..)]
  · rw [hw_setConv, hw_setConv, hw_subNoted (.inr (by unfold cvA; omega)), hw_loadCoef_gain]
  · rw [besideConvs_setConv, besideConvs_setConv, besideConvs_subNoted, besideConvs_loadCoef]

/-! ### A retirement -/

/-- One slice alone counts once at most among the nine. -/
theorem popcount_one_slice (f : Nat) : popcount 9 (BitVec.ofNat 9 (2 ^ f)).toNat < 2 := by
  by_cases h : f < 9
  · have hone : ∀ f < 9, popcount 9 (BitVec.ofNat 9 (2 ^ f)).toNat < 2 := by decide
    exact hone f h
  · have hzero : 2 ^ f % 2 ^ 9 = 0 := Nat.mod_eq_zero_of_dvd (pow_dvd_pow 2 (by omega))
    rw [BitVec.toNat_ofNat, hzero]
    decide

theorem wearAdd_cnv (kind cause gen index : Nat) (s : State) : (wearAdd kind cause gen index s).cnv = s.cnv := by
  unfold wearAdd otpDefer
  repeat' split
  all_goals simp

theorem hw_wearAdd {a : Nat} (h : a < 0xD0000) (kind cause gen index : Nat) (s : State) :
    hw (wearAdd kind cause gen index s) a = hw s a := by
  unfold wearAdd otpDefer
  split
  · exact hw_raise_ne _ (by omega) s
  · rw [hw_rill_ne (by omega)]
    split
    · rw [hw_raise_ne _ (by omega), addCnt, hw_setHw_ne _ (by omega)]
      rfl
    · rfl

/-- The converter with its first slice retired and no spare left (R129, R131). -/
def leftOnEight (f now : Nat) (x : Conv) : Conv :=
  { x with retired := BitVec.ofNat 9 (2 ^ f), eightAt := now, spare := none, spareOk := false }

/-- What becomes of a state as the converter `c` retires its first slice `f` for a cause and has no spare left. -/
structure LeftOnEight (c f cause : Nat) (s t : State) : Prop where
  conv : conv t c = leftOnEight f s.cnt.ticks (conv s c)
  cause : hw t (cvA c 0x24) = wd (cause + 16 * f)
  retired : bit (hw t 0x20040) 0 = true
  events : ∀ i < 24, bit (hw s 0x20040) i = true → bit (hw t 0x20040) i = true

theorem hw_putCnv (x : CnvSt) (s : State) (a : Nat) : hw { s with cnv := x } a = hw s a := by rfl

/-- The check of FG_LATE changes no converter, no event bit that is set, and no word of a converter. -/
theorem conv_fgLateCheck (p k : Nat) (s : State) : conv (fgLateCheck p s) k = conv s k :=
  congrArg Prod.fst (calView_fgLateCheck k p s)

theorem hw_fgLateCheck_off {a : Nat} (h : a ≠ 0x20040) (h' : a ≠ 0x20048) (p : Nat) (s : State) :
    hw (fgLateCheck p s) a = hw s a := by
  unfold fgLateCheck
  dsimp only
  split
  · exact hw_cnvRaise_off h h' ..
  · split <;> rfl

theorem bit_fgLateCheck_of_bit {i : Nat} (hi : i < 24) {s : State} (h : bit (hw s 0x20040) i = true) (p : Nat) :
    bit (hw (fgLateCheck p s) 0x20040) i = true := by
  unfold fgLateCheck
  dsimp only
  split
  · exact bit_hw_cnvRaise_of_bit hi (by rwa [hw_putCnv]) ..
  · split
    · rwa [hw_putCnv]
    · exact h

/-- The first retirement of a converter. -/
theorem retireSlice_first {c f cause : Nat} {s : State} (hr : (conv s c).retired = 0) (hf : (conv s c).faulty = []) :
    retireSlice c f cause s = cnvRaise c f 0 (setHw (cvA c 0x24) (wd (cause + 16 * f)) (wearAdd 1 cause 0 (f + 16 * c)
      (setConv c { conv s c with retired := BitVec.ofNat 9 (2 ^ f), eightAt := s.cnt.ticks } s))) := by
  have hret : (conv s c).retired ||| BitVec.ofNat 9 (2 ^ f) = BitVec.ofNat 9 (2 ^ f) := by rw [hr]; exact BitVec.zero_or
  have hfaulty : (conv s c).faulty.filter (· ≠ f) = (conv s c).faulty := by rw [hf]; rfl
  unfold retireSlice
  dsimp only
  rw [hret, hfaulty, if_neg]
  rw [conv_congr (cnvRaise_cnv ..), conv_congr (setHw_cnv ..), conv_congr (wearAdd_cnv ..), conv_setConv_same]
  exact fun h => absurd h.1 (Nat.not_le.mpr (popcount_one_slice f))

/-- The first retirement of a converter leaves it on eight slices (R129). -/
theorem spareGone_retireSlice {c f cause : Nat} {s : State} (hr : (conv s c).retired = 0) (hf : (conv s c).faulty = []) :
    LeftOnEight c f cause s (spareGone c (retireSlice c f cause s)) := by
  rw [retireSlice_first hr hf]
  generalize hu : cnvRaise c f 0 _ = u
  have hconv : conv u c = { conv s c with retired := BitVec.ofNat 9 (2 ^ f), eightAt := s.cnt.ticks } := by
    rw [← hu, conv_congr (cnvRaise_cnv ..), conv_congr (setHw_cnv ..), conv_congr (wearAdd_cnv ..), conv_setConv_same]
  have hcause : hw u (cvA c 0x24) = wd (cause + 16 * f) := by
    rw [← hu, hw_cnvRaise_off (by unfold cvA; omega) (by unfold cvA; omega), hw_setHw_same]
  have hevents : ∀ i < 24, bit (hw s 0x20040) i = true → bit (hw u 0x20040) i = true := fun i hi h => by
    rw [← hu]
    refine bit_hw_cnvRaise_of_bit hi ?_ ..
    rw [hw_setHw_ne _ (by unfold cvA; omega), hw_wearAdd (by decide)]
    exact h
  have hbit : bit (hw u 0x20040) 0 = true := by
    rw [← hu]
    exact bit_hw_cnvRaise (by decide) ..
  unfold spareGone
  dsimp only
  generalize hv : setConv c { conv u c with spare := none, spareOk := false } u = v
  have hleft : conv v c = leftOnEight f s.cnt.ticks (conv s c) := by rw [← hv, conv_setConv_same, hconv, leftOnEight]
  have hwords : ∀ a, hw v a = hw u a := fun a => by rw [← hv, hw_setConv]
  have hnone : (conv v c).faulty = [] := by rw [hleft]; exact hf
  rw [hnone, each, List.foldl_nil]
  rw [← hwords] at hcause hbit
  simp only [← hwords] at hevents
  split
  · exact ⟨(conv_fgLateCheck ..).trans hleft,
      (hw_fgLateCheck_off (by unfold cvA; omega) (by unfold cvA; omega) ..).trans hcause,
      bit_fgLateCheck_of_bit (by decide) hbit _, fun i hi h => bit_fgLateCheck_of_bit hi (hevents i hi h) _⟩
  · exact ⟨hleft, hcause, hbit, hevents⟩

/-! ### A quick calibration that completes -/

theorem smGet_map_filter {α : Type} [DecidableEq α] {d : α} {f : α → α} {k : Nat} {m : SMap α} (h : smGet d k m ≠ d)
    (hf : f (smGet d k m) ≠ d) :
    smGet d k ((m.map fun e => (e.1, f e.2)).filter fun e => decide (e.2 ≠ d)) = f (smGet d k m) := by
  induction m with
  | nil => exact absurd rfl h
  | cons e m ih =>
    obtain ⟨j, v⟩ := e
    by_cases hj : j = k
    · subst hj
      simp only [smGet, if_true] at hf ⊢
      simp [hf, smGet]
    · simp only [smGet, if_neg hj] at h hf ⊢
      rw [← ih h hf, List.map_cons, List.filter_cons]
      split
      · simp only [smGet, if_neg hj]
      · rfl

theorem flightsDone_cnv (s : State) : (flightsDone s).cnv = s.cnv := by
  refine each_keeps State.cnv (fun f s => ?_) _
  dsimp only
  split <;> simp

theorem hw_flightsDone_off {a : Nat} (h : a ≠ 0x10) (ha : offLedger a) (s : State) : hw (flightsDone s) a = hw s a := by
  refine each_keeps (hw · a) (fun f s => ?_) _
  simp only [hw_ite, hw_answer_off ha, hw_raise_ne _ h, ite_self]

/-- A converter whose lane carries samples again after the calibration of R119. -/
def lit (now : Nat) (x : Conv) : Conv := { x with dark := false, lightPos := if x.dark then now else x.lightPos }

/-- The array after a quick calibration that has completed on every converter it covered. -/
def calOver (now : Nat) (x : CnvSt) : CnvSt :=
  { x with convs := (x.convs.map fun e => (e.1, lit now e.2)).filter fun e => decide (e.2 ≠ {}),
           qcalOpen := false, modeCal := false }

/-- A quick calibration that has completed on every converter it covered is over, and QCAL_DONE is set (R127). -/
theorem qcalFinish_over {again : State → State} {s : State} (hopen : s.cnv.qcalOpen = true)
    (hall : ∀ k < 16, (conv s k).qcal = none) (hq : (0x20044, 0) ∉ s.regs.cmdQueued) (c : Nat) :
    (qcalFinish again c s).cnv = calOver s.cnt.smp s.cnv ∧ bit (hw (qcalFinish again c s) 0x20040) 5 = true := by
  have hdone : (s.cnv.qcalOpen && (List.range 16).all fun k => (conv s k).qcal.isNone) = true := by
    rw [hopen, Bool.true_and]
    exact List.all_eq_true.mpr fun k hk => by rw [hall k (List.mem_range.mp hk)]; rfl
  unfold qcalFinish
  rw [if_pos hdone]
  extract_lets up light _ s1 s2 s3 _ s4
  have h2 : s2.cnv = calOver s.cnt.smp s.cnv := cnvRaise_cnv ..
  have hbit2 : bit (hw s2 0x20040) 5 = true := bit_hw_cnvRaise (by decide) ..
  have hq2 : (0x20044, 0) ∉ s2.regs.cmdQueued := by rwa [show s2.regs.cmdQueued = s.regs.cmdQueued from cnvRaise_cmdQueued ..]
  have h3 : s3.cnv = s2.cnv ∧ hw s3 0x20040 = hw s2 0x20040 := by
    simp only [s3]
    split
    · rw [cmdDone_of_not_queued hq2]
      exact ⟨rfl, hw_setHw_ne _ (by decide) _⟩
    · exact ⟨rfl, rfl⟩
  have h4 : s4.cnv = s3.cnv ∧ hw s4 0x20040 = hw s3 0x20040 := by
    simp only [s4]
    split <;> exact ⟨rfl, rfl⟩
  refine ⟨?_, ?_⟩
  · rw [flightsDone_cnv, h4.1, h3.1, h2]
  · rw [hw_flightsDone_off (by decide) (by decide), h4.2, h3.2]
    exact hbit2

end Sys2Proof.Machine
end

section
/-!
SETTLES. The end of a rotation period and of a step of a quick calibration (O48, R120, R123, R125, R127, R129).
-/

namespace Sys2Proof.Machine

theorem conv_restored (s u : State) (k : Nat) : conv (restored s u) k = conv u k := by rfl

/-! ### ROTATION_PERIOD_END -/

section
variable {s : State} {c : Fin 16} {m : SliceMeas} {sp : Nat} (hb : s.boot ≠ .held) (hsp : (conv s c).spare = some sp)
include hb hsp

/-- A rotation period that is over ends with the spare's calibration, and the next one starts (R124). -/
theorem exec_rotationPeriodEnd (hon : (conv s c).on = true) (hq : (conv s c).qcal = none) (hclk : s.clk.stopped = false)
    (hdue : (conv s c).rotStart + rotLen (cfg s) ≤ s.cnt.smp) : exec (.rotationPeriodEnd c m) s = .next (restored s
      (spareEnd c sp m false (setConv c { conv s c with rotStart := (conv s c).rotStart + rotLen (cfg s) } s))) := by
  change execRotationPeriodEnd c m s = _
  refine run_of_eq hb ?_
  dsimp only
  rw [hsp]
  exact if_pos (by simp [hon, hq, hclk, hdue])

/-! ### QCAL_STEP_END -/

/-- A step of a quick calibration that is over, where its substitution leaves nine slices: the next step begins, or the
calibration of the converter is over (R127). -/
theorem exec_qcalStepEnd {k : Nat} {u : State} (hq : (conv s c).qcal = some k) (hwin : (conv s c).qcalWin = false)
    (hclk : s.clk.stopped = false) (hdue : (conv s c).stepStart + stepLen (cfg s) ≤ s.cnt.smp)
    (hu : spareEnd c sp m true s = u) (hf : (conv u c).failed = false) (hr : (conv u c).retired = 0) :
    exec (.qcalStepEnd c m) s = .next (restored s
      (if k + 1 < 9 then setConv c { conv u c with qcal := some (k + 1), stepStart := u.cnt.smp } u
       else qcalCheck c (qcalEnd c (setConv c { conv u c with spareOk := true } u)))) := by
  have hnine : onEight (conv u c) = false := by
    rw [onEight, hr, show popcount 9 (0 : BitVec 9).toNat = 0 from rfl]
    exact Bool.and_false _
  change execQcalStepEnd c m s = _
  refine run_of_eq hb ?_
  dsimp only
  rw [hq, hsp]
  dsimp only
  rw [if_neg (by simp [hwin, hclk, hdue]), hu, if_neg (by simp [hf]), if_neg (by simp [hnine])]

end

/-- The converter whose quick calibration is over (R127). -/
def calibrated (now : Nat) (mode : Bool) (x : Conv) : Conv :=
  { x with spareOk := true, qcal := none, qcalWin := false, dark := mode, rotStart := now,
           lightPos := if x.dark && !mode then now else x.lightPos }

theorem conv_qcalEnd_same (c : Nat) (u : State) : conv (qcalEnd c (setConv c { conv u c with spareOk := true } u)) c =
    calibrated u.cnt.smp u.cnv.modeCal (conv u c) := by
  unfold qcalEnd
  dsimp only
  rw [conv_setConv_same, conv_setConv_same]
  rfl

theorem conv_qcalEnd_ne {c k : Nat} (h : k ≠ c) (x : Conv) (u : State) :
    conv (qcalEnd c (setConv c x u)) k = conv u k := by
  unfold qcalEnd
  rw [conv_setConv_ne _ h, conv_setConv_ne _ h]

/-- Where the last converter completes, the quick calibration is over (R127). -/
theorem qcalCheck_last {c : Nat} {u t : State} (hopen : u.cnv.qcalOpen = true) (hq : u.regs.cmdQueued = [])
    (hothers : ∀ k < 16, k ≠ c → (conv u k).qcal = none)
    (ht : qcalCheck c (qcalEnd c (setConv c { conv u c with spareOk := true } u)) = t) :
    conv t c = lit u.cnt.smp (calibrated u.cnt.smp u.cnv.modeCal (conv u c)) ∧ t.cnv.qcalOpen = false ∧
      t.cnv.modeCal = false ∧ bit (hw t 0x20040) 5 = true := by
  generalize hv : qcalEnd c (setConv c { conv u c with spareOk := true } u) = v at ht
  have hconv : conv v c = calibrated u.cnt.smp u.cnv.modeCal (conv u c) := by rw [← hv, conv_qcalEnd_same]
  have hnone : ∀ k < 16, (conv v k).qcal = none := fun k hk => by
    by_cases hkc : k = c
    · subst hkc
      rw [hconv, calibrated]
    · rw [← hv, conv_qcalEnd_ne hkc]
      exact hothers k hk hkc
  have hcnt : v.cnt.smp = u.cnt.smp := by rw [← hv]; rfl
  have hopen' : v.cnv.qcalOpen = true := by rw [← hv]; exact hopen
  have hqueue : (0x20044, 0) ∉ v.regs.cmdQueued := by
    rw [show v.regs.cmdQueued = [] by rw [← hv]; exact hq]
    exact List.not_mem_nil
  obtain ⟨hcnv, hbit⟩ := qcalFinish_over (again := fun s => qcalFinish id c (qcalAgain s)) hopen' hnone hqueue c
  rw [show qcalFinish (fun s => qcalFinish id c (qcalAgain s)) c v = t from ht] at hcnv hbit
  have hok : (conv v c).spareOk = true := by rw [hconv, calibrated]
  refine ⟨?_, by rw [hcnv, calOver], by rw [hcnv, calOver], hbit⟩
  rw [← hconv, ← hcnt, conv, hcnv]
  exact smGet_map_filter (f := lit v.cnt.smp) (fun h => by rw [conv, h] at hok; exact Bool.noConfusion hok)
    (fun h => by
      have : (lit v.cnt.smp (conv v c)).spareOk = true := hok
      rw [conv, h] at this
      exact Bool.noConfusion this)

/-- Settles O48: a spare that passes takes its place in one and the same way at the end of a period and of a step; one that
fails is the first slice the converter retires. -/
theorem rotation : Obligations.Rotation := by
  unfold Obligations.Rotation
  refine ⟨fun s c m sp hb hsp hon hq hclk hdue hm hf => ?passes, fun s c m sp hb hsp hon hq hclk hdue hm hf hr => ?fails,
    fun s c m sp k hb hsp hq hk hwin hfail hr hclk hdue hm hf => ?step,
    fun s c m sp hb hsp hq hwin hfail hr hclk hdue hm hf hqueue hopen hothers => ?last⟩
  case passes =>
    have hexec := exec_rotationPeriodEnd (m := m) hb hsp hon hq hclk hdue
    generalize hw : setConv c _ s = w at hexec
    have hconv : conv w c = { conv s c with rotStart := (conv s c).rotStart + rotLen (cfg s) } := by
      rw [← hw, conv_setConv_same]
    obtain ⟨hc, hothers, hcount, hgain, hbeside⟩ := spareEnd_rotates hm (by rw [hconv]; exact hf) sp false (s := w)
    rw [hconv] at hc
    refine ⟨_, hexec, ?_, ?_, ?_, ?_, ?_, ?_, ?_, fun k hk => ?_, ?_, ?_⟩
    · rw [conv_restored, hc]; rfl
    · rw [conv_restored, hc]; rfl
    · rw [conv_restored, hc]; rfl
    · rw [conv_restored, hc]; rfl
    · rw [conv_restored, hc]; rfl
    · rw [cnt64_restored, hcount, ← hw, cnt64_setConv]
    · rw [hw_restored, hgain]
    · rw [conv_restored, hothers k hk, ← hw, conv_setConv_ne _ hk]
    · rw [restored_regs, active_of_besideConvs hbeside, ← hw]; rfl
    · rw [restored_lgr, lgr_of_besideConvs hbeside, ← hw]; rfl
  case fails =>
    have hexec := exec_rotationPeriodEnd (m := m) hb hsp hon hq hclk hdue
    generalize hw : setConv c _ s = w at hexec
    have hconv : conv w c = { conv s c with rotStart := (conv s c).rotStart + rotLen (cfg s) } := by
      rw [← hw, conv_setConv_same]
    have hend : spareEnd c sp m false w = spareGone c (retireSlice c sp (sliceCheck m) w) := if_neg hm
    obtain ⟨hc, hcause, hbit, -⟩ := spareGone_retireSlice (c := c) (f := sp) (cause := sliceCheck m) (s := w)
      (by rw [hconv]; exact hr) (by rw [hconv]; exact hf)
    rw [hconv] at hc
    rw [hend] at hexec
    refine ⟨_, hexec, ?_, ?_, ?_, ?_, (hw_restored ..).trans hcause, by rwa [hw_restored]⟩
    · rw [conv_restored, hc]; rfl
    · rw [conv_restored, hc]; rfl
    · rw [conv_restored, hc]; rfl
    · rw [conv_restored, hc]; rfl
  case step =>
    obtain ⟨hc, hothers, -, -, hbeside⟩ := spareEnd_rotates hm hf sp true
    have hexec := exec_qcalStepEnd (m := m) hb hsp hq hwin hclk hdue rfl (by rw [hc]; exact hfail) (by rw [hc]; exact hr)
    rw [if_pos hk, cnt_of_besideConvs hbeside, hc] at hexec
    refine ⟨_, hexec, ?_, ?_, ?_, fun j hj => ?_⟩
    · rw [conv_restored, conv_setConv_same]
    · rw [conv_restored, conv_setConv_same]
    · rw [conv_restored, conv_setConv_same]; rfl
    · rw [conv_restored, conv_setConv_ne _ hj, hothers j hj]
  case last =>
    obtain ⟨hc, hothers', -, -, hbeside⟩ := spareEnd_rotates hm hf sp true
    have hexec := exec_qcalStepEnd (m := m) hb hsp hq hwin hclk hdue rfl (by rw [hc]; exact hfail) (by rw [hc]; exact hr)
    rw [if_neg (by decide)] at hexec
    obtain ⟨hlast, hopen', hmode, hbit⟩ := qcalCheck_last (c := c) (u := spareEnd c sp m true s)
      (by rw [qcalOpen_of_besideConvs hbeside, hopen]) (by rw [cmdQueued_of_besideConvs hbeside, hqueue])
      (fun k hk hkc => by rw [hothers' k hkc]; exact hothers k hk hkc) rfl
    refine ⟨_, hexec, ?_, ?_, ?_, ?_, hopen', hmode, by rwa [hw_restored]⟩
    · rw [conv_restored, hlast, lit, calibrated]
    · rw [conv_restored, hlast, lit, calibrated]
    · rw [conv_restored, hlast, lit]
    · rw [conv_restored, hlast, lit, calibrated, cnt_of_besideConvs hbeside]

end Sys2Proof.Machine
end

section
/-!
REASONING. The checks of a converter (O49): a slice that fails in service, foreground windows, and what the samples of a notice
leave alone.
-/

namespace Sys2Proof.Machine

/-! ### A slice fails in service -/

/-- SLICE_FAULT of slice `f` at the start of the block (R130). -/
def sliceFault (c f : Nat) (start : Stamp) (s : State) : State :=
  raiseAt start (tqb s) c 0x20040 4 (setHw 0x20048 (wd (c + 16 * f)) s)

theorem sliceFault_cnv (c f : Nat) (start : Stamp) (s : State) : (sliceFault c f start s).cnv = s.cnv := by
  simp [sliceFault]

theorem sliceFault_cnt (c f : Nat) (start : Stamp) (s : State) : (sliceFault c f start s).cnt = s.cnt := by
  simp [sliceFault]

theorem cfg_sliceFault (c f : Nat) (start : Stamp) (s : State) : cfg (sliceFault c f start s) = cfg s :=
  cfg_congr (by simp [sliceFault]) (by simp [sliceFault])

theorem bit_sliceFault (c f : Nat) (start : Stamp) (s : State) : bit (hw (sliceFault c f start s) 0x20040) 4 = true := by
  rw [sliceFault, hw_raiseAt_same]
  exact bit_afterEvent _ _ (by decide)

theorem sparePassed_sliceFault (c f : Nat) (start : Stamp) (m : Option SliceMeas) (s : State) :
    sparePassed (sliceFault c f start s) c m = sparePassed s c m := by
  unfold sparePassed
  rw [conv_congr (sliceFault_cnv ..), sliceFault_cnt, cfg_sliceFault]

/-- In the second half of a rotation period a spare whose measurement passes its checks has passed (R124, R130). -/
theorem sparePassed_of_check {s : State} {c : Nat} {v : SliceMeas} (hq : (conv s c).qcal = none)
    (hdue : (conv s c).rotStart + rotLen (cfg s) / 2 ≤ s.cnt.smp) (hv : sliceCheck v = 0) :
    sparePassed s c (some v) = some v := by
  unfold sparePassed
  dsimp only
  rw [if_pos ⟨by rw [hq]; rfl, hdue⟩, Option.filter_some, if_pos (decide_eq_true hv)]

/-- The state in which the spare takes over from slice `f`, and what of it matters. -/
structure FaultNoted (c : Nat) (s w : State) : Prop where
  conv : conv w c = Machine.conv s c
  event : bit (hw w 0x20040) 4 = true

theorem faultNoted_sliceFault (c f : Nat) (start : Stamp) (s : State) : FaultNoted c s (sliceFault c f start s) :=
  ⟨conv_congr (sliceFault_cnv ..) c, bit_sliceFault c f start s⟩

theorem FaultNoted.loadCoef {c : Nat} {s w : State} (h : FaultNoted c s w) (slice : Nat) (m : SliceMeas) :
    FaultNoted c s (loadCoef c slice m w) :=
  ⟨h.conv, by rw [hw_loadCoef_below (by unfold cvA; omega)]; exact h.event⟩

section
variable {s : State} {c q sp : Nat} {m : Option SliceMeas} (start : Stamp) (hsp : (conv s c).spare = some sp)
include hsp

/-- A spare that has passed in the quick calibration takes over from a slice that fails (R130). -/
theorem iscFail_of_spareOk (hok : (conv s c).spareOk = true) : iscFail c q m start s =
    replaceFaulty c ((conv s c).pos.getD q 0) sp (conv s c).qcal.isSome
      (sliceFault c ((conv s c).pos.getD q 0) start s) := by
  unfold iscFail
  dsimp only
  rw [hsp]
  dsimp only
  rw [if_pos hok, sliceFault]

/-- A spare that has passed in the present rotation period takes its coefficients, and takes over (R130). -/
theorem iscFail_of_passed {v : SliceMeas} (hok : (conv s c).spareOk = false) (hpass : sparePassed s c m = some v) :
    iscFail c q m start s = replaceFaulty c ((conv s c).pos.getD q 0) sp (conv s c).qcal.isSome
      (loadCoef c sp v (sliceFault c ((conv s c).pos.getD q 0) start s)) := by
  have hpass' := (sparePassed_sliceFault c ((conv s c).pos.getD q 0) start m s).trans hpass
  unfold sliceFault at hpass'
  unfold iscFail
  dsimp only
  rw [hsp]
  dsimp only
  rw [if_neg (by simp [hok]), hpass', sliceFault]

/-- A slice that fails before the spare has passed waits for it (R130). -/
theorem iscFail_of_not_passed (hok : (conv s c).spareOk = false) (hpass : sparePassed s c m = none)
    (hnew : (conv s c).pos.getD q 0 ∉ (conv s c).faulty) : iscFail c q m start s =
      setConv c { conv s c with faulty := (conv s c).faulty ++ [(conv s c).pos.getD q 0] }
        (sliceFault c ((conv s c).pos.getD q 0) start s) := by
  have hconv : conv (sliceFault c ((conv s c).pos.getD q 0) start s) c = conv s c := conv_congr (sliceFault_cnv ..) c
  have hpass' := (sparePassed_sliceFault c ((conv s c).pos.getD q 0) start m s).trans hpass
  unfold sliceFault at hpass' hconv
  unfold iscFail
  dsimp only
  rw [hsp]
  dsimp only
  rw [if_neg (by simp [hok]), hpass']
  dsimp only
  rw [if_neg hnew, hconv, sliceFault, hsp]

end

/-- Either way a spare that has passed takes over after the fault is noted. -/
theorem iscFail_replaces {s : State} {c q sp : Nat} {m : Option SliceMeas} (start : Stamp)
    (hsp : (conv s c).spare = some sp) (hq : (conv s c).qcal = none) (hpass : (conv s c).spareOk = true ∨
      ∃ v, m = some v ∧ sliceCheck v = 0 ∧ (conv s c).rotStart + rotLen (cfg s) / 2 ≤ s.cnt.smp) :
    ∃ w, FaultNoted c s w ∧
      iscFail c q m start s = replaceFaulty c ((conv s c).pos.getD q 0) sp (conv s c).qcal.isSome w := by
  have hnoted := faultNoted_sliceFault c ((conv s c).pos.getD q 0) start s
  cases hok : (conv s c).spareOk with
  | true => exact ⟨_, hnoted, iscFail_of_spareOk start hsp hok⟩
  | false =>
    obtain ⟨v, rfl, hv, hdue⟩ := hpass.resolve_left (by simp [hok])
    exact ⟨_, hnoted.loadCoef sp v, iscFail_of_passed start hsp hok (sparePassed_of_check hq hdue hv)⟩

/-- The first slice that fails in service gives its place to the spare and is retired (R129, R130). -/
theorem replaceFaulty_leaves {c f into : Nat} {w : State} (hr : (conv w c).retired = 0) (hf : (conv w c).faulty = [])
    (quick : Bool) : ∃ now now', conv (replaceFaulty c f into quick w) c =
        leftOnEight f now (substituted ((conv w c).pos.findIdx (· = f)) into now' (conv w c)) ∧
      bit (hw (replaceFaulty c f into quick w) 0x20040) 0 = true ∧
      ∀ i < 24, bit (hw w 0x20040) i = true → bit (hw (replaceFaulty c f into quick w) 0x20040) i = true := by
  unfold replaceFaulty
  dsimp only
  rw [substitute_eq]
  dsimp only
  generalize hu : setConv c _ _ = u
  have hconv : conv u c = substituted ((conv w c).pos.findIdx (· = f)) into w.cnt.smp (conv w c) := by
    rw [← hu, conv_setConv_same]
  have hword : hw u 0x20040 = hw w 0x20040 := by rw [← hu, hw_setConv, hw_subNoted (.inl (by unfold cvA; omega))]
  obtain ⟨hleft, -, hbit, hevents⟩ := spareGone_retireSlice (c := c) (f := f) (cause := 5) (s := u)
    (by rw [hconv]; exact hr) (by rw [hconv]; exact hf)
  rw [hconv] at hleft
  exact ⟨_, _, hleft, hbit, fun i hi h => hevents i hi (by rwa [hword])⟩

section
variable {s : State} {c : Fin 16} {l : List PosStat} {st : Stamp} {m : Option SliceMeas} (hb : s.boot ≠ .held)
include hb

/-- A block in which no position fails (R130). -/
theorem exec_iscBlockEnd_clean (hl : iscFailed l = []) (hq : (conv s c).qcal = none) :
    exec (.iscBlockEnd c l st m) s = .next s := by
  change execIscBlockEnd c l st m s = _
  refine run_of_eq hb ?_
  dsimp only
  rw [hl, each, List.foldl_nil, hq]
  exact ite_self s

/-- A block in which one position fails. -/
theorem exec_iscBlockEnd_one {q : Nat} {u : State} (hen : cfgB s 0x20008 31 = true) (hon : (conv s c).on = true)
    (hwin : (conv s c).inWindow = false) (hclk : s.clk.stopped = false) (hlen : l.length = 8) (hl : iscFailed l = [q])
    (hu : iscFail c q m st s = u) (hq : (conv u c).qcal = none) :
    exec (.iscBlockEnd c l st m) s = .next (restored s u) := by
  have hgo : (bit (cfg s 0x20008) 31 && (conv s c).on && !(conv s c).inWindow && !s.clk.stopped && decide (l.length = 8)) = true := by
    rw [show bit (cfg s 0x20008) 31 = true from hen, hon, hwin, hclk, hlen]
    rfl
  change execIscBlockEnd c l st m s = _
  refine run_of_eq hb ?_
  dsimp only
  rw [if_pos hgo, hl, each, List.foldl_cons, List.foldl_nil, if_pos hon, hu, hq]
  rfl

end

/-! ### Foreground windows -/

/-- The window that R133 places opens on a converter (R134). -/
theorem exec_fgWindowStart {s : State} {c : Fin 16} {p a : Nat} (hb : s.boot ≠ .held) (h8 : onEight (conv s c) = true)
    (hwin : (conv s c).inWindow = false) (hclk : s.clk.stopped = false)
    (hp : portOfLane (cfg s) (laneOfConv (cfg s) c) = some p) (ha : fgPlace s p = some a) (hnew : (conv s c).fgFrom ≠ a) :
    exec (.fgWindowStart c) s = .next (restored s (windowStart c (setConv c { conv s c with fgFrom := a } s))) := by
  change execFgWindowStart c s = _
  refine run_of_eq hb ?_
  dsimp only
  rw [hp, Option.bind_some, ha]
  exact if_pos (by simp [h8, hwin, hclk, hnew])

/-- A state with other register words. -/
def withHw (m : SMap Word) (s : State) : State := { s with regs := { s.regs with hw := m } }

/-- The coefficients of slices are register words above those that count the windows. -/
theorem coefs_eq (c : Nat) (l : List (Nat × SliceMeas)) (s : State) :
    ∃ m, each l (fun e s => loadCoef c e.1 e.2 s) s = withHw m s ∧ ∀ a < cvA c 0x40, imageGet m a = hw s a := by
  refine each_induction (P := fun t => ∃ m, t = withHw m s ∧ ∀ a < cvA c 0x40, imageGet m a = hw s a)
    (fun e _ t ht => ?_) ⟨s.regs.hw, rfl, fun _ _ => rfl⟩
  obtain ⟨m, rfl, hlow⟩ := ht
  exact ⟨_, rfl, fun a ha => (hw_loadCoef_below ha ..).trans (hlow a ha)⟩

/-- With no start queued FG_CAL completes by its bit alone (R37). -/
theorem fgCalCheck_eq {again : State → State} {s : State} (hq : (0x20044, 1) ∉ s.regs.cmdQueued) :
    ∃ m, fgCalCheck again s = withHw m s ∧ ∀ a, a ≠ 0x20044 → imageGet m a = hw s a := by
  unfold fgCalCheck
  split
  · rw [cmdDone_of_not_queued hq]
    exact ⟨_, rfl, fun a ha => hw_setHw_ne _ ha s⟩
  · exact ⟨s.regs.hw, rfl, fun _ _ => rfl⟩

/-- The converter after a window in which no slice failed (R134). -/
def afterWindow (now : Nat) (x : Conv) : Conv := { x with inWindow := false, fgWant := false, fgDone := now }

/-- The state with the coefficients in place, the converter back from its window and the window counted. -/
def windowCounted (c : Nat) (s : State) : State :=
  setConv c (afterWindow s.cnt.ticks (conv s c)) (addCnt (cvA c 0x20) 1 s)

theorem qcalWin_windowCounted (c : Nat) (s : State) : (conv (windowCounted c s) c).qcalWin = (conv s c).qcalWin := by
  rw [windowCounted, conv_setConv_same, afterWindow]

theorem hw_windowCounted (c : Nat) (s : State) : hw (windowCounted c s) (cvA c 0x20) = hw s (cvA c 0x20) + 1 := by
  rw [windowCounted, hw_setConv, addCnt, hw_setHw_same]
  rfl

/-- A foreground window ends, its slices having passed: their coefficients, the count, and FG_CAL (R134). -/
theorem exec_fgWindowEnd {s : State} {c : Fin 16} {ms : List SliceMeas} (hb : s.boot ≠ .held)
    (hwin : (conv s c).inWindow = true) (hcal : (conv s c).qcalWin = false) (hover : windowOver s (conv s c) = true)
    (hq : s.regs.cmdQueued = []) (hms : ∀ m ∈ ms, sliceCheck m = 0) : ∃ m,
      exec (.fgWindowEnd c ms) s = .next (withHw m (setConv c (afterWindow s.cnt.ticks (conv s c)) s)) ∧
      imageGet m (cvA c 0x20) = hw s (cvA c 0x20) + 1 := by
  have hnone : ((conv s c).pos.zip ms).filter (fun e => decide (sliceCheck e.2 ≠ 0)) = [] :=
    List.filter_eq_nil_iff.mpr fun e he => by simp [hms e.2 (List.of_mem_zip he).2]
  obtain ⟨m1, hcoefs, hlow⟩ := coefs_eq c (((conv s c).pos.zip ms).filter fun e => decide (sliceCheck e.2 = 0)) s
  have hcount : hw (windowCounted c (withHw m1 s)) (cvA c 0x20) = hw s (cvA c 0x20) + 1 :=
    (hw_windowCounted ..).trans (congrArg (· + 1) (hlow _ (by unfold cvA; omega)))
  obtain ⟨m2, hcheck, hkeep⟩ := fgCalCheck_eq (again := fgCalCommand) (s := windowCounted c (withHw m1 s)) (by
    rw [show (windowCounted c (withHw m1 s)).regs.cmdQueued = [] from hq]
    exact List.not_mem_nil)
  refine ⟨m2, ?_, (hkeep _ (by unfold cvA; omega)).trans hcount⟩
  change execFgWindowEnd c ms s = _
  refine run_of_eq (u := withHw m2 (windowCounted c (withHw m1 s))) hb ?_
  dsimp only
  rw [if_pos (by rw [hwin, hover]; rfl), hcoefs, hnone]
  change fgCalCheck fgCalCommand (if (conv (windowCounted c (withHw m1 s)) c).qcalWin then _
    else windowCounted c (withHw m1 s)) = _
  rw [qcalWin_windowCounted, show (conv (withHw m1 s) c).qcalWin = false from hcal]
  exact hcheck

end Sys2Proof.Machine
end

section
/-!
REASONING. What the samples of a notice leave alone (O49): `noticeView` reads off a state what R403 asks of INPUT_LEDGER_NOTICE
besides its counts. For each operation that brings samples to a lane and to its history one lemma says that it leaves the view
alone; the lemma of an operation cites those of the operations it calls. They stand in the order of the model's files.
-/

namespace Sys2Proof.Machine

/-! ### The view -/

/-- The launch generators, the ledgers' own state, the active copy, the slice clocks and the slices of each converter, and the
words of the input ledgers. -/
def noticeView (s : State) : SMap Lch × LgrSt × SMap Word × (Nat → Nat × List Nat) × (Fin 0x200 → Word) :=
  (s.lch, s.lgr, s.regs.active, fun k => ((conv s k).done, (conv s k).pos), fun a => hw s (0xD0400 + a))

/-- The 64-bit count at an address stands beside the input ledgers. -/
def OffInputs (a : Nat) : Prop := a + 8 ≤ 0xD0400 ∨ 0xD0600 ≤ a

theorem offInputs_memA {off : Nat} (h : off < 0x3F0) (c : Nat) : OffInputs (memA c off) := by
  unfold OffInputs memA; omega

theorem noticeView_eq {s t : State} (hlch : t.lch = s.lch) (hlgr : t.lgr = s.lgr) (hact : t.regs.active = s.regs.active)
    (hcnv : ∀ k, (conv t k).done = (conv s k).done ∧ (conv t k).pos = (conv s k).pos)
    (hw : ∀ a, 0xD0400 ≤ a → a < 0xD0600 → Machine.hw t a = Machine.hw s a) : noticeView t = noticeView s := by
  unfold noticeView
  rw [hlch, hlgr, hact]
  refine congrArg (fun v => (s.lch, s.lgr, s.regs.active, v)) (Prod.ext (funext fun k => ?_) (funext fun a => ?_))
  · exact Prod.ext (hcnv k).1 (hcnv k).2
  · exact hw _ (by omega) (by omega)

section
variable {s t : State} (h : noticeView t = noticeView s)
include h

theorem lch_of_noticeView : t.lch = s.lch := congrArg (·.1) h
theorem lgr_of_noticeView : t.lgr = s.lgr := congrArg (·.2.1) h
theorem active_of_noticeView : t.regs.active = s.regs.active := congrArg (·.2.2.1) h
theorem done_of_noticeView (k : Nat) : (conv t k).done = (conv s k).done := congrArg (fun v => (v.2.2.2.1 k).1) h
theorem pos_of_noticeView (k : Nat) : (conv t k).pos = (conv s k).pos := congrArg (fun v => (v.2.2.2.1 k).2) h

theorem hw_of_noticeView {a : Nat} (ha : 0xD0400 ≤ a) (ha' : a < 0xD0600) : hw t a = hw s a := by
  have hword := congrFun (congrArg (·.2.2.2.2) h) ⟨a - 0xD0400, by omega⟩
  simpa only [noticeView, Nat.add_sub_cancel' ha] using hword

theorem inputLedger_of_noticeView {c term : Nat} (hc : c < 16) (ht : term < 4) :
    cnt64 t (inputLedger c term) = cnt64 s (inputLedger c term) :=
  cnt64_congr (hw_of_noticeView h (by unfold inputLedger; omega) (by unfold inputLedger; omega))
    (hw_of_noticeView h (by unfold inputLedger; omega) (by unfold inputLedger; omega))

end

/-! ### Ops -/

theorem noticeView_setHw {a : Nat} (h : a < 0xD0400 ∨ 0xD0600 ≤ a) (w : Word) (s : State) :
    noticeView (setHw a w s) = noticeView s :=
  noticeView_eq rfl rfl rfl (fun _ => ⟨rfl, rfl⟩) fun _ _ _ => hw_setHw_ne w (by omega) s

theorem noticeView_addCnt64 {a : Nat} (h : OffInputs a) (n : Nat) (s : State) :
    noticeView (addCnt64 a n s) = noticeView s := by
  unfold OffInputs at h
  exact noticeView_eq (by simp) (by simp) (by simp) (fun k => by rw [conv_congr (addCnt64_cnv ..)]; exact ⟨rfl, rfl⟩)
    fun _ _ _ => hw_addCnt64_ne n (by omega) (by omega) s

theorem noticeView_setCnt64 {a : Nat} (h : OffInputs a) (n : Nat) (s : State) :
    noticeView (setCnt64 a n s) = noticeView s := by
  unfold OffInputs at h
  exact (noticeView_setHw (by omega) _ _).trans (noticeView_setHw (by omega) _ s)

theorem noticeView_raiseFrom {a : Nat} (h : OffInputs a) (src e : Nat) (s : State) :
    noticeView (raiseFrom src a e s) = noticeView s := by
  unfold OffInputs at h
  exact noticeView_eq (by simp) (by simp) (by simp) (fun k => by rw [conv_congr (raiseFrom_cnv ..)]; exact ⟨rfl, rfl⟩)
    fun _ _ _ => hw_raiseFrom_ne src e (by omega) s

theorem noticeView_loss (i n : Nat) (s : State) : noticeView (loss i n s) = noticeView s := by
  unfold loss
  split
  · rfl
  · exact (noticeView_raiseFrom (by unfold OffInputs; omega) ..).trans (noticeView_addCnt64 (by unfold OffInputs; omega) ..)

theorem noticeView_rill (k n : Nat) (s : State) : noticeView (rill k n s) = noticeView s :=
  (noticeView_addCnt64 (by unfold OffInputs; omega) ..).trans (noticeView_addCnt64 (by unfold OffInputs; omega) ..)

theorem noticeView_rillReturn (k : Nat) (s : State) : noticeView (rillReturn k s) = noticeView s :=
  (noticeView_addCnt64 (by unfold OffInputs; omega) ..).trans (noticeView_setCnt64 (by unfold OffInputs; omega) ..)

theorem noticeView_freeNext (s : State) : noticeView (freeNext s).2 = noticeView s := by rfl

theorem noticeView_setDch (c : Nat) (x : DChan) (s : State) : noticeView (setDch c x s) = noticeView s := by rfl

/-- A converter that keeps its slice clocks and its slices. -/
theorem noticeView_setConv {c : Nat} {x : Conv} {s : State} (hdone : x.done = (conv s c).done) (hpos : x.pos = (conv s c).pos) :
    noticeView (setConv c x s) = noticeView s := by
  refine noticeView_eq rfl rfl rfl (fun k => ?_) fun _ _ _ => rfl
  by_cases hk : k = c
  · subst hk
    rw [conv_setConv_same]
    exact ⟨hdone, hpos⟩
  · rw [conv_setConv_ne _ hk]
    exact ⟨rfl, rfl⟩

theorem noticeView_cnvRaise (c slice e : Nat) (s : State) : noticeView (cnvRaise c slice e s) = noticeView s :=
  (noticeView_raiseFrom (by unfold OffInputs; omega) ..).trans (noticeView_setHw (by omega) ..)

/-! ### DramOps -/

theorem noticeView_rhActivate (c b row : Nat) (s : State) : noticeView (rhActivate c b row s) = noticeView s := by
  have hcount {off : Nat} (h : off < 0x3F0) (s : State) : noticeView (addCnt64 (memA c off) 1 s) = noticeView s :=
    noticeView_addCnt64 (offInputs_memA h c) 1 s
  simp only [rhActivate, noticeView_freeNext, noticeView_setDch, hcount, apply_ite noticeView, ite_self, Nat.reduceLT]

theorem noticeView_countRead (c b : Nat) (s : State) : noticeView (countRead c b s) = noticeView s := by
  have hcount (s : State) : noticeView (addCnt64 (memA c 0x70) 1 s) = noticeView s :=
    noticeView_addCnt64 (offInputs_memA (by decide) c) 1 s
  simp only [countRead, hcount, noticeView_loss, apply_ite noticeView, ite_self]

theorem noticeView_kept (k : List Nat) (s : State) :
    noticeView { s with dram := { s.dram with kept := k } } = noticeView s := by rfl

theorem noticeView_writeBurst (c b : Nat) (data : List Byte) (mask : List Bool) (poison : Bool) (s : State) :
    noticeView (writeBurst c b data mask poison s) = noticeView s := by
  have hcount (s : State) : noticeView (addCnt64 (memA c 0xA0) 1 s) = noticeView s :=
    noticeView_addCnt64 (offInputs_memA (by decide) c) 1 s
  simp only [writeBurst, noticeView_loss, hcount, noticeView_setDch, noticeView_kept, apply_ite noticeView, ite_self]

theorem noticeView_giveAnswer (a : Answer) (s : State) : noticeView (giveAnswer a s) = noticeView s := by rfl

theorem noticeView_issueWrite (c : Nat) (q : DQ) (s : State) : noticeView (issueWrite c q s) = noticeView s := by
  simp only [issueWrite, noticeView_loss, noticeView_writeBurst, apply_ite noticeView, ite_self]

theorem noticeView_issueReq (c b : Nat) (q : DQ) (s : State) : noticeView (issueReq c b q s) = noticeView s := by
  simp only [issueReq, noticeView_rhActivate, noticeView_setDch, noticeView_issueWrite, noticeView_rill,
    noticeView_giveAnswer, noticeView_countRead, apply_ite noticeView, ite_self]

theorem noticeView_settleAll (n c b : Nat) (s : State) : noticeView (settleAll n c b s) = noticeView s := by
  induction n generalizing s with
  | zero => rfl
  | succ n ih =>
    rw [settleAll]
    dsimp only
    split
    · split
      · rfl
      · simp only [ih, noticeView_issueReq, noticeView_rillReturn, noticeView_setDch, apply_ite noticeView, ite_self]
    · rfl

theorem noticeView_blockAccess (c b : Nat) (s : State) : noticeView (blockAccess c b s) = noticeView s := by
  have hwake (s : State) : noticeView (chanWake c s) = noticeView s := by
    simp only [chanWake, noticeView_setDch, apply_ite noticeView, ite_self]
  rw [blockAccess, settle, noticeView_settleAll, hwake, chanUse, noticeView_setDch]

theorem noticeView_dramWrite (a : Nat) (data : List Byte) (poison : Bool) (s : State) :
    noticeView (dramWrite a data poison s) = noticeView s := by
  simp only [dramWrite, noticeView_writeBurst, noticeView_blockAccess, each_keeps noticeView, implies_true]

/-! ### History -/

theorem noticeView_histPut (key entry lo hi : Nat) (data : List Byte) (s : State) :
    noticeView (histPut key entry lo hi data s) = noticeView s := by
  have hhist (h : SMap Hist) (s : State) : noticeView { s with cis := { s.cis with hist := h } } = noticeView s := by rfl
  have hlost (n : Nat) (s : State) : noticeView (addCnt64 0x70060 n s) = noticeView s :=
    noticeView_addCnt64 (by unfold OffInputs; omega) n s
  unfold histPut
  split
  · rfl
  · simp only [hhist, noticeView_dramWrite, hlost, apply_ite noticeView, ite_self]

theorem noticeView_laneAppend (lane a : Nat) (xs : List (BitVec 16)) (zero : Bool) (s : State) :
    noticeView (laneAppend lane a xs zero s) = noticeView s := by
  have hput (b : Nat) (s : State) : noticeView (lanePut lane b s) = noticeView s := noticeView_histPut ..
  unfold laneAppend
  extract_lets r zeros stop joins s1 r' _ s2
  have h1 : noticeView s1 = noticeView s := by simp only [s1, hput, apply_ite noticeView, ite_self]
  have h2 : noticeView s2 = noticeView s1 := by rfl
  split
  · exact (each_keeps noticeView hput s2).trans (h2.trans h1)
  · exact h2.trans h1

/-! ### Converter -/

theorem noticeView_laneTake (lane : Nat) (s : State) : noticeView (laneTake lane s) = noticeView s := by
  unfold laneTake
  dsimp only
  refine (each_keeps noticeView (fun c s => ?_) _).trans (each_keeps noticeView (fun k s => ?_) s)
  · exact noticeView_setConv rfl rfl
  · split
    · rw [noticeView_rill, noticeView_laneAppend]
    · rfl

/-- The overrange samples of a notice are counted, and reported where the last report is not too recent (R121). -/
def overranges (c hot : Nat) (soon : Bool) (s : State) : State :=
  if hot = 0 then s
  else
    let s := addHold (cvA c 0x1C) hot s
    if soon then s else cnvRaise c 0 7 (setConv c { conv s c with lastOvr := some s.cnt.ticks } s)

theorem noticeView_overranges {c : Nat} (hc : c < 16) (hot : Nat) (soon : Bool) (s : State) :
    noticeView (overranges c hot soon s) = noticeView s := by
  have hcount : noticeView (addHold (cvA c 0x1C) hot s) = noticeView s := noticeView_setHw (by unfold cvA; omega) _ s
  unfold overranges
  dsimp only
  generalize addHold (cvA c 0x1C) hot s = u at hcount
  split
  · rfl
  · split
    · exact hcount
    · exact (noticeView_cnvRaise ..).trans ((noticeView_setConv (by rfl) (by rfl)).trans hcount)

/-! ### The terms of an input's ledger -/

theorem cnt64_addCnt64_ne {a b : Nat} (h : a + 8 ≤ b ∨ b + 8 ≤ a) (n : Nat) (s : State) :
    cnt64 (addCnt64 a n s) b = cnt64 s b :=
  cnt64_congr (hw_addCnt64_ne n (by omega) (by omega) s) (hw_addCnt64_ne n (by omega) (by omega) s)

/-- The slice clocks of a list in which the lane of a converter delivers samples (R138). -/
def clocksDelivered (c : Nat) (ks : List Nat) (s : State) : Nat :=
  (ks.filter fun k => laneRuns s (laneOfConv (cfg s) c) k && !clockInWindow (conv s c) k).length

theorem clockTerms_counts (c : Nat) (ks : List Nat) (s : State) :
    cnt64 (clockTerms c ks s) (inputLedger c 0) = (cnt64 s (inputLedger c 0) + ks.length) % 2 ^ 64 ∧
    cnt64 (clockTerms c ks s) (inputLedger c 1) = (cnt64 s (inputLedger c 1) + clocksDelivered c ks s) % 2 ^ 64 ∧
    cnt64 (clockTerms c ks s) (inputLedger c 2) = (cnt64 s (inputLedger c 2) + (ks.length - clocksDelivered c ks s)) % 2 ^ 64 := by
  have hterm (i j : Nat) (h : i ≠ j) (n : Nat) (s : State) :
      cnt64 (addCnt64 (inputLedger c i) n s) (inputLedger c j) = cnt64 s (inputLedger c j) :=
    cnt64_addCnt64_ne (by unfold inputLedger; omega) n s
  have hterms : clockTerms c ks s = addCnt64 (inputLedger c 2) (ks.length - clocksDelivered c ks s)
      (addCnt64 (inputLedger c 1) (clocksDelivered c ks s) (addCnt64 (inputLedger c 0) ks.length s)) := by rfl
  rw [hterms]
  refine ⟨?_, ?_, ?_⟩
  · rw [hterm 2 0 (by decide), hterm 1 0 (by decide), cnt64_addCnt64_same]
  · rw [hterm 2 1 (by decide), cnt64_addCnt64_same, hterm 0 1 (by decide)]
  · rw [cnt64_addCnt64_same, hterm 1 2 (by decide), hterm 0 2 (by decide)]

/-- The slice clocks of a notice of `n` as they enter the ledger (R138, R403). -/
def noticed (c n : Nat) (s : State) : State :=
  rill (16 + c) 1 (clockTerms c ((List.range n).map ((conv s c).done + ·)) s)

theorem noticed_cnv (c n : Nat) (s : State) : (noticed c n s).cnv = s.cnv := by simp [noticed, clockTerms]
theorem noticed_lch (c n : Nat) (s : State) : (noticed c n s).lch = s.lch := by simp [noticed, clockTerms]
theorem noticed_lgr (c n : Nat) (s : State) : (noticed c n s).lgr = s.lgr := by simp [noticed, clockTerms]

theorem noticed_active (c n : Nat) (s : State) : (noticed c n s).regs.active = s.regs.active := by
  simp [noticed, clockTerms]

theorem inputLedger_noticed {c term : Nat} (hc : c < 16) (ht : term < 4) (n : Nat) (s : State) :
    cnt64 (noticed c n s) (inputLedger c term) =
      cnt64 (clockTerms c ((List.range n).map ((conv s c).done + ·)) s) (inputLedger c term) :=
  cnt64_congr (hw_rill_ne (by unfold inputLedger; omega) _) (hw_rill_ne (by unfold inputLedger; omega) _)

theorem conv_noticed (c n : Nat) (s : State) (k : Nat) : conv (noticed c n s) k = conv s k := conv_congr (noticed_cnv ..) k

/-- A notice of slice clocks that have elapsed: they enter the ledger, the converter's clock moves on, and the samples that go
to the lane change nothing more of the view (R118, R138, R403). -/
theorem exec_inputLedgerNotice {s : State} {c : Fin 16} {codes : List (List Int)} (hb : s.boot ≠ .held)
    (hon : (conv s c).on = true) (hpos : 0 < codes.length) (hlen : codes.length ≤ 64)
    (hcome : (conv s c).done + codes.length ≤ s.cnt.smp / 32000) : ∃ x u, x.done = (conv s c).done + codes.length ∧
      noticeView u = noticeView (setConv c x (noticed c codes.length s)) ∧
      exec (.inputLedgerNotice c codes) s = .next (restored s u) := by
  have hgo : ¬(!(conv s c).on || decide (codes.length = 0) || decide (64 < codes.length) ||
      decide (s.cnt.smp / 32000 < (conv s c).done + codes.length)) = true := by
    simp [hon, hlen, hcome, Nat.ne_of_gt hpos]
  have hexec : exec (.inputLedgerNotice c codes) s = .next (restored s _) :=
    (rfl : _ = execInputLedgerNotice c codes s).trans (run_eq_restored hb)
  dsimp only at hexec
  rw [if_neg hgo] at hexec
  exact ⟨_, _, by rfl, (noticeView_overranges c.isLt ..).trans (noticeView_laneTake ..), hexec⟩

end Sys2Proof.Machine
end

section
/-!
SETTLES. The in-service check, foreground windows and the notices of the input ledgers (O49, R130, R133, R134, R138, R403).
-/

namespace Sys2Proof.Machine

/-- Settles O49: a fault with a spare that has passed is the first retirement of O48; the counts of a notice stand beside all
that its samples change. -/
theorem converterChecks : Obligations.ConverterChecks := by
  unfold Obligations.ConverterChecks
  refine ⟨fun s c l st m hb hl hq => exec_iscBlockEnd_clean hb hl hq,
    fun s c l st m q sp hb hen hon hwin hclk hlen hl hsp hpass hq hr hf => ?replaces,
    fun s c l st m q sp hb hen hon hwin hclk hlen hl hsp hok hpass hq hnew => ?waits,
    fun s c p a hb h8 hwin hclk hp ha hnew => ?opens, fun s c ms hb hwin hcal hover hq hms => ?ends,
    fun s c codes hb hon hpos hlen hcome => ?notice⟩
  case replaces =>
    obtain ⟨w, ⟨hconv, hevent⟩, hu⟩ := iscFail_replaces (q := q) (m := m) st hsp hq hpass
    obtain ⟨now, now', hleft, hbit, hevents⟩ := replaceFaulty_leaves (f := (conv s c).pos.getD q 0) (into := sp)
      (by rw [hconv]; exact hr) (by rw [hconv]; exact hf) (conv s c).qcal.isSome
    rw [← hu] at hleft hbit hevents
    rw [hconv] at hleft
    refine ⟨_, exec_iscBlockEnd_one hb hen hon hwin hclk hlen hl rfl (by rw [hleft]; exact hq), ?_, ?_, ?_, ?_, ?_, ?_⟩
    · rw [conv_restored, hleft]; rfl
    · rw [conv_restored, hleft]; rfl
    · rw [conv_restored, hleft]; rfl
    · rw [conv_restored, hleft]; rfl
    · rw [hw_restored]; exact hevents 4 (by decide) hevent
    · rwa [hw_restored]
  case waits =>
    have hu := iscFail_of_not_passed st hsp hok hpass hnew
    refine ⟨_, exec_iscBlockEnd_one hb hen hon hwin hclk hlen hl hu (by rw [conv_setConv_same]; exact hq), ?_, ?_⟩
    · rw [conv_restored, conv_setConv_same]
    · rw [hw_restored, hw_setConv]; exact bit_sliceFault ..
  case opens =>
    refine ⟨_, exec_fgWindowStart hb h8 hwin hclk hp ha hnew, ?_, fun j hj => ?_, ?_⟩
    · rw [conv_restored, windowStart, conv_setConv_same, conv_setConv_same]; rfl
    · rw [conv_restored, windowStart, conv_setConv_ne _ hj, conv_setConv_ne _ hj]
    · rfl
  case ends =>
    obtain ⟨hw', hexec, hcount⟩ := exec_fgWindowEnd hb hwin hcal hover hq hms
    exact ⟨_, hexec, conv_setConv_same .., fun j hj => conv_setConv_ne _ hj s, hcount, rfl⟩
  case notice =>
    obtain ⟨x, u, hx, hview, hexec⟩ := exec_inputLedgerNotice hb hon hpos hlen hcome
    obtain ⟨h0, h1, h2⟩ := clockTerms_counts c ((List.range codes.length).map ((conv s c).done + ·)) s
    have hcount (term : Nat) (ht : term < 4) : cnt64 u (inputLedger c term) = _ :=
      (inputLedger_of_noticeView hview c.isLt ht).trans
        ((cnt64_setConv ..).trans (inputLedger_noticed c.isLt ht codes.length s))
    have hout : clocksDelivered c ((List.range codes.length).map ((conv s c).done + ·)) s =
        ((List.range codes.length).filter fun i => laneRuns s (laneOfConv (cfg s) c) ((conv s c).done + i) &&
          !clockInWindow (conv s c) ((conv s c).done + i)).length := by
      rw [clocksDelivered, List.filter_map, List.length_map]
      rfl
    rw [List.length_map, List.length_range] at h0 h2
    rw [hout] at h1 h2
    refine ⟨_, hexec, ?_, ⟨?_, ?_, ?_⟩, ?_, ?_, ?_, fun k hk => ?_⟩
    · rw [conv_restored, done_of_noticeView hview, conv_setConv_same, hx]
    · rw [cnt64_restored, hcount 0 (by decide), h0]
    · rw [cnt64_restored, hcount 1 (by decide), h1]
    · rw [cnt64_restored, hcount 2 (by decide), h2]
    · rw [restored_lch, lch_of_noticeView hview, setConv_lch, noticed_lch]
    · rw [restored_lgr, lgr_of_noticeView hview, setConv_lgr, noticed_lgr]
    · rw [restored_regs, active_of_noticeView hview, setConv_regs, noticed_active]
    · rw [conv_restored, pos_of_noticeView hview, conv_setConv_ne _ hk, conv_noticed]

end Sys2Proof.Machine
end

section
/-!
SETTLES. The calibration of the TIU's channels and of its idle spare lines (O47, R151 to R153): what a calibration that passes,
that fails and that fails for the third time in a row makes of its line.
-/

namespace Sys2Proof.Machine

/-! ### A channel -/

/-- The two run lengths stand in the channel's word. -/
def calNoted (c n1 n2 : Nat) (s : State) : State := setHw (tiuA c 0x18) (wd (n1 % 1024 + 65536 * (n2 % 1024))) s

/-- A channel whose line passed its calibration (R151). -/
def calPassed (n1 n2 : Nat) (x : TiuCh) : TiuCh :=
  { x with tap := (calCoefs n1 n2).1, off := (calCoefs n1 n2).2, fails := 0, held := false, ready := true, inCal := false }

/-- A channel whose line failed its calibration holds its coefficients (R151). -/
def calFailed (x : TiuCh) : TiuCh :=
  { x with fails := x.fails + 1, held := true, ready := decide (x.tap ≠ 0), inCal := false }

/-- The failure is counted and reported. -/
def calRefused (c n1 n2 : Nat) (s : State) : State :=
  raise 0x31600 0 (setTiuCh c (calFailed (tiuCh s c)) (calNoted c n1 n2 s))

theorem calibrate_passes {c n1 n2 : Nat} {s : State} (h : calPasses n1 n2 = true) :
    calibrate c n1 n2 s = setTiuCh c (calPassed n1 n2 (tiuCh s c)) (calNoted c n1 n2 s) := if_pos h

theorem calibrate_fails {c n1 n2 : Nat} {s : State} (h : calPasses n1 n2 = false) :
    calibrate c n1 n2 s = if 3 ≤ (tiuCh s c).fails + 1 then lineSwap c (calRefused c n1 n2 s) else calRefused c n1 n2 s :=
  if_neg (by simp [h])

theorem tiuCh_calRefused (c n1 n2 : Nat) (s : State) : tiuCh (calRefused c n1 n2 s) c = calFailed (tiuCh s c) := by
  rw [calRefused, tiuCh, raise_tiu, ← tiuCh, tiuCh_setTiuCh_same]

theorem tiu_calRefused (c n1 n2 : Nat) (s : State) :
    (calRefused c n1 n2 s).tiu = { s.tiu with chs := (calRefused c n1 n2 s).tiu.chs } := by
  rw [calRefused, raise_tiu]
  rfl

theorem raised_calRefused {c : Nat} (hc : c < 12) (n1 n2 : Nat) (s : State) : Raised 0x31600 0 s (calRefused c n1 n2 s) :=
  (raised_raise (setTiuCh c (calFailed (tiuCh s c)) (calNoted c n1 n2 s)) (by decide)).congr
    (hw_setHw_ne _ (by unfold tiuA; omega) s) rfl

section
variable {s : State} {ch : Fin 12} {n1 n2 : Nat} (hb : s.boot ≠ .held) (hcal : calibratable s ch = true)
  (hd : beforeDead (tiuCh s ch) s.cnt.coarse.toNat = false)
include hb hcal hd

theorem exec_tiuRearm (hr : (tiuCh s ch).ready = false) :
    exec (.tiuRearm ch n1 n2) s = .next (restored s (calibrate ch n1 n2 s)) := by
  change execTiuRearm ch n1 n2 s = _
  exact run_of_eq hb (if_pos (by simp [hcal, hr, hd]))

theorem exec_tiuPeriodicCal (he : calEach (cfg s) ch = false) (hi : (tiuCh s ch).inCal = true) :
    exec (.tiuPeriodicCal ch n1 n2) s = .next (restored s (calibrate ch n1 n2 s)) := by
  change execTiuPeriodicCal ch n1 n2 s = _
  exact run_of_eq hb (if_pos (by simp [hcal, he, hi, hd]))

end

/-! ### A line is retired -/

theorem wearAdd_tiu (kind cause gen index : Nat) (s : State) : (wearAdd kind cause gen index s).tiu = s.tiu := by
  unfold wearAdd otpDefer
  repeat' split
  all_goals simp

theorem retireLine_tiu (line : Nat) (s : State) :
    (retireLine line s).tiu = { s.tiu with retired := s.tiu.retired ||| BitVec.ofNat 14 (2 ^ line) } := wearAdd_tiu ..

theorem hw_retireLine {a : Nat} (h : a < 0xD0000) (line : Nat) (s : State) : hw (retireLine line s) a = hw s a := by
  rw [retireLine, hw_wearAdd h]
  rfl

/-- The TIU as the line of channel `c` leaves it: retired, and no spare stands in for it (R153). -/
def lineGone (line c : Nat) (x : TiuSt) : TiuSt :=
  { x with retired := x.retired ||| BitVec.ofNat 14 (2 ^ line), spareOf := x.spareOf.filter fun e => decide (e.2 ≠ c) }

/-- A channel on a spare line that is yet to be calibrated (R153). -/
def onSpare (k : Nat) (x : TiuCh) : TiuCh :=
  { x with line := some (12 + k), tap := 0, off := 0, fails := 0, held := false, ready := false, inCal := true,
           dead := (x.dead + 12) % 2 ^ 48 }

/-- The line of a channel is retired and no spare stands in for it. -/
def lineOut (c : Nat) (s : State) : State :=
  let u := retireLine (lineOf s c) s
  { u with tiu := { u.tiu with spareOf := u.tiu.spareOf.filter fun e => decide (e.2 ≠ c) } }

theorem lineOut_tiu (c : Nat) (s : State) : (lineOut c s).tiu = lineGone (lineOf s c) c s.tiu := by
  have h := retireLine_tiu (lineOf s c) s
  dsimp only [lineOut]
  rw [h]
  rfl

theorem spareFree_congr {s t : State} (h : t.tiu.spareOf = s.tiu.spareOf) (h' : t.tiu.retired = s.tiu.retired) :
    spareFree t = spareFree s := by
  unfold spareFree
  rw [h, h']

/-- The spare `k` stands in for the line of a channel. -/
def spareIn (c k : Nat) (s : State) : State :=
  setTiuCh c (onSpare k (tiuCh s c)) (setHw (tiuA c 0x18) (wd (smGet 0 k s.tiu.spareCal))
    { s with tiu := { s.tiu with spareOf := smIns k c s.tiu.spareOf } })

theorem lineSwap_spare {c k : Nat} {s : State} (h : spareFree (lineOut c s) = some k) :
    lineSwap c s = raise 0x31600 1 (spareIn c k (lineOut c s)) := by
  have hsplit : lineSwap c s = match spareFree (lineOut c s) with
      | none => channelFails c (lineOut c s)
      | some k => raise 0x31600 1 (spareIn c k (lineOut c s)) := by rfl
  rw [hsplit, h]

theorem lineOf_calRefused (c n1 n2 : Nat) (s : State) : lineOf (calRefused c n1 n2 s) c = lineOf s c := by
  unfold lineOf
  rw [tiuCh_calRefused]
  rfl

/-- The TIU after the third failure in a row, before a spare takes over. -/
theorem lineOut_calRefused_tiu (c n1 n2 : Nat) (s : State) : (lineOut c (calRefused c n1 n2 s)).tiu =
    lineGone (lineOf s c) c { s.tiu with chs := (calRefused c n1 n2 s).tiu.chs } := by
  rw [lineOut_tiu, lineOf_calRefused, tiu_calRefused]

/-- At the third failure in a row the spare that is free once the line is gone takes over. -/
theorem calibrate_swaps {c k n1 n2 : Nat} {s : State} (hp : calPasses n1 n2 = false) (hf : 2 ≤ (tiuCh s c).fails)
    (h : spareFree { s with tiu := lineGone (lineOf s c) c s.tiu } = some k) :
    calibrate c n1 n2 s = raise 0x31600 1 (spareIn c k (lineOut c (calRefused c n1 n2 s))) := by
  have htiu := lineOut_calRefused_tiu c n1 n2 s
  rw [calibrate_fails hp, if_pos (by omega)]
  refine lineSwap_spare (.trans ?_ h)
  exact spareFree_congr (congrArg TiuSt.spareOf htiu :) (congrArg TiuSt.retired htiu :)

/-! ### An idle spare -/

/-- The calibration of a spare, before its outcome (R153). -/
def spareNoted (k n1 n2 : Nat) (s : State) : State :=
  { timerGrid tmSpareCal k (1000 * msTicks) s with
    tiu := { s.tiu with spareCal := smIns k (n1 % 1024 + 65536 * (n2 % 1024)) s.tiu.spareCal } }

/-- The failures in a row of a spare. -/
def setSpareFails (k n : Nat) (s : State) : State :=
  { s with tiu := { s.tiu with spareFails := smPut 0 k n s.tiu.spareFails } }

/-- A spare has failed: it is reported, and the third failure in a row retires the line. -/
def spareRefused (k n : Nat) (s : State) : State :=
  if 3 ≤ n then retireLine (12 + k) (raise 0x31600 0 (setSpareFails k n s)) else raise 0x31600 0 (setSpareFails k n s)

theorem exec_spareLineCal {s : State} {l : Fin 2} {n1 n2 : Nat} (hb : s.boot ≠ .held) (hpll : pll s 1 = .inUse)
    (hidle : smFind l.val s.tiu.spareOf = none) (hret : s.tiu.retired.getLsbD (12 + l.val) = false)
    (hdue : timerDue s tmSpareCal l = true) : exec (.spareLineCal l n1 n2) s = .next (restored s
      (if calPasses n1 n2 then setSpareFails l 0 (spareNoted l n1 n2 s)
       else spareRefused l (smGet 0 l.val s.tiu.spareFails + 1) (spareNoted l n1 n2 s))) := by
  change execSpareLineCal l n1 n2 s = _
  exact run_of_eq hb (if_neg (by simp [hpll, hidle, hret, hdue]))

theorem tiu_spareRefused (k n : Nat) (s : State) : (spareRefused k n s).tiu =
    { s.tiu with spareFails := smPut 0 k n s.tiu.spareFails,
                 retired := if 3 ≤ n then s.tiu.retired ||| BitVec.ofNat 14 (2 ^ (12 + k)) else s.tiu.retired } := by
  unfold spareRefused
  split
  · rw [retireLine_tiu, raise_tiu]
    rfl
  · rw [raise_tiu]
    rfl

theorem bit_spareRefused (k n : Nat) (s : State) : bit (hw (spareRefused k n s) 0x31600) 0 = true := by
  have hbit : bit (hw (raise 0x31600 0 (setSpareFails k n s)) 0x31600) 0 = true := (raised_raise _ (by decide)).1
  unfold spareRefused
  split
  · rwa [hw_retireLine (by decide)]
  · exact hbit

/-- A line of the fourteen is in the mask once it is put there. -/
theorem getLsbD_or_line {w : BitVec 14} {i : Nat} (h : i < 14) : (w ||| BitVec.ofNat 14 (2 ^ i)).getLsbD i = true := by
  rw [BitVec.getLsbD_or, BitVec.getLsbD_ofNat, Nat.testBit_two_pow_self, decide_eq_true h]
  simp

/-- Settles O47: a calibration is what it makes of its line's record, and a retired line's successor is read off the record
that the retirement leaves. -/
theorem tiuCalibration : Obligations.TiuCalibration := by
  unfold Obligations.TiuCalibration
  refine ⟨fun s ch n1 n2 hb hcal hr hd hp => ?passes, fun s ch n1 n2 hb hcal he hi hd hp => ?periodic,
    fun s ch n1 n2 hb hcal hr hd hp hf => ?fails, fun s ch n1 n2 k hb hcal hr hd hp hf hfree => ?swaps,
    fun s l n1 n2 hb hpll hidle hret hdue => ⟨fun hp => ?sparePasses, fun hp => ?spareFails⟩⟩
  case passes =>
    refine ⟨_, exec_tiuRearm hb hcal hd hr, ?_⟩
    rw [calibrate_passes hp]
    exact ⟨tiuCh_setTiuCh_same .., fun q hq => tiuCh_setTiuCh_ne _ hq _, hw_setHw_same .., rfl⟩
  case periodic =>
    refine ⟨_, exec_tiuPeriodicCal hb hcal hd he hi, ?_⟩
    rw [calibrate_passes hp]
    exact ⟨tiuCh_setTiuCh_same .., rfl⟩
  case fails =>
    refine ⟨_, exec_tiuRearm hb hcal hd hr, ?_⟩
    rw [calibrate_fails hp, if_neg (by omega)]
    exact ⟨tiuCh_calRefused .., (raised_calRefused ch.isLt n1 n2 s).congr rfl (hw_restored ..)⟩
  case swaps =>
    have htiu := lineOut_calRefused_tiu ch n1 n2 s
    refine ⟨_, exec_tiuRearm hb hcal hd hr, ?_⟩
    rw [calibrate_swaps hp hf hfree, hw_restored, hw_restored, hw_raise_ne _ (by unfold tiuA; omega), restored_tiu, tiuCh,
      restored_tiu, raise_tiu, ← tiuCh]
    generalize lineOut ch (calRefused ch n1 n2 s) = u at htiu
    have hch : tiuCh (spareIn ch k u) ch = onSpare k (tiuCh u ch) := tiuCh_setTiuCh_same ..
    refine ⟨congrArg TiuCh.line hch, congrArg TiuCh.ready hch, congrArg TiuCh.inCal hch, ?_, ?_, ?_, ?_⟩
    · exact (hw_setHw_same ..).trans (congrArg (fun x : TiuSt => wd (smGet 0 k x.spareCal)) htiu :)
    · exact smGet_smIns_same ..
    · exact (congrArg TiuSt.retired htiu :)
    · exact (raised_raise _ (by decide)).1
  case sparePasses =>
    refine ⟨_, exec_spareLineCal hb hpll hidle hret hdue, ?_⟩
    rw [if_pos hp]
    exact ⟨smGet_smPut_same 0 0 l.val s.tiu.spareFails, smGet_smIns_same 0 _ l.val s.tiu.spareCal, rfl⟩
  case spareFails =>
    refine ⟨_, exec_spareLineCal hb hpll hidle hret hdue, ?_⟩
    rw [if_neg (by simp [hp]), restored_tiu, hw_restored, tiu_spareRefused]
    refine ⟨smGet_smPut_same 0 (smGet 0 l.val s.tiu.spareFails + 1) l.val s.tiu.spareFails, bit_spareRefused .., ?_⟩
    by_cases hthird : 2 ≤ smGet 0 l.val s.tiu.spareFails
    · rw [if_pos (by omega), decide_eq_true hthird]
      exact getLsbD_or_line (by omega)
    · rw [if_neg (by omega), decide_eq_false hthird]
      exact hret

end Sys2Proof.Machine
end

section
/-!
REASONING. What the operations of a port's shot boundary leave alone (O50, O56). `stillView` reads off a state the halts of the
streams, the AON events, the converters and which units are armed: no boundary reaches them, and for each operation one lemma
says so. They stand in the order of the model's files.
-/

namespace Sys2Proof.Machine

/-- The halts of the streams, the events of AON, the converters and which trigger units are armed. -/
def stillView (s : State) : Bool × List Nat × Word × CnvSt × (Nat → Bool) :=
  (s.spt.haltAll, s.spt.haltEx, hw s 0xC0040, s.cnv, fun u => (unitSt s u).armed)

theorem stillView_eq {s t : State} (hall : t.spt.haltAll = s.spt.haltAll) (hex : t.spt.haltEx = s.spt.haltEx)
    (hword : hw t 0xC0040 = hw s 0xC0040) (hcnv : t.cnv = s.cnv) (hunits : ∀ u, (unitSt t u).armed = (unitSt s u).armed) :
    stillView t = stillView s := by
  unfold stillView
  rw [hall, hex, hword, hcnv, funext hunits]

/-! The engines' registers are none of AON's. -/

theorem memA_ne_aonSts {off : Nat} (h : 0x44 ≤ off) (h' : off < 0x1000) (c : Nat) :
    memA c off ≠ 0xC0040 ∧ memA c off + 4 ≠ 0xC0040 := by
  unfold memA; omega

theorem polA_ne_aonSts {e off : Nat} (he : e < 4) (h : off < 0x800) : polA e off ≠ 0xC0040 ∧ polA e off + 4 ≠ 0xC0040 := by
  unfold polA; omega

theorem cscA_ne_aonSts {p off : Nat} (hp : p < 4) (h : off < 0x800) : cscA p off ≠ 0xC0040 := by
  unfold cscA; omega

/-! ### Ops -/

theorem stillView_setHw {a : Nat} (h : a ≠ 0xC0040) (w : Word) (s : State) : stillView (setHw a w s) = stillView s :=
  stillView_eq rfl rfl (hw_setHw_ne w (Ne.symm h) s) rfl fun _ => rfl

theorem stillView_setCnt64 {a : Nat} (h : a ≠ 0xC0040 ∧ a + 4 ≠ 0xC0040) (n : Nat) (s : State) :
    stillView (setCnt64 a n s) = stillView s := (stillView_setHw h.2 ..).trans (stillView_setHw h.1 ..)

theorem stillView_addCnt64 {a : Nat} (h : a ≠ 0xC0040 ∧ a + 4 ≠ 0xC0040) (n : Nat) (s : State) :
    stillView (addCnt64 a n s) = stillView s := by
  simp only [addCnt64, stillView_setCnt64 h, apply_ite stillView, ite_self]

theorem stillView_raiseFrom {a : Nat} (h : a ≠ 0xC0040) (src e : Nat) (s : State) :
    stillView (raiseFrom src a e s) = stillView s :=
  stillView_eq (by simp) (by simp) (hw_raiseFrom_ne src e (Ne.symm h) s) (by simp) fun _ => by simp [unitSt]

theorem stillView_raise {a : Nat} (h : a ≠ 0xC0040) (e : Nat) (s : State) : stillView (raise a e s) = stillView s :=
  stillView_raiseFrom h ..

theorem stillView_raiseIf {a : Nat} (h : a ≠ 0xC0040) (c : Bool) (e : Nat) (s : State) :
    stillView (raiseIf c a e s) = stillView s := by
  simp only [raiseIf, stillView_raise h, apply_ite stillView, ite_self]

theorem stillView_loss (i n : Nat) (s : State) : stillView (loss i n s) = stillView s := by
  have hcount (s : State) : stillView (addCnt64 (0xD2500 + 8 * i) n s) = stillView s := stillView_addCnt64 (by omega) n s
  simp only [loss, stillView_raise, hcount, apply_ite stillView, ite_self, ne_eq, Nat.reduceEqDiff, not_false_eq_true]

theorem stillView_rill (k n : Nat) (s : State) : stillView (rill k n s) = stillView s :=
  (stillView_addCnt64 (by omega) ..).trans (stillView_addCnt64 (by omega) ..)

theorem stillView_rillReturn (k : Nat) (s : State) : stillView (rillReturn k s) = stillView s :=
  (stillView_addCnt64 (by omega) ..).trans (stillView_setCnt64 (by omega) ..)

theorem stillView_answer (n op status : Nat) (data : List Byte) (s : State) :
    stillView (answer n op status data s) = stillView s :=
  stillView_eq (by simp) (by simp) (hw_answer_off (by decide) s) (by simp) fun _ => by simp [unitSt]

theorem stillView_freeNext (s : State) : stillView (freeNext s).2 = stillView s := by rfl
theorem stillView_setDch (c : Nat) (x : DChan) (s : State) : stillView (setDch c x s) = stillView s := by rfl
theorem stillView_setPol (e : Nat) (x : Pol) (s : State) : stillView (setPol e x s) = stillView s := by rfl
theorem stillView_setLch (p : Nat) (x : Lch) (s : State) : stillView (setLch p x s) = stillView s := by rfl

/-! ### DramOps -/

theorem stillView_rhActivate (c b row : Nat) (s : State) : stillView (rhActivate c b row s) = stillView s := by
  have hcount {off : Nat} (h : 0x44 ≤ off) (h' : off < 0x1000) (s : State) :
      stillView (addCnt64 (memA c off) 1 s) = stillView s := stillView_addCnt64 (memA_ne_aonSts h h' c) 1 s
  simp only [rhActivate, stillView_freeNext, stillView_setDch, hcount, apply_ite stillView, ite_self, Nat.reduceLT,
    Nat.reduceLeDiff]

theorem stillView_countRead (c b : Nat) (s : State) : stillView (countRead c b s) = stillView s := by
  have hcount (s : State) : stillView (addCnt64 (memA c 0x70) 1 s) = stillView s :=
    stillView_addCnt64 (memA_ne_aonSts (by decide) (by decide) c) 1 s
  simp only [countRead, hcount, stillView_loss, apply_ite stillView, ite_self]

theorem stillView_kept (k : List Nat) (s : State) :
    stillView { s with dram := { s.dram with kept := k } } = stillView s := by rfl

theorem stillView_writeBurst (c b : Nat) (data : List Byte) (mask : List Bool) (poison : Bool) (s : State) :
    stillView (writeBurst c b data mask poison s) = stillView s := by
  have hcount (s : State) : stillView (addCnt64 (memA c 0xA0) 1 s) = stillView s :=
    stillView_addCnt64 (memA_ne_aonSts (by decide) (by decide) c) 1 s
  simp only [writeBurst, stillView_loss, hcount, stillView_setDch, stillView_kept, apply_ite stillView, ite_self]

theorem stillView_giveAnswer (a : Answer) (s : State) : stillView (giveAnswer a s) = stillView s := by rfl

theorem stillView_issueWrite (c : Nat) (q : DQ) (s : State) : stillView (issueWrite c q s) = stillView s := by
  simp only [issueWrite, stillView_loss, stillView_writeBurst, apply_ite stillView, ite_self]

theorem stillView_issueReq (c b : Nat) (q : DQ) (s : State) : stillView (issueReq c b q s) = stillView s := by
  simp only [issueReq, stillView_rhActivate, stillView_setDch, stillView_issueWrite, stillView_rill, stillView_giveAnswer,
    stillView_countRead, apply_ite stillView, ite_self]

theorem stillView_settleAll (n c b : Nat) (s : State) : stillView (settleAll n c b s) = stillView s := by
  induction n generalizing s with
  | zero => rfl
  | succ n ih =>
    rw [settleAll]
    dsimp only
    split
    · split
      · rfl
      · simp only [ih, stillView_issueReq, stillView_rillReturn, stillView_setDch, apply_ite stillView, ite_self]
    · rfl

theorem stillView_chanWake (c : Nat) (s : State) : stillView (chanWake c s) = stillView s := by
  simp only [chanWake, stillView_setDch, apply_ite stillView, ite_self]

theorem stillView_blockAccess (c b : Nat) (s : State) : stillView (blockAccess c b s) = stillView s :=
  (stillView_settleAll ..).trans (stillView_chanWake c _)

theorem stillView_dramWrite (a : Nat) (data : List Byte) (poison : Bool) (s : State) :
    stillView (dramWrite a data poison s) = stillView s := by
  simp only [dramWrite, stillView_writeBurst, stillView_blockAccess, each_keeps stillView, implies_true]

/-! ### Pool, Cascade and the channel stage -/

section
variable {p : Nat} (hp : p < 4)
include hp

theorem stillView_blockClose (early : Bool) (s : State) : stillView (blockClose early p s) = stillView s := by
  have hraise (e : Nat) (s : State) : stillView (raise (polA p 0x40) e s) = stillView s :=
    stillView_raise (polA_ne_aonSts hp (by decide)).1 e s
  have hraiseIf (c : Bool) (e : Nat) (s : State) : stillView (raiseIf c (polA p 0x40) e s) = stillView s :=
    stillView_raiseIf (polA_ne_aonSts hp (by decide)).1 c e s
  have hblocks (s : State) : stillView (addCnt64 (polA p 0x50) 1 s) = stillView s :=
    stillView_addCnt64 (polA_ne_aonSts hp (by decide)) 1 s
  have hlost (s : State) : stillView (addCnt64 (polA p 0x58) 1 s) = stillView s :=
    stillView_addCnt64 (polA_ne_aonSts hp (by decide)) 1 s
  simp only [blockClose, ringWrite, stillView_setPol, stillView_dramWrite, stillView_loss, hraise, hraiseIf, hblocks, hlost,
    apply_ite stillView, ite_self]

theorem stillView_ringDiscard (s : State) : stillView (ringDiscard p s) = stillView s := by
  have hraise (e : Nat) (s : State) : stillView (raise (polA p 0x40) e s) = stillView s :=
    stillView_raise (polA_ne_aonSts hp (by decide)).1 e s
  have hlost (n : Nat) (s : State) : stillView (addCnt64 (polA p 0x58) n s) = stillView s :=
    stillView_addCnt64 (polA_ne_aonSts hp (by decide)) n s
  simp only [ringDiscard, stillView_setPol, stillView_loss, hraise, hlost, apply_ite stillView, ite_self]

theorem stillView_cascadeRestart (s : State) : stillView (cascadeRestart p s) = stillView s := by
  have hraise (e : Nat) (s : State) : stillView (raise (cscA p 0x40) e s) = stillView s :=
    stillView_raise (cscA_ne_aonSts hp (by decide)) e s
  have hlost (n : Nat) (s : State) : stillView (addHold (cscA p 0x6C) n s) = stillView s :=
    stillView_setHw (cscA_ne_aonSts hp (by decide)) _ s
  have hclear (s : State) : stillView (clearStages p s) = stillView s := by rfl
  simp only [cascadeRestart, hraise, hlost, hclear, stillView_blockClose hp, apply_ite stillView, ite_self]

theorem stillView_boundaryActs (acts : Nat) (s : State) : stillView (boundaryActs p acts s) = stillView s := by
  have hraise (s : State) : stillView (raise (0x40080 + 0x1000 * p) 4 s) = stillView s := stillView_raise (by omega) 4 s
  have hmap (f : SlotRec → SlotRec) (s : State) : stillView (mapSlots p f s) = stillView s := by rfl
  have htrim (s : State) : stillView (trimSlots p s) = stillView s := by rfl
  have hbegin (s : State) : stillView (cascadeBegin p s) = stillView s := by rfl
  simp only [boundaryActs, hraise, hmap, htrim, hbegin, stillView_cascadeRestart hp, apply_ite stillView, ite_self]

end

/-! ### Weir, the TIU and the registers -/

/-- A unit that stays as armed as it was. -/
theorem stillView_setUnit {u : Nat} {x : Weir} {s : State} (h : x.armed = (unitSt s u).armed) :
    stillView (setUnit u x s) = stillView s := by
  refine stillView_eq rfl rfl rfl rfl fun v => ?_
  by_cases hv : v = u
  · subst hv
    rw [unitSt_setUnit_same, h]
  · rw [unitSt_setUnit_ne x hv]

theorem stillView_setWst {u : UnitId} {x : Weir} {s : State} (h : x.armed = (wst s u).armed) :
    stillView (setWst u x s) = stillView s := by
  cases u with
  | unit u => exact stillView_setUnit h
  | watch w => rfl

theorem stillView_returnAlloc (u : UnitId) (s : State) : stillView (returnAlloc u s) = stillView s := by
  have hdrop (r : Nat) (s : State) : stillView (dropAlloc r u s) = stillView s := by rfl
  exact (stillView_setWst (by rfl)).trans (each_keeps stillView hdrop s)

theorem stillView_watchesSettle (p : Nat) (s : State) : stillView (watchesSettle p s) = stillView s := by
  simp only [watchesSettle, stillView_returnAlloc, each_keeps stillView, apply_ite stillView, ite_self, implies_true]

theorem stillView_watchesStop (p : Nat) (s : State) : stillView (watchesStop p s) = stillView s :=
  (stillView_raiseIf (by decide) ..).trans (stillView_watchesSettle p s)

theorem stillView_tiuActivate (old : Nat → Word) (c : Nat) (s : State) : stillView (tiuActivate old c s) = stillView s := by
  have hset (x : TiuCh) (s : State) : stillView (setTiuCh c x s) = stillView s := by rfl
  simp only [tiuActivate, hset, apply_ite stillView, ite_self]

end Sys2Proof.Machine
end

section
/-!
REASONING. The shot boundary of a port (O50, O56, R46, R188, R202): `Calm` says that two states differ by what a boundary does.
Every launch generator keeps all but the marks of its next shot, the clocks stay, `stillView` stays, and no session is touched
that does not wait for a commit.
-/

namespace Sys2Proof.Machine

/-- A launch generator without the marks of its next shot and the shots it has made. -/
def gridOf (x : Lch) : Lch :=
  { x with closed := false, prime := 0, config := false, zeroed := false, activeSeq := 0, cmds := [], shots := [], acts := 0,
           deltas := [], misses := 0, codeTick := 0 }

/-- The launch generators without those marks, the clocks and Sluice: what no engine writes. -/
def gridView (s : State) : (Nat → Lch) × ClkSt × SlcSt := (fun q => gridOf (lch s q), s.clk, s.slc)

theorem gridView_blind : Blind gridView where
  put _ _ _ _ _ _ _ _ _ _ _ _ _ _ _ _ _ _ _ _ := rfl
  putPins _ _ _ _ _ := rfl
  putLgr _ _ _ := rfl
  putLaps _ _ := rfl
  of_setHw _ _ _ := rfl

/-- Two states differ by what a shot boundary does. -/
structure Calm (s t : State) : Prop where
  still : stillView t = stillView s
  grid : ∀ q, gridOf (lch t q) = gridOf (lch s q)
  clk : t.clk = s.clk
  sessions : ∀ n, (ses s n).wait = none → ses t n = ses s n

theorem Calm.of_views {s t : State} (h : stillView t = stillView s) (h' : gridView t = gridView s) : Calm s t where
  still := h
  grid q := congrFun (congrArg (·.1) h') q
  clk := congrArg (·.2.1) h'
  sessions n _ := (congrArg (fun v : (Nat → Lch) × ClkSt × SlcSt => smGet {} n v.2.2.sessions) h' :)

theorem Calm.refl (s : State) : Calm s s := .of_views rfl rfl

theorem Calm.trans {s t u : State} (h : Calm s t) (h' : Calm t u) : Calm s u where
  still := h'.still.trans h.still
  grid q := (h'.grid q).trans (h.grid q)
  clk := h'.clk.trans h.clk
  sessions n hn := (h'.sessions n (by rw [h.sessions n hn]; exact hn)).trans (h.sessions n hn)

theorem Calm.ite {c : Prop} [Decidable c] {s t u : State} (h : Calm s t) (h' : Calm s u) : Calm s (if c then t else u) := by
  split
  · exact h
  · exact h'

theorem Calm.each {α : Type} {l : List α} {f : α → State → State} (h : ∀ x s, Calm s (f x s)) (s : State) :
    Calm s (each l f s) := each_induction (fun x _ t ht => ht.trans (h x t)) (Calm.refl s)

section
variable {s t : State} (h : Calm s t) (q : Nat)
include h

theorem Calm.armed : (lch t q).armed = (lch s q).armed := (congrArg Lch.armed (h.grid q) :)
theorem Calm.next : (lch t q).next = (lch s q).next := (congrArg Lch.next (h.grid q) :)
theorem Calm.lchGrid : (lch t q).grid = (lch s q).grid := (congrArg Lch.grid (h.grid q) :)
theorem Calm.nextIndex : (lch t q).nextIndex = (lch s q).nextIndex := (congrArg Lch.nextIndex (h.grid q) :)
theorem Calm.fallback : (lch t q).fallback = (lch s q).fallback := (congrArg Lch.fallback (h.grid q) :)
theorem Calm.cnv : t.cnv = s.cnv := congrArg (·.2.2.2.1) h.still

end

/-- New marks of a port's next shot. -/
theorem calm_setLch {p : Nat} {x : Lch} {s : State} (h : gridOf x = gridOf (lch s p)) : Calm s (setLch p x s) where
  still := stillView_setLch ..
  grid q := by
    by_cases hq : q = p
    · subst hq
      rw [lch_setLch_same, h]
    · rw [lch_setLch_ne x hq]
  clk := rfl
  sessions _ _ := rfl

theorem calm_rill (k n : Nat) (s : State) : Calm s (rill k n s) :=
  .of_views (stillView_rill k n s) (gridView_blind.of_rill k n s)

/-! ### Commits that become active -/

theorem calm_answer {n op status : Nat} {data : List Byte} {s : State} (h : (ses s n).wait ≠ none) :
    Calm s (answer n op status data s) where
  still := stillView_answer ..
  grid q := by rw [lch, answer_lch, ← lch]
  clk := answer_clk ..
  sessions m hm := ses_answer_ne (fun hmn : m = n => h (by rw [← hmn]; exact hm)) s

theorem calm_flightsDone (s : State) : Calm s (flightsDone s) := by
  refine Calm.trans (t := { s with commits := { s.commits with flight := s.commits.flight.filter fun f => !flightDone s f } })
    (.of_views rfl rfl) (Calm.each (fun f s => ?_) _)
  have hraise : Calm s (raise 0x10 1 s) :=
    ⟨stillView_raise (by decide) 1 s, fun q => by rw [lch, raise_lch, ← lch], raise_clk .., fun n _ => by simp [ses]⟩
  dsimp only
  split
  case isTrue h => exact hraise.trans (calm_answer (by rw [h]; simp))
  case isFalse => exact hraise

theorem calm_flightApplied (p : Nat) (t : Stamp) (s : State) : Calm s (flightApplied p t s) :=
  Calm.trans (.of_views (by rfl) (by rfl)) (calm_flightsDone _)

/-! ### The boundary -/

section
variable {p : Nat} (hp : p < 4)

theorem calm_stashShots (p : Nat) (s : State) : Calm s (stashShots p s) := calm_setLch (by rfl)

theorem calm_slotPin (p slot : Nat) (s : State) : Calm s (slotPin p slot s) := by
  unfold slotPin
  dsimp only
  split
  · exact .refl s
  · exact Calm.trans (t := { s with pins := { s.pins with slot := smPut 0 p (slotCodeOf (cfg s) p slot) s.pins.slot } })
      (.of_views rfl rfl) (calm_setLch (by rfl))

theorem calm_ledgerClose (p : Nat) (s : State) : Calm s (ledgerClose p s) := .ite (.refl s) (calm_setLch (by rfl))

theorem calm_watchesStop (p : Nat) (s : State) : Calm s (watchesStop p s) :=
  .of_views (stillView_watchesStop p s) ((gridView_blind.of_raiseIf (by decide) ..).trans (gridView_blind.of_watchesSettle p s))

include hp

theorem calm_poolEnds (s : State) : Calm s (poolEnds p s) := by
  unfold poolEnds
  dsimp only
  split
  · exact .of_views (stillView_blockClose hp true s) (gridView_blind.of_blockClose ..)
  · exact calm_setLch (by rfl)

theorem calm_boundaryActs (acts : Nat) (s : State) : Calm s (boundaryActs p acts s) :=
  .of_views (stillView_boundaryActs hp acts s) (gridView_blind.of_boundaryActs ..)

theorem calm_atBoundary (acts : Nat) (s : State) : Calm s (atBoundary p acts s) :=
  .ite (calm_boundaryActs hp acts s) (calm_setLch (by rfl))

/-- The pending copy of a port becomes active. -/
theorem calm_fibreApply (t : Stamp) (s : State) : Calm s (fibreApply p t s) := by
  unfold fibreApply
  split
  · exact .refl s
  · extract_lets old active new s1 engine s2 regs s3 moved s4 s5 prime restart seq x s6 s7 s8 s9
    have h1 : Calm s s1 := calm_stashShots p s
    have h2 : Calm s1 s2 := .ite (calm_poolEnds hp s1) (.refl s1)
    have h3 : Calm s2 s3 := .of_views (stillView_tiuActivate ..)
      ((gridView_blind.of_histPlan _).trans (gridView_blind.of_tiuActivate ..))
    have h4 : Calm s3 s4 := .ite (.of_views (stillView_ringDiscard hp s3) (gridView_blind.of_ringDiscard ..)) (.refl s3)
    have h5 : Calm s4 s5 := .ite (.of_views rfl rfl) (.refl s4)
    have h6 : Calm s5 s6 := calm_setLch (by rfl)
    have h7 : Calm s6 s7 := .ite (calm_atBoundary hp 7 s6) (.ite (calm_atBoundary hp 1 s6) (.refl s6))
    have h8 : Calm s7 s8 := .of_views (by rfl) (by rfl)
    have h9 : Calm s8 s9 := .ite (.refl s8) (calm_slotPin p 0 s8)
    exact h1.trans (h2.trans (h3.trans (h4.trans (h5.trans (h6.trans (h7.trans (h8.trans (h9.trans
      (calm_flightApplied p t s9)))))))))

theorem calm_phsEffect (b : Nat) (s : State) : Calm s (phsEffect p b s) :=
  .ite ((calm_setLch (by rfl)).trans (calm_atBoundary hp 8 _)) ((calm_setLch (by rfl)).trans (calm_atBoundary hp 3 _))

/-- The bits of PHS_n_CMD that wait for a port's boundary take effect. -/
theorem calm_phsBoundary (s : State) : Calm s (phsBoundary p s) := by
  refine Calm.trans (t := setLch p { lch s p with cmds := [] } s) (calm_setLch (by rfl)) (Calm.each (fun b s => ?_) _)
  refine (calm_phsEffect hp b s).trans ?_
  unfold cmdDone
  split
  · exact Calm.trans (.of_views (by rfl) (by rfl)) (calm_setLch (by rfl))
  · exact .of_views (stillView_setHw (by omega) ..) (gridView_blind.of_setHw (by omega) ..)

end

end Sys2Proof.Machine
end

section
/-!
REASONING. The parts of a launch (O50, R143, R146, R147, R161 to R165): the pins, the step of the grid, the outcome of a shot,
and the launch itself.
-/

namespace Sys2Proof.Machine

/-! ### Pins -/

theorem launchPin_same {p : Nat} (hp : p < 4) (high : Bool) (s : State) :
    (launchPin p high s).pins.launch.getLsbD p = (high != invertOf (cfg s) p) := by
  unfold launchPin
  dsimp only
  split
  case isTrue h => rw [h, BitVec.getLsbD_or, BitVec.getLsbD_ofNat, Nat.testBit_two_pow_self, decide_eq_true hp]; simp
  case isFalse h =>
    rw [Bool.eq_false_iff.mpr h, BitVec.getLsbD_and, BitVec.getLsbD_not, BitVec.getLsbD_ofNat, Nat.testBit_two_pow_self,
      decide_eq_true hp]
    simp

theorem launchPin_ne {p q : Nat} (hq : q < 4) (hne : q ≠ p) (high : Bool) (s : State) :
    (launchPin p high s).pins.launch.getLsbD q = s.pins.launch.getLsbD q := by
  have hbit : (2 ^ p).testBit q = false := by rw [Nat.testBit_two_pow]; exact decide_eq_false hne.symm
  unfold launchPin
  dsimp only
  split
  · rw [BitVec.getLsbD_or, BitVec.getLsbD_ofNat, hbit]; simp
  · rw [BitVec.getLsbD_and, BitVec.getLsbD_not, BitVec.getLsbD_ofNat, hbit, decide_eq_true hq]; simp

theorem slotPin_slot (p k : Nat) (s : State) : smGet 0 p (slotPin p k s).pins.slot = slotCodeOf (cfg s) p k := by
  unfold slotPin
  dsimp only
  split
  · assumption
  · exact smGet_smPut_same ..

theorem slotPin_rest (p k : Nat) (s : State) :
    slotPin p k s = { s with pins := { s.pins with slot := (slotPin p k s).pins.slot }, lch := (slotPin p k s).lch } := by
  unfold slotPin
  dsimp only
  split <;> rfl

/-! ### The step of the grid -/

theorem fgLateCheck_leaves (p : Nat) (s : State) : (fgLateCheck p s).lch = s.lch ∧ (fgLateCheck p s).pins = s.pins ∧
    (fgLateCheck p s).clk = s.clk ∧ (fgLateCheck p s).regs.active = s.regs.active := by
  unfold fgLateCheck
  dsimp only
  split
  · simp [cnvRaise]
  · split <;> exact ⟨rfl, rfl, rfl, rfl⟩

/-- The grid of a port has moved on by one launch (R143). -/
structure GridMoved (p : Nat) (s t : State) : Prop where
  port : ∃ cycle fgSkip fgSpan, lch t p = { lch s p with
    next := if (lch s p).next + 1 < slotsOf (cfg s) p then (lch s p).next + 1 else 0
    grid := if (lch s p).next + 1 < slotsOf (cfg s) p then (lch s p).grid else (lch s p).grid.map (· + periodOf (cfg s) p)
    cycle, fgSkip, fgSpan }
  others : ∀ q, q ≠ p → lch t q = lch s q
  words : ∀ a, a ≠ 0x20040 → a ≠ 0x20048 → hw t a = hw s a
  pins : t.pins = s.pins
  clk : t.clk = s.clk
  active : t.regs.active = s.regs.active

theorem gridMoved_setLch {p cycle fgSkip : Nat} {fgSpan : Option (Nat × Nat)} {s u : State} {x : Lch}
    (hend : ¬ (lch s p).next + 1 < slotsOf (cfg s) p)
    (hu : u = fgLateCheck p (setLch p { lch s p with next := 0, grid := (lch s p).grid.map (· + periodOf (cfg s) p) } s))
    (hx : x = { lch u p with cycle, fgSkip, fgSpan }) : GridMoved p s (setLch p x u) := by
  obtain ⟨hlch, hpins, hclk, hactive⟩ :=
    fgLateCheck_leaves p (setLch p { lch s p with next := 0, grid := (lch s p).grid.map (· + periodOf (cfg s) p) } s)
  have hwords : ∀ a, a ≠ 0x20040 → a ≠ 0x20048 → hw u a = hw s a := fun a h h' => by
    rw [hu, hw_fgLateCheck_off h h']
    rfl
  rw [← hu] at hlch hpins hclk hactive
  have hport : lch u p = { lch s p with next := 0, grid := (lch s p).grid.map (· + periodOf (cfg s) p) } := by
    rw [lch, hlch]
    exact lch_setLch_same ..
  refine ⟨⟨cycle, fgSkip, fgSpan, ?_⟩, fun q hq => ?_, hwords, hpins, hclk, hactive⟩
  · rw [lch_setLch_same, hx, hport, if_neg hend, if_neg hend]
  · rw [lch_setLch_ne _ hq, lch, hlch]
    exact lch_setLch_ne _ hq s

theorem gridNext_moves (p : Nat) (s : State) : GridMoved p s (gridNext p s) := by
  unfold gridNext
  extract_lets m x c0 grid s1 y due tail
  split
  case isTrue hmore =>
    refine ⟨⟨(lch s p).cycle, (lch s p).fgSkip, (lch s p).fgSpan, ?_⟩, fun q hq => lch_setLch_ne _ hq s,
      fun _ _ _ => rfl, rfl, rfl, rfl⟩
    rw [lch_setLch_same, if_pos hmore, if_pos hmore]
  case isFalse hend =>
    split
    · exact gridMoved_setLch hend rfl (fgSkip := y.fgSkip - 1) (cycle := y.cycle) (fgSpan := y.fgSpan) rfl
    · split
      case h_1 k _ => exact gridMoved_setLch hend rfl (fgSkip := k + 1) (cycle := 0) (fgSpan := fgSpanOf m p c0 (k + 1)) rfl
      case h_2 =>
        exact gridMoved_setLch hend rfl (fgSkip := y.fgSkip) (cycle := y.cycle + 1)
          (fgSpan := if tail then fgSpanOf m p c0 0 else none) rfl

/-! ### The outcome of a shot -/

/-- What the outcome of a shot of port `p` leaves: the launch generators but for the jitter block of the port, and the
configuration. -/
def settleView (p : Nat) (s : State) : Lch × (Nat → Lch) × ClkSt × SMap Word × List Override :=
  ({ lch s p with deltas := [], misses := 0 }, fun q => if q = p then {} else lch s q, s.clk, s.regs.active, s.regs.overrides)

theorem settleView_blind (p : Nat) : Blind (settleView p) where
  put _ _ _ _ _ _ _ _ _ _ _ _ _ _ _ _ _ _ _ _ := rfl
  putPins _ _ _ _ _ := rfl
  putLgr _ _ _ := rfl
  putLaps _ _ := rfl
  of_setHw _ _ _ := rfl

/-- A change of the jitter block of a port, from what it was in a state seen alike. -/
theorem settleView_setLch {p : Nat} {deltas : List Int} {misses : Nat} {x : Lch} {s u : State}
    (hx : x = { lch u p with deltas, misses }) (hu : settleView p u = settleView p s) :
    settleView p (setLch p x u) = settleView p s := by
  rw [← hu]
  unfold settleView
  have hothers : (fun q => if q = p then {} else lch (setLch p x u) q) = fun q => if q = p then {} else lch u q := by
    funext q
    by_cases h : q = p
    · rw [if_pos h, if_pos h]
    · rw [if_neg h, if_neg h, lch_setLch_ne x h]
  rw [hothers, lch_setLch_same, hx]
  rfl

theorem settleView_jitterCheck (p : Nat) (s : State) : settleView p (jitterCheck p s) = settleView p s := by
  have hb := settleView_blind p
  unfold jitterCheck
  dsimp only
  split
  · rfl
  · rw [hb.of_rill, hb.of_raise (by decide), hb.of_setCnt (by omega)]
    refine settleView_setLch (deltas := []) (misses := 0) ?_ (hb.of_latchStats (by omega) ..)
    rw [show lch (latchStats (0x31404 + 0x40 * p) (lch s p).deltas s) p = lch s p by simp [lch, latchStats]]

theorem settleView_settleShot (p : Nat) (x : Shot) (s : State) : settleView p (settleShot p x s).2 = settleView p s := by
  have hb := settleView_blind p
  unfold settleShot
  extract_lets m s1 y sMiss
  have h1 : settleView p s1 = settleView p s := hb.of_addCnt64 (by simp) ..
  rw [← h1]
  split
  · simp only [hb.of_setHw (lt_lchA ..)]
    refine settleView_setLch (deltas := y.deltas) (misses := y.misses + 1) ?_
      ((hb.of_raise (lt_lchA ..) ..).trans (hb.of_addCnt64 (lt_lgrFp ..) ..))
    simp [y, lch]
  · extract_lets d a ok used fl s2 s3 s4
    have h2 : settleView p s2 = settleView p s1 := by
      refine settleView_setLch (deltas := y.deltas ++ [d]) (misses := y.misses) ?_ (hb.of_addCnt64 (lt_lgrFp ..) ..)
      simp [y, lch]
    have h3 : settleView p s3 = settleView p s2 := by
      simp only [s3, apply_ite (settleView p), hb.of_raise (lt_lchA ..), hb.of_addHold (lt_lchA ..), ite_self]
    exact (settleView_jitterCheck p _).trans (((hb.of_setHw (by simp) ..).trans (hb.of_setHw (by simp) ..)).trans (h3.trans h2))

/-- The outcome of a shot says nothing new of when it was launched. -/
theorem settleShot_launch (p : Nat) (x : Shot) (s : State) : (settleShot p x s).1.index = x.index ∧
    (settleShot p x s).1.slot = x.slot ∧ (settleShot p x s).1.tick = x.tick ∧ (settleShot p x s).1.tIdeal = x.tIdeal := by
  unfold settleShot
  split <;> exact ⟨rfl, rfl, rfl, rfl⟩

/-! ### The launch -/

/-- The state in which a launch at a tick is made: a shot boundary first where it is that of slot 0. -/
def atLaunch (p tick : Nat) (s : State) : State :=
  if (lch s p).next = 0 then phsBoundary p (fibreApply p (timeOfPos s (4000 * tick : Nat) 1) s) else s

theorem calm_atLaunch {p : Nat} (hp : p < 4) (tick : Nat) (s : State) : Calm s (atLaunch p tick s) :=
  .ite ((calm_fibreApply hp _ s).trans (calm_phsBoundary hp _)) (.refl s)

/-- The launch `x` of port `p` at its ideal instant `t0` has led from `s` to `t` (R161, R165). -/
structure Launched (p tick : Nat) (t0 : Stamp) (x : Shot) (s t : State) : Prop where
  index : x.index = (lch s p).nextIndex
  slot : x.slot = (lch s p).next
  tick : x.tick = tick
  ideal : x.tIdeal = t0
  port : ∃ lastTick prime deltas misses, lch t p = { lch s p with
    shots := (lch s p).shots ++ [x], nextIndex := (lch s p).nextIndex + 1, lastSlot := (lch s p).next, lastTick, prime,
    config := false, zeroed := false, acts := 0, deltas, misses }
  others : ∀ q, q ≠ p → lch t q = lch s q
  count : cnt64 t (lchA p 0x48) = (lch s p).nextIndex % 2 ^ 64
  pin : p < 4 → t.pins.launch.getLsbD p = !invertOf (cfg s) p
  clk : t.clk = s.clk
  active : t.regs.active = s.regs.active
  cfg : cfg t = Machine.cfg s

theorem cnt64_setCnt64_mod (a n : Nat) (s : State) : cnt64 (setCnt64 a n s) a = n % 2 ^ 64 := by
  unfold cnt64 setCnt64 wd
  rw [hw_setHw_same, hw_setHw_ne _ (by omega), hw_setHw_same]
  simp only [BitVec.toNat_ofNat]
  omega

/-- The shot is noted in the registers and its pulse begins. -/
def launchNoted (p : Nat) (t0 : Stamp) (n : Nat) (s : State) : State :=
  launchPin p true (rill (68 + p) 1 (setStamp (lchA p 0x60) t0 (setCnt64 (lchA p 0x48) n s)))

theorem cnt64_launchNoted {p : Nat} (hp : p < 4) (t0 : Stamp) (n : Nat) (s : State) :
    cnt64 (launchNoted p t0 n s) (lchA p 0x48) = n % 2 ^ 64 := by
  have hword {a : Nat} (ha : a < lchA p 0x60) : hw (launchNoted p t0 n s) a = hw (setCnt64 (lchA p 0x48) n s) a := by
    unfold lchA at ha
    refine (hw_rill_ne (by omega) _).trans ?_
    unfold setStamp
    rw [hw_setHw_ne _ (by unfold lchA; omega), hw_setHw_ne _ (by unfold lchA; omega), hw_setHw_ne _ (by unfold lchA; omega)]
  rw [cnt64_congr (hword (by unfold lchA; omega)) (hword (by unfold lchA; omega)), cnt64_setCnt64_mod]

theorem launchNoted_keeps {β : Type} {g : State → β} (hg : Blind g) (p : Nat) (t0 : Stamp) (n : Nat) (s : State) :
    g (launchNoted p t0 n s) = g s :=
  (hg.of_launchPin ..).trans ((hg.of_rill ..).trans ((hg.of_setStamp (by simp) ..).trans (hg.of_setCnt64 (by simp) ..)))

theorem pin_launchNoted {p : Nat} (hp : p < 4) (t0 : Stamp) (n : Nat) (s : State) :
    (launchNoted p t0 n s).pins.launch.getLsbD p = !invertOf (cfg s) p := by
  rw [launchNoted, launchPin_same hp, cfg_congr (s := s) (by simp) (by simp), Bool.true_bne]

/-- The launch generators, the clocks and the configuration. -/
def launchView (s : State) : SMap Lch × ClkSt × SMap Word × List Override := (s.lch, s.clk, s.regs.active, s.regs.overrides)

theorem launchView_blind : Blind launchView where
  put _ _ _ _ _ _ _ _ _ _ _ _ _ _ _ _ _ _ _ _ := rfl
  putPins _ _ _ _ _ := rfl
  putLgr _ _ _ := rfl
  putLaps _ _ := rfl
  of_setHw _ _ _ := rfl

/-- A port's launch generator after it has launched `x`. -/
def withShot (x : Shot) (lastSlot : Nat) (lastTick : SMap Nat) (prime : BitVec 4) (y : Lch) : Lch :=
  { y with shots := y.shots ++ [x], nextIndex := y.nextIndex + 1, lastSlot, lastTick, prime, config := false,
           zeroed := false, acts := 0 }

theorem launched_noted {p tick : Nat} {t0 : Stamp} {x : Shot} {y : Lch} {s u : State} {lastTick : SMap Nat} {prime : BitVec 4}
    (hp : p < 4) (hu : settleView p u = settleView p s) (hindex : x.index = (lch s p).nextIndex) (hslot : x.slot = (lch s p).next)
    (htick : x.tick = tick) (hideal : x.tIdeal = t0)
    (hy : y = withShot x (lch s p).next lastTick prime (lch u p)) :
    Launched p tick t0 x s (launchNoted p t0 x.index (setLch p y u)) := by
  obtain ⟨hblank, hothers, hclk, hactive, hovr⟩ :
      { lch u p with deltas := [], misses := 0 } = { lch s p with deltas := [], misses := 0 } ∧
      (∀ q, q ≠ p → lch u q = lch s q) ∧ u.clk = s.clk ∧ u.regs.active = s.regs.active ∧
      u.regs.overrides = s.regs.overrides := by
    refine ⟨congrArg (·.1) hu, fun q hq => ?_, congrArg (·.2.2.1) hu, congrArg (·.2.2.2.1) hu, congrArg (·.2.2.2.2) hu⟩
    have hother := congrFun (congrArg (·.2.1) hu) q
    simpa only [settleView, if_neg hq] using hother
  have hport : lch u p = { lch s p with deltas := (lch u p).deltas, misses := (lch u p).misses } :=
    congrArg (fun z : Lch => { z with deltas := (lch u p).deltas, misses := (lch u p).misses }) hblank
  have hcfg : cfg (setLch p y u) = cfg s := cfg_congr hactive hovr
  have hpin := pin_launchNoted hp t0 x.index (setLch p y u)
  have hcount := cnt64_launchNoted hp t0 x.index (setLch p y u)
  have hview := launchNoted_keeps launchView_blind p t0 x.index (setLch p y u)
  generalize launchNoted p t0 x.index (setLch p y u) = t at *
  have hlch (q : Nat) : lch t q = lch (setLch p y u) q := lch_congr (congrArg (·.1) hview) q
  have hact : t.regs.active = (setLch p y u).regs.active := congrArg (·.2.2.1) hview
  refine ⟨hindex, hslot, htick, hideal, ⟨lastTick, prime, (lch u p).deltas, (lch u p).misses, ?_⟩, fun q hq => ?_,
    hcount.trans (by rw [hindex]), fun _ => hpin.trans (by rw [hcfg]), (congrArg (·.2.1) hview).trans hclk, hact.trans hactive,
    (cfg_congr hact (congrArg (·.2.2.2) hview)).trans hcfg⟩
  · rw [hlch, lch_setLch_same, hy, hport]
    rfl
  · rw [hlch, lch_setLch_ne _ hq, hothers q hq]

theorem launchAt_launches {p : Nat} (hp : p < 4) (tick : Nat) (s : State) :
    ∃ x, Launched p tick (timeOfPos s (4000 * tick : Nat) 1) x (atLaunch p tick s) (launchAt p tick s) := by
  unfold launchAt
  extract_lets t0 s1 m x slot P last gap prime long fl watched mid win shot
  have hview : settleView p (if watched then (shot, s1) else settleShot p shot s1).2 = settleView p s1 := by
    split
    · rfl
    · exact settleView_settleShot ..
  have hshot : (if watched then (shot, s1) else settleShot p shot s1).1.index = shot.index ∧
      (if watched then (shot, s1) else settleShot p shot s1).1.slot = shot.slot ∧
      (if watched then (shot, s1) else settleShot p shot s1).1.tick = shot.tick ∧
      (if watched then (shot, s1) else settleShot p shot s1).1.tIdeal = shot.tIdeal := by
    split
    · exact ⟨rfl, rfl, rfl, rfl⟩
    · exact settleShot_launch ..
  generalize (if watched then (shot, s1) else settleShot p shot s1) = settled at hview hshot
  obtain ⟨y, u⟩ := settled
  obtain ⟨hindex, hslot, htick, hideal⟩ := hshot
  exact ⟨y, launched_noted hp hview hindex hslot htick hideal (y := withShot y slot _ _ (lch u p)) rfl⟩

end Sys2Proof.Machine
end

section
/-!
REASONING. The launch commands (O50, R143, R146, R147): a launch that is made or withheld, the beginning of a grid, and the
resumption of the sample clock.
-/

namespace Sys2Proof.Machine

/-! ### LAUNCH -/

section
variable {s : State} {p : Fin 4} {g : Nat} (hg : (lch s p).grid = some g)
include hg

theorem exec_launch_early (hcome : tickCome s (g + (lch s p).next * spacingOf (cfg s) p) = false) :
    exec (.launch p) s = .next s := by
  change execLaunch p s = _
  refine run_of_same ?_
  dsimp only
  rw [hg]
  exact if_pos (.inr (by rw [hcome]; rfl))

variable (hb : s.boot ≠ .held) (hnext : 0 < (lch s p).next) (hl : launching s p = true)
  (hcome : tickCome s (g + (lch s p).next * spacingOf (cfg s) p) = true)
include hb hnext hl hcome

/-- A launch of a slot after slot 0 joins no ALIGNED commit. -/
theorem exec_launch_later : exec (.launch p) s = .next (restored s
    (if (lch s p).alignHold ∨ 0 < (lch s p).fgSkip then gridNext p (withheld p s)
     else gridNext p (launchAt p (g + (lch s p).next * spacingOf (cfg s) p) s))) := by
  have hlater : (lch s p).next ≠ 0 := by omega
  have hmade (tick : Nat) : launchMade p tick s = gridNext p (launchAt p tick s) := by
    unfold launchMade
    rw [if_neg hlater, if_pos hl]
  change execLaunch p s = _
  refine run_of_eq hb ?_
  dsimp only
  rw [hg]
  dsimp only
  rw [if_neg (by simp [hl, hcome])]
  simp only [decide_eq_false hlater, Bool.false_and, Bool.false_eq_true, if_false, hmade]

end

theorem atLaunch_of_later {p tick : Nat} {s : State} (h : 0 < (lch s p).next) : atLaunch p tick s = s := if_neg (by omega)

theorem withheld_lch (p : Nat) (s : State) : (withheld p s).lch = s.lch := by simp [withheld]

theorem cnt64_withheld (p : Nat) (s : State) :
    cnt64 (withheld p s) (lchA p 0x50) = (cnt64 s (lchA p 0x50) + 1) % 2 ^ 64 := by
  unfold withheld
  rw [cnt64_congr (hw_raise_ne _ (by unfold lchA; omega) _) (hw_raise_ne _ (by unfold lchA; omega) _), cnt64_addCnt64_same]

theorem raised_withheld (p : Nat) (s : State) : Raised (lchA p 0x40) 1 s (withheld p s) :=
  (raised_raise (addCnt64 (lchA p 0x50) 1 s) (by decide)).congr
    (hw_addCnt64_ne 1 (by unfold lchA; omega) (by unfold lchA; omega) s) rfl

/-! ### The beginning of a grid -/

/-- The grid of port `p` begins with the launch of slot 0 at a tick. -/
structure Begun (p tick : Nat) (s t : State) : Prop where
  grid : (lch t p).grid.isSome = true
  nextIndex : (lch t p).nextIndex = (lch s p).nextIndex + 1
  shot : ∃ x, (lch t p).shots.getLast? = some x ∧ x.slot = 0 ∧ x.tick = tick ∧ x.index = (lch s p).nextIndex
  event : bit (hw t (lchA p 0x40)) 0 = true
  clk : t.clk = s.clk
  others : ∀ q, q ≠ p → gridOf (lch t q) = gridOf (lch s q)

/-- The launch generator of a port at the start of its grid. -/
def gridFresh (tick : Nat) (x : Lch) : Lch :=
  { x with grid := some tick, next := 0, cycle := 0, fgSkip := 0, fgSpan := none, alignHold := false }

theorem calm_slotPin_over {s t : State} {p slot : Nat} (hlch : t.lch = s.lch) (hclk : t.clk = s.clk) (q : Nat) :
    gridOf (lch (slotPin p slot t) q) = gridOf (lch s q) ∧ (slotPin p slot t).clk = s.clk := by
  have h := calm_slotPin p slot t
  exact ⟨(h.grid q).trans (congrArg gridOf (lch_congr hlch q)), h.clk.trans hclk⟩

theorem gridStart_begins {p : Nat} (hp : p < 4) (tick : Nat) (s : State) :
    Begun p tick s (raise (lchA p 0x40) 0 (gridStart p tick s)) := by
  unfold gridStart
  extract_lets y u
  obtain ⟨hlch, -, hclk, -⟩ := fgLateCheck_leaves p u
  have hready := calm_slotPin_over (p := p) (slot := 0) hlch hclk
  generalize slotPin p 0 (fgLateCheck p u) = v at hready
  have hcalm := calm_atLaunch hp tick v
  obtain ⟨x, hx⟩ := launchAt_launches hp tick v
  generalize atLaunch p tick v = b at hcalm hx
  generalize launchAt p tick v = w at hx
  have hmoved := gridNext_moves p w
  generalize gridNext p w = t at hmoved
  have hgrid (q : Nat) : gridOf (lch b q) = gridOf (lch u q) := (hcalm.grid q).trans (hready q).1
  have hfresh : gridOf (lch b p) = gridOf (gridFresh tick (lch s p)) := (hgrid p).trans (congrArg gridOf (lch_setLch_same ..))
  obtain ⟨lastTick, prime, deltas, misses, hport⟩ := hx.port
  obtain ⟨cycle, fgSkip, fgSpan, hmove⟩ := hmoved.port
  have hindex : (lch b p).nextIndex = (lch s p).nextIndex := (congrArg Lch.nextIndex hfresh :)
  have hnext : (lch b p).next = 0 := (congrArg Lch.next hfresh :)
  have hsome : (lch b p).grid = some tick := (congrArg Lch.grid hfresh :)
  have hlast (q : Nat) : lch (raise (lchA p 0x40) 0 t) q = lch t q := lch_congr (raise_lch ..) q
  refine ⟨?_, ?_, ⟨x, ?_, hx.slot.trans hnext, hx.tick, hx.index.trans hindex⟩, (raised_raise _ (by decide)).1, ?_,
    fun q hq => ?_⟩
  · rw [hlast, hmove, hport]
    dsimp only
    split <;> simp [hsome]
  · rw [hlast, hmove, hport, ← hindex]
  · rw [hlast, hmove, hport]
    exact List.getLast?_concat ..
  · rw [raise_clk, hmoved.clk, hx.clk, hcalm.clk, (hready p).2]
    rfl
  · rw [hlast, hmoved.others q hq, hx.others q hq, hgrid, lch_setLch_ne _ hq]

/-- What FIRST_LAUNCH needs of a port: nothing waits for its boundary, and its grid has not begun (R146). -/
structure ReadyToBegin (p : Nat) (s : State) : Prop where
  launches : launching s p = true
  noGrid : (lch s p).grid = none
  noFallback : (lch s p).fallback = []
  calibrated : calDone s p = true
  unaligned : s.commits.align = []

theorem firstLaunch_begins {p : Nat} (hp : p < 4) {s : State} (h : ReadyToBegin p s) :
    Begun p (sliceEdge s) s (firstLaunch p s) := by
  have hfirst : firstLaunch p s = raise (lchA p 0x40) 0 (gridStart p (sliceEdge s) s) := by
    have hov : overridesApply p s = s := if_pos h.noFallback
    unfold firstLaunch
    simp [h.launches, h.noGrid, hov, h.calibrated, h.unaligned]
  rw [hfirst]
  exact gridStart_begins hp ..

/-- A port that does not launch, and for whose boundary no override waits, does not begin. -/
theorem firstLaunch_idle {p : Nat} {s : State} (hl : launching s p = false) (hf : (lch s p).fallback = []) :
    firstLaunch p s = s := by
  have hov : overridesApply p s = s := if_pos hf
  unfold firstLaunch
  simp [hl, hov]

/-- A port whose grid has begun does not begin again. -/
theorem firstLaunch_again {p : Nat} {s : State} (h : (lch s p).grid.isSome = true) : firstLaunch p s = s := by
  have hnone : (lch s p).grid.isNone = false := by simpa using h
  unfold firstLaunch
  simp [hnone]

theorem exec_firstLaunch {s : State} {p : Fin 4} (hb : s.boot ≠ .held) (hr : s.clk.resume = false)
    (he : leadEdge s p 0 ≤ sliceEdge s) : exec (.firstLaunch p) s = .next (restored s (firstLaunch p s)) := by
  change execFirstLaunch p s = _
  exact run_of_eq hb (if_neg (by simp [hr, he]))

/-! ### SLOT_CODE_UPDATE and LAUNCH_PULSE_END -/

theorem exec_slotCodeUpdate {s : State} {p : Fin 4} (hb : s.boot ≠ .held) (ha : (lch s p).armed = true)
    (h : (lch s p).grid = none ∨ (lch s p).alignHold = true ∨ ∃ g, (lch s p).grid = some g ∧
      tickCome s (g + (lch s p).next * spacingOf (cfg s) p - slotLead (cfg s) p) = true) :
    exec (.slotCodeUpdate p) s = .next (restored s (slotPin p (nextSlot s p) s)) := by
  change execSlotCodeUpdate p s = _
  refine run_of_eq hb (if_pos ?_)
  rw [ha, Bool.true_and]
  rcases h with hg | hh | ⟨g, hg, hcome⟩
  · rw [hg]
  · cases (lch s p).grid with
    | none => rfl
    | some g => exact Bool.or_eq_true_iff.mpr (.inl hh)
  · rw [hg]
    exact Bool.or_eq_true_iff.mpr (.inr hcome)

theorem exec_launchPulseEnd {s : State} {p : Fin 4} (hb : s.boot ≠ .held)
    (h : s.clk.stopped = true ∨ tickCome s (lastLaunch (lch s p) + widthOf (cfg s) p) = true) :
    exec (.launchPulseEnd p) s = .next (restored s (launchPin p false s)) := by
  change execLaunchPulseEnd p s = _
  exact run_of_eq hb (if_pos (by simpa using h))

/-! ### SAMPLE_CLOCK_RESUME -/

/-- The aligned commits and the configuration: what no boundary act writes. -/
def alignView (s : State) : List AlignSet × SMap Word × List Override := (s.commits.align, s.regs.active, s.regs.overrides)

theorem alignView_blind : Blind alignView where
  put _ _ _ _ _ _ _ _ _ _ _ _ _ _ _ _ _ _ _ _ := rfl
  putPins _ _ _ _ _ := rfl
  putLgr _ _ _ := rfl
  putLaps _ _ := rfl
  of_setHw _ _ _ := rfl

/-- The fresh start of the launch generators and of the lane trigger units (R187, R223). -/
def startFresh (s : State) : State := restartLaneUnits (launchesFresh s)

theorem calm_launchesFresh (s : State) : Calm s (launchesFresh s) :=
  each_induction (P := Calm s) (fun p hp t ht => ht.trans
    (.ite ((calm_setLch (by rfl)).trans (calm_atBoundary (List.mem_range.mp hp) 3 _)) (.refl t))) (.refl s)

theorem calm_restartLaneUnits (s : State) : Calm s (restartLaneUnits s) :=
  Calm.each (fun _ t => .ite (.of_views (stillView_setUnit (by rfl)) (by rfl)) (.refl t)) _

theorem calm_startFresh (s : State) : Calm s (startFresh s) := (calm_launchesFresh s).trans (calm_restartLaneUnits _)

theorem alignView_startFresh (s : State) : alignView (startFresh s) = alignView s := by
  have hset (p : Nat) (x : Lch) (s : State) : alignView (setLch p x s) = alignView s := by rfl
  have hat (p acts : Nat) (s : State) : alignView (atBoundary p acts s) = alignView s := by
    simp only [atBoundary, alignView_blind.of_boundaryActs, hset, apply_ite alignView, ite_self]
  have hunit (u : Nat) (s : State) : alignView (restartUnit u s) = alignView s := by rfl
  simp only [startFresh, restartLaneUnits, launchesFresh, each_keeps alignView, hset, hat, hunit, apply_ite alignView, ite_self,
    implies_true]

theorem calDone_congr {s t : State} (hcnv : t.cnv = s.cnv) (hcfg : cfg t = cfg s) (p : Nat) : calDone t p = calDone s p := by
  unfold calDone portConvs conv
  rw [hcnv, hcfg]

theorem launching_congr {s t : State} {p : Nat} (harmed : (lch t p).armed = (lch s p).armed) (hclk : t.clk = s.clk) :
    launching t p = launching s p := by
  unfold launching
  rw [harmed, hclk]

theorem ReadyToBegin.startFresh {p : Nat} {s : State} (h : ReadyToBegin p s) : ReadyToBegin p (startFresh s) := by
  have hcalm := calm_startFresh s
  obtain ⟨halign, hactive, hovr⟩ : (Machine.startFresh s).commits.align = s.commits.align ∧
      (Machine.startFresh s).regs.active = s.regs.active ∧ (Machine.startFresh s).regs.overrides = s.regs.overrides := by
    simpa only [alignView, Prod.mk.injEq] using alignView_startFresh s
  exact ⟨(launching_congr (hcalm.armed p) hcalm.clk).trans h.launches, (hcalm.lchGrid p).trans h.noGrid,
    (hcalm.fallback p).trans h.noFallback, (calDone_congr hcalm.cnv (cfg_congr hactive hovr) p).trans h.calibrated,
    halign.trans h.unaligned⟩

/-- The ports but `p` make no launch and nothing waits for their boundary. -/
def OthersIdle (p : Nat) (s : State) : Prop := ∀ q, q ≠ p → (lch s q).armed = false ∧ (lch s q).fallback = []

theorem OthersIdle.of_grid {p : Nat} {s t : State} (h : OthersIdle p s)
    (hg : ∀ q, q ≠ p → gridOf (lch t q) = gridOf (lch s q)) :
    OthersIdle p t := fun q hq =>
  ⟨(congrArg Lch.armed (hg q hq)).trans (h q hq).1, (congrArg Lch.fallback (hg q hq)).trans (h q hq).2⟩

theorem OthersIdle.firstLaunch {p q : Nat} {s : State} (h : OthersIdle p s) (hq : q ≠ p) : firstLaunch q s = s :=
  firstLaunch_idle (by unfold launching; rw [(h q hq).1]; rfl) (h q hq).2

/-- Among all ports only the one that is armed begins. -/
theorem each_firstLaunch {p : Nat} (hp : p < 4) {s : State} (h : ReadyToBegin p s) (hidle : OthersIdle p s) :
    Begun p (sliceEdge s) s (each (List.range 4) firstLaunch s) := by
  have hend := each_reaches (f := firstLaunch) (c := p) (l := List.range 4) (Q := fun t => t = s)
    (P := fun t => OthersIdle p t ∧ Begun p (sliceEdge s) s t) (List.mem_range.mpr hp)
    (fun q t hq ht => by rw [ht]; exact hidle.firstLaunch hq)
    (fun t ht => by
      rw [ht]
      have hbegun := firstLaunch_begins hp h
      exact ⟨hidle.of_grid hbegun.others, hbegun⟩)
    (fun q t ht => by
      obtain ⟨hothers, hbegun⟩ := ht
      by_cases hq : q = p
      · rw [hq, firstLaunch_again hbegun.grid]
        exact ⟨hothers, hbegun⟩
      · rw [hothers.firstLaunch hq]
        exact ⟨hothers, hbegun⟩) rfl
  exact hend.2

/-- The resumption of the sample clock is at hand. -/
def resumed (s : State) : State := { s with clk := { s.clk with resume := false } }

theorem exec_sampleClockResume {s : State} (hb : s.boot ≠ .held) (hr : s.clk.resume = true) (hs : s.clk.stopped = false)
    (hq : ∀ c < 16, (conv s c).qcal = none) : exec .sampleClockResume s = .next (restored s
      (each (List.range 4) firstLaunch (startFresh (resumed s)))) := by
  have hall : ((List.range 16).all fun c => (conv s c).qcal.isNone) = true :=
    List.all_eq_true.mpr fun c hc => by rw [hq c (List.mem_range.mp hc)]; rfl
  change execSampleClockResume s = _
  exact run_of_eq hb (if_pos (by simp only [hr, hs, hall]; rfl))

/-- The one port that is armed begins with the resumption. -/
theorem resumed_begins {s : State} {p : Nat} (hp : p < 4) (h : ReadyToBegin p (resumed s)) (hidle : OthersIdle p s) :
    Begun p (sliceEdge (startFresh (resumed s))) (resumed s) (each (List.range 4) firstLaunch (startFresh (resumed s))) := by
  have hcalm := calm_startFresh (resumed s)
  have hbegun := each_firstLaunch hp h.startFresh (OthersIdle.of_grid (s := resumed s) hidle fun q _ => hcalm.grid q)
  obtain ⟨x, hlast, hslot, htick, hindex⟩ := hbegun.shot
  exact ⟨hbegun.grid, hbegun.nextIndex.trans (congrArg (· + 1) (hcalm.nextIndex p)),
    ⟨x, hlast, hslot, htick, hindex.trans (hcalm.nextIndex p)⟩, hbegun.event, hbegun.clk.trans hcalm.clk,
    fun q hq => (hbegun.others q hq).trans (hcalm.grid q)⟩

end Sys2Proof.Machine
end

section
/-!
REASONING. The ledger of launches (O50, R162): the oldest window of a port closes at its end.
SETTLES. O50.
-/

namespace Sys2Proof.Machine

/-! ### The ledger of launches -/

/-- The words that the outcome of a shot counts in. -/
theorem hw_jitterCheck {a : Nat} (h : 0xD0000 ≤ a) (h' : a < 0xD3000) {p : Nat} (hp : p < 4) (s : State) :
    hw (jitterCheck p s) a = hw s a := by
  unfold jitterCheck
  dsimp only
  split
  · rfl
  · rw [hw_rill_ne h', hw_raise_ne _ (by omega), setCnt, hw_setHw_ne _ (by omega), hw_setLch]
    unfold latchStats
    simp only [setCnt64]
    repeat rw [hw_setHw_ne _ (by omega)]

theorem cnt64_jitterCheck {p off : Nat} (hp : p < 4) (hoff : off ≤ 0x10) (s : State) :
    cnt64 (jitterCheck p s) (lgrFp p off) = cnt64 s (lgrFp p off) :=
  cnt64_congr (hw_jitterCheck (by unfold lgrFp; omega) (by unfold lgrFp; omega) hp s)
    (hw_jitterCheck (by unfold lgrFp; omega) (by unfold lgrFp; omega) hp s)

/-- A launch that the ledger enters: launched, and either confirmed or missed. -/
structure Settled (p confirmed missed : Nat) (s t : State) : Prop where
  launched : cnt64 t (lgrFp p 0) = (cnt64 s (lgrFp p 0) + 1) % 2 ^ 64
  confirmed : cnt64 t (lgrFp p 8) = (cnt64 s (lgrFp p 8) + confirmed) % 2 ^ 64
  missed : cnt64 t (lgrFp p 0x10) = (cnt64 s (lgrFp p 0x10) + missed) % 2 ^ 64

theorem Settled.of_words {p confirmed missed : Nat} {s t u : State} (h : Settled p confirmed missed s t)
    (hu : u.regs.hw = t.regs.hw) : Settled p confirmed missed s u := by
  have hsame (a : Nat) : cnt64 u a = cnt64 t a := cnt64_congr (hw_congr hu _) (hw_congr hu _)
  exact ⟨(hsame _).trans h.launched, (hsame _).trans h.confirmed, (hsame _).trans h.missed⟩

theorem cnt64_lt (s : State) (a : Nat) : cnt64 s a < 2 ^ 64 := by
  have hlow := (hw s a).isLt
  have hhigh := (hw s (a + 4)).isLt
  unfold cnt64
  omega

theorem cnt64_off_events {p off : Nat} (hp : p < 4) (hoff : off ≤ 0x10) {s u : State}
    (h : ∀ a, 0xD0000 ≤ a → hw u a = hw s a) : cnt64 u (lgrFp p off) = cnt64 s (lgrFp p off) :=
  cnt64_congr (h _ (by unfold lgrFp; omega)) (h _ (by unfold lgrFp; omega))

/-- A launch without a stamp is a MISS. -/
theorem settleShot_missed {p : Nat} (hp : p < 4) {x : Shot} (hx : x.launch = none) (s : State) :
    (settleShot p x s).1.window = none ∧ (settleShot p x s).1.flags = x.flags ||| fMISS ∧
      Settled p 0 1 s (settleShot p x s).2 ∧ bit (hw (settleShot p x s).2 (lchA p 0x40)) 2 = true := by
  unfold settleShot
  rw [hx]
  refine ⟨rfl, rfl, ?_, ?_⟩
  · dsimp only
    have hcounted {off : Nat} (hoff : off ≤ 0x10) (y : Lch) (u : State) :
        cnt64 (setHw (lchA p 0x70) 0 (setLch p y (raise (lchA p 0x40) 2 u))) (lgrFp p off) = cnt64 u (lgrFp p off) :=
      cnt64_off_events hp hoff fun a ha => by
        rw [hw_setHw_ne _ (by unfold lchA; omega), hw_setLch, hw_raise_ne _ (by unfold lchA; omega)]
    refine ⟨?_, ?_, ?_⟩
    · rw [hcounted (by omega), cnt64_addCnt64_ne (by unfold lgrFp; omega), cnt64_addCnt64_same]
    · rw [hcounted (by omega), cnt64_addCnt64_ne (by unfold lgrFp; omega), cnt64_addCnt64_ne (by unfold lgrFp; omega),
        Nat.add_zero, Nat.mod_eq_of_lt (cnt64_lt ..)]
    · rw [hcounted (by omega), cnt64_addCnt64_same, cnt64_addCnt64_ne (by unfold lgrFp; omega)]
  · dsimp only
    rw [hw_setHw_ne _ (by unfold lchA; omega), hw_setLch]
    exact (raised_raise _ (by decide)).1

/-- A launch with a stamp counts as confirmed, and its offset is measured. -/
theorem settleShot_stamped {p : Nat} (hp : p < 4) {x : Shot} {st : Stamp} (hx : x.launch = some st) (s : State) :
    (settleShot p x s).1.window = none ∧
      (settleShot p x s).1.delta = (st : Int) - x.tIdeal - (monDelay (cfg s) p * 256 : Nat) ∧
      Settled p 1 0 s (settleShot p x s).2 := by
  have hcounted {off : Nat} (hoff : off ≤ 0x10) (c : Prop) [Decidable c] (used offset : Word) (y : Lch) (u : State) :
      cnt64 (jitterCheck p (setHw (lchA p 0x70) used (setHw (lchA p 0x6C) offset
        (if c then raise (lchA p 0x40) 3 (addHold (lchA p 0x5C) 1 (setLch p y u)) else setLch p y u)))) (lgrFp p off) =
      cnt64 u (lgrFp p off) := by
    rw [cnt64_jitterCheck hp hoff]
    refine cnt64_off_events hp hoff fun a ha => ?_
    rw [hw_setHw_ne _ (by unfold lchA; omega), hw_setHw_ne _ (by unfold lchA; omega)]
    split
    · rw [hw_raise_ne _ (by unfold lchA; omega), addHold, hw_setHw_ne _ (by unfold lchA; omega), hw_setLch]
    · exact hw_setLch ..
  unfold settleShot
  rw [hx]
  refine ⟨rfl, rfl, ?_, ?_, ?_⟩
  · dsimp only
    rw [hcounted (by omega), cnt64_addCnt64_ne (by unfold lgrFp; omega), cnt64_addCnt64_same]
  · dsimp only
    rw [hcounted (by omega), cnt64_addCnt64_same, cnt64_addCnt64_ne (by unfold lgrFp; omega)]
  · dsimp only
    rw [hcounted (by omega), cnt64_addCnt64_ne (by unfold lgrFp; omega), cnt64_addCnt64_ne (by unfold lgrFp; omega),
      Nat.add_zero, Nat.mod_eq_of_lt (cnt64_lt ..)]

/-- The oldest window of a port closes with the shot that was launched first. -/
theorem closeWindow_closes {p : Nat} {s : State} {x : Shot} {l : List Shot} (hshots : (lch s p).shots = x :: l)
    (hopen : x.window.isSome = true) (hwords : x.words = none) :
    (lch (closeWindow p s) p).shots = (settleShot p x s).1 :: l ∧
      (closeWindow p s).regs.hw = (settleShot p x s).2.regs.hw := by
  have hclose (u : State) : (lch (ledgerClose p u) p).shots = (lch u p).shots ∧ (ledgerClose p u).regs.hw = u.regs.hw := by
    unfold ledgerClose
    dsimp only
    split
    · exact ⟨rfl, rfl⟩
    · rw [lch_setLch_same]
      exact ⟨rfl, rfl⟩
  unfold closeWindow
  rw [hshots]
  simp only [closeFirst, hopen, if_true, hwords]
  refine ⟨(hclose _).1.trans ?_, (hclose _).2⟩
  rw [lch_setLch_same]

theorem exec_monitorWindowClose {s : State} {p : Fin 4} {x : Shot} {l : List Shot} {w : Nat × Nat} (hb : s.boot ≠ .held)
    (hshots : (lch s p).shots = x :: l) (hw : x.window = some w) (hend : w.2 ≤ now s) :
    exec (.monitorWindowClose p) s = .next (restored s (closeWindow p s)) := by
  have hopen : openWindow s p = some w := by
    unfold openWindow
    rw [hshots, List.findSome?_cons_of_isSome (by rw [hw]; rfl), hw]
  change execMonitorWindowClose p s = _
  refine run_of_eq hb ?_
  rw [hopen]
  exact if_pos hend

/-! ### The obligation -/

section
variable {s : State} {p : Fin 4} {g : Nat} (hb : s.boot ≠ .held) (hg : (lch s p).grid = some g) (hnext : 0 < (lch s p).next)
  (hl : launching s p = true) (hcome : tickCome s (g + (lch s p).next * spacingOf (cfg s) p) = true)
include hb hg hnext hl hcome

/-- A launch that is made takes the next index, and the grid moves on (R143, R147). -/
theorem launch_made (hhold : (lch s p).alignHold = false) (hskip : (lch s p).fgSkip = 0) :
    ∃ u x, Launched p (g + (lch s p).next * spacingOf (cfg s) p)
        (timeOfPos s (4000 * (g + (lch s p).next * spacingOf (cfg s) p) : Nat) 1) x s u ∧
      exec (.launch p) s = .next (restored s (gridNext p u)) := by
  have hlaunched := launchAt_launches p.isLt (g + (lch s p).next * spacingOf (cfg s) p) s
  rw [atLaunch_of_later hnext] at hlaunched
  obtain ⟨x, hx⟩ := hlaunched
  have hexec := exec_launch_later hg hb hnext hl hcome
  rw [if_neg (by simp [hhold, hskip])] at hexec
  exact ⟨_, x, hx, hexec⟩

/-- A launch that is withheld takes no index; it is counted (R143, R147). -/
theorem launch_withheld (hstop : (lch s p).alignHold = true ∨ 0 < (lch s p).fgSkip) : ∃ t, exec (.launch p) s = .next t ∧
    (lch t p).nextIndex = (lch s p).nextIndex ∧ (lch t p).shots = (lch s p).shots ∧
    cnt64 t (lchA p 0x50) = (cnt64 s (lchA p 0x50) + 1) % 2 ^ 64 ∧ Raised (lchA p 0x40) 1 s t ∧ t.pins = s.pins := by
  have hexec := exec_launch_later hg hb hnext hl hcome
  rw [if_pos hstop] at hexec
  have hm := gridNext_moves p (withheld p s)
  obtain ⟨cycle, fgSkip, fgSpan, hgrid⟩ := hm.port
  have hlch : lch (restored s (gridNext p (withheld p s))) p = lch (gridNext p (withheld p s)) p := lch_restored ..
  have hsame : lch (withheld p s) p = lch s p := lch_congr (withheld_lch p s) p
  have hword {a : Nat} (ha : lchA p 0x40 ≤ a) (ha' : a ≤ lchA p 0x54) :
      hw (gridNext p (withheld p s)) a = hw (withheld p s) a :=
    hm.words _ (by unfold lchA at *; omega) (by unfold lchA at *; omega)
  refine ⟨_, hexec, ?_, ?_, ?_, ?_, ?_⟩
  · rw [hlch, hgrid, hsame]
  · rw [hlch, hgrid, hsame]
  · rw [cnt64_restored, cnt64_congr (hword (by unfold lchA; omega) (by unfold lchA; omega))
      (hword (by unfold lchA; omega) (by unfold lchA; omega)), cnt64_withheld]
  · exact (raised_withheld p s).congr rfl ((hw_restored ..).trans (hword (by unfold lchA; omega) (by unfold lchA; omega)))
  · rw [restored_pins, hm.pins]
    simp [withheld]

end

/-- Settles O50, from `launchAt_launches` and `gridNext_moves` (a launch), `gridStart_begins` (a grid begins) and
`settleShot_missed`/`settleShot_stamped` (the ledger). -/
theorem launches : Obligations.Launches := by
  refine ⟨⟨?launch, ?withheld, ?early, ?first, ?code, ?pulse, ?resume⟩, ?missed, ?stamped⟩
  case launch =>
    intro s p g hb hg hnext hl hhold hskip hcome
    obtain ⟨u, x, hx, hexec⟩ := launch_made hb hg hnext hl hcome hhold hskip
    have hm := gridNext_moves p u
    obtain ⟨cycle, fgSkip, fgSpan, hgrid⟩ := hm.port
    obtain ⟨lastTick, prime, deltas, misses, hport⟩ := hx.port
    rw [hx.cfg, hport] at hgrid
    have hlch (q : Nat) : lch (restored s (gridNext p u)) q = lch (gridNext p u) q := lch_restored ..
    have hcount : cnt64 (gridNext p u) (lchA p 0x48) = cnt64 u (lchA p 0x48) :=
      cnt64_congr (hm.words _ (by unfold lchA; omega) (by unfold lchA; omega))
        (hm.words _ (by unfold lchA; omega) (by unfold lchA; omega))
    refine ⟨_, x, hexec, ?_, ?_, ?_, hx.index, hx.slot, hx.tick, ?_, ?_, ?_, ?_, ?_, fun q hq => ?_, hm.active.trans hx.active⟩
    · rw [hlch, hgrid]
    · rw [hlch, hgrid]
    · rw [hlch, hgrid]
    · rw [hx.ideal, hx.tick]
    · rw [cnt64_restored, hcount, hx.count]
    · rw [restored_pins, hm.pins, hx.pin p.isLt]
    · rw [hlch, hgrid]
    · rw [hlch, hgrid, hg]
      dsimp only
      split <;> rfl
    · rw [hlch, hm.others q hq, hx.others q hq]
  case withheld =>
    intro s p g hb hg hnext hl hstop hcome
    exact launch_withheld hb hg hnext hl hcome hstop
  case early =>
    intro s p g hg hcome
    exact exec_launch_early hg hcome
  case first =>
    intro s p hb hr he hl hgrid hf hc ha
    have hbegun := firstLaunch_begins p.isLt ⟨hl, hgrid, hf, hc, ha⟩
    have hexec := exec_firstLaunch hb hr he
    generalize firstLaunch p s = u at hbegun hexec
    obtain ⟨x, hlast, hslot, htick, hindex⟩ := hbegun.shot
    exact ⟨_, x, hexec, hbegun.grid, hbegun.nextIndex, hlast, hslot, htick, hindex, hbegun.event⟩
  case code =>
    intro s p hb ha h
    refine ⟨_, exec_slotCodeUpdate hb ha h, slotPin_slot .., ?_⟩
    have hrest := slotPin_rest p (nextSlot s p) s
    exact (congrArg (restored s) hrest :)
  case pulse =>
    intro s p hb h
    refine ⟨_, exec_launchPulseEnd hb h, ?_, fun q hq => ?_, rfl⟩
    · rw [restored_pins, launchPin_same p.isLt, Bool.false_bne]
    · rw [restored_pins, launchPin_ne q.isLt (Fin.val_ne_of_ne hq)]
  case resume =>
    intro s p hb hr hs hq hf hother ha harm hgrid hc
    have hl : launching s p = true := by
      unfold launching
      rw [harm, hs]
      rfl
    have hbegun := resumed_begins p.isLt ⟨hl, hgrid, hf p, hc, ha⟩ fun q hne => ⟨hother q hne, hf q⟩
    have hexec := exec_sampleClockResume hb hr hs hq
    generalize each (List.range 4) firstLaunch (startFresh (resumed s)) = u at hbegun hexec
    exact ⟨_, hexec, hbegun.clk, hbegun.grid, hbegun.nextIndex, hbegun.event⟩
  case missed =>
    intro s p x l hb hshots hwin hwords hlaunch
    obtain ⟨w, hw, hend⟩ := hwin
    obtain ⟨hkept, hwordsAfter⟩ := closeWindow_closes hshots (by rw [hw]; rfl) hwords
    obtain ⟨hclosed, hflags, hcounts, hevent⟩ := settleShot_missed p.isLt hlaunch s
    obtain ⟨hl, hc, hm⟩ := hcounts.of_words hwordsAfter
    have hexec := exec_monitorWindowClose hb hshots hw hend
    generalize closeWindow p s = u at *
    refine ⟨_, _, hexec, hkept, hclosed, hflags, (settleShot_launch p x s).1, hl, ?_, hm, ?_⟩
    · exact hc.trans (Nat.mod_eq_of_lt (cnt64_lt ..))
    · rw [hw_restored, hw_congr hwordsAfter]
      exact hevent
  case stamped =>
    intro s p x l st hb hshots hwin hwords hlaunch
    obtain ⟨w, hw, hend⟩ := hwin
    obtain ⟨hkept, hwordsAfter⟩ := closeWindow_closes hshots (by rw [hw]; rfl) hwords
    obtain ⟨hclosed, hdelta, hcounts⟩ := settleShot_stamped p.isLt hlaunch s
    obtain ⟨hl, hc, hm⟩ := hcounts.of_words hwordsAfter
    have hexec := exec_monitorWindowClose hb hshots hw hend
    generalize closeWindow p s = u at *
    exact ⟨_, _, hexec, hkept, hclosed, hdelta, hl,
      hm.trans (Nat.mod_eq_of_lt (cnt64_lt ..)), hc⟩

end Sys2Proof.Machine
end

section
/-!
REASONING. What is armed and what is halted (O56, R146, R223, R359, R391). `Rearmed` says how a step sets the ports, the DIRECT
capture and the units, while the halts and the AON events stay and no session is touched that does not wait for a commit;
`Steady` says that it sets none.
-/

namespace Sys2Proof.Machine

/-! ### What is armed -/

/-- The halts of the streams, the events of AON, and what is armed: DIRECT, the ports and the units. -/
def acqView (s : State) : Bool × List Nat × Word × Bool × (Nat → Bool) × (Nat → Bool) :=
  (s.spt.haltAll, s.spt.haltEx, hw s 0xC0040, s.cnv.direct, fun p => (lch s p).armed, fun u => (unitSt s u).armed)

/-- A step leaves the ports, DIRECT and the units as given, and halts nothing. -/
structure Rearmed (ports : Nat → Bool) (direct : Bool) (units : Nat → Bool) (s t : State) : Prop where
  view : acqView t = (s.spt.haltAll, s.spt.haltEx, hw s 0xC0040, direct, ports, units)
  sessions : ∀ n, (ses s n).wait = none → ses t n = ses s n

/-- A step arms and disarms nothing. -/
abbrev Steady (s t : State) : Prop :=
  Rearmed (fun p => (lch s p).armed) s.cnv.direct (fun u => (unitSt s u).armed) s t

section
variable {ports ports' : Nat → Bool} {d d' : Bool} {units units' : Nat → Bool} {s t u : State}

theorem Rearmed.port (h : Rearmed ports d units s t) (p : Nat) : (lch t p).armed = ports p :=
  congrFun (congrArg (·.2.2.2.2.1) h.view) p

theorem Rearmed.unit (h : Rearmed ports d units s t) (u : Nat) : (unitSt t u).armed = units u :=
  congrFun (congrArg (·.2.2.2.2.2) h.view) u

theorem Rearmed.direct (h : Rearmed ports d units s t) : t.cnv.direct = d := congrArg (·.2.2.2.1) h.view

theorem Rearmed.halted (h : Rearmed ports d units s t) (n : Nat) : streamHalted t n = streamHalted s n := by
  have hall : t.spt.haltAll = s.spt.haltAll := congrArg (·.1) h.view
  have hex : t.spt.haltEx = s.spt.haltEx := congrArg (·.2.1) h.view
  unfold streamHalted
  rw [hall, hex]

theorem Rearmed.aon (h : Rearmed ports d units s t) : hw t 0xC0040 = hw s 0xC0040 := congrArg (·.2.2.1) h.view

theorem Rearmed.trans (h : Rearmed ports d units s t) (h' : Rearmed ports' d' units' t u) :
    Rearmed ports' d' units' s u where
  view := by
    have hall : t.spt.haltAll = s.spt.haltAll := congrArg (·.1) h.view
    have hex : t.spt.haltEx = s.spt.haltEx := congrArg (·.2.1) h.view
    rw [h'.view, hall, hex, h.aon]
  sessions n hn := (h'.sessions n (by rw [h.sessions n hn]; exact hn)).trans (h.sessions n hn)

/-- What follows steadily leaves what the step set. -/
theorem Rearmed.steady (h : Rearmed ports d units s t) (h' : Steady t u) : Rearmed ports d units s u where
  view := (h'.view.trans rfl : acqView u = acqView t).trans h.view
  sessions := (h.trans h').sessions

theorem Rearmed.congr (h : Rearmed ports d units s t) (hp : ∀ p, ports' p = ports p) (hd : d' = d)
    (hu : ∀ u, units' u = units u) : Rearmed ports' d' units' s t := by
  rw [funext hp, hd, funext hu]
  exact h

end

theorem Steady.refl (s : State) : Steady s s := ⟨rfl, fun _ _ => rfl⟩

theorem Steady.of_view {s t : State} (h : acqView t = acqView s) (hslc : t.slc = s.slc) : Steady s t :=
  ⟨h, fun n _ => by rw [ses, hslc, ← ses]⟩

theorem Steady.trans {s t u : State} (h : Steady s t) (h' : Steady t u) : Steady s u := Rearmed.steady h h'

theorem Steady.ite {c : Prop} [Decidable c] {s t u : State} (h : Steady s t) (h' : Steady s u) :
    Steady s (if c then t else u) := by
  split
  · exact h
  · exact h'

theorem Steady.each {α : Type} {l : List α} {f : α → State → State} (h : ∀ x s, Steady s (f x s)) (s : State) :
    Steady s (each l f s) := each_induction (fun x _ t ht => Steady.trans ht (h x t)) (.refl s)

theorem acqView_eq {s t : State} (hstill : stillView t = stillView s) (hports : ∀ p, (lch t p).armed = (lch s p).armed) :
    acqView t = acqView s := by
  have hall : t.spt.haltAll = s.spt.haltAll := congrArg (·.1) hstill
  have hex : t.spt.haltEx = s.spt.haltEx := congrArg (·.2.1) hstill
  have hword : hw t 0xC0040 = hw s 0xC0040 := congrArg (·.2.2.1) hstill
  have hcnv : t.cnv = s.cnv := congrArg (·.2.2.2.1) hstill
  have hunits : (fun u => (unitSt t u).armed) = fun u => (unitSt s u).armed := congrArg (·.2.2.2.2) hstill
  unfold acqView
  rw [hall, hex, hword, hcnv, hunits, funext hports]

theorem Calm.steady {s t : State} (h : Calm s t) : Steady s t := ⟨acqView_eq h.still h.armed, h.sessions⟩

/-! ### The power of the inputs (R75) -/

/-- What is armed, and Sluice: what the converters' parts leave but for the reply to a commit. -/
def idleView (s : State) : (Bool × List Nat × Word × Bool × (Nat → Bool) × (Nat → Bool)) × SlcSt := (acqView s, s.slc)

theorem Steady.of_idle {s t : State} (h : idleView t = idleView s) : Steady s t := .of_view (congrArg (·.1) h) (congrArg (·.2) h)

theorem idleView_eq {s t : State} (hstill : stillView t = stillView s) (hports : ∀ p, (lch t p).armed = (lch s p).armed)
    (hslc : t.slc = s.slc) : idleView t = idleView s := by
  unfold idleView
  rw [acqView_eq hstill hports, hslc]

theorem idleView_putCnv (s : State) (convs : SMap Conv) (qcalOpen modeCal : Bool) (fgLate : BitVec 4) :
    idleView { s with cnv := { s.cnv with convs, qcalOpen, modeCal, fgLate } } = idleView s := by rfl

theorem idleView_putClk (s : State) (clk : ClkSt) : idleView { s with clk } = idleView s := by rfl

theorem idleView_putQueued (s : State) (cmdQueued : List (Nat × Nat)) :
    idleView { s with regs := { s.regs with cmdQueued } } = idleView s := by rfl

theorem idleView_setConv (c : Nat) (x : Conv) (s : State) : idleView (setConv c x s) = idleView s := by rfl

theorem idleView_setHw {a : Nat} (h : a ≠ 0xC0040) (w : Word) (s : State) : idleView (setHw a w s) = idleView s :=
  idleView_eq (stillView_setHw h w s) (fun _ => rfl) rfl

theorem idleView_addCnt64 {a : Nat} (h : a ≠ 0xC0040 ∧ a + 4 ≠ 0xC0040) (n : Nat) (s : State) :
    idleView (addCnt64 a n s) = idleView s :=
  idleView_eq (stillView_addCnt64 h n s) (fun _ => by simp [lch]) (by simp)

theorem idleView_inputLedger (c term n : Nat) (s : State) :
    idleView (addCnt64 (inputLedger c term) n s) = idleView s :=
  idleView_addCnt64 (by unfold inputLedger; omega) n s

theorem idleView_cnvRaise (c slice e : Nat) (s : State) : idleView (cnvRaise c slice e s) = idleView s :=
  (idleView_eq (stillView_raiseFrom (by decide) ..) (fun _ => by simp [lch]) (by simp)).trans (idleView_setHw (by decide) ..)

theorem idleView_rill (k n : Nat) (s : State) : idleView (rill k n s) = idleView s :=
  idleView_eq (stillView_rill k n s) (fun _ => by simp [lch]) (by simp)

theorem idleView_fgLateCheck (p : Nat) (s : State) : idleView (fgLateCheck p s) = idleView s := by
  simp only [fgLateCheck, idleView_cnvRaise, idleView_putCnv, apply_ite idleView, ite_self]

theorem idleView_windowStart (c : Nat) (s : State) : idleView (windowStart c s) = idleView s := by rfl

theorem idleView_qcalEnd (c : Nat) (s : State) : idleView (qcalEnd c s) = idleView s := by rfl

theorem idleView_qcalEight (c : Nat) (s : State) : idleView (qcalEight c s) = idleView s := by
  unfold qcalEight
  dsimp only
  split <;> simp only [idleView_setConv, idleView_windowStart, idleView_fgLateCheck, idleView_qcalEnd, idleView_cnvRaise,
    apply_ite idleView, ite_self]

theorem idleView_qcalBegin (c : Nat) (s : State) : idleView (qcalBegin c s) = idleView s := by
  simp only [qcalBegin, idleView_qcalEight, idleView_setConv, apply_ite idleView, ite_self]

theorem idleView_qcalRun (l : List Nat) (s : State) : idleView (qcalRun l s) = idleView s := by
  simp only [qcalRun, idleView_qcalBegin, each_keeps idleView, idleView_putCnv, apply_ite idleView, ite_self, implies_true]

theorem idleView_cmdDone {a b : Nat} {f : State → State} (h : a ≠ 0xC0040) (hf : ∀ s, idleView (f s) = idleView s)
    (s : State) : idleView (cmdDone a b f s) = idleView s := by
  simp only [cmdDone, hf, idleView_putQueued, idleView_setHw h, apply_ite idleView, ite_self]

theorem idleView_cnvDone (b : Nat) (s : State) : idleView (cmdDone 0x20044 b id s) = idleView s :=
  idleView_cmdDone (by decide) (fun _ => rfl) s

theorem idleView_qcalAgain (s : State) : idleView (qcalAgain s) = idleView s := by
  simp only [qcalAgain, idleView_qcalRun, idleView_cnvDone, apply_ite idleView, ite_self]

theorem idleView_fgCalCommand (s : State) : idleView (fgCalCommand s) = idleView s := by
  simp only [fgCalCommand, idleView_windowStart, idleView_setConv, idleView_rill, idleView_cnvDone, each_keeps idleView,
    apply_ite idleView, ite_self, implies_true]

theorem idleView_fgCalCheck (s : State) : idleView (fgCalCheck fgCalCommand s) = idleView s := by
  have hdone (s : State) : idleView (cmdDone 0x20044 1 fgCalCommand s) = idleView s :=
    idleView_cmdDone (by decide) idleView_fgCalCommand s
  simp only [fgCalCheck, hdone, apply_ite idleView, ite_self]

theorem idleView_clockTerms (c : Nat) (ks : List Nat) (s : State) : idleView (clockTerms c ks s) = idleView s := by
  simp only [clockTerms, idleView_inputLedger]

theorem idleView_clocksRest (c : Nat) (s : State) : idleView (clocksRest c s) = idleView s := by
  simp only [clocksRest, idleView_clockTerms, idleView_setConv, apply_ite idleView, ite_self]

theorem idleView_lossCount (s : State) : idleView (lossCount s) = idleView s := by
  simp only [lossCount, idleView_inputLedger, each_keeps idleView, idleView_putClk, apply_ite idleView, ite_self, implies_true]

theorem idleView_convOff (c : Nat) (s : State) : idleView (convOff c s) = idleView s := by
  simp only [convOff, idleView_clocksRest, idleView_setConv]

theorem idleView_modeCalDone (s : State) : idleView (modeCalDone s) = idleView s := by
  simp only [modeCalDone, idleView_putCnv, apply_ite idleView, ite_self]

/-- The end of a quick calibration, which answers the commits that waited for it. -/
theorem steady_qcalFinish {again : State → State} (h : ∀ s, Steady s (again s)) (c : Nat) (s : State) :
    Steady s (qcalFinish again c s) := by
  have hdone (s : State) : Steady s (cmdDone 0x20044 0 again s) := by
    unfold cmdDone
    split
    · exact (Steady.of_idle (idleView_putQueued ..)).trans (h _)
    · exact .of_idle (idleView_setHw (by decide) ..)
  unfold qcalFinish
  split
  case isFalse => exact .refl s
  case isTrue =>
    extract_lets up light cnv s1 s2 s3 clk s4
    have h1 : Steady s s1 := .of_idle (idleView_putCnv ..)
    have h2 : Steady s1 s2 := .of_idle (idleView_cnvRaise ..)
    have h3 : Steady s2 s3 := .ite (hdone s2) (.refl s2)
    have h4 : Steady s3 s4 := .ite (.refl s3) (.of_idle (idleView_putClk ..))
    exact h1.trans (h2.trans (h3.trans (h4.trans (calm_flightsDone s4).steady)))

theorem steady_qcalCheck (c : Nat) (s : State) : Steady s (qcalCheck c s) :=
  steady_qcalFinish (fun s => (Steady.of_idle (idleView_qcalAgain s)).trans (steady_qcalFinish .refl c _)) c s

theorem steady_qcalStart (l : List Nat) (s : State) : Steady s (qcalStart l s) :=
  .ite (.refl s) ((Steady.of_idle (idleView_qcalRun ..)).trans (steady_qcalCheck ..))

theorem steady_powerUpdate (s : State) : Steady s (powerUpdate s) := by
  unfold powerUpdate
  extract_lets gone come s1 s2 at' s3
  have h1 : Steady s s1 := by
    refine .of_idle ?_
    simp only [s1, idleView_convOff, idleView_lossCount, each_keeps idleView, apply_ite idleView, ite_self, implies_true]
  have h2 : Steady s1 s2 := .ite (.refl s1) ((steady_qcalCheck ..).trans (.of_idle (idleView_fgCalCheck _)))
  have h3 : Steady s2 s3 := Steady.each (fun c t => .of_idle (idleView_setConv ..)) s2
  exact h1.trans (h2.trans (h3.trans ((steady_qcalStart ..).trans (.of_idle (idleView_modeCalDone _)))))

end Sys2Proof.Machine
end

section
/-!
REASONING. The acquisition commands (O56, R146, R223, R388, R391, R392).
SETTLES. O56.
-/

namespace Sys2Proof.Machine

/-! ### Ports -/

/-- A step arms or disarms one port, and nothing else. -/
abbrev SetsPort (p : Nat) (b : Bool) (s t : State) : Prop :=
  Rearmed (fun q => if q = p then b else (lch s q).armed) s.cnv.direct (fun u => (unitSt s u).armed) s t

theorem Rearmed.of_port {p : Nat} {b : Bool} {s : State} {x : Lch} (hx : x.armed = b) :
    SetsPort p b s (setLch p x s) where
  view := by
    have hports : (fun q => (lch (setLch p x s) q).armed) = fun q => if q = p then b else (lch s q).armed := by
      funext q
      by_cases hq : q = p
      · rw [if_pos hq, hq, lch_setLch_same, hx]
      · rw [if_neg hq, lch_setLch_ne x hq]
    unfold acqView
    rw [hports]
    rfl
  sessions _ _ := rfl

/-- A port that is as it is to be stays so. -/
theorem Rearmed.port_already {p : Nat} {b : Bool} {s : State} (h : (lch s p).armed = b) :
    SetsPort p b s s := by
  refine (Steady.refl s).congr (fun q => ?_) rfl fun _ => rfl
  split
  case isTrue hq => rw [hq, h]
  case isFalse => rfl

theorem steady_setLch {p : Nat} {x : Lch} {s : State} (h : x.armed = (lch s p).armed) : Steady s (setLch p x s) := by
  refine (Rearmed.of_port h).congr (fun q => ?_) rfl fun _ => rfl
  split
  case isTrue hq => rw [hq]
  case isFalse => rfl

theorem steady_alignLeave (p : Nat) (s : State) : Steady s (alignLeave p s) := by
  unfold alignLeave
  extract_lets l
  exact Steady.trans (t := { s with commits := { s.commits with align := l.filter fun a => a.ports ≠ [] } })
    (.of_view rfl rfl) (steady_setLch rfl)

theorem steady_overridesInstall (p : Nat) (s : State) : Steady s (overridesInstall p s) := by
  unfold overridesInstall
  extract_lets l u
  have hstash : Steady s u := (calm_stashShots p s).steady
  have hput : Steady u { u with regs := { u.regs with overrides := u.regs.overrides ++ l } } := .of_view rfl rfl
  exact .ite (.refl s) (hstash.trans (hput.trans (steady_setLch rfl)))

theorem setsPort_disarmPort {p : Nat} (hp : p < 4) (s : State) :
    SetsPort p false s (disarmPort p s) := by
  unfold disarmPort
  extract_lets x u v
  split
  case isFalse h => exact Rearmed.port_already (Bool.eq_false_iff.mpr h)
  case isTrue =>
    have hoff := Rearmed.of_port (p := p) (b := false) (s := s)
      (x := { x with armed := false, grid := none, next := 0, cycle := 0, fgSkip := 0, fgSpan := none }) rfl
    have hcopies : Steady u v := (steady_alignLeave p u).trans ((steady_overridesInstall p _).trans
      ((calm_fibreApply hp _ _).trans (calm_phsBoundary hp _)).steady)
    exact hoff.steady (hcopies.trans ((calm_slotPin p 0 v).trans ((calm_poolEnds hp _).trans ((calm_ledgerClose p _).trans
      (calm_watchesStop p _)))).steady)

theorem steady_askAlloc (u : UnitId) (s : State) : Steady s (askAlloc u s) :=
  .of_view (acqView_eq (stillView_setWst rfl) fun _ => by cases u <;> rfl) (by cases u <;> rfl)

theorem steady_watchesStart (p : Nat) (s : State) : Steady s (watchesStart p s) :=
  Steady.each (fun _ t => .ite (.ite (steady_askAlloc ..) (.refl t)) (.refl t)) s

theorem setsPort_armPort {p : Nat} (hp : p < 4) (s : State) :
    SetsPort p true s (armPort p s) := by
  unfold armPort
  extract_lets x u
  split
  case isTrue h => exact Rearmed.port_already h
  case isFalse =>
    exact (Rearmed.of_port rfl).steady ((calm_atBoundary hp 7 u).steady.trans (steady_watchesStart p _))

/-- The ports of a list become as they are to be, one after the other. -/
theorem rearmed_ports {b : Bool} {f : Nat → State → State} {l : List Nat} (hl : ∀ p ∈ l, p < 4)
    (h : ∀ p < 4, ∀ s, SetsPort p b s (f p s))
    (s : State) : Rearmed (fun q => if q ∈ l then b else (lch s q).armed) s.cnv.direct (fun u => (unitSt s u).armed) s
      (each l f s) := by
  induction l generalizing s with
  | nil => exact (Steady.refl s).congr (fun q => if_neg (by simp)) rfl fun _ => rfl
  | cons p l ih =>
    have hone := h p (hl p List.mem_cons_self) s
    refine (hone.trans (ih (fun q hq => hl q (List.mem_cons_of_mem p hq)) (f p s))).congr (fun q => ?_) hone.direct.symm
      fun u => (hone.unit u).symm
    rw [hone.port]
    by_cases hq : q ∈ l
    · simp [hq]
    · simp [hq]

/-! ### Units -/

/-- A step arms or disarms one unit, and nothing else. -/
abbrev SetsUnit (u : Nat) (b : Bool) (s t : State) : Prop :=
  Rearmed (fun p => (lch s p).armed) s.cnv.direct (fun v => if v = u then b else (unitSt s v).armed) s t

theorem Rearmed.of_unit {u : Nat} {b : Bool} {s : State} {x : Weir} (hx : x.armed = b) :
    SetsUnit u b s (setUnit u x s) where
  view := by
    have hunits : (fun v => (unitSt (setUnit u x s) v).armed) = fun v => if v = u then b else (unitSt s v).armed := by
      funext v
      by_cases hv : v = u
      · rw [if_pos hv, hv, unitSt_setUnit_same, hx]
      · rw [if_neg hv, unitSt_setUnit_ne x hv]
    unfold acqView
    rw [hunits]
    rfl
  sessions _ _ := rfl

theorem Rearmed.unit_already {u : Nat} {b : Bool} {s : State} (h : (unitSt s u).armed = b) :
    SetsUnit u b s s := by
  refine (Steady.refl s).congr (fun _ => rfl) rfl fun v => ?_
  split
  case isTrue hv => rw [hv, h]
  case isFalse => rfl

theorem steady_returnAlloc (u : UnitId) (s : State) : Steady s (returnAlloc u s) :=
  (Calm.of_views (stillView_returnAlloc u s) (gridView_blind.of_returnAlloc u s)).steady

theorem steady_restartUnit (u : Nat) (s : State) : Steady s (restartUnit u s) :=
  (Calm.of_views (stillView_setUnit (by rfl)) (by rfl)).steady

theorem setsUnit_disarmUnit (u : Nat) (s : State) :
    SetsUnit u false s (disarmUnit u s) := by
  unfold disarmUnit
  split
  case isTrue => exact (Rearmed.of_unit (by rfl)).steady (steady_returnAlloc ..)
  case isFalse h => exact Rearmed.unit_already (Bool.eq_false_iff.mpr h)

theorem setsUnit_armUnit (u : Nat) (s : State) :
    SetsUnit u true s (armUnit u s) := by
  unfold armUnit
  split
  case isTrue h => exact Rearmed.unit_already h
  case isFalse =>
    extract_lets w v
    have hunit := Rearmed.of_unit (u := u) (b := true) (s := s) (x := { w with armed := true, force := false, tins := [] }) rfl
    have hrestart : Steady _ v := steady_restartUnit u (setUnit u { w with armed := true, force := false, tins := [] } s)
    exact hunit.steady (hrestart.trans (.ite (steady_askAlloc ..) (.refl v)))

theorem rearmed_units {b : Bool} {f : Nat → State → State} {l : List Nat}
    (h : ∀ u s, SetsUnit u b s (f u s))
    (s : State) : Rearmed (fun p => (lch s p).armed) s.cnv.direct (fun v => if v ∈ l then b else (unitSt s v).armed) s
      (each l f s) := by
  induction l generalizing s with
  | nil => exact (Steady.refl s).congr (fun _ => rfl) rfl fun v => if_neg (by simp)
  | cons u l ih =>
    have hone := h u s
    refine (hone.trans (ih (f u s))).congr (fun p => (hone.port p).symm) hone.direct.symm fun v => ?_
    rw [hone.unit]
    by_cases hv : v ∈ l
    · simp [hv]
    · simp [hv]

/-! ### Targets -/

/-- The targets of a step become as they are to be; the others stay as they were. -/
def Retargeted (tg : BitVec 16) (b : Bool) (s t : State) : Prop :=
  Rearmed (fun p => if p ∈ bitsOf 4 tg.toNat then b else (lch s p).armed) (if tg.getLsbD 4 then b else s.cnv.direct)
    (fun u => if u ∈ (List.range 8).filter (fun u => tg.getLsbD (8 + u)) then b else (unitSt s u).armed) s t

theorem mem_bitsOf_four {tg : BitVec 16} {p : Nat} : p ∈ bitsOf 4 tg.toNat ↔ p < 4 ∧ tg.getLsbD p = true := by
  simp [bitsOf, BitVec.getLsbD]

theorem Rearmed.rill {ports : Nat → Bool} {d : Bool} {units : Nat → Bool} {s t : State} (h : Rearmed ports d units s t)
    (k n : Nat) : Rearmed ports d units s (rill k n t) := h.steady (calm_rill k n t).steady

/-- DIRECT becomes as it is to be where it is a target. -/
theorem rearmed_direct (c b : Bool) (s : State) :
    Rearmed (fun p => (lch s p).armed) (if c then b else s.cnv.direct) (fun u => (unitSt s u).armed) s
      (if c then { s with cnv := { s.cnv with direct := b } } else s) := by
  cases c
  · exact Steady.refl s
  · exact ⟨rfl, fun _ _ => rfl⟩

/-- Ports, DIRECT and units, one after the other. -/
theorem retargeted_of_steps {tg : BitVec 16} {b : Bool} {f g : Nat → State → State}
    (hf : ∀ p < 4, ∀ s, SetsPort p b s (f p s))
    (hg : ∀ u s, SetsUnit u b s (g u s))
    {s t u : State} (ht : t = each (bitsOf 4 tg.toNat) f s)
    (hu : u = if tg.getLsbD 4 then { t with cnv := { t.cnv with direct := b } } else t) :
    Retargeted tg b s (each ((List.range 8).filter fun u => tg.getLsbD (8 + u)) g u) := by
  have hports := rearmed_ports (l := bitsOf 4 tg.toNat) (fun p hp => (mem_bitsOf_four.mp hp).1) hf s
  rw [← ht] at hports
  have hdirect := rearmed_direct (tg.getLsbD 4) b t
  rw [← hu] at hdirect
  have hunits := rearmed_units (l := (List.range 8).filter fun u => tg.getLsbD (8 + u)) hg u
  refine (hports.trans (hdirect.trans hunits)).congr (fun p => ?_) ?_ fun v => ?_
  · rw [hdirect.port, hports.port]
  · rw [hdirect.direct, hports.direct]
  · rw [hdirect.unit, hports.unit]

theorem retargeted_armTargets (tg : BitVec 16) (s : State) : Retargeted tg true s (armTargets tg s) :=
  ((retargeted_of_steps (fun _ hp => setsPort_armPort hp) setsUnit_armUnit rfl rfl).rill 85 1).steady (steady_powerUpdate _)

theorem retargeted_disarmTargets (tg : BitVec 16) (s : State) : Retargeted tg false s (disarmTargets tg s) := by
  unfold disarmTargets
  extract_lets u v cnv w
  have h : Retargeted tg false u _ :=
    retargeted_of_steps (fun _ hp => setsPort_disarmPort hp) setsUnit_disarmUnit (t := v) (u := w) rfl rfl
  have hdrop : Steady s u := .of_view rfl rfl
  exact (Rearmed.trans hdrop (Rearmed.rill h 85 1)).congr (fun _ => rfl) rfl fun _ => rfl

section
variable {tg : BitVec 16} {b : Bool} {s t : State} (h : Retargeted tg b s t)
include h

theorem Retargeted.port (p : Fin 4) (hp : tg.getLsbD p = true) : (lch t p).armed = b :=
  (Rearmed.port h p).trans (if_pos (mem_bitsOf_four.mpr ⟨p.isLt, hp⟩))

theorem Retargeted.direct (hd : tg.getLsbD 4 = true) : t.cnv.direct = b := (Rearmed.direct h).trans (if_pos hd)

theorem Retargeted.unit (u : Fin 8) (hu : tg.getLsbD (8 + u) = true) : (unitSt t u).armed = b :=
  (Rearmed.unit h u).trans (if_pos (List.mem_filter.mpr ⟨List.mem_range.mpr u.isLt, hu⟩))

end

/-- The targets are as they are to be. -/
def TargetsAre (tg : BitVec 16) (b : Bool) (t : State) : Prop :=
  (∀ p : Fin 4, tg.getLsbD p = true → (lch t p).armed = b) ∧ (tg.getLsbD 4 = true → t.cnv.direct = b) ∧
    ∀ u : Fin 8, tg.getLsbD (8 + u) = true → (unitSt t u).armed = b

theorem Retargeted.targetsAre {tg : BitVec 16} {b : Bool} {s t : State} (h : Retargeted tg b s t) : TargetsAre tg b t :=
  ⟨h.port, h.direct, h.unit⟩

theorem TargetsAre.congr {tg : BitVec 16} {b : Bool} {s t : State} (h : TargetsAre tg b s) (hlch : t.lch = s.lch)
    (hcnv : t.cnv = s.cnv) (hweir : t.weir = s.weir) : TargetsAre tg b t := by
  obtain ⟨hports, hdirect, hunits⟩ := h
  refine ⟨fun p hp => ?_, fun hd => ?_, fun u hu => ?_⟩
  · rw [lch_congr hlch, hports p hp]
  · rw [hcnv, hdirect hd]
  · rw [unitSt, hweir, ← unitSt, hunits u hu]

theorem restored_weir (s u : State) : (restored s u).weir = u.weir := by rfl
theorem restored_arms (s u : State) : (restored s u).arms = u.arms := by rfl

theorem answered_weir (s u : State) (n op st : Nat) (l : List Byte) : (answered s u n op st l).weir = u.weir := by
  rw [answered, restored_weir, answer_weir]

theorem TargetsAre.answered {tg : BitVec 16} {b : Bool} {u : State} (h : TargetsAre tg b u) (s : State) (n op st : Nat)
    (l : List Byte) : TargetsAre tg b (answered s u n op st l) :=
  h.congr (answered_lch ..) (answered_cnv ..) (answered_weir ..)

/-- Arming more leaves what is armed. -/
theorem TargetsAre.armTargets {tg : BitVec 16} {s : State} (h : TargetsAre tg true s) (tg' : BitVec 16) :
    TargetsAre tg true (armTargets tg' s) := by
  obtain ⟨hports, hdirect, hunits⟩ := h
  have hset := retargeted_armTargets tg' s
  refine ⟨fun p hp => ?_, fun hd => ?_, fun u hu => ?_⟩
  · rw [Rearmed.port hset, hports p hp, ite_self]
  · rw [Rearmed.direct hset, hdirect hd, ite_self]
  · rw [Rearmed.unit hset, hunits u hu, ite_self]

/-! ### The arms that wait -/

theorem armTargets_arms (tg : BitVec 16) (s : State) : (armTargets tg s).arms = s.arms :=
  (congrArg BlockVals.arms (outside_armTargets (B := {}) tg s) :)

theorem disarmTargets_arms (tg : BitVec 16) (s : State) : (disarmTargets tg s).arms =
    s.arms.filterMap fun (a, at') => if a &&& ~~~tg = 0 then none else some (a &&& ~~~tg, at') := by
  unfold disarmTargets
  extract_lets u v cnv w
  have h : outside { chs := true } (rill 85 1 (each ((List.range 8).filter fun u => tg.getLsbD (8 + u)) disarmUnit w)) =
      outside { chs := true } u := by
    simp only [w, v, cnv, outside_disarmPort, outside_rill, outside_disarmUnit, outside_each, outside_put, outside_ite, ite_self,
      implies_true]
  exact (congrArg BlockVals.arms h :)

/-- An arm that waits names no target that a DISARM named. -/
theorem disarmTargets_frees {tg : BitVec 16} {s : State} {a : BitVec 16 × Stamp} (h : a ∈ (disarmTargets tg s).arms) :
    a.1 &&& tg = 0 := by
  rw [disarmTargets_arms] at h
  obtain ⟨x, -, hx⟩ := List.mem_filterMap.mp h
  obtain ⟨hkept, hx⟩ := (Option.ite_none_left_eq_some ..).mp hx
  rw [← Option.some.inj hx, BitVec.and_assoc]
  simp

theorem armAtTime_arms (l : List (BitVec 16 × Stamp)) (s : State) : (each l (fun a s => armTargets a.1 s) s).arms = s.arms := by
  have hone (a : BitVec 16 × Stamp) (t : State) (h : t.arms = s.arms) : (armTargets a.1 t).arms = s.arms := by
    rw [armTargets_arms, h]
  exact each_induction (P := fun t => t.arms = s.arms) (fun a _ t ht => hone a t ht) rfl

theorem armAtTime_targets {l : List (BitVec 16 × Stamp)} {a : BitVec 16 × Stamp} (ha : a ∈ l) (s : State) :
    TargetsAre a.1 true (each l (fun a s => armTargets a.1 s) s) :=
  each_reaches (Q := fun _ => True) ha (fun _ _ _ _ => trivial) (fun t _ => (retargeted_armTargets a.1 t).targetsAre)
    (fun d _ ht => ht.armTargets d.1) trivial

end Sys2Proof.Machine
end

section
/-!
REASONING. The acquisition commands run (O56, R388, R391, R392).
SETTLES. O56.
-/

namespace Sys2Proof.Machine

/-! ### Replies -/

theorem Replied.restored {n op st : Nat} {l : List Byte} {s t : State} (h : Replied n op st l s t) (v : State) :
    Replied n op st l s (restored v t) := h

/-- A host command that arms or disarms and replies: its own session waits for nothing, so the step leaves it. -/
theorem Rearmed.replied {ports : Nat → Bool} {d : Bool} {units : Nat → Bool} {s t : State} (h : Rearmed ports d units s t)
    {n op len st : Nat} {boot : Bool} {l : List Byte} (ht : HostTurn s n op len boot) :
    Replied n op st l s (answered s t n op st l) := by
  have hwait : (ses s n).wait = none := by
    obtain ⟨-, hturn, -, -⟩ := ht
    unfold turn at hturn
    by_contra hw
    simp [hw] at hturn
  have hses := h.sessions n hwait
  exact (answer_replied (u := t) (by rw [hses]) (by rw [hses])).restored s

/-! ### ARM -/

theorem noneBad {s : State} {tg : BitVec 16}
    (hgood : ∀ u < 8, tg.getLsbD (8 + u) = true → badUnit s (cfg s) u = false) :
    ¬ ((List.range 8).any fun u => tg.getLsbD (8 + u) && badUnit s (cfg s) u) = true := fun hany => by
  obtain ⟨u, hu, hbad⟩ := List.any_eq_true.mp hany
  obtain ⟨htg, hunit⟩ := Bool.and_eq_true_iff.mp hbad
  rw [hgood u (List.mem_range.mp hu) htg] at hunit
  exact Bool.false_ne_true hunit

section
variable {s : State} {n : Nat} {tg : BitVec 16} (ht : HostTurn s n 0x0200 12 false) (hl : s.slc.lease = some n)
include ht hl

theorem exec_arm_state {st : Option Stamp} (h : armState s tg st = true) :
    ∃ t, exec (.arm n tg st) s = .next t ∧ Replied n 0x0200 stState [] s t ∧ OnlyReplies n s t :=
  hostCmd_answers ht ((if_pos hl).trans (if_pos h))

theorem exec_arm_capacity {st : Option Stamp} (h : armState s tg st = false)
    (hbad : ∃ u < 8, tg.getLsbD (8 + u) = true ∧ badUnit s (cfg s) u = true) :
    ∃ t, exec (.arm n tg st) s = .next t ∧ Replied n 0x0200 stCapacity [] s t ∧ OnlyReplies n s t := by
  obtain ⟨u, hu, htg, hunit⟩ := hbad
  have hany : ((List.range 8).any fun u => tg.getLsbD (8 + u) && badUnit s (cfg s) u) = true :=
    List.any_eq_true.mpr ⟨u, List.mem_range.mpr hu, by rw [htg, hunit]; rfl⟩
  exact hostCmd_answers ht ((if_pos hl).trans ((if_neg (by rw [h]; decide)).trans (if_pos hany)))

variable (hgood : ∀ u < 8, tg.getLsbD (8 + u) = true → badUnit s (cfg s) u = false)
include hgood

theorem exec_arm_now (h : armState s tg none = false) :
    exec (.arm n tg none) s = .next (answered s (armTargets tg s) n 0x0200 stOK
      (stampBytes (armStamp s tg (s.cnt.smp / 4000 + 1) (now s)))) :=
  hostCmd_replies ht ((if_pos hl).trans ((if_neg (by rw [h]; decide)).trans (if_neg (noneBad hgood))))

theorem exec_arm_later {st : Stamp} (h : armState s tg (some st) = false) :
    exec (.arm n tg (some st)) s = .next (answered s { s with arms := s.arms ++ [(tg, st)] } n 0x0200 stOK
      (stampBytes (armStamp s tg (tickAtStamp s st) st))) :=
  hostCmd_replies ht ((if_pos hl).trans ((if_neg (by rw [h]; decide)).trans (if_neg (noneBad hgood))))

end

/-! ### The other rows -/

/-- The targets of DISARM_ALL are everything. -/
theorem TargetsAre.everything {b : Bool} {t : State} (h : TargetsAre 0xFF1F b t) :
    (∀ p : Fin 4, (lch t p).armed = b) ∧ t.cnv.direct = b ∧ ∀ u : Fin 8, (unitSt t u).armed = b := by
  obtain ⟨hports, hdirect, hunits⟩ := h
  exact ⟨fun p => hports p (by revert p; decide), hdirect (by decide), fun u => hunits u (by revert u; decide)⟩

theorem answered_arms (s u : State) (n op st : Nat) (l : List Byte) : (answered s u n op st l).arms = u.arms := by
  rw [answered, restored_arms, answer_arms]

theorem exec_disarm {s : State} {n : Nat} {tg : BitVec 16} (ht : HostTurn s n 0x0201 12 false) (hl : s.slc.lease = some n) :
    exec (.disarm n tg) s = .next (answered s (disarmTargets tg s) n 0x0201 stOK (stampBytes (now s))) :=
  hostCmd_replies ht (if_pos hl)

theorem exec_disarmAll {s : State} {n : Nat} (ht : HostTurn s n 0x0202 16 false) :
    exec (.disarmAll n) s = .next (answered s (disarmTargets 0xFF1F s) n 0x0202 stOK (stampTqb s)) :=
  hostCmd_replies ht rfl

/-- The arms whose stamp has come. -/
def armsDue (s : State) : List (BitVec 16 × Stamp) := s.arms.filter fun a => decide (a.2 ≤ now s)

/-- The arms whose stamp has come wait no more. -/
def armsKept (s : State) : State := { s with arms := s.arms.filter fun a => decide (now s < a.2) }

theorem exec_armAtTime {s : State} (hb : s.boot ≠ .held) :
    exec .armAtTime s = .next (restored s (each (armsDue s) (fun a s => armTargets a.1 s) (armsKept s))) := by
  change execArmAtTime s = _
  exact run_eq_restored hb

/-! ### HALT_N -/

theorem haltStreams_halts {s : State} {n : Nat} (h : cfgB s (streamAt n) 7 = false) : streamHalted (haltStreams s) n = true := by
  have hkeep : n ∉ (exemptStreams s).filter fun n => !streamHalted s n := fun hn => by
    have hexempt := (List.mem_filter.mp (List.mem_filter.mp hn).1).2
    rw [h] at hexempt
    exact Bool.false_ne_true hexempt
  have hall : (haltStreams s).spt.haltAll = true := by simp [haltStreams, noteHalt]
  have hex : (haltStreams s).spt.haltEx = (exemptStreams s).filter fun n => !streamHalted s n := by simp [haltStreams, noteHalt]
  rw [streamHalted, hall, hex, decide_eq_false hkeep]
  rfl

/-- The state in which HALT_N, fallen, has halted the streams. -/
def haltedByPin (s : State) : State := haltStreams { s with pins := { s.pins with haltN := false } }

theorem exec_haltNFall {s : State} (hb : s.boot ≠ .held) (hhigh : s.pins.haltN = true) :
    exec .haltNFall s = .next (restored s (raise 0xC0040 6 (disarmTargets 0xFF1F (haltedByPin s)))) := by
  change execHaltNFall s = _
  exact run_of_eq hb (if_pos hhigh)

theorem haltN_of_owned {s t : State} (h : owned t = owned s) : t.pins.haltN = s.pins.haltN := (congrArg Owned.haltN h :)

theorem haltN_fallen (s : State) : (disarmTargets 0xFF1F (haltedByPin s)).pins.haltN = false := by
  rw [haltN_of_owned (owned_disarmTargets 0xFF1F (haltedByPin s)), haltedByPin, haltN_of_owned (owned_haltStreams _)]

theorem exec_haltNRise {s : State} (hb : s.boot ≠ .held) (hlow : s.pins.haltN = false) :
    exec .haltNRise s = .next (restored s (raise 0xC0040 7 { s with pins := { s.pins with haltN := true } })) := by
  change execHaltNRise s = _
  exact run_of_eq hb (if_neg (by rw [hlow]; decide))

theorem hw_haltStreams {a : Nat} (h : a ≠ 0xB0040) (h' : a < 0xB0058 ∨ 0xB0060 < a) (s : State) :
    hw (haltStreams s) a = hw s a := by
  unfold haltStreams noteHalt setStamp
  rw [hw_raise_ne _ h, hw_setHw_ne _ (by omega), hw_setHw_ne _ (by omega), hw_setHw_ne _ (by omega)]
  rfl

/-- Settles O56, from `retargeted_armTargets` and `retargeted_disarmTargets`. -/
theorem arming : Obligations.Arming := by
  refine ⟨?refused, ?arm, ?atTime, ?disarm, ?disarmAll, ?acqState, ?fall, ?low, ?rise⟩
  case refused =>
    intro s n tg st ht hl
    exact ⟨exec_arm_state ht hl, exec_arm_capacity ht hl⟩
  case arm =>
    intro s n tg ht hl hgood
    refine ⟨fun h => ?_, fun st h => ?_⟩
    · have hset := retargeted_armTargets tg s
      obtain ⟨hports, hdirect, hunits⟩ := hset.targetsAre.answered s n 0x0200 stOK
        (stampBytes (armStamp s tg (s.cnt.smp / 4000 + 1) (now s)))
      exact ⟨_, exec_arm_now ht hl hgood h, Rearmed.replied hset ht, hports, hdirect, hunits,
        (answered_arms ..).trans (armTargets_arms tg s)⟩
    · exact ⟨_, exec_arm_later ht hl hgood h, replied_answered rfl, answered_arms .., answered_lch .., answered_weir ..,
        answered_cnv ..⟩
  case atTime =>
    intro s hb
    have harms := armAtTime_arms (armsDue s) (armsKept s)
    have hset (a : BitVec 16 × Stamp) (ha : a ∈ s.arms) (hdue : a.2 ≤ now s) :
        TargetsAre a.1 true (each (armsDue s) (fun a s => armTargets a.1 s) (armsKept s)) :=
      armAtTime_targets (List.mem_filter.mpr ⟨ha, decide_eq_true hdue⟩) _
    have hexec := exec_armAtTime hb
    generalize each (armsDue s) (fun a s => armTargets a.1 s) (armsKept s) = u at harms hset hexec
    refine ⟨_, hexec, harms, fun a ha hdue => ?_⟩
    obtain ⟨hports, hdirect, hunits⟩ := hset a ha hdue
    exact ⟨hports, hunits, hdirect⟩
  case disarm =>
    intro s n tg ht hl
    have hset := retargeted_disarmTargets tg s
    obtain ⟨hports, hdirect, hunits⟩ := hset.targetsAre.answered s n 0x0201 stOK (stampBytes (now s))
    refine ⟨_, exec_disarm ht hl, Rearmed.replied hset ht, hports, hdirect, hunits, fun a ha => ?_⟩
    rw [answered_arms] at ha
    exact disarmTargets_frees ha
  case disarmAll =>
    intro s n ht
    have hset := retargeted_disarmTargets 0xFF1F s
    obtain ⟨hports, hdirect, hunits⟩ := (hset.targetsAre.answered s n 0x0202 stOK (stampTqb s)).everything
    refine ⟨_, exec_disarmAll ht, Rearmed.replied hset ht, hports, hdirect, hunits, fun a ha => ?_⟩
    rw [answered_arms] at ha
    exact disarmTargets_frees ha
  case acqState =>
    intro s n ht
    exact hostCmd_answers ht rfl
  case fall =>
    intro s hb hhigh
    have hset := retargeted_disarmTargets 0xFF1F (haltedByPin s)
    have hpin := haltN_fallen s
    have hexec := exec_haltNFall hb hhigh
    generalize disarmTargets 0xFF1F (haltedByPin s) = u at hset hpin hexec
    have hraised : TargetsAre 0xFF1F false (raise 0xC0040 6 u) :=
      hset.targetsAre.congr (raise_lch ..) (raise_cnv ..) (raise_weir ..)
    obtain ⟨hports, hdirect, hunits⟩ := hraised.everything
    refine ⟨_, hexec, ?_, fun n _ hn => ?_, hports, hdirect, hunits, ?_⟩
    · rw [restored_pins, raise_pins, hpin]
    · have hhalt : streamHalted (haltedByPin s) n = true := haltStreams_halts hn
      rw [← Rearmed.halted hset n] at hhalt
      unfold streamHalted at *
      rw [restored_spt, raise_haltAll, raise_haltEx, hhalt]
    · have hword : hw u 0xC0040 = hw s 0xC0040 := (Rearmed.aon hset).trans (hw_haltStreams (by decide) (by decide) _)
      exact (raised_raise u (by decide)).congr hword (hw_restored ..)
  case low =>
    intro s hlow
    exact run_of_same (if_neg (by rw [hlow]; decide))
  case rise =>
    intro s hb hlow
    refine ⟨_, exec_haltNRise hb hlow, ?_, ?_, ?_, ?_, ?_, ?_⟩
    · rw [restored_pins, raise_pins]
    · rw [restored_spt, raise_haltAll]
    · rw [restored_spt, raise_haltEx]
    · rw [restored_lch, raise_lch]
    · rw [restored_weir, raise_weir]
    · have hraised := raised_raise (a := 0xC0040) (e := 7) { s with pins := { s.pins with haltN := true } } (by decide)
      exact hraised.congr rfl (hw_restored ..)

end Sys2Proof.Machine
end
